-- ==== Sys2Proof/Word.lean ====
section
/-! DEFINITION. Words, bytes, bit fields and sparse maps: the plain data the machine is made of. -/

namespace Sys2Proof

/-- A register of R5: 64 bits. -/
abbrev Word := BitVec 64

/-- A byte of memory (R4). -/
abbrev Byte := BitVec 8

/-- A 512-bit sector of memory is addressed by its number; a sparse map pairs numbers with values. -/
abbrev SMap (α : Type) := List (Nat × α)

namespace SMap

variable {α : Type}

/-- The value at a key; `d` is what an unlisted key reads as. -/
def get (d : α) : SMap α → Nat → α
  | [], _ => d
  | (a, v) :: m, k => if a = k then v else get d m k

/-- Every entry with the key removed. -/
def erase : SMap α → Nat → SMap α
  | [], _ => []
  | (a, v) :: m, k => if a = k then erase m k else (a, v) :: erase m k

/-- An entry put in key order. -/
def insert : SMap α → Nat → α → SMap α
  | [], k, v => [(k, v)]
  | (a, w) :: m, k, v =>
    if k < a then (k, v) :: (a, w) :: m
    else if a = k then (k, v) :: m
    else (a, w) :: insert m k v

/-- Write one key, keeping the canonical form: a value equal to the default is not listed. -/
def set [DecidableEq α] (d : α) (m : SMap α) (k : Nat) (v : α) : SMap α :=
  if v = d then erase m k else insert m k v

/-- Change the value at one key. -/
def update [DecidableEq α] (d : α) (m : SMap α) (k : Nat) (f : α → α) : SMap α :=
  set d m k (f (get d m k))

/-- Keys strictly rising. -/
def sorted : SMap α → Bool
  | [] => true
  | [_] => true
  | (a, _) :: (b, w) :: m => decide (a < b) && sorted ((b, w) :: m)

/-- The canonical form: keys strictly rising, no entry equal to the default. -/
def wf [DecidableEq α] (d : α) (m : SMap α) : Bool :=
  sorted m && m.all (fun e => decide (e.2 ≠ d))

/-- Every entry whose key satisfies the test removed. -/
def dropKeys (m : SMap α) (p : Nat → Bool) : SMap α :=
  m.filter (fun e => !p e.1)

end SMap

/-- Bits [hi:lo] of a number (R4: bit 0 is the least significant). -/
def bitsOf (w hi lo : Nat) : Nat := (w / 2 ^ lo) % 2 ^ (hi + 1 - lo)

/-- One bit of a number. -/
def bitAt (w i : Nat) : Bool := decide ((w / 2 ^ i) % 2 = 1)

/-- The number with bits [hi:lo] replaced by `v`. -/
def putBits (w hi lo v : Nat) : Nat :=
  w % 2 ^ lo + (v % 2 ^ (hi + 1 - lo)) * 2 ^ lo + (w / 2 ^ (hi + 1)) * 2 ^ (hi + 1)

/-- The mask with ones at bits [hi:lo] of a word. -/
def maskW (hi lo : Nat) : Word := BitVec.ofNat 64 ((2 ^ (hi + 1 - lo) - 1) * 2 ^ lo)

/-- A two's-complement reading of an n-bit number. -/
def toSigned (n v : Nat) : Int :=
  let m := v % 2 ^ n
  if m < 2 ^ (n - 1) then (m : Int) else (m : Int) - (2 ^ n : Nat)

/-- The n-bit two's-complement pattern of an integer. -/
def ofSigned (n : Nat) (i : Int) : Nat := (i % ((2 ^ n : Nat) : Int)).toNat

/-- A bit as a number. -/
def b2n (b : Bool) : Nat := if b then 1 else 0

/-- Addition that stops at the largest n-bit value. -/
def satAdd (n a b : Nat) : Nat := min (a + b) (2 ^ n - 1)

/-- How many bits of the first n are set. -/
def popCount (n w : Nat) : Nat := (List.range n).countP (bitAt w)

/-- The lowest set bit of the first n, n if none is set. -/
def lowestBit (n w : Nat) : Nat := ((List.range n).find? (bitAt w)).getD n

/-- The numbers below n whose bit is set in w, ascending. -/
def setBitsOf (n w : Nat) : List Nat := (List.range n).filter (bitAt w)

/-- A word with one bit set. -/
def setBitN (w i : Nat) : Nat := if bitAt w i then w else w + 2 ^ i

/-- A word with one bit clear. -/
def clearBitN (w i : Nat) : Nat := if bitAt w i then w - 2 ^ i else w

/-- Bytes, lowest first, as a number (R4: little-endian). -/
def leNat : List Nat → Nat
  | [] => 0
  | b :: bs => b % 256 + 256 * leNat bs

/-- The n low bytes of a number, lowest first. -/
def natLe : Nat → Nat → List Nat
  | 0, _ => []
  | n + 1, v => v % 256 :: natLe n (v / 256)

/-- A list cut into pieces of k (k > 0), the last perhaps shorter; `n` pieces at most. -/
def chunks {α : Type} (k : Nat) : Nat → List α → List (List α)
  | 0, _ => []
  | n + 1, xs => xs.take k :: chunks k n (xs.drop k)

/-- An element of a list, `d` beyond its end. -/
def nth {α : Type} (d : α) (xs : List α) (i : Nat) : α := xs.getD i d

/-- A list with element i replaced. -/
def setNth {α : Type} (xs : List α) (i : Nat) (v : α) : List α := xs.set i v

/-- Fold a state over the numbers 0 to n − 1 in ascending order. -/
def iter {σ : Type} (n : Nat) (s : σ) (f : Nat → σ → σ) : σ :=
  (List.range n).foldl (fun t i => f i t) s

end Sys2Proof
end

