-- ==== Sys2Proof/Syntax.lean ====
section
/-! DEFINITION. The commands of the part: every row of spec/opcode_table.json, with the operands that say what the
outside world did or measured. -/

namespace Sys2Proof

/-- A pair index (R3). -/
abbrev Pair := Fin 64
/-- A hive index (R3). -/
abbrev Hive := Fin 4
/-- A link port, numbered as R290 numbers them. -/
abbrev Port := Fin 9
/-- A reed of a pair (R3). -/
abbrev Reed := Fin 4
/-- A Triras packet: the header fields of R294 and the payload bytes. -/
structure Packet where
  ptype : Nat := 0
  dst : Nat := 0
  src : Nat := 0
  pair : Nat := 0
  rsem : Nat := 0
  rsig : Bool := false
  cls : Nat := 0
  vc : Bool := false
  age : Nat := 0
  hops : Nat := 0
  dir : Nat := 0
  rev : Nat := 0
  tag : Nat := 0
  generation : Nat := 0
  addr : Nat := 0
  data : List Nat := []
  poison : Nat := 0
  /-- The request a message belongs to, the local ranges (address, length) its payload fills or is read from, and the
  fields of a message for which the spec gives no bits: the model's own, the spec leaves their encoding open. -/
  req : Nat := 0
  pieces : List (Nat × Nat) := []
  aux : List Nat := []
  /-- Its number among the packets of a message of more than 4,096 bytes, and how many they are: the model's own, too. -/
  part : Nat := 0
  parts : Nat := 1
  deriving DecidableEq, Repr

/-- What a memory access met (R217–R223): nothing, a corrected error, an uncorrectable one, a far transfer that was retried, with
more than four retries where it failed, an uncorrectable word of the zero map, with the granules it covers, two copies of a
near sector's poison flag that disagree, or an uncorrectable error at an offset of an always-on SRAM (R369). -/
inductive MemErr where
  | none
  | corrected
  | uncorrectable
  | retried (n : Nat)
  | zeroMap (granules : List Nat)
  | flagSplit
  | alwaysOn (offset : Nat)
  deriving DecidableEq, Repr

/-- A storage error that the array meets (R77): corrected in passing, or uncorrectable in an accumulator (bank, row, column),
in n elements of a staging tile from k on (tile: buffer × 3 + half), in a token of a reed's held operand, or in index k of the
turn store's block. -/
inductive ArrayErr where
  | corrected
  | accumulator (bank row col : Nat)
  | staging (tile k n : Nat)
  | held (reed token : Nat)
  | turn (k : Nat)
  deriving DecidableEq, Repr

/-- A storage error of a queue entry or ring slot that is read (R147): corrected, uncorrectable in its block, or in its
header. -/
inductive EntryErr where
  | corrected
  | block
  | header
  deriving DecidableEq, Repr

/-- What the array meets while it works: the reed-slots it loses by cause (R75, R418), those of the spills and reloads of
R68 and of the stagger apart, and the storage errors. -/
structure ArrayMet where
  /-- An empty reed queue. -/
  queue : Nat := 0
  /-- A comb bank conflict (R58, R59). -/
  comb : Nat := 0
  /-- A staging or held-store load. -/
  load : Nat := 0
  /-- A CLOSED or DRAINING slice, a full drain queue, a mode change. -/
  drain : Nat := 0
  /-- Comb arbitration of a spill or reload, beyond its 32 cycles. -/
  spill : Nat := 0
  errs : List ArrayErr := []
  /-- Of the entry that the command takes from a reed's queue. -/
  entry : List EntryErr := []
  deriving DecidableEq, Repr

/-- What a TLP of the host carries beside its access (R330, R331): whether it comes by BAR0 instead of a window, its EP bit, whether
its ECRC is wrong. -/
structure Tlp where
  bar0 : Bool := false
  ep : Bool := false
  ecrcBad : Bool := false
  deriving DecidableEq, Repr

/-- A far channel of the part (R3). -/
abbrev Chan := Fin 32


/-- The commands: one constructor per row of the operation and event table. -/
inductive Instr where
  /-- REGISTER_WRITE (R13). A write to a register that has no row of its own sets its fields under their access codes and write rules. -/
  | registerWrite (off : Nat) (size : Nat) (v : Nat) (requester : Nat)
  /-- PWR_OK_FALL (R433). A filtered fall of PWR_OK stops the clocks, parks the balls and puts the part into full device reset. -/
  | pwrOkFall
  /-- PWR_OK_RISE (R433). A filtered rise of PWR_OK with RESET_N already high schedules the release 1 ms later. -/
  | pwrOkRise
  /-- RESET_N_ASSERT (R434). A filtered low on RESET_N starts a full device reset of at least 10 µs. -/
  | resetNAssert
  /-- RESET_N_RELEASE (R408). Release of RESET_N starts the boot ROM, samples the straps and reads the fuses. -/
  | resetNRelease (queen : Bool) (stopSel : Nat) (braked : Bool)
  /-- BRAKE_ASSERTED (R362). A filtered assertion of PWR_BRAKE_N drops duty to the brake duty, suspends hum and is logged. -/
  | brakeAsserted
  /-- BRAKE_RELEASE (R362). A filtered release of PWR_BRAKE_N logs the duration and starts the duty ramp back up. -/
  | brakeRelease
  /-- BRAKE_RELEASE_STEP (R362). Every release_us the duty rises by 1/8 until the current limit's duty is reached and hum resumes. -/
  | brakeReleaseStep
  /-- REFCLK_CORE_LOSS (R436). Loss of the core reference raises a device fault that only a full device reset clears. -/
  | refclkCoreLoss
  /-- REFCLK_LINK_LOSS (R436). Loss of the link reference makes every Triras port lose lock and fail. -/
  | refclkLinkLoss
  /-- SENSOR_SAMPLE (R359). Every 10 µs each temperature sensor is sampled and T_hot is updated. -/
  | sensorSample (vals : List (Option Nat))
  /-- MASTER_TICK_EMIT (R50). In TIMER mode the tick master emits a tick ordered set each period, with the next tick_number. -/
  | masterTickEmit
  /-- TICK_IN_EDGE (R30). A rising TICK_IN edge on a PIN master is accepted within its window and emits a tick, or is rejected and counted. -/
  | tickInEdge (inWindow : Bool)
  /-- TICK_IN_MISS (R30). The close of a TICK_IN window with no accepted edge counts a miss and emits a hold tick. -/
  | tickInMiss
  /-- TICK_RECEIVE (R33). A tick ordered set arriving on a torus port is CRC-checked, acted on if first valid from the parent port, and duplicates are dropped. -/
  | tickReceive (n : Port) (body : Nat) (inside : Nat)
  /-- TICK_REROUTE (R33). When no parent-port copy has arrived by the due time, the part acts on the copy with the smallest acc_delay and counts a reroute. -/
  | tickReroute (inside : Nat)
  /-- LOCAL_TICK_FIRE (R34). One tick budget after emission the local tick fires and, for a boundary, the boundary actions run in order. -/
  | localTickFire
  /-- GUARD_POINT (R39). At the guard point the breath unit judges whether every running pair has ended its slice. -/
  | guardPoint
  /-- STRETCH_RECEIVE (R40). A received STRETCH marks its target tick as a hold and is forwarded like a tick. -/
  | stretchReceive (n : Port) (body : Nat)
  /-- TICK_LOST (R45). With no valid tick within 1 % of a period after the expected time the part enters TICK_LOST and holds its pairs. -/
  | tickLost
  /-- BREATH_RESUME (R49). BREATH_CMD.resume moves the part from TICK_LOST or DESYNC to ARMED to accept a resync tick. -/
  | breathResume
  /-- BREATH_ARM (R50). BREATH_CMD.arm moves the part from IDLE to ARMED and starts emission on a master. -/
  | breathArm
  /-- BREATH_CEASE (R47). BREATH_CMD.cease makes the tick master end its stream with a lost ordered set. -/
  | breathCease
  /-- TICK_SOURCE_WRITE (R28). A write of tick_source selects FLOOD, TIMER or PIN and can name the part master for a first or resync tick. -/
  | tickSourceWrite (v : Nat)
  /-- SLACK_RECORD (R51). At the end of every 256 schedule breaths BREATH_SLACK records the smallest margin and its pair. -/
  | slackRecord (margin : Nat) (p : Pair)
  /-- ECHO_SEND (R34). Once per breath each port sends an ECHO ordered set to measure its hop delay. -/
  | echoSend (n : Port) (now : Nat)
  /-- ECHO_RECEIVE (R293). A received ECHO is replied to, or its reply yields a new hop delay and, on SP, the partner ID. -/
  | echoReceive (n : Port) (body : Nat) (now : Nat) (turnaround : Nat)
  /-- START_NEW (R158). SCORE_CMD.start_new checks and starts the selected pairs as a new run, sending them to PENDING. -/
  | startNew
  /-- START_JOIN (R158). SCORE_CMD.start_join checks and starts the selected pairs to rejoin at the current schedule breath. -/
  | startJoin
  /-- SCORE_START (R158). At the start tick the PENDING pairs enter RUNNING and issue their first slice. -/
  | scoreStart
  /-- SEQ_PAUSE (R159). SEQ_CMD.pause holds a pair in PAUSED at its slice end. -/
  | seqPause (p : Pair)
  /-- SEQ_RESUME (R159). SEQ_CMD.resume moves a PAUSED pair to WAITING for the next boundary tick. -/
  | seqResume (p : Pair)
  /-- SEQ_CLEAR (R159). SEQ_CMD.clear returns a quiet FAULTED pair to IDLE and clears SEQ_FAULT. -/
  | seqClear (p : Pair)
  /-- SCORE_REFILL (R155). A taken branch outside the buffer window refills the instruction buffer and resumes issue within 400 ns. -/
  | scoreRefill (p : Pair)
  /-- COPY_SHAPE (R164). A SHAPE copy descriptor is validated at issue and queued in the copy engine. -/
  | copyShape (p : Pair)
  /-- COPY_GATHER (R169). A GATHER descriptor repacks listed blocks of a matrix into packed queue layout. -/
  | copyGather (p : Pair)
  /-- COPY_SCATTER (R169). A SCATTER descriptor unpacks packed blocks into a matrix following a block list. -/
  | copyScatter (p : Pair)
  /-- COPY_START (R167). A queued copy starts once a slot is free and no earlier overlapping copy is unfinished. -/
  | copyStart (p : Pair)
  /-- COPY_DONE (R166). A copy that has written its last unit, or been acknowledged remotely, increments its semaphore. -/
  | copyDone (p : Pair) (k : Nat)
  /-- ACC (R187). ACC issues one full-mode accumulation of n steps into a bank. -/
  | acc (p : Pair)
  /-- ACC_DONE (R60). The last step of an ACC lands and its semaphore is incremented. -/
  | accDone (p : Pair) (met : ArrayMet)
  /-- SPLIT (R188). SPLIT runs split mode with rows from the reed queues or a staging buffer. -/
  | split (p : Pair)
  /-- SPLIT_DONE (R188). When every reed has consumed its END and its drains have written, the SPLIT's semaphore is incremented. -/
  | splitDone (p : Pair) (met : ArrayMet)
  /-- BPROD (R189). BPROD runs block-product mode on TASK entries. -/
  | bprod (p : Pair)
  /-- BPROD_DONE (R189). When every reed has consumed END and its last fold landed, the BPROD's semaphore is incremented. -/
  | bprodDone (p : Pair) (met : ArrayMet)
  /-- DRAIN (R190). DRAIN queues slices or a block slot for the drain port. -/
  | drain (p : Pair)
  /-- DRAIN_DONE (R63). A drain writes its last word to comb and increments its semaphore. -/
  | drainDone (p : Pair) (met : ArrayMet)
  /-- STAGE (R191). STAGE fills a staging buffer or half from comb or through the mesh port. -/
  | stage (p : Pair)
  /-- STAGE_DONE (R191). A staging fill completes and its semaphore is incremented. -/
  | stageDone (p : Pair) (remote : List Nat) (remoteBad : Bool)
  /-- MODE_CHANGE (R192). Once in-flight steps, folds and drains land, the array changes mode and keeps or clears the banks. -/
  | modeChange (p : Pair) (met : ArrayMet)
  /-- FOLD_DONE (R72). The fold unit reduces a task's 32 group partials into its block slot. -/
  | foldDone (p : Pair) (met : ArrayMet)
  /-- REED_BLOCK (R67). A reed takes a BLOCK entry from its queue and steps it, closing the slice if last is set. -/
  | reedBlock (p : Pair) (r : Reed) (met : ArrayMet)
  /-- REED_CLOSE (R130). A reed takes a CLOSE entry and closes and drains the named block-column. -/
  | reedClose (p : Pair) (r : Reed) (met : ArrayMet)
  /-- REED_END (R130). A reed takes an END entry and closes and drains every block-column of the walk still open or spilled. -/
  | reedEnd (p : Pair) (r : Reed) (met : ArrayMet)
  /-- REED_TASK (R71). A reed takes a TASK entry and runs one block task of block-product mode. -/
  | reedTask (p : Pair) (r : Reed) (remote : List Nat) (remoteBad : Bool) (met : ArrayMet)
  /-- WALK (R126). A FORAGE WALK descriptor is validated and queued in the feed engine. -/
  | walk (p : Pair)
  /-- FORAGER_ENTRY_SEND (R129). The feed engine sends the next walk entry to its reed queue or to the spill ring as room allows. -/
  | foragerEntrySend (p : Pair) (stalled : Nat)
  /-- RING_REFILL (R134). When a reed's queue has room the forager refills it from the ring, oldest entry first. -/
  | ringRefill (p : Pair) (r : Reed) (errs : List EntryErr)
  /-- WALK_DONE (R183). A walk has sent its last END and increments its semaphore. -/
  | walkDone (p : Pair)
  /-- MERGE (R140). MERGE forms the union, intersection or difference of two sorted block lists. -/
  | merge (p : Pair)
  /-- PREFIX (R141). PREFIX writes the exclusive prefix sums of n values and their total. -/
  | prefixSum (p : Pair)
  /-- SORT (R142). SORT groups records by destination in input order and cuts each to capacity. -/
  | sort (p : Pair)
  /-- PACK (R143). PACK gathers rows of ragged contexts into a dense buffer, skipping masked positions. -/
  | pack (p : Pair)
  /-- UNPACK (R143). UNPACK writes packed rows back to their context positions. -/
  | unpack (p : Pair)
  /-- COMBINE (R144). COMBINE adds returned expert rows into destination rows in near memory in list order. -/
  | combine (p : Pair)
  /-- ENCODE (R145). ENCODE writes a STILE operand from a dense matrix and a mask. -/
  | encode (p : Pair)
  /-- LIST_FUNCTION_DONE (R137). A list function ends, writes its result block and signals its semaphore. -/
  | listFunctionDone (p : Pair)
  /-- VEC_ADD (R195). VEC ADD adds a and b element-wise. -/
  | vecAdd (p : Pair)
  /-- VEC_SUB (R195). VEC SUB subtracts b from a element-wise. -/
  | vecSub (p : Pair)
  /-- VEC_MUL (R195). VEC MUL multiplies a and b element-wise. -/
  | vecMul (p : Pair)
  /-- VEC_FMA (R195). VEC FMA forms a × b + c with one rounding. -/
  | vecFma (p : Pair)
  /-- VEC_MIN (R195). VEC MIN takes the element-wise minimum. -/
  | vecMin (p : Pair)
  /-- VEC_MAX (R195). VEC MAX takes the element-wise maximum. -/
  | vecMax (p : Pair)
  /-- VEC_CVT (R89). VEC CVT converts a into the output format with the named rounding and saturation. -/
  | vecCvt (p : Pair)
  /-- VEC_AXPY (R195). VEC AXPY forms imm × a + b with one rounding. -/
  | vecAxpy (p : Pair)
  /-- VEC_EXP (R92). VEC EXP computes the correctly rounded exponential. -/
  | vecExp (p : Pair)
  /-- VEC_RECIP (R92). VEC RECIP computes the correctly rounded reciprocal. -/
  | vecRecip (p : Pair)
  /-- VEC_RSQRT (R92). VEC RSQRT computes the correctly rounded reciprocal square root. -/
  | vecRsqrt (p : Pair)
  /-- VEC_SUM (R93). VEC SUM reduces a to one FP32 value in the fixed lane-and-tree order. -/
  | vecSum (p : Pair)
  /-- VEC_DOT (R93). VEC DOT forms a dot product by chained fused multiply-adds in the fixed order. -/
  | vecDot (p : Pair)
  /-- VEC_SUMSQ64 (R92). VEC SUMSQ64 sums exact FP64 squares of FP32 values. -/
  | vecSumsq64 (p : Pair)
  /-- VEC_RMAX (R195). VEC RMAX writes each row's maximum. -/
  | vecRmax (p : Pair)
  /-- VEC_RSUM (R195). VEC RSUM writes each row's sum in the fixed order. -/
  | vecRsum (p : Pair)
  /-- VEC_SOFTMAX (R196). VEC SOFTMAX computes row softmax, optionally writing or reading the row statistics. -/
  | vecSoftmax (p : Pair)
  /-- VEC_SELECT (R197). VEC SELECT chooses the top k biased values per row and writes indices and unbiased scores. -/
  | vecSelect (p : Pair)
  /-- VEC_QUANT (R106). VEC QUANT produces codes, scales and zero points from GIVEN, FIT or HIST scales. -/
  | vecQuant (p : Pair)
  /-- VEC_DEQUANT (R112). VEC DEQUANT turns codes back into values with scale and zero point. -/
  | vecDequant (p : Pair)
  /-- VEC_DQACC (R112). VEC DQACC scales an accumulator tile by column-side and row-side scales. -/
  | vecDqacc (p : Pair)
  /-- VEC_HSTORE (R99). VEC HSTORE writes a histogram set's 64 counts to comb and may clear the set. -/
  | vecHstore (p : Pair)
  /-- VEC_GENC (R267). VEC GENC encodes a gradient plus error memory into a wire format and updates the residual. -/
  | vecGenc (p : Pair)
  /-- VEC_GDEC (R199). VEC GDEC decodes a wire contribution into an FP32 sum. -/
  | vecGdec (p : Pair)
  /-- VEC_OPTW (R284). VEC OPTW applies the clip and optimizer rule to parameters and folds the digest. -/
  | vecOptw (p : Pair)
  /-- VEC_DIGEST (R285). VEC DIGEST folds a tensor into a digest state. -/
  | vecDigest (p : Pair)
  /-- VEC_DONE (R194). A VEC instruction writes its last result and increments its semaphore. -/
  | vecDone (p : Pair)
  /-- WAIT (R200). SYNC WAIT stalls until a semaphore reaches n and then subtracts n. -/
  | wait (p : Pair)
  /-- WAIT_RELEASE (R154). A waiting semaphore reaches n, is decremented and the sequencer resumes. -/
  | waitRelease (p : Pair)
  /-- SIGNAL (R200). SYNC SIGNAL adds 1 to a semaphore of any pair of the part. -/
  | signal (p : Pair)
  /-- QUIET (R200). SYNC QUIET waits until the pair is quiet. -/
  | quiet (p : Pair)
  /-- QUIET_RELEASE (R156). The pair becomes quiet and a waiting QUIET or quiet SLICE completes. -/
  | quietRelease (p : Pair)
  /-- CTL_NOP (R201). CTL NOP does nothing. -/
  | ctlNop (p : Pair)
  /-- LI (R201). CTL LI loads an immediate into a scalar. -/
  | li (p : Pair)
  /-- CTL_ADD (R201). CTL ADD adds two scalars. -/
  | ctlAdd (p : Pair)
  /-- ADDI (R201). CTL ADDI adds an immediate to a scalar. -/
  | addi (p : Pair)
  /-- CTL_SUB (R201). CTL SUB subtracts two scalars. -/
  | ctlSub (p : Pair)
  /-- MULI (R201). CTL MULI multiplies a scalar by an immediate. -/
  | muli (p : Pair)
  /-- CTL_AND (R201). CTL AND ands two scalars. -/
  | ctlAnd (p : Pair)
  /-- CTL_OR (R201). CTL OR ors two scalars. -/
  | ctlOr (p : Pair)
  /-- CTL_XOR (R201). CTL XOR xors two scalars. -/
  | ctlXor (p : Pair)
  /-- SHL (R201). CTL SHL shifts a scalar left. -/
  | shl (p : Pair)
  /-- SHR (R201). CTL SHR shifts a scalar right logically. -/
  | shr (p : Pair)
  /-- SAR (R201). CTL SAR shifts a scalar right arithmetically. -/
  | sar (p : Pair)
  /-- BR (R201). CTL BR branches when its condition holds for two scalars. -/
  | br (p : Pair)
  /-- LOOP (R201). CTL LOOP decrements a scalar and branches while it is nonzero. -/
  | loop (p : Pair)
  /-- GET (R202). CTL GET loads a selected system value into a scalar. -/
  | get (p : Pair)
  /-- SLICE (R156). CTL SLICE ends the slice and the pair waits for the next boundary tick. -/
  | slice (p : Pair)
  /-- END (R156). CTL END ends the score and its last slice, sending the pair to DONE. -/
  | scoreEnd (p : Pair)
  /-- HUM (R203). HUM waits on a semaphore while idle array cycles run hum. -/
  | hum (p : Pair)
  /-- CHKMUL (R203). CHKMUL runs a random-operand product in a free bank and writes its signature. -/
  | chkmul (p : Pair)
  /-- CHKMUL_DONE (R203). A CHKMUL writes its signature and signals completion. -/
  | chkmulDone (p : Pair) (met : ArrayMet)
  /-- CHKCMP (R203). CHKCMP compares two signatures and reports a mismatch. -/
  | chkcmp (p : Pair)
  /-- CHECK_UNIT_DONE (R388). A hum check unit finishes and its signature is cross-checked against its partner or the library. -/
  | checkUnitDone (p : Pair) (err : Nat)
  /-- ALLREDUCE (R311). COLL ALLREDUCE reduces FP32 segments along the ring chain and distributes the result. -/
  | allreduce (p : Pair)
  /-- REDSCAT (R311). COLL REDSCAT reduces along the chain and delivers each member its range. -/
  | redscat (p : Pair)
  /-- ALLGATHER (R312). COLL ALLGATHER writes each member's bytes into every member's destination. -/
  | allgather (p : Pair)
  /-- BCAST (R312). COLL BCAST writes the root's bytes at every member. -/
  | bcast (p : Pair)
  /-- ALLTOALL_POST (R238). ALLTOALL POST reserves the receive side for a future dispatch. -/
  | alltoallPost (p : Pair)
  /-- ALLTOALL_DISPATCH (R241). ALLTOALL DISPATCH sends kept rows and count vectors and opens a batch entry. -/
  | alltoallDispatch (p : Pair)
  /-- ALLTOALL_RETURN (R243). ALLTOALL RETURN sends expert outputs of valid slots back to their sources. -/
  | alltoallReturn (p : Pair)
  /-- ALLTOALL_CANCEL (R242). ALLTOALL CANCEL closes a batch at once without a return list. -/
  | alltoallCancel (p : Pair)
  /-- PERMUTE (R316). COLL PERMUTE sends table entries to staging at their destination members. -/
  | permute (p : Pair)
  /-- GEXCH_POST (R273). GEXCH POST opens an owner's receive side for one generation. -/
  | gexchPost (p : Pair)
  /-- GEXCH_SEND (R278). GEXCH SEND transmits this member's contribution to each owner of a non-empty range. -/
  | gexchSend (p : Pair)
  /-- NORM64 (R280). COLL NORM64 sends the part's FP64 sum of squares toward the scope root. -/
  | norm64 (p : Pair)
  /-- DIGCMP (R393). COLL DIGCMP sends this member's digest vector to every member. -/
  | digcmp (p : Pair)
  /-- MEMORY_READ (R211). A read of a comb word or near or far sector is served, corrected or marked poisoned. -/
  | memoryRead (a : Nat) (requester : Nat) (e : MemErr)
  /-- MEMORY_WRITE (R211). A write to a comb word or near or far sector is applied in arrival order, carrying poison. -/
  | memoryWrite (a : Nat) (requester : Nat) (bs : List Nat) (bad : Bool) (e : MemErr)
  /-- CHANNEL_LOCK_LOSS (R222). A channel that loses clock lock for 10 µs fails. -/
  | channelLockLoss (c : Chan)
  /-- EYE_TRACK (R214). Every 1 µs shadow samplers adjust each pin's thresholds and phase. -/
  | eyeTrack (c : Chan) (vals : List Nat)
  /-- CHANNEL_IDLE_READ (R214). A channel idle for 10 µs reads one sector to keep the loop fed. -/
  | channelIdleRead (c : Chan) (e : MemErr)
  /-- CHANNEL_RETRAIN (R215). A due retrain takes a channel out of service for up to 2 µs, at a guard point if retrain_guard is set. -/
  | channelRetrain (c : Chan)
  /-- CHANNEL_RETRAIN_DONE (R215). A channel retrain ends and the channel returns to service. -/
  | channelRetrainDone (c : Chan) (eye : Nat)
  /-- DEVICE_TEMP_READ (R213). Every 1 ms each GDDR7 device temperature is read and refresh adjusted. -/
  | deviceTempRead (c : Chan) (t0 : Nat) (t1 : Nat)
  /-- REFRESH (R216). A per-bank refresh is issued on a far channel. -/
  | refresh (c : Chan)
  /-- PATROL_SCRUB (R220). A scrub read corrects or marks one word or sector. -/
  | patrolScrub (a : Nat) (e : MemErr)
  /-- BACKGROUND_FILL (R223). The background fill zeroes the next unfilled granule. -/
  | backgroundFill (h : Hive) (j : Option Nat) (e : MemErr)
  /-- MEMORY_BRINGUP (R224). Driore starts stack self-test and channel initialisation and training. -/
  | memoryBringup
  /-- MEMORY_TRAIN_DONE (R224). Training ends, zero maps are cleared and memory enters service, or a failed channel holds its hive. -/
  | memoryTrainDone (failed : Nat) (vals : List (List Nat))
  /-- POISON_REC_CLEAR (R228). MEM_POISON_REC.clear clears the four poison counts. -/
  | poisonRecClear
  /-- BIAS_WINDOW_CLOSE (R231). A bias window closes and its totals are reduced over the scope. -/
  | biasWindowClose
  /-- BIAS_UPDATE (R232). At lag breaths after a window closes each router's biases move by gamma against the load. -/
  | biasUpdate
  /-- BIAS_SHADOW_APPLY (R233). Host writes to ROUTE_BIAS in the shadow apply at the next boundary tick. -/
  | biasShadowApply
  /-- ALLTOALL_ROW_RECEIVE (R240). A dispatched count vector or row is placed in its slot if the post is open and matches, or refused. -/
  | alltoallRowReceive (m : Packet)
  /-- ALLTOALL_RECEIVE_CLOSE (R240). A post closes when all members arrive or at its deadline and settles missing members. -/
  | alltoallReceiveClose (p : Pair) (tag : Nat)
  /-- DISPATCH_DONE (R241). Every member has acknowledged or refused a dispatch and its semaphore is incremented. -/
  | dispatchDone (p : Pair) (seq : Nat)
  /-- RETURN_ROW_RECEIVE (R243). A returned row is written to its batch slot if it matches, or discarded as stale. -/
  | returnRowReceive (m : Packet)
  /-- BATCH_CLOSE (R244). A batch closes when filled or at its deadline, writing the return list and incrementing ret_sem. -/
  | batchClose (p : Pair) (tag : Nat)
  /-- GEX_MESSAGE_RECEIVE (R275). A gradient message is accepted into its owner's slot if it matches, or refused. -/
  | gexMessageReceive (m : Packet)
  /-- GEX_DECODE (R276). The hub decodes the next member's slot into the sum buffer in ascending member order. -/
  | gexDecode (p : Pair) (tag : Nat)
  /-- GEX_POST_CLOSE (R277). A post closes early or at its deadline, divides, measures its sum of squares and sends the received-mask. -/
  | gexPostClose (p : Pair) (tag : Nat)
  /-- MASK_RECEIVE (R278). A sender receives an owner's received-mask and folds back a contribution that was not accepted. -/
  | maskReceive (m : Packet)
  /-- MASK_TIMEOUT (R278). A mask not arrived by its deadline is taken as set and mask_timeout is raised. -/
  | maskTimeout (p : Pair) (tag : Nat)
  /-- EXCLUDE_APPLY (R279). A GEX_EXCLUDE write takes effect at the next boundary tick before deadline closes. -/
  | excludeApply
  /-- NORM_REPORT_RECEIVE (R281). The scope root receives a part's NORM64 value. -/
  | normReportReceive (m : Packet)
  /-- NORM_TOTAL (R281). The root forms the total when all have reported or at the guard point, and broadcasts it. -/
  | normTotal (k : Nat) (guard : Bool)
  /-- NORM_TOTAL_RECEIVE (R282). A part receives the total, derives the clip factor and writes its output. -/
  | normTotalReceive (m : Packet)
  /-- NORM_TIMEOUT (R281). A part with no total by its deadline writes factor +0 with skip and incomplete set. -/
  | normTimeout (k : Nat)
  /-- DATA_FLIT_RECEIVE (R300). A DATA flit is accepted in sequence and its packets handled, or discarded with a nak. -/
  | dataFlitReceive (n : Port) (flit : List Nat) (corrected : Nat) (uncorrected : Bool) (inside : Nat) (now : Nat) (turnaround : Nat)
  /-- NAK_RECEIVE (R300). A nak makes the transmitter replay from ack + 1. -/
  | nakReceive (n : Port) (ack : Nat)
  /-- REPLAY_TIMEOUT (R300). Eight resends or 20 µs without acknowledgement set replay_fail and retrain the port. -/
  | replayTimeout (n : Port)
  /-- ADDRESS_RECEIVE (R325). An ADDRESS token is checked, adopted with coordinate derived and forwarded, or reported as a conflict. -/
  | addressReceive (n : Port) (body : Nat)
  /-- EQ_RECEIVE (R298). An EQ ordered set applies transmitter equaliser steps at a flit boundary. -/
  | eqReceive (n : Port) (kind : Nat) (body : Nat)
  /-- EQ_ADAPT (R298). Every 1 µs each receiving lane adapts its CTLE, FFE and DFE. -/
  | eqAdapt (n : Port) (k : Nat) (snr : Nat) (eye : Nat) (lock : Bool) (ask : Option Nat)
  /-- LANE_FAIL (R299). A lane with low SNR for 1 ms or lost lock for 10 µs fails and its port retrains. -/
  | laneFail (n : Port) (k : Nat)
  /-- RETRAIN_END (R301). A port retrain ends at x8, x4 or FAILED and unacknowledged flits are resent. -/
  | retrainEnd (n : Port) (healthy : Nat) (fec : Nat)
  /-- PORT_HANG (R302). A partner silent for hang_us sets hang and retrains the port. -/
  | portHang (n : Port)
  /-- RETRAIN (R301). PORT_CMD.retrain trains the port, trying x8 first. -/
  | retrain (n : Port)
  /-- PORT_DOWN (R303). PORT_CMD.down takes the port to OFF. -/
  | portDown (n : Port)
  /-- PACKET_FORWARD (R304). A packet for another part is routed in dimension order, reversed once if needed, or refused. -/
  | packetForward (n : Port) (spent : Nat) (m : Packet)
  /-- PUT_RECEIVE (R170). A PUT is validated by the holder, written and may increment a remote semaphore. -/
  | putReceive (m : Packet)
  /-- GET_REQ_RECEIVE (R170). A GET_REQ is validated by the holder and answered with data or a refusal. -/
  | getReqReceive (m : Packet)
  /-- GET_DATA_RECEIVE (R170). Returned get data is written locally and the last unit completes the copy. -/
  | getDataReceive (m : Packet)
  /-- ACK_RECEIVE (R170). An acknowledgement completes a put or message, or is discarded as stale after its timeout. -/
  | ackReceive (m : Packet)
  /-- REFUSE_RECEIVE (R294). A REFUSE fails the request with its reason. -/
  | refuseReceive (m : Packet)
  /-- REQUEST_TIMEOUT (R308). A request neither acknowledged nor refused within req_us fails. -/
  | requestTimeout (id : Nat)
  /-- EVENT_RECEIVE (R335). The queen writes a received event record into the host event ring or holds it. -/
  | eventReceive (m : Packet)
  /-- HOST_PACKET_RECEIVE (R332). A HOST packet performs a window or aperture access at the target part. -/
  | hostPacketReceive (m : Packet)
  /-- COLL_SEGMENT_RECEIVE (R311). A collective segment is combined with this member's data and sent on, or written. -/
  | collSegmentReceive (m : Packet)
  /-- COLL_CLOSE (R313). A collective completes or closes at its deadline with coll_incomplete set. -/
  | collClose (p : Pair) (k : Nat)
  /-- PERMUTE_DATA_RECEIVE (R316). A PERMUTE transfer is written to the destination's far staging area. -/
  | permuteDataReceive (m : Packet)
  /-- PERMUTE_READY_RECEIVE (R316). A member records READY from another member of the ring. -/
  | permuteReadyReceive (m : Packet)
  /-- PERMUTE_COMMIT (R316). At the deadline a member commits staged pieces to their destinations or aborts. -/
  | permuteCommit (p : Pair) (k : Nat)
  /-- PERMUTE_OUTCOME_RECEIVE (R316). A member seeing an outcome differing from its own sets perm_split. -/
  | permuteOutcomeReceive (m : Packet)
  /-- DIGCMP_VECTOR_RECEIVE (R393). A member receives another member's digest vector. -/
  | digcmpVectorReceive (m : Packet)
  /-- DIGCMP_CLOSE (R393). DIGCMP closes, finds majorities per range and writes the disagree masks. -/
  | digcmpClose (p : Pair) (k : Nat)
  /-- LINK_BRINGUP (R319). Driore sets port modes from the link plan and starts CEI-224G training. -/
  | linkBringup
  /-- TRAIN_FAIL (R319). A port without a completed training by 40 ms becomes FAILED with train_fail. -/
  | trainFail (n : Port)
  /-- SPUR_ROUTE_SWITCH (R305). One packet lifetime after learning the partner, packets for it switch to SP. -/
  | spurRouteSwitch
  /-- ENUM_START (R329). ENUM_CMD.start begins a new epoch and floods ADDRESS tokens. -/
  | enumStart
  /-- ENUM_DEMOTE (R321). ENUM_CMD.demote turns a queen into a standby part. -/
  | enumDemote
  /-- ENUM_PROMOTE (R329). ENUM_CMD.promote turns a standby part into a queen sending takeover copies. -/
  | enumPromote
  /-- JOIN_RECEIVE (R326). The queen enters a JOIN into its roster. -/
  | joinReceive (m : Packet)
  /-- CONFLICT_RECEIVE (R328). The queen records a conflict report. -/
  | conflictReceive (m : Packet)
  /-- EPOCH_CLOSE (R327). An epoch closes when the roster is full or the window ends, confirming or entering CONFLICT. -/
  | epochClose
  /-- KEEPALIVE (R327). Every 1 ms the queen repeats the confirm copy. -/
  | keepalive
  /-- ORPHAN (R329). A confirmed part with no keepalive for 10 ms enters ORPHAN. -/
  | orphan
  /-- FLR (R333). A function-level reset returns the HOST registers, MSI-X table and mailbox to reset values. -/
  | flr
  /-- PCIE_LINK_DOWN (R333). A hot reset or link down acts as FLR. -/
  | pcieLinkDown
  /-- HOST_WINDOW_ACCESS (R332). A BAR2 window access is carried to the named part's register space. -/
  | hostWindowAccess (n : Fin 8) (off : Nat) (size : Nat) (write : Bool) (v : Nat) (tag : Nat) (x : Tlp)
  /-- HOST_APERTURE_ACCESS (R332). A BAR4 aperture access is carried to the named part's memory. -/
  | hostApertureAccess (n : Fin 16) (off : Nat) (size : Nat) (write : Bool) (bytes : List Nat) (tag : Nat) (x : Tlp)
  /-- EVENT_INTERRUPT (R336). New event records raise MSI-X vector 1 at most once per coalesce_us. -/
  | eventInterrupt
  /-- IDENTIFY (R338). IDENTIFY returns the serial, role, IDs, enumeration state and boot lock. -/
  | identify
  /-- STOP_SWITCH (R406). STOP_SWITCH makes a stop switch pending for breath A, or cancels it. -/
  | stopSwitch
  /-- ATTEST_REPORT (R413). ATTEST REPORT returns a signed report over the measurements and the host nonce. -/
  | attestReport
  /-- ATTEST_CHAIN (R413). ATTEST CHAIN returns bytes of the certificate chain. -/
  | attestChain
  /-- FLASH_ERASE (R411). FLASH_WRITE ERASE starts erasing a 64 KiB block. -/
  | flashErase
  /-- FLASH_PROGRAM (R411). FLASH_WRITE PROGRAM starts programming flash pages. -/
  | flashProgram
  /-- FLASH_READ (R411). FLASH_WRITE READ returns flash data. -/
  | flashRead
  /-- FLASH_VERIFY (R411). FLASH_WRITE VERIFY starts running the image checks on the flash contents. -/
  | flashVerify
  /-- FLASH_STATUS (R411). FLASH_WRITE STATUS returns busy, failure and the last verify result. -/
  | flashStatus
  /-- FLASH_OP_DONE (R411). An erase, program or verify finishes and records its outcome. -/
  | flashOpDone (ok : Bool)
  /-- PATTERN_PUSH (R390). PATTERN_PUSH verifies a signed pattern package and schedules it to replace the library. -/
  | patternPush
  /-- PATTERN_LIBRARY_REPLACE (R390). An accepted pattern package replaces the library at the next boundary tick. -/
  | patternLibraryReplace
  /-- DUMP_READ (R382). DUMP_READ returns bytes from a dump slot. -/
  | dumpRead
  /-- HIVE_RESET (R377). HIVE_RESET raises a host hive fault, resets a held hive or releases HELD. -/
  | hiveReset
  /-- NOTIFY (R339). NOTIFY queues register writes and a record to apply at breath A. -/
  | notify
  /-- NOTIFY_APPLY (R339). At the guard point of breath A − 1 the notice's register writes are made. -/
  | notifyApply
  /-- NOTIFY_DELIVER (R339). At the tick beginning A the record is put to each selected pair and an event sent. -/
  | notifyDeliver
  /-- MAILBOX_RELAY_TIMEOUT (R337). A relayed command unanswered within 100 ms completes with TIMEOUT. -/
  | mailboxRelayTimeout (num : Nat)
  /-- VOLTAGE_LOOP (R349). Every t_v the voltage loop adjusts the voltage request and power ceiling. -/
  | voltageLoop (watts : Nat) (freps : List Nat) (accepted : Bool)
  /-- CURRENT_SAMPLE (R350). Every 100 ns core current is sampled and duty lowered or raised. -/
  | currentSample (amps : Nat)
  /-- THERMAL_LOOP (R351). The thermal loop lowers or raises ceil_therm against t_throttle. -/
  | thermalLoop
  /-- AGEING_MEASURE (R353). Hourly the ageing monitors are remeasured and age_p may step once per 24 h. -/
  | ageingMeasure (codes : List Nat)
  /-- HUM_ADJUST (R357). Every 1 µs the hum duty of waiting pairs is set to track the target current. -/
  | humAdjust (bare : Nat) (gain : Nat)
  /-- TELEMETRY_READ (R344). Every 100 µs the regulator's voltage, current and status are read. -/
  | telemetryRead (r : Option (Nat × Nat × Bool))
  /-- AVS_RETRY (R367). A failed AVSBus write is retried every 10 ms after freezing the request. -/
  | avsRetry (accepted : Bool)
  /-- ENERGY_INTEGRATE (R364). Every 1 µs package power is integrated into PCC_ENERGY. -/
  | energyIntegrate (e : Nat) (work : List (Nat × Nat × Nat))
  /-- JOB_TAG_APPLY (R365). At the next boundary a new job tag copies and clears the energy counter. -/
  | jobTagApply
  /-- TEST_WINDOW_BEGIN (R392). A test window begins and applies the margin offsets. -/
  | testWindowBegin
  /-- MARGIN_CLOCK_APPLY (R356). Once the lower voltage is reached or 20 µs pass the clock margin applies to the chosen pairs. -/
  | marginClockApply
  /-- TEST_WINDOW_END (R392). A test window ends, removing the clock offset and then the voltage offset. -/
  | testWindowEnd
  /-- CLOCK_RAMP (R366). After a hive leaves reset its ceiling rises by 10 MHz every 100 µs to f_target. -/
  | clockRamp (h : Hive)
  /-- HIVE_FAULT (R372). An escalated hive fault takes effect at the boundary tick and puts the hive into QUIESCE. -/
  | hiveFault
  /-- QUIESCE_END (R374). Two ms after T outstanding operations are abandoned and the dump begins. -/
  | quiesceEnd (h : Hive)
  /-- DUMP_READ_TIMEOUT (R381). A dump read exceeding 10 µs ends its record with TIMEOUT. -/
  | dumpReadTimeout (h : Hive) (k : Nat) (n : Nat)
  /-- DUMP_BUDGET_EXPIRE (R381). At budget_ms or a full slot the dump stops truncated. -/
  | dumpBudgetExpire (h : Hive) (k : Nat) (n : Nat)
  /-- DUMP_COMPLETE (R379). The dump ends, rewrites its header and the hive enters RESET or FAULT_HOLD. -/
  | dumpComplete (h : Hive)
  /-- HIVE_RELEASE (R374). One ms after assertion the hive reset is released and memory and units initialise. -/
  | hiveRelease (h : Hive)
  /-- HIVE_READY (R374). The hive returns to IN_SERVICE with pairs IDLE and an event is sent. -/
  | hiveReady (h : Hive)
  /-- WATCHDOG_EXPIRE (R384). A pair's work outstanding for more than wd_periods escalates a WATCHDOG hive fault. -/
  | watchdogExpire (p : Pair)
  /-- HEARTBEAT (R385). A write of RL_HEARTBEAT restarts the heartbeat timer. -/
  | heartbeat
  /-- HEARTBEAT_TIMEOUT (R385). No heartbeat for hb_timeout_ms resets the management processor alone. -/
  | heartbeatTimeout
  /-- LOCKSTEP_MISMATCH (R385). A lockstep disagreement resets the management processor alone. -/
  | lockstepMismatch
  /-- MP_RESTART (R385). Driore restarts from its protected copy after a hash check, or is held. -/
  | mpRestart (hashOk : Bool)
  /-- DUMP_SLOT_RELEASE (R382). RL_DUMP_SLOT_g.release frees a dump slot. -/
  | dumpSlotRelease (g : Hive)
  /-- BOOT_VERIFY (R403). The image read ends and its checks pass to start Driore, or fail into RECOVERY. -/
  | bootVerify (fuseOk : Bool) (flashId : Bool) (readOk : Bool)
  /-- BOOT_COMPLETE (R409). BOOT_CMD.boot_complete commits fuses and sets the boot lock. -/
  | bootComplete (ownerWrites : Bool) (blown : Nat)
  /-- STOP_SWITCH_APPLY (R406). A pending switch loads every stop field at a boundary with every hive quiesced. -/
  | stopSwitchApply
  /-- HIVE_ENABLE_PENDING (R407). A latched enable change applies when the hive next reaches IN_SERVICE or DISABLED. -/
  | hiveEnablePending (h : Hive)
  /-- FREEZE_NOW (R421). CTR_CMD.freeze_now schedules a freeze for the next boundary tick. -/
  | freezeNow
  /-- CLEAR_ALL (R426). CTR_CMD.clear_all clears every live counter and overflow bit. -/
  | clearAll
  /-- COUNTER_FREEZE (R421). At the scheduled breath every counter is copied into its snapshot. -/
  | counterFreeze
  /-- BW_WINDOW_END (R422). At each window end the port byte counts and window duration are latched. -/
  | bwWindowEnd
  /-- COUNTER_CLEAR (R420). CTR_P_CTRL.clear clears the chosen counters. -/
  | counterClear (p : Pair) (mask : Nat)
  /-- USER_ALIAS_WRITE (R424). A write through the user alias reaches only the opened counter fields, or is dropped. -/
  | userAliasWrite (p : Pair) (off : Nat) (v : Nat)
  /-- I3C_READ (R441). An I3C private read transfer returns a register's value with status. -/
  | i3cRead (a : Nat)
  /-- I3C_WRITE (R441). An I3C private write changes PCC_CAP.cap or PCC_CLOCK.host_cap, or is refused. -/
  | i3cWrite (a : Nat) (v : Nat)
  /-- I3C_ADDRESS_ASSIGN (R441). SETDASA or ENTDAA assigns the part's dynamic address. -/
  | i3cAddressAssign (a : Nat)
  /-- TAP_RESET (R442). TMS high for five TCK cycles or VDD_AON rising resets the TAP. -/
  | tapReset
  /-- EXTEST (R442). EXTEST drives the boundary register in reset or RECOVERY, otherwise acts as BYPASS. -/
  | extest (n : Nat) (v : Nat)
  /-- IDCODE (R442). IDCODE returns 0x0480_0C6B. -/
  | idcode
  /-- SAMPLE_PRELOAD (R442). SAMPLE/PRELOAD captures and loads the boundary register. -/
  | samplePreload (v : Nat)
  /-- CLAMP (R442). CLAMP holds the boundary outputs while bypassing, in reset or RECOVERY only. -/
  | clamp (n : Nat) (v : Nat)
  /-- HIGHZ (R442). HIGHZ floats the outputs, in reset or RECOVERY only. -/
  | highz (n : Nat) (v : Nat)
  /-- BYPASS (R442). BYPASS selects the one-bit bypass register. -/
  | bypass (n : Nat) (v : Nat)
  /-- REGACC_READ (R442). A REGACC read at Update-DR reads a register and returns data and status at the next capture. -/
  | regaccRead (a : Nat)
  /-- REGACC_WRITE (R442). A REGACC write at Update-DR writes a register subject to R5 and the boot lock. -/
  | regaccWrite (a : Nat) (v : Nat)
  /-- PORT_TRAINING_DONE (R319). Initial or commanded CEI-224G training of a port completes, the partners exchange device, port and FEC mode, and the port reaches UP at x8 or x4 or fails on wiring or FEC mismatch. -/
  | portTrainingDone (n : Port) (partner : Nat) (partnerPort : Nat) (fec : Nat) (healthy : Nat)
  /-- PCIE_LINK_UP (R333). The queen's spur endpoint link comes up again after a hot reset or link down, and held event records are written to the host ring. -/
  | pcieLinkUp
  /-- PCIE_POWER_STATE (R330). A host write of the endpoint's power state moves it between D0 and D3hot, disabling or re-enabling BAR accesses and MSI-X. -/
  | pciePowerState (d3 : Bool) (ecrc : Option (Bool × Bool))
  /-- HOST_READ_COMPLETION (R332). Data returning to the queen for a window or aperture read completes the host's PCIe read. -/
  | hostReadCompletion (m : Packet)
  /-- RELAY_RESPONSE_RECEIVE (R337). The target's response to a relayed mailbox command reaches the queen, which writes the response, updates last completed and raises vector 0. -/
  | relayResponseReceive (m : Packet)
  /-- WINDOW_TOTALS_RECEIVE (R231). Another part's bias-window totals arrive and the link hub adds them into the scope reduction. -/
  | windowTotalsReceive (m : Packet)
  /-- BOOT_TIME_LIMIT (R403). If the boot checks have not ended 1.5 s after the release of RESET_N, the boot fails with TIME and the part enters RECOVERY. -/
  | bootTimeLimit
  /-- RELEASE_AFTER_PWR_OK (R433). The self-timed end of a full device reset: 1 ms after a filtered PWR_OK rise with RESET_N already high, or at the end of the 10 µs minimum reset after a short RESET_N pulse, the part takes its release and samples ROLE and STOP_SEL. -/
  | releaseAfterPwrOk (queen : Bool) (stopSel : Nat) (braked : Bool)
  deriving DecidableEq, Repr

end Sys2Proof
end

