-- ==== Sys2Proof/Machine/Numbers.lean ====
section
/-! DEFINITION. Number formats and arithmetic (R79–R96): exact values, decoding, rounding, conversion, the special
functions, the generator. Values are exact rationals; every rounding is done once, from the exact value. -/

namespace Sys2Proof.Machine

/-- An exact value: NaN, an infinity, or a finite magnitude num/den (den > 0) with a sign, zeros signed. -/
inductive Val where
  | nan
  | inf (neg : Bool)
  | fin (neg : Bool) (num den : Nat)
  deriving DecidableEq, Repr

/-- The formats of R79. -/
inductive Fmt where
  | fp64 | fp32 | bf16 | fp16 | e4m3 | e5m2 | e3m2 | e2m3 | e2m1 | int8 | int4
  deriving DecidableEq, Repr

/-- Width in bits (R79). -/
def Fmt.bits : Fmt → Nat
  | .fp64 => 64 | .fp32 => 32 | .bf16 => 16 | .fp16 => 16 | .e4m3 => 8 | .e5m2 => 8
  | .e3m2 => 6 | .e2m3 => 6 | .e2m1 => 4 | .int8 => 8 | .int4 => 4

/-- Mantissa bits (R79). -/
def Fmt.mant : Fmt → Nat
  | .fp64 => 52 | .fp32 => 23 | .bf16 => 7 | .fp16 => 10 | .e4m3 => 3 | .e5m2 => 2
  | .e3m2 => 2 | .e2m3 => 3 | .e2m1 => 1 | .int8 => 0 | .int4 => 0

/-- Exponent bias (R79). -/
def Fmt.bias : Fmt → Nat
  | .fp64 => 1023 | .fp32 => 127 | .bf16 => 127 | .fp16 => 15 | .e4m3 => 7 | .e5m2 => 15
  | .e3m2 => 3 | .e2m3 => 1 | .e2m1 => 1 | .int8 => 0 | .int4 => 0

/-- Exponent bits (R79). -/
def Fmt.expBits (f : Fmt) : Nat := f.bits - 1 - f.mant

/-- An integer format. -/
def Fmt.isInt : Fmt → Bool
  | .int8 => true | .int4 => true | _ => false

/-- Formats whose exponent-0 encodings read as zero everywhere (R82). -/
def Fmt.flushes : Fmt → Bool
  | .e4m3 => true | .e5m2 => true | .e3m2 => true | .e2m3 => true | .e2m1 => true | _ => false

/-- Formats with infinities (R79). -/
def Fmt.hasInf : Fmt → Bool
  | .fp64 => true | .fp32 => true | .bf16 => true | .fp16 => true | .e5m2 => true | _ => false

/-- The canonical NaN (R84); formats without NaN have 0 here. -/
def Fmt.nanCode : Fmt → Nat
  | .fp64 => 0x7FF8000000000000 | .fp32 => 0x7FC00000 | .bf16 => 0x7FC0 | .fp16 => 0x7E00
  | .e4m3 => 0x7F | .e5m2 => 0x7E | _ => 0

/-- The code of +infinity, for a format that has one. -/
def Fmt.infCode (f : Fmt) : Nat := (2 ^ f.expBits - 1) * 2 ^ f.mant

/-- The code of the largest finite magnitude (R79). -/
def Fmt.maxCode : Fmt → Nat
  | .fp64 => 0x7FEFFFFFFFFFFFFF | .fp32 => 0x7F7FFFFF | .bf16 => 0x7F7F | .fp16 => 0x7BFF
  | .e4m3 => 0x7E | .e5m2 => 0x7B | .e3m2 => 0x1F | .e2m3 => 0x1F | .e2m1 => 0x7 | .int8 => 127 | .int4 => 7

/-- The bit of the sign. -/
def Fmt.signBit (f : Fmt) : Nat := 2 ^ (f.bits - 1)

/-- A code with a sign applied. -/
def Fmt.signed (f : Fmt) (neg : Bool) (code : Nat) : Nat := if neg then code + f.signBit else code

/-- num/den times 2^e, as a fraction. -/
def scalePow (n d : Nat) (e : Int) : Nat × Nat :=
  if 0 ≤ e then (n * 2 ^ e.toNat, d) else (n, d * 2 ^ (-e).toNat)

/-- A finite value m × 2^e. -/
def finPow (neg : Bool) (m : Nat) (e : Int) : Val :=
  let (n, d) := scalePow m 1 e
  .fin neg n d

def Val.zero : Val := .fin false 0 1

/-- A code is NaN in its format (R79). -/
def Fmt.isNan (f : Fmt) (c : Nat) : Bool :=
  let m := c % f.signBit
  match f with
  | .e4m3 => m = 0x7F
  | .e3m2 => false | .e2m3 => false | .e2m1 => false | .int8 => false | .int4 => false
  | _ => m > f.infCode

/-- The exact value of a code, exponent-0 encodings taken with gradual underflow (R79). -/
def Fmt.value (f : Fmt) (c : Nat) : Val :=
  if f.isInt then
    let i := toSigned f.bits c
    .fin (decide (i < 0)) i.natAbs 1
  else
    let neg := decide (c % (2 * f.signBit) ≥ f.signBit)
    let m := c % f.signBit
    let e := m / 2 ^ f.mant
    let q := m % 2 ^ f.mant
    if f.isNan c then .nan
    else if f.hasInf && m = f.infCode then .inf neg
    else if e = 0 then finPow neg q (1 - (f.bias : Int) - f.mant)
    else finPow neg (q + 2 ^ f.mant) ((e : Int) - f.bias - f.mant)

/-- A code with exponent field 0 and a nonzero mantissa. -/
def Fmt.isSub (f : Fmt) (c : Nat) : Bool :=
  !f.isInt && (c % f.signBit) / 2 ^ f.mant = 0 && (c % f.signBit) % 2 ^ f.mant ≠ 0

/-- A code as it is read (R82, and R83 at the array's ports): a flushed encoding is a zero of its sign. -/
def Fmt.read (f : Fmt) (array : Bool) (c : Nat) : Val :=
  if f.isSub c && (f.flushes || (array && (f = .bf16 || f = .fp16))) then
    .fin (decide (c % (2 * f.signBit) ≥ f.signBit)) 0 1
  else f.value c

/-! ## Exact arithmetic on values (R85) -/

def Val.neg? : Val → Bool
  | .nan => false | .inf s => s | .fin s _ _ => s

def Val.isNan : Val → Bool
  | .nan => true | _ => false

def Val.isZero : Val → Bool
  | .fin _ n _ => n = 0 | _ => false

def Val.negate : Val → Val
  | .nan => .nan | .inf s => .inf (!s) | .fin s n d => .fin (!s) n d

def Val.abs : Val → Val
  | .nan => .nan | .inf _ => .inf false | .fin _ n d => .fin false n d

/-- The exact sum; an exact zero is +0 unless both terms are −0 (R85). -/
def Val.add : Val → Val → Val
  | .nan, _ => .nan
  | _, .nan => .nan
  | .inf s, .inf t => if s = t then .inf s else .nan
  | .inf s, .fin _ _ _ => .inf s
  | .fin _ _ _, .inf t => .inf t
  | .fin s n d, .fin t m e =>
    let a := n * e
    let b := m * d
    if s = t then .fin s (a + b) (d * e)
    else if a = b then .fin false 0 1
    else if b < a then .fin s (a - b) (d * e)
    else .fin t (b - a) (d * e)

def Val.sub (x y : Val) : Val := x.add y.negate

/-- The exact product; ∞ × 0 is NaN (R85). -/
def Val.mul : Val → Val → Val
  | .nan, _ => .nan
  | _, .nan => .nan
  | .inf s, .inf t => .inf (s != t)
  | .inf s, .fin t n _ => if n = 0 then .nan else .inf (s != t)
  | .fin s n _, .inf t => if n = 0 then .nan else .inf (s != t)
  | .fin s n d, .fin t m e => .fin (s != t) (n * m) (d * e)

/-- The exact quotient of finite values, the divisor nonzero; other operands give NaN here. -/
def Val.div : Val → Val → Val
  | .fin s n d, .fin t m e => if m = 0 then .nan else .fin (s != t) (n * e) (d * m)
  | _, _ => .nan

/-- Ordering of two values, NaN being unordered (R85): the zeros are equal. -/
def Val.lt : Val → Val → Bool
  | .nan, _ => false
  | _, .nan => false
  | .inf s, .inf t => s && !t
  | .inf s, .fin _ _ _ => s
  | .fin _ _ _, .inf t => !t
  | .fin s n d, .fin t m e =>
    let a : Int := (if s then -1 else 1) * (n * e : Nat)
    let b : Int := (if t then -1 else 1) * (m * d : Nat)
    a < b

def Val.le (x y : Val) : Bool := !x.isNan && !y.isNan && !y.lt x

def Val.eqv (x y : Val) : Bool := x.le y && y.le x

/-- min of R85: NaN if either is, −0 below +0. -/
def Val.min2 (x y : Val) : Val :=
  if x.isNan || y.isNan then .nan
  else if x.lt y then x else if y.lt x then y else if x.neg? then x else y

/-- max of R85. -/
def Val.max2 (x y : Val) : Val :=
  if x.isNan || y.isNan then .nan
  else if x.lt y then y else if y.lt x then x else if x.neg? then y else x

/-- The product of ∞ and 0 or the sum of unlike infinities: a NaN from operands that are none (R85). -/
def madeNan (ops : List Val) (r : Val) : Bool := r.isNan && ops.all (fun v => !v.isNan)

/-! ## Rounding (R86–R89) -/

/-- A rounding mode with its random draw: RNE, RNA, or n random bits with the value drawn (R86, R88). -/
inductive Round where
  | rne | rna
  | sr (bits draw : Nat)
  deriving DecidableEq, Repr

/-- The floor of the base-2 logarithm of n/d, both positive. -/
def floorLog2 (n d : Nat) : Int :=
  let k : Int := (Nat.log2 n : Int) - (Nat.log2 d : Int)
  let (a, b) := scalePow 1 1 k
  -- n/d ≥ a/b ?
  if n * b ≥ a * d then k else k - 1

/-- Whether the upper of two neighbours is taken, for a fraction r/d of the gap (r < d) and an odd or even lower one. -/
def roundsUp (mode : Round) (odd : Bool) (r d : Nat) : Bool :=
  match mode with
  | .rne => 2 * r > d || (2 * r = d && odd)
  | .rna => 2 * r ≥ d && r ≠ 0
  | .sr n draw => draw < r * 2 ^ n / d

/-- What a rounding gives: a magnitude m × 2^e. -/
structure Rounded where
  m : Nat
  e : Int
  deriving DecidableEq, Repr

/-- The magnitude num/den rounded to a float format as if its exponent were unbounded above (R89); below the smallest
normal a flushing target has only 0 and that normal as candidates (R82). -/
def roundMag (f : Fmt) (mode : Round) (n d : Nat) : Rounded :=
  if n = 0 then ⟨0, 0⟩
  else
    let emin : Int := 1 - (f.bias : Int)
    let e := floorLog2 n d
    if e < emin && f.flushes then
      let (a, b) := scalePow n d (-emin)
      if roundsUp mode false a b then ⟨2 ^ f.mant, emin - f.mant⟩ else ⟨0, 0⟩
    else
      let qe := (if e < emin then emin else e) - (f.mant : Int)
      let (a, b) := scalePow n d (-qe)
      let m := a / b
      let up := roundsUp mode (m % 2 = 1) (a % b) b
      ⟨if up then m + 1 else m, qe⟩

/-- The code of a magnitude m × 2^e that the format can hold. -/
def encodeMag (f : Fmt) (x : Rounded) : Nat :=
  if x.m = 0 then 0
  else
    let x := if x.m ≥ 2 ^ (f.mant + 1) then (⟨x.m / 2, x.e + 1⟩ : Rounded) else x
    if x.m < 2 ^ f.mant then x.m
    else (x.e + (f.mant : Int) + f.bias).toNat * 2 ^ f.mant + (x.m - 2 ^ f.mant)

/-- The magnitude lies beyond the largest finite value. -/
def overflows (f : Fmt) (x : Rounded) : Bool :=
  match Fmt.value f f.maxCode with
  | .fin _ n d =>
    let (a, b) := scalePow x.m 1 x.e
    a * d > n * b
  | _ => false

/-- A conversion's code and the flags it sets (R89, R102). -/
structure Cvt where
  code : Nat := 0
  sat : Bool := false
  inf : Bool := false
  nan : Bool := false
  deriving DecidableEq, Repr

/-- The integer nearest a magnitude under a mode (R86, R88). -/
def roundInt (mode : Round) (n d : Nat) : Nat :=
  let m := n / d
  if roundsUp mode (m % 2 = 1) (n % d) d then m + 1 else m

/-- An integer clamped to an integer format (R89). -/
def toIntCode (f : Fmt) (i : Int) : Cvt :=
  let hi : Int := f.maxCode
  let lo : Int := -hi - 1
  if i > hi then { code := f.maxCode, sat := true }
  else if i < lo then { code := ofSigned f.bits lo, sat := true }
  else { code := ofSigned f.bits i }

/-- A result beyond the largest finite value (R89). -/
def overflowCode (f : Fmt) (sat neg : Bool) : Cvt :=
  match f with
  | .e4m3 => if sat then { code := f.signed neg f.maxCode, sat := true } else { code := f.nanCode, nan := true }
  | .e3m2 => { code := f.signed neg f.maxCode, sat := true }
  | .e2m3 => { code := f.signed neg f.maxCode, sat := true }
  | .e2m1 => { code := f.signed neg f.maxCode, sat := true }
  | _ => if sat then { code := f.signed neg f.maxCode, sat := true } else { code := f.signed neg f.infCode, inf := true }

/-- Every conversion of R89: the exact value rounded once into the target. The NaN row of an MX element is its block's
affair (R89, R109); here it gives +0. -/
def narrow (f : Fmt) (mode : Round) (sat : Bool) (v : Val) : Cvt :=
  if f.isInt then
    match v with
    | .nan => { code := 0, nan := true }
    | .inf s => { code := if s then ofSigned f.bits (-(f.maxCode : Int) - 1) else f.maxCode, sat := true }
    | .fin s n d => toIntCode f ((if s then -1 else 1) * (roundInt mode n d : Int))
  else
    match v with
    | .nan => { code := f.nanCode, nan := decide (f.nanCode = 0) }
    | .inf s => if f.hasInf then { code := f.signed s f.infCode } else overflowCode f sat s
    | .fin s n d =>
      let x := roundMag f mode n d
      if overflows f x then overflowCode f sat s else { code := f.signed s (encodeMag f x) }

/-- Arithmetic's rounding (R87): RNE, overflow to infinity (R85). -/
def rne (f : Fmt) (v : Val) : Nat := (narrow f .rne false v).code

/-- RNE into FP32, as a value. -/
def rne32 (v : Val) : Nat := rne .fp32 v

/-- The value of an FP32 pattern. -/
def v32 (c : Nat) : Val := Fmt.fp32.value c

/-- The FP32 sum, product and fused step of R92. -/
def add32 (a b : Nat) : Nat := rne32 ((v32 a).add (v32 b))
def sub32 (a b : Nat) : Nat := rne32 ((v32 a).sub (v32 b))
def mul32 (a b : Nat) : Nat := rne32 ((v32 a).mul (v32 b))
def fma32 (a b c : Nat) : Nat := rne32 (((v32 a).mul (v32 b)).add (v32 c))

/-- The FP64 value, sum and square of R92. -/
def v64 (c : Nat) : Val := Fmt.fp64.value c
def add64 (a b : Nat) : Nat := rne .fp64 ((v64 a).add (v64 b))

/-- −0 in FP32, the identity of RNE addition (R93). -/
abbrev negZero32 : Nat := 0x80000000
/-- −0 in FP64. -/
abbrev negZero64 : Nat := 0x8000000000000000

/-! ## Special functions (R92), from exact or far more precise values -/

/-- Bits of fraction carried in the fixed-point evaluation of exp. -/
abbrev expPrec : Nat := 320

/-- ln 2 in fixed point: the sum of 1/(k 2^k). -/
def ln2Fixed : Nat :=
  (List.range (expPrec + 8)).foldl (fun a i => a + 2 ^ (expPrec + 16) / ((i + 1) * 2 ^ (i + 1))) 0 / 2 ^ 16

/-- The Taylor sum of exp over a fixed-point fraction, n terms: term and sum carried. -/
def expSeries (r : Nat) : Nat → Nat → Nat → Nat → Nat
  | 0, _, _, acc => acc
  | n + 1, k, term, acc =>
    let t := term * r / 2 ^ expPrec / k
    expSeries r n (k + 1) t (acc + t)

/-- exp of a finite value, to within far less than the gap that decides an FP32 rounding; exp(±0) = 1 exactly. -/
def expVal (neg : Bool) (n d : Nat) : Val :=
  if n = 0 then .fin false 1 1
  else if n / d ≥ 200 then (if neg then .fin false 1 (2 ^ 300) else .fin false (2 ^ 200) 1)
  else
    -- x in fixed point, floored; x = k ln2 + r with 0 ≤ r < ln2
    let x : Int := if neg then -(((n * 2 ^ expPrec + d - 1) / d : Nat) : Int) else ((n * 2 ^ expPrec / d : Nat) : Int)
    let k := x / (ln2Fixed : Int)
    let r := (x % (ln2Fixed : Int)).toNat
    let one := 2 ^ expPrec
    let y := expSeries r 90 1 one one
    -- the true value is no tie and no representable number: place a sticky bit below the fixed point
    let (a, b) := scalePow (2 * y + 1) (2 * one) k
    .fin false a b

/-- exp with its special values. -/
def exp32 (c : Nat) : Nat :=
  match v32 c with
  | .nan => Fmt.fp32.nanCode
  | .inf s => if s then 0 else Fmt.fp32.infCode
  | .fin s n d => rne32 (expVal s n d)

/-- The reciprocal with its special values. -/
def recip32 (c : Nat) : Nat :=
  match v32 c with
  | .nan => Fmt.fp32.nanCode
  | .inf s => Fmt.fp32.signed s 0
  | .fin s n d => if n = 0 then Fmt.fp32.signed s Fmt.fp32.infCode else rne32 (.fin s d n)

/-- The square root of a fraction, exact or with a sticky bit far below its rounding place. -/
def sqrtVal (n d : Nat) : Val :=
  let p := 320
  let t := n * 2 ^ (2 * p) / d
  let a := Nat.sqrt t
  if a * a * d = n * 2 ^ (2 * p) then .fin false a (2 ^ p) else .fin false (2 * a + 1) (2 ^ (p + 1))

/-- The reciprocal square root with its special values. -/
def rsqrt32 (c : Nat) : Nat :=
  match v32 c with
  | .nan => Fmt.fp32.nanCode
  | .inf s => if s then Fmt.fp32.nanCode else 0
  | .fin s n d =>
    if n = 0 then Fmt.fp32.signed s Fmt.fp32.infCode
    else if s then Fmt.fp32.nanCode
    else rne32 (sqrtVal d n)

/-! ## The order of a vector-engine sum (R93) -/

/-- One tree level: lane j takes lane j plus lane j + half. -/
def treeLevel (add : Nat → Nat → Nat) (idz : Nat) (half : Nat) (lanes : List Nat) : List Nat :=
  (List.range half).map (fun j => add (nth idz lanes j) (nth idz lanes (j + half)))

/-- The eight tree levels over 256 lanes. -/
def treeSum (add : Nat → Nat → Nat) (idz : Nat) (lanes : List Nat) : Nat :=
  nth idz ((List.range 8).foldl (fun ls l => treeLevel add idz (2 ^ (7 - l)) ls) lanes) 0

/-- The lane sums: element i goes to lane i mod 256, ascending. -/
def laneFold (f : Nat → Nat → Nat) (idz n : Nat) : List Nat :=
  (List.range 256).map (fun l =>
    (List.range ((n + 255 - l) / 256)).foldl (fun a k => f a (256 * k + l)) idz)

/-- A sum of n elements given by index, in FP32. -/
def vecSum32 (n : Nat) (x : Nat → Nat) : Nat :=
  treeSum add32 negZero32 (laneFold (fun a i => add32 a (x i)) negZero32 n)

/-- A dot product in FP32: chained fused multiply-adds per lane. -/
def vecDot32 (n : Nat) (x y : Nat → Nat) : Nat :=
  treeSum add32 negZero32 (laneFold (fun a i => fma32 (x i) (y i) a) negZero32 n)

/-- A sum of exact squares in FP64 (R92). -/
def vecSumSq64 (n : Nat) (x : Nat → Nat) : Nat :=
  treeSum add64 negZero64 (laneFold (fun a i => add64 a (rne .fp64 ((v32 (x i)).mul (v32 (x i))))) negZero64 n)

/-! ## The generator (R95, R96) -/

/-- The state a lane loads at the start of a slice. -/
def laneSeed (seed p lane n : Nat) : Nat :=
  let m := 2 ^ 64
  let z := (seed + 0x9E3779B97F4A7C15 * (1 + n * 2 ^ 15 + p * 2 ^ 9 + lane)) % m
  let z := ((z ^^^ (z >>> 30)) * 0xBF58476D1CE4E5B9) % m
  let z := ((z ^^^ (z >>> 27)) * 0x94D049BB133111EB) % m
  let z := z ^^^ (z >>> 31)
  if z = 0 then 0x9E3779B97F4A7C15 else z

/-- One step of a lane. -/
def laneStep (x : Nat) : Nat :=
  let x := x ^^^ ((x <<< 13) % 2 ^ 64)
  let x := x ^^^ (x >>> 7)
  x ^^^ ((x <<< 17) % 2 ^ 64)

/-- A draw of n bits of a stepped state. -/
def laneDraw (n x : Nat) : Nat := x / 2 ^ (64 - n)

/-! ## Exponent bins (R98) -/

/-- The bin of an FP32 value for a base exponent b. -/
def expBin (b : Int) (c : Nat) : Nat :=
  match v32 c with
  | .nan => 63
  | .inf _ => 63
  | .fin _ n d =>
    if n = 0 || Fmt.fp32.isSub c then 0
    else
      let e := floorLog2 n d
      if e < b then 0 else if e > b + 60 then 62 else (e - b + 1).toNat

/-- An E8M0 scale: 2^(c − 127), or NaN for 0xFF (R79, R80). -/
def e8m0 (c : Nat) : Val := if c % 256 = 255 then .nan else finPow false 1 ((c % 256 : Nat) - 127 : Int)

/-- Element i of packed narrow data (R81): 4-bit two per byte, 6-bit four per three bytes, 8-bit and wider whole. -/
def Fmt.unpack (f : Fmt) (bs : List Nat) (i : Nat) : Nat :=
  match f.bits with
  | 4 => let b := nth 0 bs (i / 2); if i % 2 = 0 then b % 16 else b / 16 % 16
  | 6 => let g := leNat ((bs.drop (3 * (i / 4))).take 3); bitsOf g (6 * (i % 4) + 5) (6 * (i % 4))
  | w => leNat ((bs.drop (w / 8 * i)).take (w / 8))

/-- The bytes of n packed elements; unused high bits are 0 (R81). -/
def Fmt.pack (f : Fmt) (xs : List Nat) : List Nat :=
  match f.bits with
  | 4 => (chunks 2 ((xs.length + 1) / 2) xs).map (fun c => nth 0 c 0 % 16 + 16 * (nth 0 c 1 % 16))
  | 6 => (chunks 4 ((xs.length + 3) / 4) xs).flatMap (fun c =>
      natLe 3 (nth 0 c 0 % 64 + 64 * (nth 0 c 1 % 64) + 4096 * (nth 0 c 2 % 64) + 262144 * (nth 0 c 3 % 64)))
  | w => xs.flatMap (natLe (w / 8))

/-- Bytes that n elements take (R81). -/
def Fmt.bytesFor (f : Fmt) (n : Nat) : Nat :=
  match f.bits with
  | 4 => (n + 1) / 2
  | 6 => 3 * ((n + 3) / 4)
  | w => w / 8 * n

end Sys2Proof.Machine
end

