-- ==== Sys2Proof/Config.lean ====
section
/-! DEFINITION. The free values: what the spec leaves open. None has a body, so no proof can see a value. -/

namespace Sys2Proof.Config

/-- Whether an ECDSA P-256 signature verifies: key, message bytes, signature bytes (R390, R403). -/
opaque ecdsaVerify : List Nat → List Nat → List Nat → Bool

/-- The severity of a logged occurrence for which the spec states none, by block and item. -/
opaque logSeverity : Nat → Nat → Nat

/-- A value the spec leaves open, fresh at each use: applied to the state's own counter. -/
opaque freeWord : Nat → Nat

/-- The data bits a poisoned read of offline memory delivers, by address (R20). -/
opaque offlineByte : Nat → Nat

/-- Which half of a split staging buffer an instruction reads when both hold a tile, by its place in issue order. -/
opaque stagedHalf : Nat → Nat

/-- The SHA-256 that the ROM holds for each vendor key index (R403). -/
opaque vendorKeyHash : Nat → Nat

/-- The device-key signature of a message (R413). -/
opaque deviceSign : List Nat → List Nat

/-- The bytes of the certificate chain (R412). -/
opaque certChain : List Nat

/-- The bytes of a staging record of a dump, whose layout the spec does not give: by the state's counter and the offset. -/
opaque stagingByte : Nat → Nat → Nat

/-- A boundary-register capture: the levels of the balls it covers, by the state's counter (R442). -/
opaque ballLevels : Nat → Nat

/-- The bytes of an IDLE flit that carry nothing (R292). -/
opaque idleByte : Nat → Nat

end Sys2Proof.Config
end

