-- ==== Sys2Proof/Machine/RegTable.lean ====
section
/-! DEFINITION. The register table: every register of the index of R449 with its place (R447, R448), its fields,
their access codes (R6) and their After reset values (R10), as the register tables of the chapters of spec/ give them.
A field marked "stop" carries the value of the default stop (R405), one marked "plan", ROLE or Fused carries 0 until
the boot of the part fills it. -/

namespace Sys2Proof.Machine

/-- Access codes of R6. -/
inductive Acc where
  | ro | rw | w1c | wo | rwl
  deriving DecidableEq, Repr

/-- The registers of R449, by name; a family (R448) is one name with an instance number. -/
inductive Reg where
  | BREATH_CTRL | BREATH_PERIOD | BREATH_STATUS | BREATH_EVENTS
  | BREATH_TICK | BREATH_SCHED | BREATH_COUNTS | BREATH_OVERRUN_PAIRS
  | BREATH_SLACK | BREATH_START | BREATH_CMD | BREATH_COMP
  | BREATH_STRETCH | BREATH_TICKIN | ARRAY_CTRL | ARRAY_SPILL
  | ARRAY_STATUS | ARRAY_EVENTS | ARRAY_ECC | ARRAY_SPILLS
  | NUM_SEED | NUM_CTRL | NUM_EVENTS | NUM_CVT_COUNTS
  | QUANT_CTRL | QUANT_EVENTS | QUANT_COUNTS | FORAGER_CTRL
  | FORAGER_RING | FORAGER_STATUS | FORAGER_EVENTS | FORAGER_SPARSE
  | FORAGER_SPILLS | FORAGER_ECC | SCORE_MASK | SCORE_CMD
  | SCORE_STATUS | SEQ_SCORE | SEQ_ENTRY | SEQ_CTRL
  | SEQ_STATUS | SEQ_EVENTS | SEQ_FAULT | SEQ_CMD
  | SEQ_SEM_i | SEQ_SCALAR_i | MEM_POISON_REC | MEM_CTRL
  | MEM_STATUS | MEM_EVENTS | MEM_ECC_NEAR | MEM_ECC_FAR
  | MEM_CHAN_j | COMB_ECC | ROUTE_CTRL | ROUTE_LOOP
  | ROUTE_DEST | ROUTE_STATUS | ROUTE_EVENTS | ROUTE_COUNTS
  | ROUTE_DROPS | ROUTER_r | ROUTE_BIAS_i | ROUTE_LOAD_i
  | GEX_CTRL | GEX_EXCLUDE | GEX_EVENTS | GEX_COUNTS
  | GEX_LAST | GEX_NORM | GEX_NORM_CNT | LINK_CTRL
  | LINK_TIMEOUT | LINK_EVENTS | LINK_COUNTS | PORT_CTRL
  | PORT_CMD | PORT_STATUS | PORT_EVENTS | PORT_FEC
  | PORT_REPLAY | PORT_OSET | PORT_LANE_k | GROUP_CFG
  | GROUP_RINGS | GROUP_STATUS | ENUM_CMD | ENUM_EVENTS
  | ENUM_CONFLICT | HOST_CTRL | HOST_EVENTS | HOST_EVQ_BASE
  | HOST_EVQ_PTR | HOST_WIN_n | HOST_APT_n | PCC_CTRL
  | PCC_VOLT | PCC_CLOCK | PCC_CAP | PCC_LOOP
  | PCC_HUM | PCC_THERM | PCC_BRAKE | PCC_MARGIN
  | PCC_MARGIN_PAIRS | PCC_STATUS | PCC_EVENTS | PCC_ENERGY
  | PCC_JOB | PCC_JOB_LAST | PCC_STACK_TEMP | PCC_THR_DUR_i
  | PCC_PAIR_p | RL_CTRL | RL_STATUS | RL_EVENTS
  | RL_HEARTBEAT | RL_LOG_PTR | RL_CHECK | RL_CHECK_SEED
  | RL_TWIN | RL_TWIN_REP | RL_DUMP_CFG | RL_DUMP_RANGE_i
  | RL_HIVE_h | RL_DUMP_SLOT_g | RL_PAIR_p | BOOT_STATUS
  | BOOT_STOP | BOOT_FUSE | BOOT_SERIAL | BOOT_MEAS_i
  | BOOT_FW_MEAS_i | BOOT_EVENTS | BOOT_CMD | CTR_GLOBAL
  | CTR_USER | CTR_FREEZE | CTR_FREEZE_STATUS | CTR_CMD
  | CTR_WINDOW | CTR_EVENTS | PORTCTR_TX_LO | PORTCTR_TX_HI
  | PORTCTR_RX_LO | PORTCTR_RX_HI | PORTCTR_FWD_LO | PORTCTR_FWD_HI
  | PORTCTR_SNAP_TX_LO | PORTCTR_SNAP_TX_HI | PORTCTR_SNAP_RX_LO | PORTCTR_SNAP_RX_HI
  | PORTCTR_SNAP_FWD_LO | PORTCTR_SNAP_FWD_HI | PORTCTR_BW | CTR_P_n
  | CTR_P_SLOT_k | CTR_P_SNAP_j | CTR_P_SEL | CTR_P_CTRL
  | CTR_P_OVF | CTR_P_SAMPLE | CTR_P_SAMPLE_LAST
  deriving DecidableEq, Repr

/-- The number of a register name in the table, used as a key only. -/
def Reg.code (r : Reg) : Nat := r.ctorIdx

/-- A field of a register: its bits [hi:lo]. -/
structure Fld where
  reg : Reg
  hi : Nat
  lo : Nat
  deriving DecidableEq, Repr

/-- One row of a register table (R6): bits, access code, value after a full device reset. -/
structure FieldInfo where
  hi : Nat
  lo : Nat
  acc : Acc
  reset : Nat
  deriving DecidableEq, Repr

/-- The unit that owns a bank of registers (R447). -/
inductive Space where
  | device | pair | hive | port | ctrPort | ctrPair
  deriving DecidableEq, Repr

/-- Where a register lies (R447, R448): its space, its offset there, its number of instances per unit (stride 8). -/
structure RegPlace where
  reg : Reg
  space : Space
  off : Nat
  count : Nat
  deriving DecidableEq, Repr

def regPlaces0 : List RegPlace :=
  [⟨.BREATH_CTRL, .device, 0x10000, 1⟩,
   ⟨.BREATH_PERIOD, .device, 0x10008, 1⟩,
   ⟨.BREATH_STATUS, .device, 0x10010, 1⟩,
   ⟨.BREATH_EVENTS, .device, 0x10018, 1⟩,
   ⟨.BREATH_TICK, .device, 0x10020, 1⟩,
   ⟨.BREATH_SCHED, .device, 0x10028, 1⟩,
   ⟨.BREATH_COUNTS, .device, 0x10030, 1⟩,
   ⟨.BREATH_OVERRUN_PAIRS, .device, 0x10038, 1⟩,
   ⟨.BREATH_SLACK, .device, 0x10040, 1⟩,
   ⟨.BREATH_START, .device, 0x10048, 1⟩,
   ⟨.BREATH_CMD, .device, 0x10050, 1⟩,
   ⟨.BREATH_COMP, .device, 0x10058, 1⟩,
   ⟨.BREATH_STRETCH, .device, 0x10060, 1⟩,
   ⟨.BREATH_TICKIN, .device, 0x10068, 1⟩,
   ⟨.ARRAY_CTRL, .pair, 0x2000, 1⟩,
   ⟨.ARRAY_SPILL, .pair, 0x2008, 1⟩,
   ⟨.ARRAY_STATUS, .pair, 0x2010, 1⟩,
   ⟨.ARRAY_EVENTS, .pair, 0x2018, 1⟩,
   ⟨.ARRAY_ECC, .pair, 0x2020, 1⟩,
   ⟨.ARRAY_SPILLS, .pair, 0x2028, 1⟩,
   ⟨.NUM_SEED, .device, 0x200, 1⟩,
   ⟨.NUM_CTRL, .pair, 0x2400, 1⟩,
   ⟨.NUM_EVENTS, .pair, 0x2408, 1⟩,
   ⟨.NUM_CVT_COUNTS, .pair, 0x2410, 1⟩,
   ⟨.QUANT_CTRL, .pair, 0x2800, 1⟩,
   ⟨.QUANT_EVENTS, .pair, 0x2808, 1⟩,
   ⟨.QUANT_COUNTS, .pair, 0x2810, 1⟩,
   ⟨.FORAGER_CTRL, .pair, 0x3000, 1⟩,
   ⟨.FORAGER_RING, .pair, 0x3008, 1⟩,
   ⟨.FORAGER_STATUS, .pair, 0x3010, 1⟩,
   ⟨.FORAGER_EVENTS, .pair, 0x3018, 1⟩,
   ⟨.FORAGER_SPARSE, .pair, 0x3020, 1⟩,
   ⟨.FORAGER_SPILLS, .pair, 0x3028, 1⟩,
   ⟨.FORAGER_ECC, .pair, 0x3030, 1⟩,
   ⟨.SCORE_MASK, .device, 0x300, 1⟩,
   ⟨.SCORE_CMD, .device, 0x308, 1⟩,
   ⟨.SCORE_STATUS, .device, 0x310, 1⟩,
   ⟨.SEQ_SCORE, .pair, 0x0, 1⟩,
   ⟨.SEQ_ENTRY, .pair, 0x8, 1⟩,
   ⟨.SEQ_CTRL, .pair, 0x10, 1⟩]

def regPlaces1 : List RegPlace :=
  [⟨.SEQ_STATUS, .pair, 0x18, 1⟩,
   ⟨.SEQ_EVENTS, .pair, 0x20, 1⟩,
   ⟨.SEQ_FAULT, .pair, 0x28, 1⟩,
   ⟨.SEQ_CMD, .pair, 0x30, 1⟩,
   ⟨.SEQ_SEM_i, .pair, 0x100, 64⟩,
   ⟨.SEQ_SCALAR_i, .pair, 0x200, 32⟩,
   ⟨.MEM_POISON_REC, .device, 0x400, 1⟩,
   ⟨.MEM_CTRL, .hive, 0x200000, 1⟩,
   ⟨.MEM_STATUS, .hive, 0x200008, 1⟩,
   ⟨.MEM_EVENTS, .hive, 0x200010, 1⟩,
   ⟨.MEM_ECC_NEAR, .hive, 0x200018, 1⟩,
   ⟨.MEM_ECC_FAR, .hive, 0x200020, 1⟩,
   ⟨.MEM_CHAN_j, .hive, 0x200100, 8⟩,
   ⟨.COMB_ECC, .pair, 0x3800, 1⟩,
   ⟨.ROUTE_CTRL, .device, 0x800, 1⟩,
   ⟨.ROUTE_LOOP, .device, 0x808, 1⟩,
   ⟨.ROUTE_DEST, .device, 0x810, 1⟩,
   ⟨.ROUTE_STATUS, .device, 0x818, 1⟩,
   ⟨.ROUTE_EVENTS, .device, 0x820, 1⟩,
   ⟨.ROUTE_COUNTS, .device, 0x828, 1⟩,
   ⟨.ROUTE_DROPS, .device, 0x830, 1⟩,
   ⟨.ROUTER_r, .device, 0x900, 16⟩,
   ⟨.ROUTE_BIAS_i, .device, 0x4000, 2048⟩,
   ⟨.ROUTE_LOAD_i, .device, 0x8000, 2048⟩,
   ⟨.GEX_CTRL, .device, 0xC000, 1⟩,
   ⟨.GEX_EXCLUDE, .device, 0xC008, 1⟩,
   ⟨.GEX_EVENTS, .device, 0xC010, 1⟩,
   ⟨.GEX_COUNTS, .device, 0xC018, 1⟩,
   ⟨.GEX_LAST, .device, 0xC020, 1⟩,
   ⟨.GEX_NORM, .device, 0xC028, 1⟩,
   ⟨.GEX_NORM_CNT, .device, 0xC030, 1⟩,
   ⟨.LINK_CTRL, .device, 0x30000, 1⟩,
   ⟨.LINK_TIMEOUT, .device, 0x30008, 1⟩,
   ⟨.LINK_EVENTS, .device, 0x30010, 1⟩,
   ⟨.LINK_COUNTS, .device, 0x30018, 1⟩,
   ⟨.PORT_CTRL, .port, 0x0, 1⟩,
   ⟨.PORT_CMD, .port, 0x8, 1⟩,
   ⟨.PORT_STATUS, .port, 0x10, 1⟩,
   ⟨.PORT_EVENTS, .port, 0x18, 1⟩,
   ⟨.PORT_FEC, .port, 0x20, 1⟩]

def regPlaces2 : List RegPlace :=
  [⟨.PORT_REPLAY, .port, 0x28, 1⟩,
   ⟨.PORT_OSET, .port, 0x30, 1⟩,
   ⟨.PORT_LANE_k, .port, 0x40, 8⟩,
   ⟨.GROUP_CFG, .device, 0xD000, 1⟩,
   ⟨.GROUP_RINGS, .device, 0xD008, 1⟩,
   ⟨.GROUP_STATUS, .device, 0xD010, 1⟩,
   ⟨.ENUM_CMD, .device, 0xD018, 1⟩,
   ⟨.ENUM_EVENTS, .device, 0xD020, 1⟩,
   ⟨.ENUM_CONFLICT, .device, 0xD028, 1⟩,
   ⟨.HOST_CTRL, .device, 0xE000, 1⟩,
   ⟨.HOST_EVENTS, .device, 0xE008, 1⟩,
   ⟨.HOST_EVQ_BASE, .device, 0xE010, 1⟩,
   ⟨.HOST_EVQ_PTR, .device, 0xE018, 1⟩,
   ⟨.HOST_WIN_n, .device, 0xE100, 8⟩,
   ⟨.HOST_APT_n, .device, 0xE200, 16⟩,
   ⟨.PCC_CTRL, .device, 0x20000, 1⟩,
   ⟨.PCC_VOLT, .device, 0x20008, 1⟩,
   ⟨.PCC_CLOCK, .device, 0x20010, 1⟩,
   ⟨.PCC_CAP, .device, 0x20018, 1⟩,
   ⟨.PCC_LOOP, .device, 0x20020, 1⟩,
   ⟨.PCC_HUM, .device, 0x20028, 1⟩,
   ⟨.PCC_THERM, .device, 0x20030, 1⟩,
   ⟨.PCC_BRAKE, .device, 0x20038, 1⟩,
   ⟨.PCC_MARGIN, .device, 0x20040, 1⟩,
   ⟨.PCC_MARGIN_PAIRS, .device, 0x20048, 1⟩,
   ⟨.PCC_STATUS, .device, 0x20050, 1⟩,
   ⟨.PCC_EVENTS, .device, 0x20058, 1⟩,
   ⟨.PCC_ENERGY, .device, 0x20060, 1⟩,
   ⟨.PCC_JOB, .device, 0x20068, 1⟩,
   ⟨.PCC_JOB_LAST, .device, 0x20070, 1⟩,
   ⟨.PCC_STACK_TEMP, .device, 0x20078, 1⟩,
   ⟨.PCC_THR_DUR_i, .device, 0x20080, 7⟩,
   ⟨.PCC_PAIR_p, .device, 0x20800, 64⟩,
   ⟨.RL_CTRL, .device, 0x50000, 1⟩,
   ⟨.RL_STATUS, .device, 0x50008, 1⟩,
   ⟨.RL_EVENTS, .device, 0x50010, 1⟩,
   ⟨.RL_HEARTBEAT, .device, 0x50018, 1⟩,
   ⟨.RL_LOG_PTR, .device, 0x50020, 1⟩,
   ⟨.RL_CHECK, .device, 0x50028, 1⟩,
   ⟨.RL_CHECK_SEED, .device, 0x50030, 1⟩]

def regPlaces3 : List RegPlace :=
  [⟨.RL_TWIN, .device, 0x50038, 1⟩,
   ⟨.RL_TWIN_REP, .device, 0x50040, 1⟩,
   ⟨.RL_DUMP_CFG, .device, 0x50048, 1⟩,
   ⟨.RL_DUMP_RANGE_i, .device, 0x50080, 8⟩,
   ⟨.RL_HIVE_h, .device, 0x50100, 4⟩,
   ⟨.RL_DUMP_SLOT_g, .device, 0x50140, 4⟩,
   ⟨.RL_PAIR_p, .device, 0x50800, 64⟩,
   ⟨.BOOT_STATUS, .device, 0x40000, 1⟩,
   ⟨.BOOT_STOP, .device, 0x40008, 1⟩,
   ⟨.BOOT_FUSE, .device, 0x40010, 1⟩,
   ⟨.BOOT_SERIAL, .device, 0x40018, 1⟩,
   ⟨.BOOT_MEAS_i, .device, 0x40020, 4⟩,
   ⟨.BOOT_FW_MEAS_i, .device, 0x40040, 4⟩,
   ⟨.BOOT_EVENTS, .device, 0x40060, 1⟩,
   ⟨.BOOT_CMD, .device, 0x40068, 1⟩,
   ⟨.CTR_GLOBAL, .device, 0x60000, 1⟩,
   ⟨.CTR_USER, .device, 0x60008, 1⟩,
   ⟨.CTR_FREEZE, .device, 0x60010, 1⟩,
   ⟨.CTR_FREEZE_STATUS, .device, 0x60018, 1⟩,
   ⟨.CTR_CMD, .device, 0x60020, 1⟩,
   ⟨.CTR_WINDOW, .device, 0x60028, 1⟩,
   ⟨.CTR_EVENTS, .device, 0x60030, 1⟩,
   ⟨.PORTCTR_TX_LO, .ctrPort, 0x0, 1⟩,
   ⟨.PORTCTR_TX_HI, .ctrPort, 0x8, 1⟩,
   ⟨.PORTCTR_RX_LO, .ctrPort, 0x10, 1⟩,
   ⟨.PORTCTR_RX_HI, .ctrPort, 0x18, 1⟩,
   ⟨.PORTCTR_FWD_LO, .ctrPort, 0x20, 1⟩,
   ⟨.PORTCTR_FWD_HI, .ctrPort, 0x28, 1⟩,
   ⟨.PORTCTR_SNAP_TX_LO, .ctrPort, 0x40, 1⟩,
   ⟨.PORTCTR_SNAP_TX_HI, .ctrPort, 0x48, 1⟩,
   ⟨.PORTCTR_SNAP_RX_LO, .ctrPort, 0x50, 1⟩,
   ⟨.PORTCTR_SNAP_RX_HI, .ctrPort, 0x58, 1⟩,
   ⟨.PORTCTR_SNAP_FWD_LO, .ctrPort, 0x60, 1⟩,
   ⟨.PORTCTR_SNAP_FWD_HI, .ctrPort, 0x68, 1⟩,
   ⟨.PORTCTR_BW, .ctrPort, 0x30, 1⟩,
   ⟨.CTR_P_n, .ctrPair, 0x0, 8⟩,
   ⟨.CTR_P_SLOT_k, .ctrPair, 0x40, 4⟩,
   ⟨.CTR_P_SNAP_j, .ctrPair, 0x80, 12⟩,
   ⟨.CTR_P_SEL, .ctrPair, 0x60, 1⟩,
   ⟨.CTR_P_CTRL, .ctrPair, 0x68, 1⟩]

def regPlaces4 : List RegPlace :=
  [⟨.CTR_P_OVF, .ctrPair, 0x70, 1⟩,
   ⟨.CTR_P_SAMPLE, .ctrPair, 0x78, 1⟩,
   ⟨.CTR_P_SAMPLE_LAST, .ctrPair, 0xE0, 1⟩]

/-- Every register of R449 with its place. -/
def regPlaces : List RegPlace := regPlaces0 ++ regPlaces1 ++ regPlaces2 ++ regPlaces3 ++ regPlaces4

/-- The named fields of a register, high to low, with access codes and After reset values; reserved bits are in no row. -/
def Reg.fields : Reg → List FieldInfo
  | .BREATH_CTRL => [⟨7, 7, .rw, 1⟩, ⟨6, 5, .rw, 0⟩, ⟨4, 4, .rw, 0⟩]
  | .BREATH_PERIOD => [⟨39, 32, .rw, 24⟩, ⟨17, 0, .rw, 10000⟩]
  | .BREATH_STATUS => [⟨9, 9, .ro, 0⟩, ⟨8, 8, .ro, 0⟩, ⟨7, 7, .ro, 0⟩, ⟨6, 6, .ro, 0⟩, ⟨5, 4, .ro, 0⟩, ⟨3, 0, .ro, 0⟩]
  | .BREATH_EVENTS => [⟨9, 9, .w1c, 0⟩, ⟨8, 8, .w1c, 0⟩, ⟨7, 7, .w1c, 0⟩, ⟨6, 6, .w1c, 0⟩, ⟨5, 5, .w1c, 0⟩, ⟨4, 4, .w1c, 0⟩, ⟨3, 3, .w1c, 0⟩, ⟨2, 2, .w1c, 0⟩, ⟨1, 1, .w1c, 0⟩, ⟨0, 0, .w1c, 0⟩]
  | .BREATH_TICK => [⟨63, 48, .ro, 0⟩, ⟨47, 0, .ro, 0⟩]
  | .BREATH_SCHED => [⟨47, 0, .ro, 0⟩]
  | .BREATH_COUNTS => [⟨63, 32, .ro, 0⟩, ⟨31, 0, .ro, 0⟩]
  | .BREATH_OVERRUN_PAIRS => [⟨63, 0, .ro, 0⟩]
  | .BREATH_SLACK => [⟨37, 32, .ro, 0⟩, ⟨31, 0, .ro, 0⟩]
  | .BREATH_START => [⟨47, 0, .rw, 0⟩]
  | .BREATH_CMD => [⟨2, 2, .wo, 0⟩, ⟨1, 1, .wo, 0⟩, ⟨0, 0, .wo, 0⟩]
  | .BREATH_COMP => [⟨35, 32, .ro, 15⟩, ⟨31, 24, .ro, 0⟩, ⟨23, 0, .rw, 60000⟩]
  | .BREATH_STRETCH => [⟨15, 8, .ro, 0⟩, ⟨7, 0, .rw, 4⟩]
  | .BREATH_TICKIN => [⟨63, 32, .ro, 0⟩, ⟨17, 2, .rw, 0⟩, ⟨1, 0, .ro, 0⟩]
  | .ARRAY_CTRL => [⟨31, 24, .rw, 16⟩, ⟨23, 22, .rw, 0⟩, ⟨21, 21, .rw, 1⟩, ⟨20, 20, .rw, 0⟩, ⟨19, 19, .rw, 0⟩, ⟨13, 8, .rw, 8⟩]
  | .ARRAY_SPILL => [⟨7, 0, .rw, 248⟩]
  | .ARRAY_STATUS => [⟨45, 40, .ro, 0⟩, ⟨38, 38, .ro, 0⟩, ⟨37, 36, .ro, 0⟩, ⟨31, 0, .ro, 0⟩]
  | .ARRAY_EVENTS => [⟨9, 9, .w1c, 0⟩, ⟨8, 8, .w1c, 0⟩, ⟨7, 7, .w1c, 0⟩, ⟨6, 6, .w1c, 0⟩, ⟨5, 5, .w1c, 0⟩, ⟨4, 4, .w1c, 0⟩, ⟨3, 3, .w1c, 0⟩, ⟨2, 2, .w1c, 0⟩, ⟨1, 1, .w1c, 0⟩, ⟨0, 0, .w1c, 0⟩]
  | .ARRAY_ECC => [⟨63, 32, .ro, 0⟩, ⟨31, 0, .ro, 0⟩]
  | .ARRAY_SPILLS => [⟨63, 32, .ro, 0⟩, ⟨31, 0, .ro, 0⟩]
  | .NUM_SEED => [⟨63, 0, .rw, 0⟩]
  | .NUM_CTRL => [⟨32, 32, .rw, 0⟩, ⟨31, 24, .rw, 216⟩, ⟨23, 16, .rw, 216⟩, ⟨15, 8, .rw, 216⟩, ⟨7, 0, .rw, 216⟩]
  | .NUM_EVENTS => [⟨9, 9, .w1c, 0⟩, ⟨8, 8, .w1c, 0⟩, ⟨7, 7, .w1c, 0⟩, ⟨6, 6, .w1c, 0⟩, ⟨5, 5, .w1c, 0⟩, ⟨4, 4, .w1c, 0⟩, ⟨3, 3, .w1c, 0⟩, ⟨2, 2, .w1c, 0⟩, ⟨1, 1, .w1c, 0⟩, ⟨0, 0, .w1c, 0⟩]
  | .NUM_CVT_COUNTS => [⟨63, 32, .ro, 0⟩, ⟨31, 0, .ro, 0⟩]
  | .QUANT_CTRL => [⟨16, 16, .rw, 0⟩, ⟨12, 8, .rw, 16⟩, ⟨0, 0, .rw, 0⟩]
  | .QUANT_EVENTS => [⟨7, 7, .w1c, 0⟩, ⟨6, 6, .w1c, 0⟩, ⟨5, 5, .w1c, 0⟩, ⟨4, 4, .w1c, 0⟩, ⟨3, 3, .w1c, 0⟩, ⟨2, 2, .w1c, 0⟩, ⟨1, 1, .w1c, 0⟩, ⟨0, 0, .w1c, 0⟩]
  | .QUANT_COUNTS => [⟨63, 32, .ro, 0⟩, ⟨31, 0, .ro, 0⟩]
  | .FORAGER_CTRL => [⟨5, 4, .rw, 1⟩, ⟨3, 3, .rw, 1⟩, ⟨2, 2, .rw, 1⟩, ⟨1, 1, .rw, 1⟩, ⟨0, 0, .rw, 1⟩]
  | .FORAGER_RING => [⟨40, 32, .rw, 16⟩, ⟨16, 0, .rw, 0x1FFF0⟩]
  | .FORAGER_STATUS => [⟨59, 40, .ro, 0⟩, ⟨32, 30, .ro, 0⟩, ⟨29, 29, .ro, 0⟩, ⟨28, 28, .ro, 0⟩, ⟨27, 0, .ro, 0⟩]
  | .FORAGER_EVENTS => [⟨10, 10, .w1c, 0⟩, ⟨9, 9, .w1c, 0⟩, ⟨8, 8, .w1c, 0⟩, ⟨7, 7, .w1c, 0⟩, ⟨6, 6, .w1c, 0⟩, ⟨5, 5, .w1c, 0⟩, ⟨4, 4, .w1c, 0⟩, ⟨3, 3, .w1c, 0⟩, ⟨2, 2, .w1c, 0⟩, ⟨1, 1, .w1c, 0⟩, ⟨0, 0, .w1c, 0⟩]
  | .FORAGER_SPARSE => [⟨63, 40, .ro, 0⟩, ⟨39, 16, .ro, 0⟩, ⟨15, 0, .ro, 0⟩]
  | .FORAGER_SPILLS => [⟨63, 32, .ro, 0⟩, ⟨31, 0, .ro, 0⟩]
  | .FORAGER_ECC => [⟨63, 32, .ro, 0⟩, ⟨31, 0, .ro, 0⟩]
  | .SCORE_MASK => [⟨63, 0, .rw, 0⟩]
  | .SCORE_CMD => [⟨1, 1, .wo, 0⟩, ⟨0, 0, .wo, 0⟩]
  | .SCORE_STATUS => [⟨13, 8, .ro, 0⟩, ⟨3, 0, .ro, 0⟩]
  | .SEQ_SCORE => [⟨63, 44, .rw, 0⟩, ⟨43, 12, .rw, 0⟩]
  | .SEQ_ENTRY => [⟨19, 0, .rw, 0⟩]
  | .SEQ_CTRL => [⟨7, 7, .rw, 1⟩, ⟨2, 0, .rw, 4⟩]
  | .SEQ_STATUS => [⟨63, 44, .ro, 0⟩, ⟨19, 16, .ro, 0⟩, ⟨8, 8, .ro, 1⟩, ⟨3, 0, .ro, 0⟩]
  | .SEQ_EVENTS => [⟨3, 3, .w1c, 0⟩, ⟨2, 2, .w1c, 0⟩, ⟨1, 1, .w1c, 0⟩, ⟨0, 0, .w1c, 0⟩]
  | .SEQ_FAULT => [⟨63, 44, .ro, 0⟩, ⟨21, 16, .ro, 0⟩, ⟨15, 12, .ro, 0⟩, ⟨7, 0, .ro, 0⟩]
  | .SEQ_CMD => [⟨2, 2, .wo, 0⟩, ⟨1, 1, .wo, 0⟩, ⟨0, 0, .wo, 0⟩]
  | .SEQ_SEM_i => [⟨31, 0, .ro, 0⟩]
  | .SEQ_SCALAR_i => [⟨63, 0, .ro, 0⟩]
  | .MEM_POISON_REC => [⟨63, 48, .ro, 0⟩, ⟨47, 32, .ro, 0⟩, ⟨31, 16, .ro, 0⟩, ⟨15, 4, .ro, 0⟩, ⟨0, 0, .wo, 0⟩]
  | .MEM_CTRL => [⟨39, 32, .rw, 100⟩, ⟨31, 31, .rw, 1⟩, ⟨27, 22, .rw, 24⟩, ⟨21, 16, .rw, 12⟩, ⟨3, 2, .rw, 1⟩, ⟨1, 1, .rw, 0⟩, ⟨0, 0, .rw, 1⟩]
  | .MEM_STATUS => [⟨31, 24, .ro, 0⟩, ⟨23, 16, .ro, 0⟩, ⟨15, 8, .ro, 0⟩, ⟨7, 7, .ro, 0⟩, ⟨3, 3, .ro, 0⟩, ⟨2, 2, .ro, 0⟩, ⟨1, 1, .ro, 0⟩, ⟨0, 0, .ro, 0⟩]
  | .MEM_EVENTS => [⟨9, 9, .w1c, 0⟩, ⟨8, 8, .w1c, 0⟩, ⟨7, 7, .w1c, 0⟩, ⟨6, 6, .w1c, 0⟩, ⟨5, 5, .w1c, 0⟩, ⟨4, 4, .w1c, 0⟩, ⟨3, 3, .w1c, 0⟩, ⟨2, 2, .w1c, 0⟩, ⟨1, 1, .w1c, 0⟩, ⟨0, 0, .w1c, 0⟩]
  | .MEM_ECC_NEAR => [⟨63, 32, .ro, 0⟩, ⟨31, 0, .ro, 0⟩]
  | .MEM_ECC_FAR => [⟨63, 32, .ro, 0⟩, ⟨31, 0, .ro, 0⟩]
  | .MEM_CHAN_j => [⟨63, 48, .ro, 0⟩, ⟨47, 32, .ro, 0⟩, ⟨31, 16, .ro, 0⟩, ⟨15, 8, .ro, 0⟩, ⟨7, 0, .ro, 0⟩]
  | .COMB_ECC => [⟨63, 32, .ro, 0⟩, ⟨31, 0, .ro, 0⟩]
  | .ROUTE_CTRL => [⟨33, 30, .rw, 0⟩, ⟨29, 26, .rw, 1⟩, ⟨25, 18, .rw, 13⟩, ⟨17, 10, .rw, 16⟩, ⟨0, 0, .rw, 0⟩]
  | .ROUTE_LOOP => [⟨63, 32, .rw, 1082130432⟩, ⟨31, 0, .rw, 981668463⟩]
  | .ROUTE_DEST => [⟨63, 0, .rw, 0⟩]
  | .ROUTE_STATUS => [⟨63, 16, .ro, 0⟩, ⟨1, 1, .ro, 0⟩, ⟨0, 0, .ro, 0⟩]
  | .ROUTE_EVENTS => [⟨8, 8, .w1c, 0⟩, ⟨7, 7, .w1c, 0⟩, ⟨6, 6, .w1c, 0⟩, ⟨5, 5, .w1c, 0⟩, ⟨4, 4, .w1c, 0⟩, ⟨3, 3, .w1c, 0⟩, ⟨2, 2, .w1c, 0⟩, ⟨1, 1, .w1c, 0⟩, ⟨0, 0, .w1c, 0⟩]
  | .ROUTE_COUNTS => [⟨63, 32, .ro, 0⟩, ⟨31, 16, .ro, 0⟩, ⟨15, 0, .ro, 0⟩]
  | .ROUTE_DROPS => [⟨63, 32, .ro, 0⟩, ⟨31, 16, .ro, 0⟩, ⟨15, 0, .ro, 0⟩]
  | .ROUTER_r => [⟨48, 32, .rw, 0⟩, ⟨27, 16, .rw, 0⟩, ⟨12, 0, .rw, 0⟩]
  | .ROUTE_BIAS_i => [⟨63, 32, .rw, 0⟩, ⟨31, 0, .rw, 0⟩]
  | .ROUTE_LOAD_i => [⟨63, 32, .ro, 0⟩, ⟨31, 0, .ro, 0⟩]
  | .GEX_CTRL => [⟨2, 2, .rw, 1⟩, ⟨1, 1, .rw, 0⟩, ⟨0, 0, .rw, 0⟩]
  | .GEX_EXCLUDE => [⟨63, 48, .rw, 0⟩, ⟨47, 32, .rw, 0⟩, ⟨31, 16, .rw, 0⟩, ⟨15, 0, .rw, 0⟩]
  | .GEX_EVENTS => [⟨9, 9, .w1c, 0⟩, ⟨8, 8, .w1c, 0⟩, ⟨7, 7, .w1c, 0⟩, ⟨6, 6, .w1c, 0⟩, ⟨5, 5, .w1c, 0⟩, ⟨4, 4, .w1c, 0⟩, ⟨3, 3, .w1c, 0⟩, ⟨2, 2, .w1c, 0⟩, ⟨1, 1, .w1c, 0⟩]
  | .GEX_COUNTS => [⟨63, 32, .ro, 0⟩, ⟨31, 0, .ro, 0⟩]
  | .GEX_LAST => [⟨63, 48, .ro, 0⟩, ⟨47, 46, .ro, 0⟩, ⟨45, 42, .ro, 0⟩, ⟨41, 36, .ro, 0⟩, ⟨31, 0, .ro, 0⟩]
  | .GEX_NORM => [⟨63, 0, .ro, 0⟩]
  | .GEX_NORM_CNT => [⟨63, 32, .ro, 0⟩, ⟨31, 0, .ro, 0⟩]
  | .LINK_CTRL => [⟨15, 8, .rw, 48⟩, ⟨1, 1, .rw, 0⟩]
  | .LINK_TIMEOUT => [⟨47, 32, .rw, 10⟩, ⟨15, 0, .rw, 2500⟩]
  | .LINK_EVENTS => [⟨9, 9, .w1c, 0⟩, ⟨8, 8, .w1c, 0⟩, ⟨7, 7, .w1c, 0⟩, ⟨6, 6, .w1c, 0⟩, ⟨5, 5, .w1c, 0⟩, ⟨4, 4, .w1c, 0⟩, ⟨3, 3, .w1c, 0⟩, ⟨2, 2, .w1c, 0⟩, ⟨1, 1, .w1c, 0⟩, ⟨0, 0, .w1c, 0⟩]
  | .LINK_COUNTS => [⟨63, 48, .ro, 0⟩, ⟨47, 32, .ro, 0⟩, ⟨31, 16, .ro, 0⟩, ⟨15, 0, .ro, 0⟩]
  | .PORT_CTRL => [⟨23, 16, .rw, 136⟩, ⟨7, 6, .rwl, 0⟩, ⟨5, 5, .rw, 0⟩, ⟨4, 4, .rw, 1⟩]
  | .PORT_CMD => [⟨1, 1, .wo, 0⟩, ⟨0, 0, .wo, 0⟩]
  | .PORT_STATUS => [⟨63, 48, .ro, 0⟩, ⟨47, 44, .ro, 0⟩, ⟨39, 16, .ro, 0⟩, ⟨15, 8, .ro, 0⟩, ⟨5, 4, .ro, 0⟩, ⟨3, 0, .ro, 0⟩]
  | .PORT_EVENTS => [⟨9, 9, .w1c, 0⟩, ⟨8, 8, .w1c, 0⟩, ⟨7, 7, .w1c, 0⟩, ⟨6, 6, .w1c, 0⟩, ⟨5, 5, .w1c, 0⟩, ⟨4, 4, .w1c, 0⟩, ⟨3, 3, .w1c, 0⟩, ⟨2, 2, .w1c, 0⟩, ⟨1, 1, .w1c, 0⟩, ⟨0, 0, .w1c, 0⟩]
  | .PORT_FEC => [⟨63, 16, .ro, 0⟩, ⟨15, 0, .ro, 0⟩]
  | .PORT_REPLAY => [⟨63, 32, .ro, 0⟩, ⟨31, 0, .ro, 0⟩]
  | .PORT_OSET => [⟨31, 0, .ro, 0⟩]
  | .PORT_LANE_k => [⟨23, 16, .ro, 0⟩, ⟨15, 8, .ro, 0⟩, ⟨1, 1, .ro, 0⟩, ⟨0, 0, .ro, 0⟩]
  | .GROUP_CFG => [⟨63, 48, .rwl, 0⟩, ⟨47, 32, .rwl, 0⟩, ⟨31, 16, .rwl, 0⟩, ⟨15, 0, .rwl, 0⟩]
  | .GROUP_RINGS => [⟨31, 16, .rwl, 100⟩, ⟨15, 0, .rwl, 0⟩]
  | .GROUP_STATUS => [⟨63, 48, .ro, 0⟩, ⟨47, 32, .ro, 0⟩, ⟨31, 23, .ro, 0⟩, ⟨22, 15, .ro, 0⟩, ⟨5, 4, .ro, 0⟩, ⟨3, 0, .ro, 0⟩]
  | .ENUM_CMD => [⟨2, 2, .wo, 0⟩, ⟨1, 1, .wo, 0⟩, ⟨0, 0, .wo, 0⟩]
  | .ENUM_EVENTS => [⟨7, 7, .w1c, 0⟩, ⟨6, 6, .w1c, 0⟩, ⟨5, 5, .w1c, 0⟩, ⟨4, 4, .w1c, 0⟩, ⟨3, 3, .w1c, 0⟩, ⟨2, 2, .w1c, 0⟩, ⟨1, 1, .w1c, 0⟩, ⟨0, 0, .w1c, 0⟩]
  | .ENUM_CONFLICT => [⟨63, 48, .ro, 0⟩, ⟨47, 32, .ro, 0⟩, ⟨25, 24, .ro, 0⟩, ⟨7, 0, .ro, 0⟩]
  | .HOST_CTRL => [⟨16, 1, .rw, 20⟩, ⟨0, 0, .rw, 0⟩]
  | .HOST_EVENTS => [⟨3, 3, .w1c, 0⟩, ⟨2, 2, .w1c, 0⟩, ⟨1, 1, .w1c, 0⟩, ⟨0, 0, .w1c, 0⟩]
  | .HOST_EVQ_BASE => [⟨63, 12, .rw, 0⟩, ⟨3, 0, .rw, 0⟩]
  | .HOST_EVQ_PTR => [⟨63, 48, .ro, 0⟩, ⟨31, 16, .ro, 0⟩, ⟨15, 0, .rw, 0⟩]
  | .HOST_WIN_n => [⟨63, 63, .rw, 0⟩, ⟨15, 0, .rw, 0⟩]
  | .HOST_APT_n => [⟨63, 63, .rw, 0⟩, ⟨59, 44, .rw, 0⟩, ⟨43, 32, .rw, 0⟩]
  | .PCC_CTRL => [⟨7, 7, .rw, 0⟩, ⟨6, 6, .rw, 0⟩, ⟨5, 4, .rw, 1⟩, ⟨3, 3, .rw, 1⟩]
  | .PCC_VOLT => [⟨55, 48, .rw, 80⟩, ⟨47, 40, .rw, 100⟩, ⟨39, 32, .rw, 0⟩, ⟨28, 24, .rw, 0⟩, ⟨7, 0, .ro, 0⟩]
  | .PCC_CLOCK => [⟨23, 16, .rw, 0⟩, ⟨15, 8, .rw, 40⟩, ⟨7, 0, .rw, 70⟩]
  | .PCC_CAP => [⟨43, 32, .rw, 2300⟩, ⟨10, 0, .rw, 1600⟩]
  | .PCC_LOOP => [⟨31, 24, .rw, 16⟩, ⟨23, 16, .rw, 4⟩, ⟨15, 8, .rw, 4⟩, ⟨7, 0, .rw, 1⟩]
  | .PCC_HUM => [⟨23, 16, .rw, 40⟩, ⟨11, 8, .rw, 8⟩]
  | .PCC_THERM => [⟨7, 0, .rw, 90⟩]
  | .PCC_BRAKE => [⟨63, 32, .ro, 0⟩, ⟨31, 16, .rw, 5⟩, ⟨2, 0, .rw, 2⟩]
  | .PCC_MARGIN => [⟨11, 8, .rw, 0⟩, ⟨4, 0, .rw, 0⟩]
  | .PCC_MARGIN_PAIRS => [⟨63, 0, .rw, 0⟩]
  | .PCC_STATUS => [⟨63, 48, .ro, 0⟩, ⟨47, 40, .ro, 0⟩, ⟨35, 32, .ro, 8⟩, ⟨31, 16, .ro, 0⟩, ⟨15, 8, .ro, 0⟩, ⟨7, 7, .ro, 0⟩, ⟨6, 0, .ro, 0⟩]
  | .PCC_EVENTS => [⟨10, 10, .w1c, 0⟩, ⟨9, 9, .w1c, 0⟩, ⟨8, 8, .w1c, 0⟩, ⟨7, 7, .w1c, 0⟩, ⟨6, 6, .w1c, 0⟩, ⟨5, 5, .w1c, 0⟩, ⟨4, 4, .w1c, 0⟩, ⟨3, 3, .w1c, 0⟩, ⟨2, 2, .w1c, 0⟩, ⟨1, 1, .w1c, 0⟩, ⟨0, 0, .w1c, 0⟩]
  | .PCC_ENERGY => [⟨63, 0, .ro, 0⟩]
  | .PCC_JOB => [⟨63, 32, .ro, 0⟩, ⟨31, 0, .rw, 0⟩]
  | .PCC_JOB_LAST => [⟨63, 0, .ro, 0⟩]
  | .PCC_STACK_TEMP => [⟨31, 0, .ro, 0⟩]
  | .PCC_THR_DUR_i => [⟨47, 0, .ro, 0⟩]
  | .PCC_PAIR_p => [⟨57, 50, .ro, 0⟩, ⟨49, 40, .ro, 0⟩, ⟨39, 30, .ro, 0⟩, ⟨20, 16, .ro, 0⟩, ⟨4, 0, .rw, 0⟩]
  | .RL_CTRL => [⟨47, 40, .rw, 8⟩, ⟨39, 26, .rw, 500⟩, ⟨15, 12, .rw, 3⟩, ⟨4, 4, .rw, 1⟩, ⟨3, 0, .rw, 15⟩]
  | .RL_STATUS => [⟨31, 24, .ro, 0⟩, ⟨7, 7, .ro, 0⟩, ⟨6, 6, .ro, 0⟩, ⟨5, 2, .ro, 0⟩, ⟨1, 1, .ro, 0⟩, ⟨0, 0, .ro, 0⟩]
  | .RL_EVENTS => [⟨15, 15, .w1c, 0⟩, ⟨14, 14, .w1c, 0⟩, ⟨13, 13, .w1c, 0⟩, ⟨12, 12, .w1c, 0⟩, ⟨11, 11, .w1c, 0⟩, ⟨10, 10, .w1c, 0⟩, ⟨9, 9, .w1c, 0⟩, ⟨8, 8, .w1c, 0⟩, ⟨7, 7, .w1c, 0⟩, ⟨6, 6, .w1c, 0⟩, ⟨5, 5, .w1c, 0⟩, ⟨4, 4, .w1c, 0⟩, ⟨3, 3, .w1c, 0⟩, ⟨2, 2, .w1c, 0⟩, ⟨1, 1, .w1c, 0⟩, ⟨0, 0, .w1c, 0⟩]
  | .RL_HEARTBEAT => [⟨0, 0, .wo, 0⟩]
  | .RL_LOG_PTR => [⟨63, 32, .ro, 0⟩, ⟨31, 16, .ro, 0⟩, ⟨15, 9, .ro, 0⟩, ⟨8, 0, .ro, 32⟩]
  | .RL_CHECK => [⟨23, 20, .rw, 2⟩, ⟨19, 16, .rw, 4⟩, ⟨15, 12, .rw, 1⟩, ⟨11, 0, .rw, 511⟩]
  | .RL_CHECK_SEED => [⟨63, 0, .rw, 0⟩]
  | .RL_TWIN => [⟨63, 56, .rw, 0⟩, ⟨47, 0, .rw, 0⟩]
  | .RL_TWIN_REP => [⟨31, 0, .rw, 0⟩]
  | .RL_DUMP_CFG => [⟨7, 0, .rw, 50⟩]
  | .RL_DUMP_RANGE_i => [⟨63, 63, .rw, 0⟩, ⟨59, 44, .rw, 0⟩, ⟨43, 16, .rw, 0⟩]
  | .RL_HIVE_h => [⟨63, 48, .ro, 0⟩, ⟨47, 40, .ro, 0⟩, ⟨39, 36, .ro, 0⟩, ⟨35, 4, .ro, 0⟩, ⟨3, 0, .ro, 3⟩]
  | .RL_DUMP_SLOT_g => [⟨63, 63, .ro, 0⟩, ⟨62, 62, .wo, 0⟩, ⟨61, 60, .ro, 0⟩, ⟨59, 56, .ro, 0⟩, ⟨31, 0, .ro, 0⟩]
  | .RL_PAIR_p => [⟨63, 32, .ro, 0⟩, ⟨31, 24, .ro, 0⟩, ⟨23, 16, .ro, 0⟩, ⟨15, 8, .ro, 0⟩, ⟨7, 0, .ro, 0⟩]
  | .BOOT_STATUS => [⟨63, 32, .ro, 0⟩, ⟨20, 20, .ro, 0⟩, ⟨17, 16, .ro, 0⟩, ⟨15, 8, .ro, 0⟩, ⟨3, 0, .ro, 0⟩]
  | .BOOT_STOP => [⟨63, 32, .ro, 0⟩, ⟨31, 28, .ro, 0⟩, ⟨27, 24, .ro, 15⟩, ⟨21, 20, .ro, 1⟩, ⟨18, 16, .ro, 1⟩, ⟨6, 5, .ro, 0⟩, ⟨4, 4, .ro, 0⟩, ⟨1, 0, .ro, 0⟩]
  | .BOOT_FUSE => [⟨24, 24, .ro, 0⟩, ⟨23, 20, .ro, 0⟩, ⟨17, 16, .ro, 0⟩, ⟨14, 8, .ro, 0⟩, ⟨6, 0, .ro, 0⟩]
  | .BOOT_SERIAL => [⟨63, 0, .ro, 0⟩]
  | .BOOT_MEAS_i => [⟨63, 0, .ro, 0⟩]
  | .BOOT_FW_MEAS_i => [⟨63, 0, .ro, 0⟩]
  | .BOOT_EVENTS => [⟨4, 4, .w1c, 0⟩, ⟨3, 3, .w1c, 0⟩, ⟨2, 2, .w1c, 0⟩, ⟨1, 1, .w1c, 0⟩, ⟨0, 0, .w1c, 0⟩]
  | .BOOT_CMD => [⟨0, 0, .wo, 0⟩]
  | .CTR_GLOBAL => [⟨0, 0, .rw, 1⟩]
  | .CTR_USER => [⟨0, 0, .rw, 0⟩]
  | .CTR_FREEZE => [⟨63, 48, .rw, 0⟩, ⟨47, 0, .rw, 0⟩]
  | .CTR_FREEZE_STATUS => [⟨49, 49, .ro, 0⟩, ⟨48, 48, .ro, 0⟩, ⟨47, 0, .ro, 0⟩]
  | .CTR_CMD => [⟨1, 1, .wo, 0⟩, ⟨0, 0, .wo, 0⟩]
  | .CTR_WINDOW => [⟨63, 32, .ro, 0⟩, ⟨7, 0, .rw, 16⟩]
  | .CTR_EVENTS => [⟨0, 0, .w1c, 0⟩]
  | .PORTCTR_TX_LO => [⟨47, 0, .ro, 0⟩]
  | .PORTCTR_TX_HI => [⟨47, 0, .ro, 0⟩]
  | .PORTCTR_RX_LO => [⟨47, 0, .ro, 0⟩]
  | .PORTCTR_RX_HI => [⟨47, 0, .ro, 0⟩]
  | .PORTCTR_FWD_LO => [⟨47, 0, .ro, 0⟩]
  | .PORTCTR_FWD_HI => [⟨47, 0, .ro, 0⟩]
  | .PORTCTR_SNAP_TX_LO => [⟨47, 0, .ro, 0⟩]
  | .PORTCTR_SNAP_TX_HI => [⟨47, 0, .ro, 0⟩]
  | .PORTCTR_SNAP_RX_LO => [⟨47, 0, .ro, 0⟩]
  | .PORTCTR_SNAP_RX_HI => [⟨47, 0, .ro, 0⟩]
  | .PORTCTR_SNAP_FWD_LO => [⟨47, 0, .ro, 0⟩]
  | .PORTCTR_SNAP_FWD_HI => [⟨47, 0, .ro, 0⟩]
  | .PORTCTR_BW => [⟨63, 32, .ro, 0⟩, ⟨31, 0, .ro, 0⟩]
  | .CTR_P_n => [⟨47, 0, .ro, 0⟩]
  | .CTR_P_SLOT_k => [⟨47, 0, .ro, 0⟩]
  | .CTR_P_SNAP_j => [⟨47, 0, .ro, 0⟩]
  | .CTR_P_SEL => [⟨63, 0, .rw, 0⟩]
  | .CTR_P_CTRL => [⟨27, 16, .wo, 0⟩, ⟨11, 0, .rw, 4095⟩]
  | .CTR_P_OVF => [⟨11, 0, .w1c, 0⟩]
  | .CTR_P_SAMPLE => [⟨13, 8, .rw, 20⟩, ⟨3, 1, .rw, 0⟩, ⟨0, 0, .rw, 0⟩]
  | .CTR_P_SAMPLE_LAST => [⟨63, 32, .ro, 0⟩, ⟨31, 24, .ro, 0⟩, ⟨22, 20, .ro, 0⟩, ⟨19, 0, .ro, 0⟩]

/-- How many instances of a register one unit holds (R448). -/
def Reg.count : Reg → Nat
  | .SEQ_SEM_i => 64
  | .SEQ_SCALAR_i => 32
  | .MEM_CHAN_j => 8
  | .ROUTER_r => 16
  | .ROUTE_BIAS_i => 2048
  | .ROUTE_LOAD_i => 2048
  | .PORT_LANE_k => 8
  | .HOST_WIN_n => 8
  | .HOST_APT_n => 16
  | .PCC_THR_DUR_i => 7
  | .PCC_PAIR_p => 64
  | .RL_DUMP_RANGE_i => 8
  | .RL_HIVE_h => 4
  | .RL_DUMP_SLOT_g => 4
  | .RL_PAIR_p => 64
  | .BOOT_MEAS_i => 4
  | .BOOT_FW_MEAS_i => 4
  | .CTR_P_n => 8
  | .CTR_P_SLOT_k => 4
  | .CTR_P_SNAP_j => 12
  | _ => 1

/-- BREATH_CTRL.tickout_en (R52). -/
abbrev F.BREATH_CTRL_tickout_en : Fld := ⟨.BREATH_CTRL, 7, 7⟩
/-- BREATH_CTRL.tick_source (R52). -/
abbrev F.BREATH_CTRL_tick_source : Fld := ⟨.BREATH_CTRL, 6, 5⟩
/-- BREATH_CTRL.overrun_policy (R52). -/
abbrev F.BREATH_CTRL_overrun_policy : Fld := ⟨.BREATH_CTRL, 4, 4⟩
/-- BREATH_PERIOD.guard_q (R52). -/
abbrev F.BREATH_PERIOD_guard_q : Fld := ⟨.BREATH_PERIOD, 39, 32⟩
/-- BREATH_PERIOD.period (R52). -/
abbrev F.BREATH_PERIOD_period : Fld := ⟨.BREATH_PERIOD, 17, 0⟩
/-- BREATH_STATUS.period_mismatch (R52). -/
abbrev F.BREATH_STATUS_period_mismatch : Fld := ⟨.BREATH_STATUS, 9, 9⟩
/-- BREATH_STATUS.reroute_active (R52). -/
abbrev F.BREATH_STATUS_reroute_active : Fld := ⟨.BREATH_STATUS, 8, 8⟩
/-- BREATH_STATUS.hold_pending (R52). -/
abbrev F.BREATH_STATUS_hold_pending : Fld := ⟨.BREATH_STATUS, 7, 7⟩
/-- BREATH_STATUS.is_master (R52). -/
abbrev F.BREATH_STATUS_is_master : Fld := ⟨.BREATH_STATUS, 6, 6⟩
/-- BREATH_STATUS.source_active (R52). -/
abbrev F.BREATH_STATUS_source_active : Fld := ⟨.BREATH_STATUS, 5, 4⟩
/-- BREATH_STATUS.state (R52). -/
abbrev F.BREATH_STATUS_state : Fld := ⟨.BREATH_STATUS, 3, 0⟩
/-- BREATH_EVENTS.master_conflict (R52). -/
abbrev F.BREATH_EVENTS_master_conflict : Fld := ⟨.BREATH_EVENTS, 9, 9⟩
/-- BREATH_EVENTS.ignored_write (R52). -/
abbrev F.BREATH_EVENTS_ignored_write : Fld := ⟨.BREATH_EVENTS, 8, 8⟩
/-- BREATH_EVENTS.period_mismatch (R52). -/
abbrev F.BREATH_EVENTS_period_mismatch : Fld := ⟨.BREATH_EVENTS, 7, 7⟩
/-- BREATH_EVENTS.stretch_limit (R52). -/
abbrev F.BREATH_EVENTS_stretch_limit : Fld := ⟨.BREATH_EVENTS, 6, 6⟩
/-- BREATH_EVENTS.stretch_late (R52). -/
abbrev F.BREATH_EVENTS_stretch_late : Fld := ⟨.BREATH_EVENTS, 5, 5⟩
/-- BREATH_EVENTS.late_arrival (R52). -/
abbrev F.BREATH_EVENTS_late_arrival : Fld := ⟨.BREATH_EVENTS, 4, 4⟩
/-- BREATH_EVENTS.tick_in_reject (R52). -/
abbrev F.BREATH_EVENTS_tick_in_reject : Fld := ⟨.BREATH_EVENTS, 3, 3⟩
/-- BREATH_EVENTS.tick_lost (R52). -/
abbrev F.BREATH_EVENTS_tick_lost : Fld := ⟨.BREATH_EVENTS, 2, 2⟩
/-- BREATH_EVENTS.stretch (R52). -/
abbrev F.BREATH_EVENTS_stretch : Fld := ⟨.BREATH_EVENTS, 1, 1⟩
/-- BREATH_EVENTS.overrun (R52). -/
abbrev F.BREATH_EVENTS_overrun : Fld := ⟨.BREATH_EVENTS, 0, 0⟩
/-- BREATH_TICK.master_id (R52). -/
abbrev F.BREATH_TICK_master_id : Fld := ⟨.BREATH_TICK, 63, 48⟩
/-- BREATH_TICK.tick_number (R52). -/
abbrev F.BREATH_TICK_tick_number : Fld := ⟨.BREATH_TICK, 47, 0⟩
/-- BREATH_SCHED.sched_breath (R52). -/
abbrev F.BREATH_SCHED_sched_breath : Fld := ⟨.BREATH_SCHED, 47, 0⟩
/-- BREATH_COUNTS.stretch_count (R52). -/
abbrev F.BREATH_COUNTS_stretch_count : Fld := ⟨.BREATH_COUNTS, 63, 32⟩
/-- BREATH_COUNTS.overrun_count (R52). -/
abbrev F.BREATH_COUNTS_overrun_count : Fld := ⟨.BREATH_COUNTS, 31, 0⟩
/-- BREATH_OVERRUN_PAIRS.pairs (R52). -/
abbrev F.BREATH_OVERRUN_PAIRS_pairs : Fld := ⟨.BREATH_OVERRUN_PAIRS, 63, 0⟩
/-- BREATH_SLACK.min_pair (R52). -/
abbrev F.BREATH_SLACK_min_pair : Fld := ⟨.BREATH_SLACK, 37, 32⟩
/-- BREATH_SLACK.min_slack (R52). -/
abbrev F.BREATH_SLACK_min_slack : Fld := ⟨.BREATH_SLACK, 31, 0⟩
/-- BREATH_START.start_tick (R52). -/
abbrev F.BREATH_START_start_tick : Fld := ⟨.BREATH_START, 47, 0⟩
/-- BREATH_CMD.resume (R52). -/
abbrev F.BREATH_CMD_resume : Fld := ⟨.BREATH_CMD, 2, 2⟩
/-- BREATH_CMD.arm (R52). -/
abbrev F.BREATH_CMD_arm : Fld := ⟨.BREATH_CMD, 1, 1⟩
/-- BREATH_CMD.cease (R52). -/
abbrev F.BREATH_CMD_cease : Fld := ⟨.BREATH_CMD, 0, 0⟩
/-- BREATH_COMP.parent_port (R52). -/
abbrev F.BREATH_COMP_parent_port : Fld := ⟨.BREATH_COMP, 35, 32⟩
/-- BREATH_COMP.hop_count (R52). -/
abbrev F.BREATH_COMP_hop_count : Fld := ⟨.BREATH_COMP, 31, 24⟩
/-- BREATH_COMP.tick_budget (R52). -/
abbrev F.BREATH_COMP_tick_budget : Fld := ⟨.BREATH_COMP, 23, 0⟩
/-- BREATH_STRETCH.consecutive (R52). -/
abbrev F.BREATH_STRETCH_consecutive : Fld := ⟨.BREATH_STRETCH, 15, 8⟩
/-- BREATH_STRETCH.stretch_limit (R52). -/
abbrev F.BREATH_STRETCH_stretch_limit : Fld := ⟨.BREATH_STRETCH, 7, 0⟩
/-- BREATH_TICKIN.reject_count (R52). -/
abbrev F.BREATH_TICKIN_reject_count : Fld := ⟨.BREATH_TICKIN, 63, 32⟩
/-- BREATH_TICKIN.pin_delay (R52). -/
abbrev F.BREATH_TICKIN_pin_delay : Fld := ⟨.BREATH_TICKIN, 17, 2⟩
/-- BREATH_TICKIN.consec_miss (R52). -/
abbrev F.BREATH_TICKIN_consec_miss : Fld := ⟨.BREATH_TICKIN, 1, 0⟩
/-- ARRAY_CTRL.starve_age (R78). -/
abbrev F.ARRAY_CTRL_starve_age : Fld := ⟨.ARRAY_CTRL, 31, 24⟩
/-- ARRAY_CTRL.comb_yield (R78). -/
abbrev F.ARRAY_CTRL_comb_yield : Fld := ⟨.ARRAY_CTRL, 23, 22⟩
/-- ARRAY_CTRL.stagger_en (R78). -/
abbrev F.ARRAY_CTRL_stagger_en : Fld := ⟨.ARRAY_CTRL, 21, 21⟩
/-- ARRAY_CTRL.poison_fault (R78). -/
abbrev F.ARRAY_CTRL_poison_fault : Fld := ⟨.ARRAY_CTRL, 20, 20⟩
/-- ARRAY_CTRL.bp_hold (R78). -/
abbrev F.ARRAY_CTRL_bp_hold : Fld := ⟨.ARRAY_CTRL, 19, 19⟩
/-- ARRAY_CTRL.spill_slots (R78). -/
abbrev F.ARRAY_CTRL_spill_slots : Fld := ⟨.ARRAY_CTRL, 13, 8⟩
/-- ARRAY_SPILL.spill_base (R78). -/
abbrev F.ARRAY_SPILL_spill_base : Fld := ⟨.ARRAY_SPILL, 7, 0⟩
/-- ARRAY_STATUS.spilled (R78). -/
abbrev F.ARRAY_STATUS_spilled : Fld := ⟨.ARRAY_STATUS, 45, 40⟩
/-- ARRAY_STATUS.busy (R78). -/
abbrev F.ARRAY_STATUS_busy : Fld := ⟨.ARRAY_STATUS, 38, 38⟩
/-- ARRAY_STATUS.mode (R78). -/
abbrev F.ARRAY_STATUS_mode : Fld := ⟨.ARRAY_STATUS, 37, 36⟩
/-- ARRAY_STATUS.slice_state (R78). -/
abbrev F.ARRAY_STATUS_slice_state : Fld := ⟨.ARRAY_STATUS, 31, 0⟩
/-- ARRAY_EVENTS.drain_poison (R78). -/
abbrev F.ARRAY_EVENTS_drain_poison : Fld := ⟨.ARRAY_EVENTS, 9, 9⟩
/-- ARRAY_EVENTS.ignored_write (R78). -/
abbrev F.ARRAY_EVENTS_ignored_write : Fld := ⟨.ARRAY_EVENTS, 8, 8⟩
/-- ARRAY_EVENTS.sparse_range (R78). -/
abbrev F.ARRAY_EVENTS_sparse_range : Fld := ⟨.ARRAY_EVENTS, 7, 7⟩
/-- ARRAY_EVENTS.spill_full (R78). -/
abbrev F.ARRAY_EVENTS_spill_full : Fld := ⟨.ARRAY_EVENTS, 6, 6⟩
/-- ARRAY_EVENTS.spill (R78). -/
abbrev F.ARRAY_EVENTS_spill : Fld := ⟨.ARRAY_EVENTS, 5, 5⟩
/-- ARRAY_EVENTS.inf_result (R78). -/
abbrev F.ARRAY_EVENTS_inf_result : Fld := ⟨.ARRAY_EVENTS, 4, 4⟩
/-- ARRAY_EVENTS.nan_result (R78). -/
abbrev F.ARRAY_EVENTS_nan_result : Fld := ⟨.ARRAY_EVENTS, 3, 3⟩
/-- ARRAY_EVENTS.poison_in (R78). -/
abbrev F.ARRAY_EVENTS_poison_in : Fld := ⟨.ARRAY_EVENTS, 2, 2⟩
/-- ARRAY_EVENTS.ecc_uncorrected (R78). -/
abbrev F.ARRAY_EVENTS_ecc_uncorrected : Fld := ⟨.ARRAY_EVENTS, 1, 1⟩
/-- ARRAY_EVENTS.ecc_corrected (R78). -/
abbrev F.ARRAY_EVENTS_ecc_corrected : Fld := ⟨.ARRAY_EVENTS, 0, 0⟩
/-- ARRAY_ECC.uncorrected (R78). -/
abbrev F.ARRAY_ECC_uncorrected : Fld := ⟨.ARRAY_ECC, 63, 32⟩
/-- ARRAY_ECC.corrected (R78). -/
abbrev F.ARRAY_ECC_corrected : Fld := ⟨.ARRAY_ECC, 31, 0⟩
/-- ARRAY_SPILLS.reloads (R78). -/
abbrev F.ARRAY_SPILLS_reloads : Fld := ⟨.ARRAY_SPILLS, 63, 32⟩
/-- ARRAY_SPILLS.spills (R78). -/
abbrev F.ARRAY_SPILLS_spills : Fld := ⟨.ARRAY_SPILLS, 31, 0⟩
/-- NUM_SEED.run_seed (R102). -/
abbrev F.NUM_SEED_run_seed : Fld := ⟨.NUM_SEED, 63, 0⟩
/-- NUM_CTRL.invalid_fault (R102). -/
abbrev F.NUM_CTRL_invalid_fault : Fld := ⟨.NUM_CTRL, 32, 32⟩
/-- NUM_CTRL.hist_base3 (R102). -/
abbrev F.NUM_CTRL_hist_base3 : Fld := ⟨.NUM_CTRL, 31, 24⟩
/-- NUM_CTRL.hist_base2 (R102). -/
abbrev F.NUM_CTRL_hist_base2 : Fld := ⟨.NUM_CTRL, 23, 16⟩
/-- NUM_CTRL.hist_base1 (R102). -/
abbrev F.NUM_CTRL_hist_base1 : Fld := ⟨.NUM_CTRL, 15, 8⟩
/-- NUM_CTRL.hist_base0 (R102). -/
abbrev F.NUM_CTRL_hist_base0 : Fld := ⟨.NUM_CTRL, 7, 0⟩
/-- NUM_EVENTS.ignored_write (R102). -/
abbrev F.NUM_EVENTS_ignored_write : Fld := ⟨.NUM_EVENTS, 9, 9⟩
/-- NUM_EVENTS.hist_poison (R102). -/
abbrev F.NUM_EVENTS_hist_poison : Fld := ⟨.NUM_EVENTS, 8, 8⟩
/-- NUM_EVENTS.hist_sat (R102). -/
abbrev F.NUM_EVENTS_hist_sat : Fld := ⟨.NUM_EVENTS, 7, 7⟩
/-- NUM_EVENTS.div_by_zero (R102). -/
abbrev F.NUM_EVENTS_div_by_zero : Fld := ⟨.NUM_EVENTS, 6, 6⟩
/-- NUM_EVENTS.invalid (R102). -/
abbrev F.NUM_EVENTS_invalid : Fld := ⟨.NUM_EVENTS, 5, 5⟩
/-- NUM_EVENTS.nan_in (R102). -/
abbrev F.NUM_EVENTS_nan_in : Fld := ⟨.NUM_EVENTS, 4, 4⟩
/-- NUM_EVENTS.cvt_nan (R102). -/
abbrev F.NUM_EVENTS_cvt_nan : Fld := ⟨.NUM_EVENTS, 3, 3⟩
/-- NUM_EVENTS.cvt_inf (R102). -/
abbrev F.NUM_EVENTS_cvt_inf : Fld := ⟨.NUM_EVENTS, 2, 2⟩
/-- NUM_EVENTS.cvt_sat (R102). -/
abbrev F.NUM_EVENTS_cvt_sat : Fld := ⟨.NUM_EVENTS, 1, 1⟩
/-- NUM_EVENTS.subnormal_flush (R102). -/
abbrev F.NUM_EVENTS_subnormal_flush : Fld := ⟨.NUM_EVENTS, 0, 0⟩
/-- NUM_CVT_COUNTS.sat_count (R102). -/
abbrev F.NUM_CVT_COUNTS_sat_count : Fld := ⟨.NUM_CVT_COUNTS, 63, 32⟩
/-- NUM_CVT_COUNTS.nan_count (R102). -/
abbrev F.NUM_CVT_COUNTS_nan_count : Fld := ⟨.NUM_CVT_COUNTS, 31, 0⟩
/-- QUANT_CTRL.mx_noclip (R115). -/
abbrev F.QUANT_CTRL_mx_noclip : Fld := ⟨.QUANT_CTRL, 16, 16⟩
/-- QUANT_CTRL.tail_shift (R115). -/
abbrev F.QUANT_CTRL_tail_shift : Fld := ⟨.QUANT_CTRL, 12, 8⟩
/-- QUANT_CTRL.nonfinite_fault (R115). -/
abbrev F.QUANT_CTRL_nonfinite_fault : Fld := ⟨.QUANT_CTRL, 0, 0⟩
/-- QUANT_EVENTS.ignored_write (R115). -/
abbrev F.QUANT_EVENTS_ignored_write : Fld := ⟨.QUANT_EVENTS, 7, 7⟩
/-- QUANT_EVENTS.zp_clamp (R115). -/
abbrev F.QUANT_EVENTS_zp_clamp : Fld := ⟨.QUANT_EVENTS, 6, 6⟩
/-- QUANT_EVENTS.hist_clip (R115). -/
abbrev F.QUANT_EVENTS_hist_clip : Fld := ⟨.QUANT_EVENTS, 5, 5⟩
/-- QUANT_EVENTS.hist_empty (R115). -/
abbrev F.QUANT_EVENTS_hist_empty : Fld := ⟨.QUANT_EVENTS, 4, 4⟩
/-- QUANT_EVENTS.bad_scale (R115). -/
abbrev F.QUANT_EVENTS_bad_scale : Fld := ⟨.QUANT_EVENTS, 3, 3⟩
/-- QUANT_EVENTS.nonfinite (R115). -/
abbrev F.QUANT_EVENTS_nonfinite : Fld := ⟨.QUANT_EVENTS, 2, 2⟩
/-- QUANT_EVENTS.scale_clamp (R115). -/
abbrev F.QUANT_EVENTS_scale_clamp : Fld := ⟨.QUANT_EVENTS, 1, 1⟩
/-- QUANT_EVENTS.const_channel (R115). -/
abbrev F.QUANT_EVENTS_const_channel : Fld := ⟨.QUANT_EVENTS, 0, 0⟩
/-- QUANT_COUNTS.const_count (R115). -/
abbrev F.QUANT_COUNTS_const_count : Fld := ⟨.QUANT_COUNTS, 63, 32⟩
/-- QUANT_COUNTS.clamp_count (R115). -/
abbrev F.QUANT_COUNTS_clamp_count : Fld := ⟨.QUANT_COUNTS, 31, 0⟩
/-- FORAGER_CTRL.list_share (R149). -/
abbrev F.FORAGER_CTRL_list_share : Fld := ⟨.FORAGER_CTRL, 5, 4⟩
/-- FORAGER_CTRL.ring_en (R149). -/
abbrev F.FORAGER_CTRL_ring_en : Fld := ⟨.FORAGER_CTRL, 3, 3⟩
/-- FORAGER_CTRL.order_fault (R149). -/
abbrev F.FORAGER_CTRL_order_fault : Fld := ⟨.FORAGER_CTRL, 2, 2⟩
/-- FORAGER_CTRL.range_fault (R149). -/
abbrev F.FORAGER_CTRL_range_fault : Fld := ⟨.FORAGER_CTRL, 1, 1⟩
/-- FORAGER_CTRL.excess_fault (R149). -/
abbrev F.FORAGER_CTRL_excess_fault : Fld := ⟨.FORAGER_CTRL, 0, 0⟩
/-- FORAGER_RING.ring_size (R149). -/
abbrev F.FORAGER_RING_ring_size : Fld := ⟨.FORAGER_RING, 40, 32⟩
/-- FORAGER_RING.ring_base (R149). -/
abbrev F.FORAGER_RING_ring_base : Fld := ⟨.FORAGER_RING, 16, 0⟩
/-- FORAGER_STATUS.ring_occ (R149). -/
abbrev F.FORAGER_STATUS_ring_occ : Fld := ⟨.FORAGER_STATUS, 59, 40⟩
/-- FORAGER_STATUS.walks_queued (R149). -/
abbrev F.FORAGER_STATUS_walks_queued : Fld := ⟨.FORAGER_STATUS, 32, 30⟩
/-- FORAGER_STATUS.list_busy (R149). -/
abbrev F.FORAGER_STATUS_list_busy : Fld := ⟨.FORAGER_STATUS, 29, 29⟩
/-- FORAGER_STATUS.feed_busy (R149). -/
abbrev F.FORAGER_STATUS_feed_busy : Fld := ⟨.FORAGER_STATUS, 28, 28⟩
/-- FORAGER_STATUS.queue_occ (R149). -/
abbrev F.FORAGER_STATUS_queue_occ : Fld := ⟨.FORAGER_STATUS, 27, 0⟩
/-- FORAGER_EVENTS.ignored_write (R149). -/
abbrev F.FORAGER_EVENTS_ignored_write : Fld := ⟨.FORAGER_EVENTS, 10, 10⟩
/-- FORAGER_EVENTS.addr_fault (R149). -/
abbrev F.FORAGER_EVENTS_addr_fault : Fld := ⟨.FORAGER_EVENTS, 9, 9⟩
/-- FORAGER_EVENTS.list_poison (R149). -/
abbrev F.FORAGER_EVENTS_list_poison : Fld := ⟨.FORAGER_EVENTS, 8, 8⟩
/-- FORAGER_EVENTS.block_poison (R149). -/
abbrev F.FORAGER_EVENTS_block_poison : Fld := ⟨.FORAGER_EVENTS, 7, 7⟩
/-- FORAGER_EVENTS.ecc_uncorrected (R149). -/
abbrev F.FORAGER_EVENTS_ecc_uncorrected : Fld := ⟨.FORAGER_EVENTS, 6, 6⟩
/-- FORAGER_EVENTS.ecc_corrected (R149). -/
abbrev F.FORAGER_EVENTS_ecc_corrected : Fld := ⟨.FORAGER_EVENTS, 5, 5⟩
/-- FORAGER_EVENTS.ring_stall (R149). -/
abbrev F.FORAGER_EVENTS_ring_stall : Fld := ⟨.FORAGER_EVENTS, 4, 4⟩
/-- FORAGER_EVENTS.ring_spill (R149). -/
abbrev F.FORAGER_EVENTS_ring_spill : Fld := ⟨.FORAGER_EVENTS, 3, 3⟩
/-- FORAGER_EVENTS.list_order (R149). -/
abbrev F.FORAGER_EVENTS_list_order : Fld := ⟨.FORAGER_EVENTS, 2, 2⟩
/-- FORAGER_EVENTS.sparse_range (R149). -/
abbrev F.FORAGER_EVENTS_sparse_range : Fld := ⟨.FORAGER_EVENTS, 1, 1⟩
/-- FORAGER_EVENTS.sparse_excess (R149). -/
abbrev F.FORAGER_EVENTS_sparse_excess : Fld := ⟨.FORAGER_EVENTS, 0, 0⟩
/-- FORAGER_SPARSE.excess_count (R149). -/
abbrev F.FORAGER_SPARSE_excess_count : Fld := ⟨.FORAGER_SPARSE, 63, 40⟩
/-- FORAGER_SPARSE.range_count (R149). -/
abbrev F.FORAGER_SPARSE_range_count : Fld := ⟨.FORAGER_SPARSE, 39, 16⟩
/-- FORAGER_SPARSE.order_count (R149). -/
abbrev F.FORAGER_SPARSE_order_count : Fld := ⟨.FORAGER_SPARSE, 15, 0⟩
/-- FORAGER_SPILLS.spilled (R149). -/
abbrev F.FORAGER_SPILLS_spilled : Fld := ⟨.FORAGER_SPILLS, 63, 32⟩
/-- FORAGER_SPILLS.stall_cycles (R149). -/
abbrev F.FORAGER_SPILLS_stall_cycles : Fld := ⟨.FORAGER_SPILLS, 31, 0⟩
/-- FORAGER_ECC.uncorrected (R149). -/
abbrev F.FORAGER_ECC_uncorrected : Fld := ⟨.FORAGER_ECC, 63, 32⟩
/-- FORAGER_ECC.corrected (R149). -/
abbrev F.FORAGER_ECC_corrected : Fld := ⟨.FORAGER_ECC, 31, 0⟩
/-- SCORE_MASK.pairs (R175). -/
abbrev F.SCORE_MASK_pairs : Fld := ⟨.SCORE_MASK, 63, 0⟩
/-- SCORE_CMD.start_join (R175). -/
abbrev F.SCORE_CMD_start_join : Fld := ⟨.SCORE_CMD, 1, 1⟩
/-- SCORE_CMD.start_new (R175). -/
abbrev F.SCORE_CMD_start_new : Fld := ⟨.SCORE_CMD, 0, 0⟩
/-- SCORE_STATUS.first_pair (R175). -/
abbrev F.SCORE_STATUS_first_pair : Fld := ⟨.SCORE_STATUS, 13, 8⟩
/-- SCORE_STATUS.result (R175). -/
abbrev F.SCORE_STATUS_result : Fld := ⟨.SCORE_STATUS, 3, 0⟩
/-- SEQ_SCORE.length_m1 (R176). -/
abbrev F.SEQ_SCORE_length_m1 : Fld := ⟨.SEQ_SCORE, 63, 44⟩
/-- SEQ_SCORE.base (R176). -/
abbrev F.SEQ_SCORE_base : Fld := ⟨.SEQ_SCORE, 43, 12⟩
/-- SEQ_ENTRY.entry (R176). -/
abbrev F.SEQ_ENTRY_entry : Fld := ⟨.SEQ_ENTRY, 19, 0⟩
/-- SEQ_CTRL.fault_escalate (R176). -/
abbrev F.SEQ_CTRL_fault_escalate : Fld := ⟨.SEQ_CTRL, 7, 7⟩
/-- SEQ_CTRL.copy_inflight (R176). -/
abbrev F.SEQ_CTRL_copy_inflight : Fld := ⟨.SEQ_CTRL, 2, 0⟩
/-- SEQ_STATUS.pc (R176). -/
abbrev F.SEQ_STATUS_pc : Fld := ⟨.SEQ_STATUS, 63, 44⟩
/-- SEQ_STATUS.copies (R176). -/
abbrev F.SEQ_STATUS_copies : Fld := ⟨.SEQ_STATUS, 19, 16⟩
/-- SEQ_STATUS.quiet (R176). -/
abbrev F.SEQ_STATUS_quiet : Fld := ⟨.SEQ_STATUS, 8, 8⟩
/-- SEQ_STATUS.state (R176). -/
abbrev F.SEQ_STATUS_state : Fld := ⟨.SEQ_STATUS, 3, 0⟩
/-- SEQ_EVENTS.copy_ordered (R176). -/
abbrev F.SEQ_EVENTS_copy_ordered : Fld := ⟨.SEQ_EVENTS, 3, 3⟩
/-- SEQ_EVENTS.ignored_write (R176). -/
abbrev F.SEQ_EVENTS_ignored_write : Fld := ⟨.SEQ_EVENTS, 2, 2⟩
/-- SEQ_EVENTS.fault_lost (R176). -/
abbrev F.SEQ_EVENTS_fault_lost : Fld := ⟨.SEQ_EVENTS, 1, 1⟩
/-- SEQ_EVENTS.fault (R176). -/
abbrev F.SEQ_EVENTS_fault : Fld := ⟨.SEQ_EVENTS, 0, 0⟩
/-- SEQ_FAULT.pc (R176). -/
abbrev F.SEQ_FAULT_pc : Fld := ⟨.SEQ_FAULT, 63, 44⟩
/-- SEQ_FAULT.sem (R176). -/
abbrev F.SEQ_FAULT_sem : Fld := ⟨.SEQ_FAULT, 21, 16⟩
/-- SEQ_FAULT.cls (R176). -/
abbrev F.SEQ_FAULT_cls : Fld := ⟨.SEQ_FAULT, 15, 12⟩
/-- SEQ_FAULT.code (R176). -/
abbrev F.SEQ_FAULT_code : Fld := ⟨.SEQ_FAULT, 7, 0⟩
/-- SEQ_CMD.clear (R176). -/
abbrev F.SEQ_CMD_clear : Fld := ⟨.SEQ_CMD, 2, 2⟩
/-- SEQ_CMD.resume (R176). -/
abbrev F.SEQ_CMD_resume : Fld := ⟨.SEQ_CMD, 1, 1⟩
/-- SEQ_CMD.pause (R176). -/
abbrev F.SEQ_CMD_pause : Fld := ⟨.SEQ_CMD, 0, 0⟩
/-- SEQ_SEM_i.count (R176). -/
abbrev F.SEQ_SEM_i_count : Fld := ⟨.SEQ_SEM_i, 31, 0⟩
/-- SEQ_SCALAR_i.value (R176). -/
abbrev F.SEQ_SCALAR_i_value : Fld := ⟨.SEQ_SCALAR_i, 63, 0⟩
/-- MEM_POISON_REC.comb (R228). -/
abbrev F.MEM_POISON_REC_comb : Fld := ⟨.MEM_POISON_REC, 63, 48⟩
/-- MEM_POISON_REC.near (R228). -/
abbrev F.MEM_POISON_REC_near : Fld := ⟨.MEM_POISON_REC, 47, 32⟩
/-- MEM_POISON_REC.far (R228). -/
abbrev F.MEM_POISON_REC_far : Fld := ⟨.MEM_POISON_REC, 31, 16⟩
/-- MEM_POISON_REC.offline (R228). -/
abbrev F.MEM_POISON_REC_offline : Fld := ⟨.MEM_POISON_REC, 15, 4⟩
/-- MEM_POISON_REC.clear (R228). -/
abbrev F.MEM_POISON_REC_clear : Fld := ⟨.MEM_POISON_REC, 0, 0⟩
/-- MEM_CTRL.retrain_ms (R228). -/
abbrev F.MEM_CTRL_retrain_ms : Fld := ⟨.MEM_CTRL, 39, 32⟩
/-- MEM_CTRL.retrain_guard (R228). -/
abbrev F.MEM_CTRL_retrain_guard : Fld := ⟨.MEM_CTRL, 31, 31⟩
/-- MEM_CTRL.far_scrub_h (R228). -/
abbrev F.MEM_CTRL_far_scrub_h : Fld := ⟨.MEM_CTRL, 27, 22⟩
/-- MEM_CTRL.near_scrub_h (R228). -/
abbrev F.MEM_CTRL_near_scrub_h : Fld := ⟨.MEM_CTRL, 21, 16⟩
/-- MEM_CTRL.fill_share (R228). -/
abbrev F.MEM_CTRL_fill_share : Fld := ⟨.MEM_CTRL, 3, 2⟩
/-- MEM_CTRL.poison_fault (R228). -/
abbrev F.MEM_CTRL_poison_fault : Fld := ⟨.MEM_CTRL, 1, 1⟩
/-- MEM_CTRL.scrub_en (R228). -/
abbrev F.MEM_CTRL_scrub_en : Fld := ⟨.MEM_CTRL, 0, 0⟩
/-- MEM_STATUS.chan_failed (R228). -/
abbrev F.MEM_STATUS_chan_failed : Fld := ⟨.MEM_STATUS, 31, 24⟩
/-- MEM_STATUS.chan_retraining (R228). -/
abbrev F.MEM_STATUS_chan_retraining : Fld := ⟨.MEM_STATUS, 23, 16⟩
/-- MEM_STATUS.chan_hot (R228). -/
abbrev F.MEM_STATUS_chan_hot : Fld := ⟨.MEM_STATUS, 15, 8⟩
/-- MEM_STATUS.self_refresh (R228). -/
abbrev F.MEM_STATUS_self_refresh : Fld := ⟨.MEM_STATUS, 7, 7⟩
/-- MEM_STATUS.far_filled (R228). -/
abbrev F.MEM_STATUS_far_filled : Fld := ⟨.MEM_STATUS, 3, 3⟩
/-- MEM_STATUS.near_filled (R228). -/
abbrev F.MEM_STATUS_near_filled : Fld := ⟨.MEM_STATUS, 2, 2⟩
/-- MEM_STATUS.far_ready (R228). -/
abbrev F.MEM_STATUS_far_ready : Fld := ⟨.MEM_STATUS, 1, 1⟩
/-- MEM_STATUS.near_ready (R228). -/
abbrev F.MEM_STATUS_near_ready : Fld := ⟨.MEM_STATUS, 0, 0⟩
/-- MEM_EVENTS.ignored_write (R228). -/
abbrev F.MEM_EVENTS_ignored_write : Fld := ⟨.MEM_EVENTS, 9, 9⟩
/-- MEM_EVENTS.zmap_error (R228). -/
abbrev F.MEM_EVENTS_zmap_error : Fld := ⟨.MEM_EVENTS, 8, 8⟩
/-- MEM_EVENTS.poison_dir_full (R228). -/
abbrev F.MEM_EVENTS_poison_dir_full : Fld := ⟨.MEM_EVENTS, 7, 7⟩
/-- MEM_EVENTS.chan_fail (R228). -/
abbrev F.MEM_EVENTS_chan_fail : Fld := ⟨.MEM_EVENTS, 6, 6⟩
/-- MEM_EVENTS.crc_retry (R228). -/
abbrev F.MEM_EVENTS_crc_retry : Fld := ⟨.MEM_EVENTS, 5, 5⟩
/-- MEM_EVENTS.far_ue (R228). -/
abbrev F.MEM_EVENTS_far_ue : Fld := ⟨.MEM_EVENTS, 4, 4⟩
/-- MEM_EVENTS.far_ce (R228). -/
abbrev F.MEM_EVENTS_far_ce : Fld := ⟨.MEM_EVENTS, 3, 3⟩
/-- MEM_EVENTS.near_ue (R228). -/
abbrev F.MEM_EVENTS_near_ue : Fld := ⟨.MEM_EVENTS, 2, 2⟩
/-- MEM_EVENTS.near_ce (R228). -/
abbrev F.MEM_EVENTS_near_ce : Fld := ⟨.MEM_EVENTS, 1, 1⟩
/-- MEM_EVENTS.offline_access (R228). -/
abbrev F.MEM_EVENTS_offline_access : Fld := ⟨.MEM_EVENTS, 0, 0⟩
/-- MEM_ECC_NEAR.uncorrected (R228). -/
abbrev F.MEM_ECC_NEAR_uncorrected : Fld := ⟨.MEM_ECC_NEAR, 63, 32⟩
/-- MEM_ECC_NEAR.corrected (R228). -/
abbrev F.MEM_ECC_NEAR_corrected : Fld := ⟨.MEM_ECC_NEAR, 31, 0⟩
/-- MEM_ECC_FAR.uncorrected (R228). -/
abbrev F.MEM_ECC_FAR_uncorrected : Fld := ⟨.MEM_ECC_FAR, 63, 32⟩
/-- MEM_ECC_FAR.corrected (R228). -/
abbrev F.MEM_ECC_FAR_corrected : Fld := ⟨.MEM_ECC_FAR, 31, 0⟩
/-- MEM_CHAN_j.retrains (R228). -/
abbrev F.MEM_CHAN_j_retrains : Fld := ⟨.MEM_CHAN_j, 63, 48⟩
/-- MEM_CHAN_j.crc_retries (R228). -/
abbrev F.MEM_CHAN_j_crc_retries : Fld := ⟨.MEM_CHAN_j, 47, 32⟩
/-- MEM_CHAN_j.poison_entries (R228). -/
abbrev F.MEM_CHAN_j_poison_entries : Fld := ⟨.MEM_CHAN_j, 31, 16⟩
/-- MEM_CHAN_j.eye_width (R228). -/
abbrev F.MEM_CHAN_j_eye_width : Fld := ⟨.MEM_CHAN_j, 15, 8⟩
/-- MEM_CHAN_j.temp (R228). -/
abbrev F.MEM_CHAN_j_temp : Fld := ⟨.MEM_CHAN_j, 7, 0⟩
/-- COMB_ECC.uncorrected (R228). -/
abbrev F.COMB_ECC_uncorrected : Fld := ⟨.COMB_ECC, 63, 32⟩
/-- COMB_ECC.corrected (R228). -/
abbrev F.COMB_ECC_corrected : Fld := ⟨.COMB_ECC, 31, 0⟩
/-- ROUTE_CTRL.scope_axes (R251). -/
abbrev F.ROUTE_CTRL_scope_axes : Fld := ⟨.ROUTE_CTRL, 33, 30⟩
/-- ROUTE_CTRL.lag (R251). -/
abbrev F.ROUTE_CTRL_lag : Fld := ⟨.ROUTE_CTRL, 29, 26⟩
/-- ROUTE_CTRL.deadband (R251). -/
abbrev F.ROUTE_CTRL_deadband : Fld := ⟨.ROUTE_CTRL, 25, 18⟩
/-- ROUTE_CTRL.period (R251). -/
abbrev F.ROUTE_CTRL_period : Fld := ⟨.ROUTE_CTRL, 17, 10⟩
/-- ROUTE_CTRL.loop_en (R251). -/
abbrev F.ROUTE_CTRL_loop_en : Fld := ⟨.ROUTE_CTRL, 0, 0⟩
/-- ROUTE_LOOP.bias_max (R251). -/
abbrev F.ROUTE_LOOP_bias_max : Fld := ⟨.ROUTE_LOOP, 63, 32⟩
/-- ROUTE_LOOP.gamma (R251). -/
abbrev F.ROUTE_LOOP_gamma : Fld := ⟨.ROUTE_LOOP, 31, 0⟩
/-- ROUTE_DEST.pairs (R251). -/
abbrev F.ROUTE_DEST_pairs : Fld := ⟨.ROUTE_DEST, 63, 0⟩
/-- ROUTE_STATUS.epoch (R251). -/
abbrev F.ROUTE_STATUS_epoch : Fld := ⟨.ROUTE_STATUS, 63, 16⟩
/-- ROUTE_STATUS.pending (R251). -/
abbrev F.ROUTE_STATUS_pending : Fld := ⟨.ROUTE_STATUS, 1, 1⟩
/-- ROUTE_STATUS.reducing (R251). -/
abbrev F.ROUTE_STATUS_reducing : Fld := ⟨.ROUTE_STATUS, 0, 0⟩
/-- ROUTE_EVENTS.ignored_write (R251). -/
abbrev F.ROUTE_EVENTS_ignored_write : Fld := ⟨.ROUTE_EVENTS, 8, 8⟩
/-- ROUTE_EVENTS.bias_nan (R251). -/
abbrev F.ROUTE_EVENTS_bias_nan : Fld := ⟨.ROUTE_EVENTS, 7, 7⟩
/-- ROUTE_EVENTS.count_sat (R251). -/
abbrev F.ROUTE_EVENTS_count_sat : Fld := ⟨.ROUTE_EVENTS, 6, 6⟩
/-- ROUTE_EVENTS.count_miss (R251). -/
abbrev F.ROUTE_EVENTS_count_miss : Fld := ⟨.ROUTE_EVENTS, 5, 5⟩
/-- ROUTE_EVENTS.count_range (R251). -/
abbrev F.ROUTE_EVENTS_count_range : Fld := ⟨.ROUTE_EVENTS, 4, 4⟩
/-- ROUTE_EVENTS.update_lost (R251). -/
abbrev F.ROUTE_EVENTS_update_lost : Fld := ⟨.ROUTE_EVENTS, 3, 3⟩
/-- ROUTE_EVENTS.cap_excess (R251). -/
abbrev F.ROUTE_EVENTS_cap_excess : Fld := ⟨.ROUTE_EVENTS, 2, 2⟩
/-- ROUTE_EVENTS.stale (R251). -/
abbrev F.ROUTE_EVENTS_stale : Fld := ⟨.ROUTE_EVENTS, 1, 1⟩
/-- ROUTE_EVENTS.update (R251). -/
abbrev F.ROUTE_EVENTS_update : Fld := ⟨.ROUTE_EVENTS, 0, 0⟩
/-- ROUTE_COUNTS.stale (R251). -/
abbrev F.ROUTE_COUNTS_stale : Fld := ⟨.ROUTE_COUNTS, 63, 32⟩
/-- ROUTE_COUNTS.unposted (R251). -/
abbrev F.ROUTE_COUNTS_unposted : Fld := ⟨.ROUTE_COUNTS, 31, 16⟩
/-- ROUTE_COUNTS.cancels (R251). -/
abbrev F.ROUTE_COUNTS_cancels : Fld := ⟨.ROUTE_COUNTS, 15, 0⟩
/-- ROUTE_DROPS.dropped (R251). -/
abbrev F.ROUTE_DROPS_dropped : Fld := ⟨.ROUTE_DROPS, 63, 32⟩
/-- ROUTE_DROPS.cap_excess (R251). -/
abbrev F.ROUTE_DROPS_cap_excess : Fld := ⟨.ROUTE_DROPS, 31, 16⟩
/-- ROUTE_DROPS.lost (R251). -/
abbrev F.ROUTE_DROPS_lost : Fld := ⟨.ROUTE_DROPS, 15, 0⟩
/-- ROUTER_r.comb_off (R251). -/
abbrev F.ROUTER_r_comb_off : Fld := ⟨.ROUTER_r, 48, 32⟩
/-- ROUTER_r.base (R251). -/
abbrev F.ROUTER_r_base : Fld := ⟨.ROUTER_r, 27, 16⟩
/-- ROUTER_r.experts (R251). -/
abbrev F.ROUTER_r_experts : Fld := ⟨.ROUTER_r, 12, 0⟩
/-- ROUTE_BIAS_i.bias_hi (R251). -/
abbrev F.ROUTE_BIAS_i_bias_hi : Fld := ⟨.ROUTE_BIAS_i, 63, 32⟩
/-- ROUTE_BIAS_i.bias_lo (R251). -/
abbrev F.ROUTE_BIAS_i_bias_lo : Fld := ⟨.ROUTE_BIAS_i, 31, 0⟩
/-- ROUTE_LOAD_i.load_hi (R251). -/
abbrev F.ROUTE_LOAD_i_load_hi : Fld := ⟨.ROUTE_LOAD_i, 63, 32⟩
/-- ROUTE_LOAD_i.load_lo (R251). -/
abbrev F.ROUTE_LOAD_i_load_lo : Fld := ⟨.ROUTE_LOAD_i, 31, 0⟩
/-- GEX_CTRL.partial_event (R289). -/
abbrev F.GEX_CTRL_partial_event : Fld := ⟨.GEX_CTRL, 2, 2⟩
/-- GEX_CTRL.skip_fault (R289). -/
abbrev F.GEX_CTRL_skip_fault : Fld := ⟨.GEX_CTRL, 1, 1⟩
/-- GEX_CTRL.nonfinite_fault (R289). -/
abbrev F.GEX_CTRL_nonfinite_fault : Fld := ⟨.GEX_CTRL, 0, 0⟩
/-- GEX_EXCLUDE.w (R289). -/
abbrev F.GEX_EXCLUDE_w : Fld := ⟨.GEX_EXCLUDE, 63, 48⟩
/-- GEX_EXCLUDE.z (R289). -/
abbrev F.GEX_EXCLUDE_z : Fld := ⟨.GEX_EXCLUDE, 47, 32⟩
/-- GEX_EXCLUDE.y (R289). -/
abbrev F.GEX_EXCLUDE_y : Fld := ⟨.GEX_EXCLUDE, 31, 16⟩
/-- GEX_EXCLUDE.x (R289). -/
abbrev F.GEX_EXCLUDE_x : Fld := ⟨.GEX_EXCLUDE, 15, 0⟩
/-- GEX_EVENTS.mask_timeout (R289). -/
abbrev F.GEX_EVENTS_mask_timeout : Fld := ⟨.GEX_EVENTS, 9, 9⟩
/-- GEX_EVENTS.norm_incomplete (R289). -/
abbrev F.GEX_EVENTS_norm_incomplete : Fld := ⟨.GEX_EVENTS, 8, 8⟩
/-- GEX_EVENTS.skip (R289). -/
abbrev F.GEX_EVENTS_skip : Fld := ⟨.GEX_EVENTS, 7, 7⟩
/-- GEX_EVENTS.nonfinite (R289). -/
abbrev F.GEX_EVENTS_nonfinite : Fld := ⟨.GEX_EVENTS, 6, 6⟩
/-- GEX_EVENTS.topk_range (R289). -/
abbrev F.GEX_EVENTS_topk_range : Fld := ⟨.GEX_EVENTS, 5, 5⟩
/-- GEX_EVENTS.topk_excess (R289). -/
abbrev F.GEX_EVENTS_topk_excess : Fld := ⟨.GEX_EVENTS, 4, 4⟩
/-- GEX_EVENTS.poison_refused (R289). -/
abbrev F.GEX_EVENTS_poison_refused : Fld := ⟨.GEX_EVENTS, 3, 3⟩
/-- GEX_EVENTS.refused (R289). -/
abbrev F.GEX_EVENTS_refused : Fld := ⟨.GEX_EVENTS, 2, 2⟩
/-- GEX_EVENTS.partial (R289). -/
abbrev F.GEX_EVENTS_partial : Fld := ⟨.GEX_EVENTS, 1, 1⟩
/-- GEX_COUNTS.partial (R289). -/
abbrev F.GEX_COUNTS_partial : Fld := ⟨.GEX_COUNTS, 63, 32⟩
/-- GEX_COUNTS.refused (R289). -/
abbrev F.GEX_COUNTS_refused : Fld := ⟨.GEX_COUNTS, 31, 0⟩
/-- GEX_LAST.mask (R289). -/
abbrev F.GEX_LAST_mask : Fld := ⟨.GEX_LAST, 63, 48⟩
/-- GEX_LAST.axis (R289). -/
abbrev F.GEX_LAST_axis : Fld := ⟨.GEX_LAST, 47, 46⟩
/-- GEX_LAST.tag (R289). -/
abbrev F.GEX_LAST_tag : Fld := ⟨.GEX_LAST, 45, 42⟩
/-- GEX_LAST.pair (R289). -/
abbrev F.GEX_LAST_pair : Fld := ⟨.GEX_LAST, 41, 36⟩
/-- GEX_LAST.breath (R289). -/
abbrev F.GEX_LAST_breath : Fld := ⟨.GEX_LAST, 31, 0⟩
/-- GEX_NORM.sumsq (R289). -/
abbrev F.GEX_NORM_sumsq : Fld := ⟨.GEX_NORM, 63, 0⟩
/-- GEX_NORM_CNT.expected (R289). -/
abbrev F.GEX_NORM_CNT_expected : Fld := ⟨.GEX_NORM_CNT, 63, 32⟩
/-- GEX_NORM_CNT.included (R289). -/
abbrev F.GEX_NORM_CNT_included : Fld := ⟨.GEX_NORM_CNT, 31, 0⟩
/-- LINK_CTRL.max_hops (R320). -/
abbrev F.LINK_CTRL_max_hops : Fld := ⟨.LINK_CTRL, 15, 8⟩
/-- LINK_CTRL.coll_fault (R320). -/
abbrev F.LINK_CTRL_coll_fault : Fld := ⟨.LINK_CTRL, 1, 1⟩
/-- LINK_TIMEOUT.hang_us (R320). -/
abbrev F.LINK_TIMEOUT_hang_us : Fld := ⟨.LINK_TIMEOUT, 47, 32⟩
/-- LINK_TIMEOUT.req_us (R320). -/
abbrev F.LINK_TIMEOUT_req_us : Fld := ⟨.LINK_TIMEOUT, 15, 0⟩
/-- LINK_EVENTS.ignored_write (R320). -/
abbrev F.LINK_EVENTS_ignored_write : Fld := ⟨.LINK_EVENTS, 9, 9⟩
/-- LINK_EVENTS.perm_split (R320). -/
abbrev F.LINK_EVENTS_perm_split : Fld := ⟨.LINK_EVENTS, 8, 8⟩
/-- LINK_EVENTS.coll_incomplete (R320). -/
abbrev F.LINK_EVENTS_coll_incomplete : Fld := ⟨.LINK_EVENTS, 7, 7⟩
/-- LINK_EVENTS.stale (R320). -/
abbrev F.LINK_EVENTS_stale : Fld := ⟨.LINK_EVENTS, 6, 6⟩
/-- LINK_EVENTS.lifetime (R320). -/
abbrev F.LINK_EVENTS_lifetime : Fld := ⟨.LINK_EVENTS, 5, 5⟩
/-- LINK_EVENTS.unreachable (R320). -/
abbrev F.LINK_EVENTS_unreachable : Fld := ⟨.LINK_EVENTS, 4, 4⟩
/-- LINK_EVENTS.reversal (R320). -/
abbrev F.LINK_EVENTS_reversal : Fld := ⟨.LINK_EVENTS, 3, 3⟩
/-- LINK_EVENTS.port_failed (R320). -/
abbrev F.LINK_EVENTS_port_failed : Fld := ⟨.LINK_EVENTS, 2, 2⟩
/-- LINK_EVENTS.port_degraded (R320). -/
abbrev F.LINK_EVENTS_port_degraded : Fld := ⟨.LINK_EVENTS, 1, 1⟩
/-- LINK_EVENTS.replay (R320). -/
abbrev F.LINK_EVENTS_replay : Fld := ⟨.LINK_EVENTS, 0, 0⟩
/-- LINK_COUNTS.unreachable (R320). -/
abbrev F.LINK_COUNTS_unreachable : Fld := ⟨.LINK_COUNTS, 63, 48⟩
/-- LINK_COUNTS.lifetime (R320). -/
abbrev F.LINK_COUNTS_lifetime : Fld := ⟨.LINK_COUNTS, 47, 32⟩
/-- LINK_COUNTS.reversals (R320). -/
abbrev F.LINK_COUNTS_reversals : Fld := ⟨.LINK_COUNTS, 31, 16⟩
/-- LINK_COUNTS.stale (R320). -/
abbrev F.LINK_COUNTS_stale : Fld := ⟨.LINK_COUNTS, 15, 0⟩
/-- PORT_CTRL.snr_min (R320). -/
abbrev F.PORT_CTRL_snr_min : Fld := ⟨.PORT_CTRL, 23, 16⟩
/-- PORT_CTRL.mode (R320). -/
abbrev F.PORT_CTRL_mode : Fld := ⟨.PORT_CTRL, 7, 6⟩
/-- PORT_CTRL.fec (R320). -/
abbrev F.PORT_CTRL_fec : Fld := ⟨.PORT_CTRL, 5, 5⟩
/-- PORT_CTRL.allow_x4 (R320). -/
abbrev F.PORT_CTRL_allow_x4 : Fld := ⟨.PORT_CTRL, 4, 4⟩
/-- PORT_CMD.down (R320). -/
abbrev F.PORT_CMD_down : Fld := ⟨.PORT_CMD, 1, 1⟩
/-- PORT_CMD.retrain (R320). -/
abbrev F.PORT_CMD_retrain : Fld := ⟨.PORT_CMD, 0, 0⟩
/-- PORT_STATUS.partner_id (R320). -/
abbrev F.PORT_STATUS_partner_id : Fld := ⟨.PORT_STATUS, 63, 48⟩
/-- PORT_STATUS.partner_port (R320). -/
abbrev F.PORT_STATUS_partner_port : Fld := ⟨.PORT_STATUS, 47, 44⟩
/-- PORT_STATUS.hop_delay (R320). -/
abbrev F.PORT_STATUS_hop_delay : Fld := ⟨.PORT_STATUS, 39, 16⟩
/-- PORT_STATUS.lanes_ok (R320). -/
abbrev F.PORT_STATUS_lanes_ok : Fld := ⟨.PORT_STATUS, 15, 8⟩
/-- PORT_STATUS.width (R320). -/
abbrev F.PORT_STATUS_width : Fld := ⟨.PORT_STATUS, 5, 4⟩
/-- PORT_STATUS.state (R320). -/
abbrev F.PORT_STATUS_state : Fld := ⟨.PORT_STATUS, 3, 0⟩
/-- PORT_EVENTS.oset_crc (R320). -/
abbrev F.PORT_EVENTS_oset_crc : Fld := ⟨.PORT_EVENTS, 9, 9⟩
/-- PORT_EVENTS.train_fail (R320). -/
abbrev F.PORT_EVENTS_train_fail : Fld := ⟨.PORT_EVENTS, 8, 8⟩
/-- PORT_EVENTS.wiring (R320). -/
abbrev F.PORT_EVENTS_wiring : Fld := ⟨.PORT_EVENTS, 7, 7⟩
/-- PORT_EVENTS.fec_mismatch (R320). -/
abbrev F.PORT_EVENTS_fec_mismatch : Fld := ⟨.PORT_EVENTS, 6, 6⟩
/-- PORT_EVENTS.hang (R320). -/
abbrev F.PORT_EVENTS_hang : Fld := ⟨.PORT_EVENTS, 5, 5⟩
/-- PORT_EVENTS.replay_fail (R320). -/
abbrev F.PORT_EVENTS_replay_fail : Fld := ⟨.PORT_EVENTS, 4, 4⟩
/-- PORT_EVENTS.lane_fail (R320). -/
abbrev F.PORT_EVENTS_lane_fail : Fld := ⟨.PORT_EVENTS, 3, 3⟩
/-- PORT_EVENTS.fec_uncorrected (R320). -/
abbrev F.PORT_EVENTS_fec_uncorrected : Fld := ⟨.PORT_EVENTS, 2, 2⟩
/-- PORT_EVENTS.crc (R320). -/
abbrev F.PORT_EVENTS_crc : Fld := ⟨.PORT_EVENTS, 1, 1⟩
/-- PORT_EVENTS.replay (R320). -/
abbrev F.PORT_EVENTS_replay : Fld := ⟨.PORT_EVENTS, 0, 0⟩
/-- PORT_FEC.corrected (R320). -/
abbrev F.PORT_FEC_corrected : Fld := ⟨.PORT_FEC, 63, 16⟩
/-- PORT_FEC.uncorrected (R320). -/
abbrev F.PORT_FEC_uncorrected : Fld := ⟨.PORT_FEC, 15, 0⟩
/-- PORT_REPLAY.replays (R320). -/
abbrev F.PORT_REPLAY_replays : Fld := ⟨.PORT_REPLAY, 63, 32⟩
/-- PORT_REPLAY.crc_fail (R320). -/
abbrev F.PORT_REPLAY_crc_fail : Fld := ⟨.PORT_REPLAY, 31, 0⟩
/-- PORT_OSET.bad (R320). -/
abbrev F.PORT_OSET_bad : Fld := ⟨.PORT_OSET, 31, 0⟩
/-- PORT_LANE_k.snr (R320). -/
abbrev F.PORT_LANE_k_snr : Fld := ⟨.PORT_LANE_k, 23, 16⟩
/-- PORT_LANE_k.eye_height (R320). -/
abbrev F.PORT_LANE_k_eye_height : Fld := ⟨.PORT_LANE_k, 15, 8⟩
/-- PORT_LANE_k.cdr_lock (R320). -/
abbrev F.PORT_LANE_k_cdr_lock : Fld := ⟨.PORT_LANE_k, 1, 1⟩
/-- PORT_LANE_k.failed (R320). -/
abbrev F.PORT_LANE_k_failed : Fld := ⟨.PORT_LANE_k, 0, 0⟩
/-- GROUP_CFG.group_id (R342). -/
abbrev F.GROUP_CFG_group_id : Fld := ⟨.GROUP_CFG, 63, 48⟩
/-- GROUP_CFG.queen_coord (R342). -/
abbrev F.GROUP_CFG_queen_coord : Fld := ⟨.GROUP_CFG, 47, 32⟩
/-- GROUP_CFG.box_base (R342). -/
abbrev F.GROUP_CFG_box_base : Fld := ⟨.GROUP_CFG, 31, 16⟩
/-- GROUP_CFG.box_ext_m1 (R342). -/
abbrev F.GROUP_CFG_box_ext_m1 : Fld := ⟨.GROUP_CFG, 15, 0⟩
/-- GROUP_RINGS.window_ms (R342). -/
abbrev F.GROUP_RINGS_window_ms : Fld := ⟨.GROUP_RINGS, 31, 16⟩
/-- GROUP_RINGS.ring_m1 (R342). -/
abbrev F.GROUP_RINGS_ring_m1 : Fld := ⟨.GROUP_RINGS, 15, 0⟩
/-- GROUP_STATUS.device_id (R342). -/
abbrev F.GROUP_STATUS_device_id : Fld := ⟨.GROUP_STATUS, 63, 48⟩
/-- GROUP_STATUS.queen_id (R342). -/
abbrev F.GROUP_STATUS_queen_id : Fld := ⟨.GROUP_STATUS, 47, 32⟩
/-- GROUP_STATUS.members (R342). -/
abbrev F.GROUP_STATUS_members : Fld := ⟨.GROUP_STATUS, 31, 23⟩
/-- GROUP_STATUS.epoch (R342). -/
abbrev F.GROUP_STATUS_epoch : Fld := ⟨.GROUP_STATUS, 22, 15⟩
/-- GROUP_STATUS.role (R342). -/
abbrev F.GROUP_STATUS_role : Fld := ⟨.GROUP_STATUS, 5, 4⟩
/-- GROUP_STATUS.state (R342). -/
abbrev F.GROUP_STATUS_state : Fld := ⟨.GROUP_STATUS, 3, 0⟩
/-- ENUM_CMD.promote (R342). -/
abbrev F.ENUM_CMD_promote : Fld := ⟨.ENUM_CMD, 2, 2⟩
/-- ENUM_CMD.demote (R342). -/
abbrev F.ENUM_CMD_demote : Fld := ⟨.ENUM_CMD, 1, 1⟩
/-- ENUM_CMD.start (R342). -/
abbrev F.ENUM_CMD_start : Fld := ⟨.ENUM_CMD, 0, 0⟩
/-- ENUM_EVENTS.ignored_write (R342). -/
abbrev F.ENUM_EVENTS_ignored_write : Fld := ⟨.ENUM_EVENTS, 7, 7⟩
/-- ENUM_EVENTS.orphan (R342). -/
abbrev F.ENUM_EVENTS_orphan : Fld := ⟨.ENUM_EVENTS, 6, 6⟩
/-- ENUM_EVENTS.wiring (R342). -/
abbrev F.ENUM_EVENTS_wiring : Fld := ⟨.ENUM_EVENTS, 5, 5⟩
/-- ENUM_EVENTS.collision (R342). -/
abbrev F.ENUM_EVENTS_collision : Fld := ⟨.ENUM_EVENTS, 4, 4⟩
/-- ENUM_EVENTS.missing (R342). -/
abbrev F.ENUM_EVENTS_missing : Fld := ⟨.ENUM_EVENTS, 3, 3⟩
/-- ENUM_EVENTS.wrap_mismatch (R342). -/
abbrev F.ENUM_EVENTS_wrap_mismatch : Fld := ⟨.ENUM_EVENTS, 2, 2⟩
/-- ENUM_EVENTS.two_queens (R342). -/
abbrev F.ENUM_EVENTS_two_queens : Fld := ⟨.ENUM_EVENTS, 1, 1⟩
/-- ENUM_EVENTS.confirmed (R342). -/
abbrev F.ENUM_EVENTS_confirmed : Fld := ⟨.ENUM_EVENTS, 0, 0⟩
/-- ENUM_CONFLICT.where (R342). -/
abbrev F.ENUM_CONFLICT_where : Fld := ⟨.ENUM_CONFLICT, 63, 48⟩
/-- ENUM_CONFLICT.other (R342). -/
abbrev F.ENUM_CONFLICT_other : Fld := ⟨.ENUM_CONFLICT, 47, 32⟩
/-- ENUM_CONFLICT.axis (R342). -/
abbrev F.ENUM_CONFLICT_axis : Fld := ⟨.ENUM_CONFLICT, 25, 24⟩
/-- ENUM_CONFLICT.code (R342). -/
abbrev F.ENUM_CONFLICT_code : Fld := ⟨.ENUM_CONFLICT, 7, 0⟩
/-- HOST_CTRL.coalesce_us (R342). -/
abbrev F.HOST_CTRL_coalesce_us : Fld := ⟨.HOST_CTRL, 16, 1⟩
/-- HOST_CTRL.evq_en (R342). -/
abbrev F.HOST_CTRL_evq_en : Fld := ⟨.HOST_CTRL, 0, 0⟩
/-- HOST_EVENTS.ignored_write (R342). -/
abbrev F.HOST_EVENTS_ignored_write : Fld := ⟨.HOST_EVENTS, 3, 3⟩
/-- HOST_EVENTS.standby_access (R342). -/
abbrev F.HOST_EVENTS_standby_access : Fld := ⟨.HOST_EVENTS, 2, 2⟩
/-- HOST_EVENTS.mbox_busy (R342). -/
abbrev F.HOST_EVENTS_mbox_busy : Fld := ⟨.HOST_EVENTS, 1, 1⟩
/-- HOST_EVENTS.remote_fail (R342). -/
abbrev F.HOST_EVENTS_remote_fail : Fld := ⟨.HOST_EVENTS, 0, 0⟩
/-- HOST_EVQ_BASE.base (R342). -/
abbrev F.HOST_EVQ_BASE_base : Fld := ⟨.HOST_EVQ_BASE, 63, 12⟩
/-- HOST_EVQ_BASE.size_log2 (R342). -/
abbrev F.HOST_EVQ_BASE_size_log2 : Fld := ⟨.HOST_EVQ_BASE, 3, 0⟩
/-- HOST_EVQ_PTR.dropped (R342). -/
abbrev F.HOST_EVQ_PTR_dropped : Fld := ⟨.HOST_EVQ_PTR, 63, 48⟩
/-- HOST_EVQ_PTR.tail (R342). -/
abbrev F.HOST_EVQ_PTR_tail : Fld := ⟨.HOST_EVQ_PTR, 31, 16⟩
/-- HOST_EVQ_PTR.head (R342). -/
abbrev F.HOST_EVQ_PTR_head : Fld := ⟨.HOST_EVQ_PTR, 15, 0⟩
/-- HOST_WIN_n.valid (R342). -/
abbrev F.HOST_WIN_n_valid : Fld := ⟨.HOST_WIN_n, 63, 63⟩
/-- HOST_WIN_n.device (R342). -/
abbrev F.HOST_WIN_n_device : Fld := ⟨.HOST_WIN_n, 15, 0⟩
/-- HOST_APT_n.valid (R342). -/
abbrev F.HOST_APT_n_valid : Fld := ⟨.HOST_APT_n, 63, 63⟩
/-- HOST_APT_n.device (R342). -/
abbrev F.HOST_APT_n_device : Fld := ⟨.HOST_APT_n, 59, 44⟩
/-- HOST_APT_n.base (R342). -/
abbrev F.HOST_APT_n_base : Fld := ⟨.HOST_APT_n, 43, 32⟩
/-- PCC_CTRL.energy_mode (R368). -/
abbrev F.PCC_CTRL_energy_mode : Fld := ⟨.PCC_CTRL, 7, 7⟩
/-- PCC_CTRL.v_policy (R368). -/
abbrev F.PCC_CTRL_v_policy : Fld := ⟨.PCC_CTRL, 6, 6⟩
/-- PCC_CTRL.hum_mode (R368). -/
abbrev F.PCC_CTRL_hum_mode : Fld := ⟨.PCC_CTRL, 5, 4⟩
/-- PCC_CTRL.hum_slice_end (R368). -/
abbrev F.PCC_CTRL_hum_slice_end : Fld := ⟨.PCC_CTRL, 3, 3⟩
/-- PCC_VOLT.v_fixed (R368). -/
abbrev F.PCC_VOLT_v_fixed : Fld := ⟨.PCC_VOLT, 55, 48⟩
/-- PCC_VOLT.v_max (R368). -/
abbrev F.PCC_VOLT_v_max : Fld := ⟨.PCC_VOLT, 47, 40⟩
/-- PCC_VOLT.v_min (R368). -/
abbrev F.PCC_VOLT_v_min : Fld := ⟨.PCC_VOLT, 39, 32⟩
/-- PCC_VOLT.rail_offset (R368). -/
abbrev F.PCC_VOLT_rail_offset : Fld := ⟨.PCC_VOLT, 28, 24⟩
/-- PCC_VOLT.v_request (R368). -/
abbrev F.PCC_VOLT_v_request : Fld := ⟨.PCC_VOLT, 7, 0⟩
/-- PCC_CLOCK.host_cap (R368). -/
abbrev F.PCC_CLOCK_host_cap : Fld := ⟨.PCC_CLOCK, 23, 16⟩
/-- PCC_CLOCK.f_floor (R368). -/
abbrev F.PCC_CLOCK_f_floor : Fld := ⟨.PCC_CLOCK, 15, 8⟩
/-- PCC_CLOCK.f_max (R368). -/
abbrev F.PCC_CLOCK_f_max : Fld := ⟨.PCC_CLOCK, 7, 0⟩
/-- PCC_CAP.i_limit (R368). -/
abbrev F.PCC_CAP_i_limit : Fld := ⟨.PCC_CAP, 43, 32⟩
/-- PCC_CAP.cap (R368). -/
abbrev F.PCC_CAP_cap : Fld := ⟨.PCC_CAP, 10, 0⟩
/-- PCC_LOOP.hyst_w (R368). -/
abbrev F.PCC_LOOP_hyst_w : Fld := ⟨.PCC_LOOP, 31, 24⟩
/-- PCC_LOOP.headroom (R368). -/
abbrev F.PCC_LOOP_headroom : Fld := ⟨.PCC_LOOP, 23, 16⟩
/-- PCC_LOOP.cl_min_duty (R368). -/
abbrev F.PCC_LOOP_cl_min_duty : Fld := ⟨.PCC_LOOP, 15, 8⟩
/-- PCC_LOOP.t_v (R368). -/
abbrev F.PCC_LOOP_t_v : Fld := ⟨.PCC_LOOP, 7, 0⟩
/-- PCC_HUM.hum_ramp (R368). -/
abbrev F.PCC_HUM_hum_ramp : Fld := ⟨.PCC_HUM, 23, 16⟩
/-- PCC_HUM.hum_floor (R368). -/
abbrev F.PCC_HUM_hum_floor : Fld := ⟨.PCC_HUM, 11, 8⟩
/-- PCC_THERM.t_throttle (R368). -/
abbrev F.PCC_THERM_t_throttle : Fld := ⟨.PCC_THERM, 7, 0⟩
/-- PCC_BRAKE.excess (R368). -/
abbrev F.PCC_BRAKE_excess : Fld := ⟨.PCC_BRAKE, 63, 32⟩
/-- PCC_BRAKE.release_us (R368). -/
abbrev F.PCC_BRAKE_release_us : Fld := ⟨.PCC_BRAKE, 31, 16⟩
/-- PCC_BRAKE.duty (R368). -/
abbrev F.PCC_BRAKE_duty : Fld := ⟨.PCC_BRAKE, 2, 0⟩
/-- PCC_MARGIN.clk_offset (R368). -/
abbrev F.PCC_MARGIN_clk_offset : Fld := ⟨.PCC_MARGIN, 11, 8⟩
/-- PCC_MARGIN.v_offset (R368). -/
abbrev F.PCC_MARGIN_v_offset : Fld := ⟨.PCC_MARGIN, 4, 0⟩
/-- PCC_MARGIN_PAIRS.pairs (R368). -/
abbrev F.PCC_MARGIN_PAIRS_pairs : Fld := ⟨.PCC_MARGIN_PAIRS, 63, 0⟩
/-- PCC_STATUS.power_w (R368). -/
abbrev F.PCC_STATUS_power_w : Fld := ⟨.PCC_STATUS, 63, 48⟩
/-- PCC_STATUS.f_ceil (R368). -/
abbrev F.PCC_STATUS_f_ceil : Fld := ⟨.PCC_STATUS, 47, 40⟩
/-- PCC_STATUS.duty (R368). -/
abbrev F.PCC_STATUS_duty : Fld := ⟨.PCC_STATUS, 35, 32⟩
/-- PCC_STATUS.i_core (R368). -/
abbrev F.PCC_STATUS_i_core : Fld := ⟨.PCC_STATUS, 31, 16⟩
/-- PCC_STATUS.t_hot (R368). -/
abbrev F.PCC_STATUS_t_hot : Fld := ⟨.PCC_STATUS, 15, 8⟩
/-- PCC_STATUS.window (R368). -/
abbrev F.PCC_STATUS_window : Fld := ⟨.PCC_STATUS, 7, 7⟩
/-- PCC_STATUS.reasons (R368). -/
abbrev F.PCC_STATUS_reasons : Fld := ⟨.PCC_STATUS, 6, 0⟩
/-- PCC_EVENTS.ignored_write (R368). -/
abbrev F.PCC_EVENTS_ignored_write : Fld := ⟨.PCC_EVENTS, 10, 10⟩
/-- PCC_EVENTS.age_limit (R368). -/
abbrev F.PCC_EVENTS_age_limit : Fld := ⟨.PCC_EVENTS, 9, 9⟩
/-- PCC_EVENTS.age_step (R368). -/
abbrev F.PCC_EVENTS_age_step : Fld := ⟨.PCC_EVENTS, 8, 8⟩
/-- PCC_EVENTS.sensor_fail (R368). -/
abbrev F.PCC_EVENTS_sensor_fail : Fld := ⟨.PCC_EVENTS, 7, 7⟩
/-- PCC_EVENTS.therm_trip (R368). -/
abbrev F.PCC_EVENTS_therm_trip : Fld := ⟨.PCC_EVENTS, 6, 6⟩
/-- PCC_EVENTS.tele_lost (R368). -/
abbrev F.PCC_EVENTS_tele_lost : Fld := ⟨.PCC_EVENTS, 5, 5⟩
/-- PCC_EVENTS.avs_fail (R368). -/
abbrev F.PCC_EVENTS_avs_fail : Fld := ⟨.PCC_EVENTS, 4, 4⟩
/-- PCC_EVENTS.cap_unmet (R368). -/
abbrev F.PCC_EVENTS_cap_unmet : Fld := ⟨.PCC_EVENTS, 3, 3⟩
/-- PCC_EVENTS.hum_short (R368). -/
abbrev F.PCC_EVENTS_hum_short : Fld := ⟨.PCC_EVENTS, 2, 2⟩
/-- PCC_EVENTS.brake (R368). -/
abbrev F.PCC_EVENTS_brake : Fld := ⟨.PCC_EVENTS, 1, 1⟩
/-- PCC_EVENTS.throttle (R368). -/
abbrev F.PCC_EVENTS_throttle : Fld := ⟨.PCC_EVENTS, 0, 0⟩
/-- PCC_ENERGY.energy_uj (R368). -/
abbrev F.PCC_ENERGY_energy_uj : Fld := ⟨.PCC_ENERGY, 63, 0⟩
/-- PCC_JOB.last_tag (R368). -/
abbrev F.PCC_JOB_last_tag : Fld := ⟨.PCC_JOB, 63, 32⟩
/-- PCC_JOB.tag (R368). -/
abbrev F.PCC_JOB_tag : Fld := ⟨.PCC_JOB, 31, 0⟩
/-- PCC_JOB_LAST.energy_uj (R368). -/
abbrev F.PCC_JOB_LAST_energy_uj : Fld := ⟨.PCC_JOB_LAST, 63, 0⟩
/-- PCC_STACK_TEMP.temp (R368). -/
abbrev F.PCC_STACK_TEMP_temp : Fld := ⟨.PCC_STACK_TEMP, 31, 0⟩
/-- PCC_THR_DUR_i.dur_us (R368). -/
abbrev F.PCC_THR_DUR_i_dur_us : Fld := ⟨.PCC_THR_DUR_i, 47, 0⟩
/-- PCC_PAIR_p.temp (R368). -/
abbrev F.PCC_PAIR_p_temp : Fld := ⟨.PCC_PAIR_p, 57, 50⟩
/-- PCC_PAIR_p.f_rep (R368). -/
abbrev F.PCC_PAIR_p_f_rep : Fld := ⟨.PCC_PAIR_p, 49, 40⟩
/-- PCC_PAIR_p.f_eff (R368). -/
abbrev F.PCC_PAIR_p_f_eff : Fld := ⟨.PCC_PAIR_p, 39, 30⟩
/-- PCC_PAIR_p.age (R368). -/
abbrev F.PCC_PAIR_p_age : Fld := ⟨.PCC_PAIR_p, 20, 16⟩
/-- PCC_PAIR_p.trim (R368). -/
abbrev F.PCC_PAIR_p_trim : Fld := ⟨.PCC_PAIR_p, 4, 0⟩
/-- RL_CTRL.wd_periods (R399). -/
abbrev F.RL_CTRL_wd_periods : Fld := ⟨.RL_CTRL, 47, 40⟩
/-- RL_CTRL.hb_timeout_ms (R399). -/
abbrev F.RL_CTRL_hb_timeout_ms : Fld := ⟨.RL_CTRL, 39, 26⟩
/-- RL_CTRL.storm_limit (R399). -/
abbrev F.RL_CTRL_storm_limit : Fld := ⟨.RL_CTRL, 15, 12⟩
/-- RL_CTRL.dump_en (R399). -/
abbrev F.RL_CTRL_dump_en : Fld := ⟨.RL_CTRL, 4, 4⟩
/-- RL_CTRL.auto_reset (R399). -/
abbrev F.RL_CTRL_auto_reset : Fld := ⟨.RL_CTRL, 3, 0⟩
/-- RL_STATUS.mp_resets (R399). -/
abbrev F.RL_STATUS_mp_resets : Fld := ⟨.RL_STATUS, 31, 24⟩
/-- RL_STATUS.mp_held (R399). -/
abbrev F.RL_STATUS_mp_held : Fld := ⟨.RL_STATUS, 7, 7⟩
/-- RL_STATUS.device_fault (R399). -/
abbrev F.RL_STATUS_device_fault : Fld := ⟨.RL_STATUS, 6, 6⟩
/-- RL_STATUS.faulted (R399). -/
abbrev F.RL_STATUS_faulted : Fld := ⟨.RL_STATUS, 5, 2⟩
/-- RL_STATUS.fault_n (R399). -/
abbrev F.RL_STATUS_fault_n : Fld := ⟨.RL_STATUS, 1, 1⟩
/-- RL_STATUS.window (R399). -/
abbrev F.RL_STATUS_window : Fld := ⟨.RL_STATUS, 0, 0⟩
/-- RL_EVENTS.ignored_write (R399). -/
abbrev F.RL_EVENTS_ignored_write : Fld := ⟨.RL_EVENTS, 15, 15⟩
/-- RL_EVENTS.log_wrap (R399). -/
abbrev F.RL_EVENTS_log_wrap : Fld := ⟨.RL_EVENTS, 14, 14⟩
/-- RL_EVENTS.no_majority (R399). -/
abbrev F.RL_EVENTS_no_majority : Fld := ⟨.RL_EVENTS, 13, 13⟩
/-- RL_EVENTS.digest_mismatch (R399). -/
abbrev F.RL_EVENTS_digest_mismatch : Fld := ⟨.RL_EVENTS, 12, 12⟩
/-- RL_EVENTS.pattern_push (R399). -/
abbrev F.RL_EVENTS_pattern_push : Fld := ⟨.RL_EVENTS, 11, 11⟩
/-- RL_EVENTS.unchecked (R399). -/
abbrev F.RL_EVENTS_unchecked : Fld := ⟨.RL_EVENTS, 10, 10⟩
/-- RL_EVENTS.lib_mismatch (R399). -/
abbrev F.RL_EVENTS_lib_mismatch : Fld := ⟨.RL_EVENTS, 9, 9⟩
/-- RL_EVENTS.suspect (R399). -/
abbrev F.RL_EVENTS_suspect : Fld := ⟨.RL_EVENTS, 8, 8⟩
/-- RL_EVENTS.check_mismatch (R399). -/
abbrev F.RL_EVENTS_check_mismatch : Fld := ⟨.RL_EVENTS, 7, 7⟩
/-- RL_EVENTS.mp_reset (R399). -/
abbrev F.RL_EVENTS_mp_reset : Fld := ⟨.RL_EVENTS, 6, 6⟩
/-- RL_EVENTS.watchdog (R399). -/
abbrev F.RL_EVENTS_watchdog : Fld := ⟨.RL_EVENTS, 5, 5⟩
/-- RL_EVENTS.hive_held (R399). -/
abbrev F.RL_EVENTS_hive_held : Fld := ⟨.RL_EVENTS, 4, 4⟩
/-- RL_EVENTS.dump_no_dest (R399). -/
abbrev F.RL_EVENTS_dump_no_dest : Fld := ⟨.RL_EVENTS, 3, 3⟩
/-- RL_EVENTS.dump_marker (R399). -/
abbrev F.RL_EVENTS_dump_marker : Fld := ⟨.RL_EVENTS, 2, 2⟩
/-- RL_EVENTS.dump_done (R399). -/
abbrev F.RL_EVENTS_dump_done : Fld := ⟨.RL_EVENTS, 1, 1⟩
/-- RL_EVENTS.hive_fault (R399). -/
abbrev F.RL_EVENTS_hive_fault : Fld := ⟨.RL_EVENTS, 0, 0⟩
/-- RL_HEARTBEAT.beat (R399). -/
abbrev F.RL_HEARTBEAT_beat : Fld := ⟨.RL_HEARTBEAT, 0, 0⟩
/-- RL_LOG_PTR.next_seq (R399). -/
abbrev F.RL_LOG_PTR_next_seq : Fld := ⟨.RL_LOG_PTR, 63, 32⟩
/-- RL_LOG_PTR.lost (R399). -/
abbrev F.RL_LOG_PTR_lost : Fld := ⟨.RL_LOG_PTR, 31, 16⟩
/-- RL_LOG_PTR.first_count (R399). -/
abbrev F.RL_LOG_PTR_first_count : Fld := ⟨.RL_LOG_PTR, 15, 9⟩
/-- RL_LOG_PTR.ring_next (R399). -/
abbrev F.RL_LOG_PTR_ring_next : Fld := ⟨.RL_LOG_PTR, 8, 0⟩
/-- RL_CHECK.suspect (R399). -/
abbrev F.RL_CHECK_suspect : Fld := ⟨.RL_CHECK, 23, 20⟩
/-- RL_CHECK.lib_share (R399). -/
abbrev F.RL_CHECK_lib_share : Fld := ⟨.RL_CHECK, 19, 16⟩
/-- RL_CHECK.fmt (R399). -/
abbrev F.RL_CHECK_fmt : Fld := ⟨.RL_CHECK, 15, 12⟩
/-- RL_CHECK.steps_m1 (R399). -/
abbrev F.RL_CHECK_steps_m1 : Fld := ⟨.RL_CHECK, 11, 0⟩
/-- RL_CHECK_SEED.seed (R399). -/
abbrev F.RL_CHECK_SEED_seed : Fld := ⟨.RL_CHECK_SEED, 63, 0⟩
/-- RL_TWIN.length (R399). -/
abbrev F.RL_TWIN_length : Fld := ⟨.RL_TWIN, 63, 56⟩
/-- RL_TWIN.start (R399). -/
abbrev F.RL_TWIN_start : Fld := ⟨.RL_TWIN, 47, 0⟩
/-- RL_TWIN_REP.period (R399). -/
abbrev F.RL_TWIN_REP_period : Fld := ⟨.RL_TWIN_REP, 31, 0⟩
/-- RL_DUMP_CFG.budget_ms (R399). -/
abbrev F.RL_DUMP_CFG_budget_ms : Fld := ⟨.RL_DUMP_CFG, 7, 0⟩
/-- RL_DUMP_RANGE_i.valid (R399). -/
abbrev F.RL_DUMP_RANGE_i_valid : Fld := ⟨.RL_DUMP_RANGE_i, 63, 63⟩
/-- RL_DUMP_RANGE_i.size (R399). -/
abbrev F.RL_DUMP_RANGE_i_size : Fld := ⟨.RL_DUMP_RANGE_i, 59, 44⟩
/-- RL_DUMP_RANGE_i.base (R399). -/
abbrev F.RL_DUMP_RANGE_i_base : Fld := ⟨.RL_DUMP_RANGE_i, 43, 16⟩
/-- RL_HIVE_h.resets (R399). -/
abbrev F.RL_HIVE_h_resets : Fld := ⟨.RL_HIVE_h, 63, 48⟩
/-- RL_HIVE_h.cause (R399). -/
abbrev F.RL_HIVE_h_cause : Fld := ⟨.RL_HIVE_h, 47, 40⟩
/-- RL_HIVE_h.hour_resets (R399). -/
abbrev F.RL_HIVE_h_hour_resets : Fld := ⟨.RL_HIVE_h, 39, 36⟩
/-- RL_HIVE_h.fault_breath (R399). -/
abbrev F.RL_HIVE_h_fault_breath : Fld := ⟨.RL_HIVE_h, 35, 4⟩
/-- RL_HIVE_h.state (R399). -/
abbrev F.RL_HIVE_h_state : Fld := ⟨.RL_HIVE_h, 3, 0⟩
/-- RL_DUMP_SLOT_g.occupied (R399). -/
abbrev F.RL_DUMP_SLOT_g_occupied : Fld := ⟨.RL_DUMP_SLOT_g, 63, 63⟩
/-- RL_DUMP_SLOT_g.release (R399). -/
abbrev F.RL_DUMP_SLOT_g_release : Fld := ⟨.RL_DUMP_SLOT_g, 62, 62⟩
/-- RL_DUMP_SLOT_g.source (R399). -/
abbrev F.RL_DUMP_SLOT_g_source : Fld := ⟨.RL_DUMP_SLOT_g, 61, 60⟩
/-- RL_DUMP_SLOT_g.status (R399). -/
abbrev F.RL_DUMP_SLOT_g_status : Fld := ⟨.RL_DUMP_SLOT_g, 59, 56⟩
/-- RL_DUMP_SLOT_g.size_4k (R399). -/
abbrev F.RL_DUMP_SLOT_g_size_4k : Fld := ⟨.RL_DUMP_SLOT_g, 31, 0⟩
/-- RL_PAIR_p.units (R399). -/
abbrev F.RL_PAIR_p_units : Fld := ⟨.RL_PAIR_p, 63, 32⟩
/-- RL_PAIR_p.charged (R399). -/
abbrev F.RL_PAIR_p_charged : Fld := ⟨.RL_PAIR_p, 31, 24⟩
/-- RL_PAIR_p.charged_margin (R399). -/
abbrev F.RL_PAIR_p_charged_margin : Fld := ⟨.RL_PAIR_p, 23, 16⟩
/-- RL_PAIR_p.lib_fail (R399). -/
abbrev F.RL_PAIR_p_lib_fail : Fld := ⟨.RL_PAIR_p, 15, 8⟩
/-- RL_PAIR_p.unresolved (R399). -/
abbrev F.RL_PAIR_p_unresolved : Fld := ⟨.RL_PAIR_p, 7, 0⟩
/-- BOOT_STATUS.time_ms (R415). -/
abbrev F.BOOT_STATUS_time_ms : Fld := ⟨.BOOT_STATUS, 63, 32⟩
/-- BOOT_STATUS.boot_lock (R415). -/
abbrev F.BOOT_STATUS_boot_lock : Fld := ⟨.BOOT_STATUS, 20, 20⟩
/-- BOOT_STATUS.stop_sel (R415). -/
abbrev F.BOOT_STATUS_stop_sel : Fld := ⟨.BOOT_STATUS, 17, 16⟩
/-- BOOT_STATUS.fail_code (R415). -/
abbrev F.BOOT_STATUS_fail_code : Fld := ⟨.BOOT_STATUS, 15, 8⟩
/-- BOOT_STATUS.state (R415). -/
abbrev F.BOOT_STATUS_state : Fld := ⟨.BOOT_STATUS, 3, 0⟩
/-- BOOT_STOP.pending_breath (R415). -/
abbrev F.BOOT_STOP_pending_breath : Fld := ⟨.BOOT_STOP, 63, 32⟩
/-- BOOT_STOP.hive_pending (R415). -/
abbrev F.BOOT_STOP_hive_pending : Fld := ⟨.BOOT_STOP, 31, 28⟩
/-- BOOT_STOP.hive_en (R415). -/
abbrev F.BOOT_STOP_hive_en : Fld := ⟨.BOOT_STOP, 27, 24⟩
/-- BOOT_STOP.sr_bits (R415). -/
abbrev F.BOOT_STOP_sr_bits : Fld := ⟨.BOOT_STOP, 21, 20⟩
/-- BOOT_STOP.rnd_default (R415). -/
abbrev F.BOOT_STOP_rnd_default : Fld := ⟨.BOOT_STOP, 18, 16⟩
/-- BOOT_STOP.pending_stop (R415). -/
abbrev F.BOOT_STOP_pending_stop : Fld := ⟨.BOOT_STOP, 6, 5⟩
/-- BOOT_STOP.pending (R415). -/
abbrev F.BOOT_STOP_pending : Fld := ⟨.BOOT_STOP, 4, 4⟩
/-- BOOT_STOP.active (R415). -/
abbrev F.BOOT_STOP_active : Fld := ⟨.BOOT_STOP, 1, 0⟩
/-- BOOT_FUSE.owner_enrolled (R415). -/
abbrev F.BOOT_FUSE_owner_enrolled : Fld := ⟨.BOOT_FUSE, 24, 24⟩
/-- BOOT_FUSE.revoked (R415). -/
abbrev F.BOOT_FUSE_revoked : Fld := ⟨.BOOT_FUSE, 23, 20⟩
/-- BOOT_FUSE.vendor_key (R415). -/
abbrev F.BOOT_FUSE_vendor_key : Fld := ⟨.BOOT_FUSE, 17, 16⟩
/-- BOOT_FUSE.image_sv (R415). -/
abbrev F.BOOT_FUSE_image_sv : Fld := ⟨.BOOT_FUSE, 14, 8⟩
/-- BOOT_FUSE.rollback (R415). -/
abbrev F.BOOT_FUSE_rollback : Fld := ⟨.BOOT_FUSE, 6, 0⟩
/-- BOOT_SERIAL.serial (R415). -/
abbrev F.BOOT_SERIAL_serial : Fld := ⟨.BOOT_SERIAL, 63, 0⟩
/-- BOOT_MEAS_i.bytes (R415). -/
abbrev F.BOOT_MEAS_i_bytes : Fld := ⟨.BOOT_MEAS_i, 63, 0⟩
/-- BOOT_FW_MEAS_i.bytes (R415). -/
abbrev F.BOOT_FW_MEAS_i_bytes : Fld := ⟨.BOOT_FW_MEAS_i, 63, 0⟩
/-- BOOT_EVENTS.owner_enrolled (R415). -/
abbrev F.BOOT_EVENTS_owner_enrolled : Fld := ⟨.BOOT_EVENTS, 4, 4⟩
/-- BOOT_EVENTS.rollback_committed (R415). -/
abbrev F.BOOT_EVENTS_rollback_committed : Fld := ⟨.BOOT_EVENTS, 3, 3⟩
/-- BOOT_EVENTS.ignored_write (R415). -/
abbrev F.BOOT_EVENTS_ignored_write : Fld := ⟨.BOOT_EVENTS, 2, 2⟩
/-- BOOT_EVENTS.fuse_fail (R415). -/
abbrev F.BOOT_EVENTS_fuse_fail : Fld := ⟨.BOOT_EVENTS, 1, 1⟩
/-- BOOT_EVENTS.stop_applied (R415). -/
abbrev F.BOOT_EVENTS_stop_applied : Fld := ⟨.BOOT_EVENTS, 0, 0⟩
/-- BOOT_CMD.boot_complete (R415). -/
abbrev F.BOOT_CMD_boot_complete : Fld := ⟨.BOOT_CMD, 0, 0⟩
/-- CTR_GLOBAL.run (R426). -/
abbrev F.CTR_GLOBAL_run : Fld := ⟨.CTR_GLOBAL, 0, 0⟩
/-- CTR_USER.en (R426). -/
abbrev F.CTR_USER_en : Fld := ⟨.CTR_USER, 0, 0⟩
/-- CTR_FREEZE.every (R426). -/
abbrev F.CTR_FREEZE_every : Fld := ⟨.CTR_FREEZE, 63, 48⟩
/-- CTR_FREEZE.at (R426). -/
abbrev F.CTR_FREEZE_at : Fld := ⟨.CTR_FREEZE, 47, 0⟩
/-- CTR_FREEZE_STATUS.valid (R426). -/
abbrev F.CTR_FREEZE_STATUS_valid : Fld := ⟨.CTR_FREEZE_STATUS, 49, 49⟩
/-- CTR_FREEZE_STATUS.pending (R426). -/
abbrev F.CTR_FREEZE_STATUS_pending : Fld := ⟨.CTR_FREEZE_STATUS, 48, 48⟩
/-- CTR_FREEZE_STATUS.last (R426). -/
abbrev F.CTR_FREEZE_STATUS_last : Fld := ⟨.CTR_FREEZE_STATUS, 47, 0⟩
/-- CTR_CMD.freeze_now (R426). -/
abbrev F.CTR_CMD_freeze_now : Fld := ⟨.CTR_CMD, 1, 1⟩
/-- CTR_CMD.clear_all (R426). -/
abbrev F.CTR_CMD_clear_all : Fld := ⟨.CTR_CMD, 0, 0⟩
/-- CTR_WINDOW.dur_us (R426). -/
abbrev F.CTR_WINDOW_dur_us : Fld := ⟨.CTR_WINDOW, 63, 32⟩
/-- CTR_WINDOW.breaths (R426). -/
abbrev F.CTR_WINDOW_breaths : Fld := ⟨.CTR_WINDOW, 7, 0⟩
/-- CTR_EVENTS.ignored_write (R426). -/
abbrev F.CTR_EVENTS_ignored_write : Fld := ⟨.CTR_EVENTS, 0, 0⟩
/-- PORTCTR_TX_LO.count (R426). -/
abbrev F.PORTCTR_TX_LO_count : Fld := ⟨.PORTCTR_TX_LO, 47, 0⟩
/-- PORTCTR_TX_HI.count (R426). -/
abbrev F.PORTCTR_TX_HI_count : Fld := ⟨.PORTCTR_TX_HI, 47, 0⟩
/-- PORTCTR_RX_LO.count (R426). -/
abbrev F.PORTCTR_RX_LO_count : Fld := ⟨.PORTCTR_RX_LO, 47, 0⟩
/-- PORTCTR_RX_HI.count (R426). -/
abbrev F.PORTCTR_RX_HI_count : Fld := ⟨.PORTCTR_RX_HI, 47, 0⟩
/-- PORTCTR_FWD_LO.count (R426). -/
abbrev F.PORTCTR_FWD_LO_count : Fld := ⟨.PORTCTR_FWD_LO, 47, 0⟩
/-- PORTCTR_FWD_HI.count (R426). -/
abbrev F.PORTCTR_FWD_HI_count : Fld := ⟨.PORTCTR_FWD_HI, 47, 0⟩
/-- PORTCTR_SNAP_TX_LO.count (R426). -/
abbrev F.PORTCTR_SNAP_TX_LO_count : Fld := ⟨.PORTCTR_SNAP_TX_LO, 47, 0⟩
/-- PORTCTR_SNAP_TX_HI.count (R426). -/
abbrev F.PORTCTR_SNAP_TX_HI_count : Fld := ⟨.PORTCTR_SNAP_TX_HI, 47, 0⟩
/-- PORTCTR_SNAP_RX_LO.count (R426). -/
abbrev F.PORTCTR_SNAP_RX_LO_count : Fld := ⟨.PORTCTR_SNAP_RX_LO, 47, 0⟩
/-- PORTCTR_SNAP_RX_HI.count (R426). -/
abbrev F.PORTCTR_SNAP_RX_HI_count : Fld := ⟨.PORTCTR_SNAP_RX_HI, 47, 0⟩
/-- PORTCTR_SNAP_FWD_LO.count (R426). -/
abbrev F.PORTCTR_SNAP_FWD_LO_count : Fld := ⟨.PORTCTR_SNAP_FWD_LO, 47, 0⟩
/-- PORTCTR_SNAP_FWD_HI.count (R426). -/
abbrev F.PORTCTR_SNAP_FWD_HI_count : Fld := ⟨.PORTCTR_SNAP_FWD_HI, 47, 0⟩
/-- PORTCTR_BW.tx_kib (R426). -/
abbrev F.PORTCTR_BW_tx_kib : Fld := ⟨.PORTCTR_BW, 63, 32⟩
/-- PORTCTR_BW.rx_kib (R426). -/
abbrev F.PORTCTR_BW_rx_kib : Fld := ⟨.PORTCTR_BW, 31, 0⟩
/-- CTR_P_n.count (R426). -/
abbrev F.CTR_P_n_count : Fld := ⟨.CTR_P_n, 47, 0⟩
/-- CTR_P_SLOT_k.count (R426). -/
abbrev F.CTR_P_SLOT_k_count : Fld := ⟨.CTR_P_SLOT_k, 47, 0⟩
/-- CTR_P_SNAP_j.count (R426). -/
abbrev F.CTR_P_SNAP_j_count : Fld := ⟨.CTR_P_SNAP_j, 47, 0⟩
/-- CTR_P_SEL.event (R426). -/
abbrev F.CTR_P_SEL_event : Fld := ⟨.CTR_P_SEL, 63, 0⟩
/-- CTR_P_CTRL.clear (R426). -/
abbrev F.CTR_P_CTRL_clear : Fld := ⟨.CTR_P_CTRL, 27, 16⟩
/-- CTR_P_CTRL.en (R426). -/
abbrev F.CTR_P_CTRL_en : Fld := ⟨.CTR_P_CTRL, 11, 0⟩
/-- CTR_P_OVF.ovf (R426). -/
abbrev F.CTR_P_OVF_ovf : Fld := ⟨.CTR_P_OVF, 11, 0⟩
/-- CTR_P_SAMPLE.period_log2 (R426). -/
abbrev F.CTR_P_SAMPLE_period_log2 : Fld := ⟨.CTR_P_SAMPLE, 13, 8⟩
/-- CTR_P_SAMPLE.src (R426). -/
abbrev F.CTR_P_SAMPLE_src : Fld := ⟨.CTR_P_SAMPLE, 3, 1⟩
/-- CTR_P_SAMPLE.en (R426). -/
abbrev F.CTR_P_SAMPLE_en : Fld := ⟨.CTR_P_SAMPLE, 0, 0⟩
/-- CTR_P_SAMPLE_LAST.count_lo (R426). -/
abbrev F.CTR_P_SAMPLE_LAST_count_lo : Fld := ⟨.CTR_P_SAMPLE_LAST, 63, 32⟩
/-- CTR_P_SAMPLE_LAST.event (R426). -/
abbrev F.CTR_P_SAMPLE_LAST_event : Fld := ⟨.CTR_P_SAMPLE_LAST, 31, 24⟩
/-- CTR_P_SAMPLE_LAST.src (R426). -/
abbrev F.CTR_P_SAMPLE_LAST_src : Fld := ⟨.CTR_P_SAMPLE_LAST, 22, 20⟩
/-- CTR_P_SAMPLE_LAST.index (R426). -/
abbrev F.CTR_P_SAMPLE_LAST_index : Fld := ⟨.CTR_P_SAMPLE_LAST, 19, 0⟩

end Sys2Proof.Machine
end

