-- ==== Sys2Proof/Machine/State.lean ====
section
/-! DEFINITION. The state of the part: registers, memory, queues, units, the outside pins, and the queue of waiting
commands. Every field is plain data. -/

namespace Sys2Proof.Machine

/-- Why the machine stops. No command of this part stops it: the type is closed and its one constructor is for
a state that cannot be reached by any command. -/
inductive Fault where
  /-- Raised by no command: the part answers every access (R5, R206). Safe. -/
  | unreachable
  deriving DecidableEq, Repr

/-- Why a command has no meaning here. -/
inductive Refusal where
  /-- Raised by a dispatch arm whose command has no meaning yet. Safe. -/
  | notModelled (mnemonic : String)
  deriving DecidableEq, Repr

/-- What leaves the part, newest first in State.out. -/
inductive Out where
  /-- A packet sent on a port; port 9 hands it back to this part, as one addressed to itself. -/
  | packet (port : Nat) (p : Packet)
  /-- An ordered set sent on a port: kind byte and 128-bit body (R293). -/
  | orderedSet (port kind body : Nat)
  /-- An MSI-X message of a vector (R336): the address and data of its table entry. -/
  | msix (vector addr data : Nat)
  /-- The 256 bytes of a flit sent on a port (R292, R293): each flit of a packet, each that carries an ordered set, and the
  IDLE flits that carry an acknowledgement or a nak. -/
  | flit (port : Nat) (bytes : List Nat)
  /-- A write into host memory by the endpoint (R330). -/
  | hostWrite (addr : Nat) (bytes : List Nat)
  /-- The completion of a host read: the read's own number, its bytes, its EP bit (R332). -/
  | completion (tag : Nat) (bytes : List Nat) (ep : Bool)
  /-- A 100 ns pulse on TICK_OUT (R31). -/
  | tickOut
  /-- The bytes an I3C transfer returns (R441), or an in-band interrupt with its mandatory byte. -/
  | i3cData (bytes : List Nat)
  | i3cInterrupt (byte : Nat)
  /-- The bits a JTAG scan shifts out of TDO (R442). -/
  | tdo (value : Nat)
  deriving DecidableEq, Repr

/-- An entry of the error log (R383). -/
structure LogEntry where
  seq : Nat := 0
  block : Nat := 0
  item : Nat := 0
  severity : Nat := 0
  hive : Nat := 0
  pair : Nat := 255
  breath : Nat := 0
  tick : Nat := 0
  requester : Nat := 0
  addr : Nat := 0
  data : Nat := 0
  repeats : Nat := 0
  deriving DecidableEq, Repr

/-- An event record (R334). -/
structure EventRec where
  device : Nat := 0
  block : Nat := 0
  item : Nat := 0
  dropped : Nat := 0
  pair : Nat := 255
  breath : Nat := 0
  tick : Nat := 0
  data : Nat := 0
  deriving DecidableEq, Repr

/-- A hive fault that waits for its boundary tick (R372). -/
structure PendingFault where
  hive : Nat
  cause : Nat
  pair : Nat
  deriving DecidableEq, Repr

/-- What the sequencer of a pair waits for (R150, R155, R156). -/
inductive Blocked where
  | none
  /-- A SYNC WAIT on a semaphore for n (R200). -/
  | sem (sem n : Nat)
  /-- A HUM on a semaphore for n, plain or check (R203). -/
  | hum (sem n : Nat) (check : Bool)
  /-- A SYNC QUIET (R200). -/
  | quiet
  /-- A SLICE with its quiet flag set (R156). -/
  | sliceQuiet
  /-- An END with its quiet flag set. -/
  | endQuiet
  /-- A refill of the instruction buffer (R155). -/
  | refill
  deriving DecidableEq, Repr

/-- A copy whose descriptor was accepted (R163, R164, R169): the fields its engine uses. -/
structure CopyOp where
  kind : Nat := 0
  unit : Nat := 0
  width : Nat := 0
  inPlace : Bool := false
  sem : Nat := 0
  rsig : Bool := false
  rsem : Nat := 0
  rpair : Nat := 0
  src : Nat := 0
  dst : Nat := 0
  ext : List Nat := []
  sstride : List Int := []
  dstride : List Int := []
  stage : Nat := 0
  list : Nat := 0
  count : Nat := 0
  kbExt : Nat := 0
  nbExt : Nat := 0
  rowStride : Nat := 0
  index : Nat := 0
  started : Bool := false
  /-- Its place in issue order. -/
  seq : Nat := 0
  /-- A remote copy's bytes have all been written or acknowledged. -/
  finished : Bool := false
  deriving DecidableEq, Repr

/-- A request sent to another part and not yet answered (R308). -/
structure Request where
  id : Nat := 0
  pair : Nat := 0
  /-- 0 put, 1 get, 2 exchange message, 3 all-to-all message, 4 PERMUTE transfer, 5 host window or aperture access. -/
  kind : Nat := 0
  dst : Nat := 0
  /-- Elapsed microseconds when it was sent. -/
  sent : Nat := 0
  /-- What it belongs to: the copy's place in issue order, the collective's, or a batch tag. -/
  ref : Nat := 0
  member : Nat := 0
  deriving DecidableEq, Repr

/-- A packet that waits in the hub for its port (R301, R304): the port, the input it came by (a port, 9 for this part's own),
the elapsed microseconds when it came. -/
structure Held where
  port : Nat := 0
  input : Nat := 0
  since : Nat := 0
  m : Packet := {}
  deriving DecidableEq, Repr

/-- The link layer of a port (R300, R301): the next sequence number, the flits not acknowledged with bytes 4–251 of each,
how often the oldest was resent in a row, the next number expected, whether flits are discarded until it comes, the bytes
received of a packet not complete, the retrains in a row that failed, the FEC mode in use. -/
structure PortS where
  txNext : Nat := 0
  unacked : List (Nat × List Nat) := []
  resends : Nat := 0
  rxNext : Nat := 0
  discarding : Bool := false
  rxBuf : List Nat := []
  fails : Nat := 0
  fec : Nat := 0
  /-- An echo has measured the hop delay since the port last trained or retrained (R34). -/
  hopValid : Bool := false
  /-- A DATA flit has been accepted: an acknowledgement means something (R292). -/
  accepted : Bool := false
  /-- The input served next, by class (R304). -/
  turn : SMap Nat := []
  /-- The x4 half the port ran on before it failed, as PORT_STATUS.width; 0 if none (R301). -/
  keptX4 : Nat := 0
  /-- The retrain in progress has a cause that a PORT_EVENTS bit names (R319). -/
  named : Bool := false
  /-- The step requests applied to the transmitter since it was trained, newest first, and when an EQ set last went out, in
  elapsed microseconds plus 1 (R298). -/
  eqSteps : List Nat := []
  eqAt : Nat := 0
  deriving DecidableEq, Repr

/-- An instruction accepted by a unit and not complete: its word, its index, the scalar values read at issue (R153),
its descriptor with the scalar sums applied (R183), the rounding it resolved (R87), its place in issue order. -/
structure UnitOp where
  word : Nat := 0
  index : Nat := 0
  vals : List Nat := []
  desc : List Nat := []
  rnd : Nat := 0
  seq : Nat := 0
  /-- The schedule breath of the slice that issued it: its draws are that slice's (R95, R97). -/
  breath : Nat := 0
  /-- The segment that a hub-issued addition takes (R311): none for an instruction. -/
  hub : Option Packet := none
  deriving DecidableEq, Repr

/-- A drain in the drain queue (R63): accumulator (i, j) of slice r goes to base + i × rowStep + (16r + j) × colStep
for a DRAIN, or + j × colStep for a drain that a SPLIT caused. -/
structure DrainOp where
  seq : Nat := 0
  /-- The issue number of the SPLIT that caused the drain; 0 for a DRAIN. -/
  owner : Nat := 0
  blk : Bool := false
  keep : Bool := false
  fmt : Nat := 0
  rnd : Nat := 0
  sat : Nat := 0
  bank : Nat := 0
  smask : Nat := 0
  reed : Nat := 0
  slot : Nat := 0
  base : Nat := 0
  rowStep : Nat := 0
  colStep : Nat := 0
  sem : Nat := 0
  sig : Bool := false
  /-- The schedule breath of the slice that issued it, or its SPLIT. -/
  breath : Nat := 0
  deriving DecidableEq, Repr

/-- A tile in a staging buffer or half (R65): P × Q elements row by row, and the poisoned ones. -/
structure Tile where
  valid : Bool := false
  fmt : Nat := 0
  rows : Nat := 0
  cols : Nat := 0
  elems : SMap Nat := []
  bad : SMap Bool := []
  deriving DecidableEq, Repr

/-- An entry of a reed queue (R129): the header's fields and the bytes of its block. Kinds: 0 BLOCK, 1 CLOSE, 2 END,
3 TASK. -/
structure QEntry where
  kind : Nat := 0
  xpose : Bool := false
  last : Bool := false
  poison : Bool := false
  width : Nat := 0
  nb : Nat := 0
  kb : Nat := 0
  seq : Nat := 0
  block : List Nat := []
  deriving DecidableEq, Repr

/-- The walk in progress (R126–R129): the group, list entry or tile reached, the entry reached within it, the address of
the STILE body, the ENDs sent, and whether poison ended it. -/
structure WalkS where
  item : Nat := 0
  sub : Nat := 0
  body : Nat := 0
  /-- The walk sends its ENDs; the next goes to this reed. -/
  ending : Bool := false
  endReed : Nat := 0
  poison : Bool := false
  /-- A STILE body lay outside the allowed range (R116). -/
  outRange : Bool := false
  /-- Entries sent to each reed (R129). -/
  sent : SMap Nat := []
  /-- Closed block-columns, by reed × 16384 + nb (R128). -/
  closed : SMap Bool := []
  deriving DecidableEq, Repr

/-- A slot of the spill ring in use (R134): the reed, the slot's near address and its bytes, and the length of its block. -/
structure RingSlot where
  reed : Nat := 0
  addr : Nat := 0
  size : Nat := 0
  blockLen : Nat := 0
  deriving DecidableEq, Repr

/-- A post of the gradient exchange (R273, R275, R277). -/
structure GexPost where
  seq : Nat := 0
  tag : Nat := 0
  axis : Nat := 0
  b0 : Nat := 0
  ahead : Nat := 0
  deadline : Nat := 0
  fmt : Nat := 0
  avg : Bool := false
  n : Nat := 0
  sum : Nat := 0
  area : Nat := 0
  res : Nat := 0
  /-- Members whose message was accepted, and the counts they carried. -/
  mask : Nat := 0
  counts : SMap Nat := []
  /-- The next member to decode, and whether one has been decoded. -/
  next : Nat := 0
  wrote : Bool := false
  nonfinite : Bool := false
  refused : Nat := 0
  deriving DecidableEq, Repr

/-- A send of the gradient exchange (R273, R278): owners whose mask is awaited, whose mask had this member's bit, whose
mask timed out, whose message was refused; owners folded back; owners whose contribution is non-finite. -/
structure GexSend where
  seq : Nat := 0
  tag : Nat := 0
  axis : Nat := 0
  b0 : Nat := 0
  deadline : Nat := 0
  fmt : Nat := 0
  n : Nat := 0
  wire : Nat := 0
  err : Nat := 0
  res : Nat := 0
  await : Nat := 0
  got : Nat := 0
  timedOut : Nat := 0
  refusedBy : Nat := 0
  folded : Nat := 0
  foldedEntries : Nat := 0
  nonfinite : Nat := 0
  deriving DecidableEq, Repr

/-- A post of the all-to-all (R236, R238, R240), kept after its close for the refusals that follow. -/
structure A2aPost where
  seq : Nat := 0
  tag : Nat := 0
  axis : Nat := 0
  b0 : Nat := 0
  ahead : Nat := 0
  deadline : Nat := 0
  zeroFill : Bool := false
  epp : Nat := 0
  c : Nat := 0
  near : Nat := 0
  far : Nat := 0
  rowBytes : Nat := 0
  hdr : Nat := 0
  table : Nat := 0
  gate : Nat := 0
  n : Nat := 0
  res : Nat := 0
  /-- Members whose count vector has come; the counts by expert × 16 + member; slots filled, by expert × 2^20 + slot. -/
  counted : Nat := 0
  counts : SMap Nat := []
  filled : SMap Bool := []
  closed : Bool := false
  /-- Messages refused since the close (R245), and the generations, not reduced, of the tag's posts closed before it (R240). -/
  refused : Nat := 0
  past : List Nat := []
  deriving DecidableEq, Repr

/-- An entry of the batch table (R242, R244): where returns go, what each slot holds (expert × 2^32 + position), which slots
were acknowledged at dispatch, which are filled. -/
structure Batch where
  tag : Nat := 0
  generation : Nat := 0
  total : Nat := 0
  ret : Nat := 0
  rowBytes : Nat := 0
  list : Nat := 0
  sem : Nat := 0
  close : Nat := 0
  res : Nat := 0
  slots : SMap Nat := []
  acked : SMap Bool := []
  filled : SMap Bool := []
  refusing : Nat := 0
  dropped : Nat := 0
  stale : Nat := 0
  /-- The dispatch it belongs to. -/
  seq : Nat := 0
  deriving DecidableEq, Repr

/-- A ring collective in progress at a pair (R309–R314): 0 ALLREDUCE, 1 REDSCAT, 2 ALLGATHER, 3 BCAST. -/
structure RingOp where
  op : Nat := 0
  seq : Nat := 0
  tag : Nat := 0
  axis : Nat := 0
  b0 : Nat := 0
  deadline : Nat := 0
  red : Nat := 0
  root : Nat := 0
  count : Nat := 0
  src : Nat := 0
  dst : Nat := 0
  res : Nat := 0
  /-- Segments or members' bytes written here; members whose data they hold; bytes written; stale packets discarded. -/
  parts : Nat := 0
  members : Nat := 0
  bytes : Nat := 0
  stale : Nat := 0
  deriving DecidableEq, Repr

/-- A PERMUTE in progress at a pair (R315, R316), kept after its end for the outcomes that follow. -/
structure PermOp where
  seq : Nat := 0
  tag : Nat := 0
  axis : Nat := 0
  b0 : Nat := 0
  deadline : Nat := 0
  table : Nat := 0
  entries : Nat := 0
  base : Nat := 0
  bytes : Nat := 0
  res : Nat := 0
  failed : Bool := false
  /-- Outgoing pieces acknowledged and incoming pieces staged, counted; READY sent; READY held, by member. -/
  acked : Nat := 0
  staged : SMap Bool := []
  sentReady : Bool := false
  ready : Nat := 0
  bytesSent : Nat := 0
  bytesStaged : Nat := 0
  /-- 0 running, 1 committed, 2 aborted. -/
  outcome : Nat := 0
  deriving DecidableEq, Repr

/-- A DIGCMP in progress at a pair (R393): the vectors that have come, by member × 16 + range: the value, plus 2^256 where
it is poisoned. -/
structure DigOp where
  seq : Nat := 0
  tag : Nat := 0
  axis : Nat := 0
  b0 : Nat := 0
  deadline : Nat := 0
  res : Nat := 0
  got : Nat := 0
  vals : SMap Nat := []
  deriving DecidableEq, Repr

/-- One NORM64 of the part (R280, R281): the pairs that have issued it, each with its value times 2 plus its poison, its
output and its place in issue order. -/
structure NormOp where
  tag : Nat := 0
  b0 : Nat := 0
  axes : Nat := 0
  deadline : Nat := 0
  pairs : Nat := 0
  vals : SMap Nat := []
  outs : List (Nat × Nat × Nat × Nat) := []
  sent : Bool := false
  deriving DecidableEq, Repr

/-- The total that a NORM64 root gathers (R281): reports by linear coordinate, a value times 2 plus its poison. -/
structure NormRoot where
  tag : Nat := 0
  generation : Nat := 0
  b0 : Nat := 0
  axes : Nat := 0
  deadline : Nat := 0
  reports : SMap Nat := []
  /-- The total has been formed: there is no second one. -/
  formed : Bool := false
  deriving DecidableEq, Repr

/-- A pattern of the pattern library (R390). -/
structure Pattern where
  id : Nat := 0
  fmt : Nat := 0
  steps : Nat := 0
  seed : Nat := 0
  expected : Nat := 0
  deriving DecidableEq, Repr

/-- The check units of a pair (R386–R391): units started; signatures kept by unit; units it reruns for another pair and its
partner (unit, pair, the two signatures); the times, in µs, of its charges; a unit begun under a library since replaced, with its
pattern if it takes one (R390). -/
structure CheckS where
  units : Nat := 0
  sigs : SMap Nat := []
  reruns : List (Nat × Nat × Nat × Nat) := []
  charges : List Nat := []
  begun : Option (Option Pattern) := none
  deriving DecidableEq, Repr

/-- A far channel (R214, R222): its pins' thresholds and phases, the times in µs of its failed transfers of the last 1 ms. -/
structure ChanS where
  track : List Nat := []
  /-- The trained values kept in the always-on domain (R224). -/
  saved : List Nat := []
  fails : List Nat := []
  deriving DecidableEq, Repr

/-- A hive's fault sequence (R372–R381): whether its dump is skipped, the slot it goes to, the pair named, the log entry that
recorded the fault, its breath and tick; the records written, the bytes written with the header, whether a record holds a marker;
the times in µs of its resets; channels that train after a release; its reset has been released; an enable change latched. -/
structure HiveS where
  skipDump : Bool := false
  dumpTo : Option Nat := none
  pair : Nat := 255
  entry : LogEntry := {}
  breath : Nat := 0
  tick : Nat := 0
  records : Nat := 0
  bytes : Nat := 0
  marker : Bool := false
  resets : List Nat := []
  training : Nat := 0
  released : Bool := false
  enable : Option Bool := none
  /-- Elapsed microseconds at T, at the start of its dump and at the assertion of its reset; its quiesce has ended; its RESET waits for a dump that
  comes into its slot; the storm limit holds it at this reset; its dump was abandoned by a management-processor reset. -/
  since : Nat := 0
  dumpAt : Nat := 0
  resetAt : Nat := 0
  quiesced : Bool := false
  waitReset : Bool := false
  storm : Bool := false
  aborted : Bool := false
  /-- Records that a read cut short, with the bytes read before it; the record and byte at which the dump was stopped. -/
  cuts : SMap Nat := []
  stopped : Option (Nat × Nat) := none
  /-- The hive was IN_SERVICE, not DISABLED, when its fault took effect. -/
  on : Bool := false
  deriving DecidableEq, Repr

/-- The management processor (R385): it is in a reset from which it restarts; the times of its resets, in µs; the last heartbeat. -/
structure MpS where
  down : Bool := false
  resets : List Nat := []
  beat : Nat := 0
  deriving DecidableEq, Repr

/-- An operation in progress on the flash (R411): 0 erase, 1 program, 3 verify. -/
structure FlashOp where
  op : Nat := 0
  off : Nat := 0
  bytes : List Nat := []
  deriving DecidableEq, Repr

/-- The boot and security block beside its registers (R400–R415). Flash bytes that nothing has written read 0xFF; the fuses are
those of a part that no owner has enrolled. -/
structure BootS where
  flash : SMap Nat := []
  /-- The serial, the owner fuse (0 while it is blank), the blown bits of the anti-rollback field, the revoke bits. -/
  serial : Nat := 0
  owner : Nat := 0
  rollback : Nat := 0
  revoked : Nat := 0
  /-- The flash identified at the last boot. -/
  identified : Bool := false
  flashOp : Option FlashOp := none
  progFailed : Bool := false
  verified : Nat := 0
  /-- Of the running image: its stops and link plan, its version, the owner fuse and rollback count it commits at boot complete. -/
  stops : List Nat := []
  plan : List Nat := []
  version : Nat := 0
  /-- The vendor key of the running image. -/
  vendorPub : List Nat := []
  enrol : Option Nat := none
  commit : Option Nat := none
  /-- The pending stop switch: the stop and A. -/
  switch : Option (Nat × Nat) := none
  /-- The filtered levels of PWR_OK and RESET_N; elapsed µs when the release falls due by itself, when RESET_N last fell and when
  the part was last released. -/
  pwrOk : Bool := false
  resetLow : Bool := true
  due : Option Nat := none
  lowSince : Nat := 0
  released : Nat := 0
  deriving DecidableEq, Repr

/-- Enumeration beside its registers (R321–R329). -/
structure GroupS where
  /-- The roster by position, each JOIN's serial plus 1, plus 2^65 where two serials came; JOINs that wait for the management processor, as (part, serial). -/
  roster : SMap Nat := []
  joins : List (Nat × Nat) := []
  conflict : Bool := false
  /-- Elapsed µs when the epoch started, when the last confirm copy was sent or came, when this part last passed one on. -/
  started : Nat := 0
  kept : Nat := 0
  passed : Nat := 0
  /-- The part has been CONFIRMED: its IDs stand (R322). This queen was promoted: it sends takeover copies. -/
  confirmed : Bool := false
  takeover : Bool := false
  /-- The body of the confirm copy this queen last flooded, which it repeats (R327). -/
  copy : Option Nat := none
  deriving DecidableEq, Repr

/-- A mailbox command in progress or waiting (R337): its words, the part whose queen relayed it, and that part's relay number. -/
structure MboxCmd where
  opcode : Nat := 0
  seq : Nat := 0
  payload : List Nat := []
  relay : Option (Nat × Nat) := none
  /-- The target of a remote command; its response is discarded (R333). -/
  remote : Option Nat := none
  gone : Bool := false
  deriving DecidableEq, Repr

/-- A pending NOTIFY (R339): the apply breath, the register writes as (address, value), the pairs, the comb offset, the semaphore,
whether it delivers its record, the record; its writes are made, and made late. -/
structure Notice where
  breath : Nat := 0
  writes : List (Nat × Nat) := []
  pairs : Nat := 0
  off : Nat := 0
  sem : Nat := 0
  deliver : Bool := false
  bytes : List Nat := []
  applied : Bool := false
  late : Bool := false
  deriving DecidableEq, Repr

/-- What the endpoint keeps of TLP errors (R330): the AER status bits of a poisoned TLP and of a wrong ECRC, and the enables of
ECRC generation and checking. -/
structure AerS where
  poisoned : Bool := false
  ecrc : Bool := false
  ecrcGen : Bool := false
  ecrcCheck : Bool := false
  deriving DecidableEq, Repr

/-- The host side (R330–R339): the mailbox buffers and status, the MSI-X table and PBA, the commands of the management
processor's queue, the commands relayed to other parts, each with its number, its time in µs and its target; notices; when vector 1 was
last raised. -/
structure HostS where
  cmd : SMap Nat := []
  rsp : SMap Nat := []
  /-- Bytes of the MSI-X table, each as it differs from its value after reset, in which every vector is masked. -/
  msixArea : SMap Nat := []
  /-- The pending bits of the PBA, by vector. -/
  pba : Nat := 0
  aer : AerS := {}
  accepted : Nat := 0
  completed : Nat := 0
  busy : Bool := false
  queue : List MboxCmd := []
  relayed : List (MboxCmd × Nat × Nat × Nat) := []
  relayNext : Nat := 0
  notices : List Notice := []
  coalesced : Option Nat := none
  /-- Posted writes that failed (R332). -/
  writeFails : Nat := 0
  deriving DecidableEq, Repr

/-- The board interfaces (R441, R442): the I3C address assigned and the bytes the next private read returns; the TAP's
instruction, its boundary register, whether it drives the balls, and the REGACC result. -/
structure PinS where
  i3cAddr : Option Nat := none
  i3cResult : List Nat := []
  tapIr : Nat := 1
  boundary : Nat := 0
  /-- 0 the part's own, 1 the boundary register, 2 high-impedance. -/
  drive : Nat := 0
  regacc : Nat := 0
  deriving DecidableEq, Repr

/-- What the counters hold beside their registers (R421, R422): a freeze for the next boundary, the window length in effect, the
ports' byte counts at its start (by 2 × port, + 1 for RX), its start in µs. -/
structure CounterS where
  freezeNext : Bool := false
  length : Nat := 16
  bytes : SMap Nat := []
  start : Nat := 0
  deriving DecidableEq, Repr

/-- A temperature sensor (R359): its last code in 0.25 °C, whether its last sample was out of range, how many samples since have been
alike (the same code, or out of range), how many in a row read 105 °C or more. -/
structure SensorS where
  code : Nat := 0
  off : Bool := false
  stale : Nat := 0
  hot : Nat := 0
  deriving DecidableEq, Repr

/-- What the power and clock controller holds beside its registers (R344–R366). Clocks are in 10 MHz, currents of hum in mA. -/
structure PowerS where
  /-- The voltage loop's code, whether it has started, the voltage code last read, a request the regulator refused. -/
  v : Nat := 0
  started : Bool := false
  tele : Nat := 0
  frozen : Option Nat := none
  overCap : Bool := false
  ceilPwr : Nat := 70
  ceilTherm : Nat := 70
  /-- Loop updates in a row at which the part was cool (R351). -/
  cool : Nat := 0
  /-- The current limit's duty, and samples in a row below 15/16 of the limit (R350). -/
  clDuty : Nat := 8
  below : Nat := 0
  /-- The brake: asserted, releasing, its duty, since when in µs, the last schedule breath with an event, plus 1 (R362). -/
  braked : Bool := false
  ramping : Bool := false
  brakeDuty : Nat := 8
  brakeSince : Nat := 0
  brakeBreath : Nat := 0
  sensors : SMap SensorS := []
  /-- T_hot in quarters of a degree. -/
  hot : Nat := 0
  /-- The frequencies in MHz of the pairs' replica rings without the ageing delay, as last read (R352). -/
  rings : SMap Nat := []
  /-- Ageing: measured since start-up; when each pair last stepped, in µs; steps that wait for a boundary (R353). -/
  aged : Bool := false
  ageTimes : SMap Nat := []
  ageDue : List Nat := []
  /-- The test window active, by its first breath; its clock offsets apply (R356, R392). -/
  window : Option Nat := none
  clockOn : Bool := false
  /-- The ceiling of a hive that left reset, until it reaches the target (R366). -/
  ramps : SMap (Option Nat) := []
  /-- Hum: its duty in 1/16, the target's floor and ramp, the current summed over this breath and its samples (R357). -/
  humDuty : Nat := 0
  humFloor : Nat := 0
  humRamp : Nat := 0
  humSum : Nat := 0
  humCount : Nat := 0
  /-- Since TICK_LOST hum falls away (1), or stays off (2), until the next boundary (R367). -/
  humStop : Nat := 0
  /-- The energy mode and job tag in effect, and a tag write that waits for the boundary (R365). -/
  energyMode : Nat := 0
  jobTag : Nat := 0
  tagDue : Option Nat := none
  /-- The energy mode the host wrote last, until the boundary that takes it (R12). -/
  modeDue : Option Nat := none
  deriving DecidableEq, Repr

/-- A tick ordered set (R32). -/
structure Tick where
  master : Nat := 0
  number : Nat := 0
  period : Nat := 0
  lost : Bool := false
  resync : Bool := false
  miss : Bool := false
  hold : Bool := false
  delay : Nat := 0
  deriving DecidableEq, Repr

/-- What the breath unit holds beside its registers (R28–R50). -/
structure BreathS where
  /-- The master this part follows, none before it adopts one. -/
  follows : Option Nat := none
  /-- Ticks acted on or forwarded: master, number, and lost plus twice resync (R33). -/
  seen : List (Nat × Nat × Nat) := []
  /-- Copies on other ports of a tick not yet acted on, with their ports. -/
  cands : List (Nat × Tick) := []
  /-- Ticks acted on and not yet fired, oldest first. -/
  due : List Tick := []
  /-- Tick numbers marked as holds, and those that fired as holds (R40). -/
  holds : List Nat := []
  heldTicks : List Nat := []
  /-- Stretch requests forwarded: requester, target (R293). -/
  stretches : List (Nat × Nat) := []
  /-- The part is ARMED after a resume (R49). -/
  resumed : Bool := false
  /-- This master emits; the number it emitted last; its next tick is a resync; its stream ends at its next tick. -/
  streaming : Bool := false
  emitted : Nat := 0
  resyncNext : Bool := false
  ending : Bool := false
  /-- A PIN master has a reference time (R30). -/
  pinRef : Bool := false
  /-- The period the last tick carried (R52). -/
  period : Nat := 0
  /-- The guard point of the current breath has passed. -/
  guarded : Bool := false
  /-- A start_new has been accepted since the full device reset; its score start has come (R37, R158). -/
  newAccepted : Bool := false
  counting : Bool := false
  /-- Ticks taken from a port other than the parent port (R33). -/
  reroutes : Nat := 0
  deriving DecidableEq, Repr

/-- The array of a pair (R62–R73). -/
structure ArrayS where
  /-- Accumulators by (bank × 512 + row) × 64 + column, FP32. -/
  acc : SMap Nat := []
  /-- Poisoned rows by (bank × 4 + slice) × 512 + row (R77). -/
  rowBad : SMap Bool := []
  /-- Poisoned columns by (bank × 4 + slice) × 16 + column. -/
  colBad : SMap Bool := []
  /-- Poisoned rows (0–15) and columns (16–31) of block slots by (reed × 64 + slot) × 32 + index. -/
  slotBad : SMap Bool := []
  /-- Block slots holding a result not yet drained, by reed × 64 + slot (R189). -/
  slotFull : SMap Bool := []
  /-- Block-column plus 1 that a slice of the walk holds, by bank × 4 + reed (R68). -/
  bind : SMap Nat := []
  /-- Slices of the walk, least recently used first. -/
  lru : List Nat := []
  /-- Spill slots in use: by slot, reed × 2^20 + block-column + 1 (R69). -/
  spills : SMap Nat := []
  /-- Staging tiles by buffer × 3 + half (R65, R66). -/
  tiles : SMap Tile := []
  /-- Waiting array instructions, oldest first (R179). -/
  queue : List UnitOp := []
  /-- Drains, the first in progress (R63). -/
  drains : List DrainOp := []
  /-- Reeds of the running SPLIT or BPROD that have consumed END (R130). -/
  ended : Nat := 0
  /-- Reeds whose walk reported poison (R193). -/
  walkBad : Nat := 0
  /-- TASK entries taken by each reed in this walk (R189). -/
  tasks : SMap Nat := []
  /-- Held operand index plus 1 by reed (R73). -/
  held : SMap Nat := []
  /-- Held elements by reed × 8192 + token × 16 + element, and the poisoned tokens by reed × 512 + token. -/
  heldElems : SMap Nat := []
  heldBad : SMap Bool := []
  /-- Folds in flight: (reed × 2 + phase, slot) of tasks whose steps have landed (R72), oldest first. -/
  folds : List (Nat × Nat) := []
  /-- Group partials of a task by (reed × 2 + phase) × 8192 + group × 256 + k × 16 + n. -/
  partials : SMap Nat := []
  /-- Poisoned rows (0–15) and columns (16–31) of partials, by (reed × 2 + phase) × 32 + index. -/
  partialBad : SMap Bool := []
  deriving DecidableEq, Repr

/-- The state of one pair that no register of its window holds. -/
structure PairS where
  /-- NUM_SEED latched at the accepted start (R95, R158). -/
  seed : Nat := 0
  /-- A pause waits for the slice end (R159). -/
  pauseReq : Bool := false
  /-- What the sequencer waits for. -/
  blocked : Blocked := .none
  /-- The last refill point r (R155). -/
  refillAt : Nat := 0
  /-- The sectors the instruction buffer has read, by index div 4: data times 2 plus the poison mark. -/
  ibuf : SMap Nat := []
  /-- The next index is 2^20, beyond the width of SEQ_STATUS.pc: the score of full length has run out (R155). -/
  past : Bool := false
  /-- Index of the instruction most recently issued (R423). -/
  lastIssued : Nat := 0
  /-- Copies accepted and not complete, oldest first (R167). -/
  copies : List CopyOp := []
  /-- The next place in issue order. -/
  seq : Nat := 1
  /-- The schedule breath number of the current slice (R202). -/
  sliceBreath : Nat := 0
  /-- The current slice has not ended (R39). -/
  inSlice : Bool := false
  /-- A boundary tick passed while the slice ran late: the schedule breath number of the slice owed (R36). -/
  owed : Option Nat := none
  /-- The start tick of a PENDING pair, whether its start begins a new run, and whether the tick has come (R158). -/
  startAt : Nat := 0
  startNew : Bool := false
  startDue : Bool := false
  array : ArrayS := {}
  /-- Vector instructions, oldest first (R179). -/
  vec : List UnitOp := []
  /-- List functions, the first running (R137). -/
  lists : List UnitOp := []
  /-- Walks, the first running (R131). -/
  walks : List UnitOp := []
  /-- How far the walk in progress has come. -/
  walk : WalkS := {}
  /-- The reed queues (R133), oldest entry first. -/
  queues : SMap (List QEntry) := []
  /-- Slots of the spill ring in use, oldest first (R134). -/
  ring : List RingSlot := []
  /-- Collectives of this pair not complete at it (R179). -/
  colls : List UnitOp := []
  /-- Generator lanes that have stepped, by schedule breath × 512 + lane; an unlisted one holds its slice-start state (R95). -/
  lanes : SMap Nat := []
  /-- Histogram counters by set × 64 + bin (R99). -/
  hist : SMap Nat := []
  /-- The hidden load counters by table entry (R230). -/
  loads : SMap Nat := []
  /-- Routers whose bias copy the pair receives before its next slice (R233). -/
  biasDue : Nat := 0
  /-- Open posts and sends of the gradient exchange, by tag (R274). -/
  posts : SMap GexPost := []
  sends : SMap GexSend := []
  /-- Posts and batches of the all-to-all, by tag (R240, R242). -/
  a2a : SMap A2aPost := []
  batches : SMap Batch := []
  /-- Ring collectives, PERMUTEs and DIGCMPs (R309–R316, R393). -/
  rings : List RingOp := []
  perms : List PermOp := []
  digs : List DigOp := []
  /-- The generation plus 1 of the last collective of each kind and tag that closed, by packet type × 4096 + kind × 16 + tag. -/
  closedGen : SMap Nat := []
  check : CheckS := {}
  deriving DecidableEq, Repr

/-- The whole state of the part. -/
structure State where
  /-- Every register, keyed by name and instance; an unlisted one holds its After reset value. -/
  regs : SMap Word
  /-- Far, near and comb memory by local address (R206); an unlisted byte is zero (R223, R225). -/
  mem : List Host.Cell
  /-- Poison marks by 64-byte sector number (R217). -/
  poison : SMap Bool
  /-- Zero-map bits: granule g of channel c at c × 2^18 + g, granule g of the near stacks at 2^24 + g (R223). -/
  filled : SMap Bool
  /-- Elapsed microseconds, advanced by the once-a-microsecond command ENERGY_INTEGRATE alone. -/
  us : Nat
  /-- Each pair's units and queues; an unlisted pair is as after hive reset. -/
  pairs : SMap PairS
  /-- Window totals of the load counters, by window × 4096 + entry (R230, R231). -/
  windowLoads : SMap Nat
  /-- The error log's 512 entries (R383). -/
  log : SMap LogEntry
  /-- Send times, in µs, of the records of the last 100 µs (R335). -/
  eventTimes : List Nat
  /-- Records dropped since the last one sent (R335). -/
  eventDrops : Nat
  /-- Records the queen holds because the ring is full or the link is down (R335), oldest first. -/
  heldEvents : List EventRec
  /-- Escalated hive faults that wait for their tick (R372). -/
  pendingFaults : List PendingFault
  /-- The endpoint is in D3hot (R330). -/
  pcieD3 : Bool
  /-- The endpoint's link is up (R333). -/
  pcieUp : Bool
  /-- Records were written to the ring since vector 1 was last raised (R336). -/
  newRecords : Bool
  /-- The part has adopted a queen's tokens (R325, R335), or is a queen that follows its own. -/
  adopted : Bool
  /-- RESET_N has been released: the part is out of full device reset (R433, R434). -/
  inService : Bool
  /-- THERM_TRIP_N is asserted (R361). -/
  thermTrip : Bool
  /-- The management processor is in reset (R385). -/
  mpHeldReset : Bool
  /-- The model's own counter of free values used. -/
  freshCount : Nat
  /-- Requests not yet answered, oldest first (R308). -/
  requests : List Request
  /-- The number of the next request. -/
  nextReq : Nat
  /-- Packets that wait in the hub for a port that trains (R301, R305), oldest first. -/
  hubHeld : List Held
  /-- Packets of messages that have not come whole. -/
  partsIn : List Packet
  /-- The link layer of each port (R300). -/
  ports : SMap PortS
  /-- The route to the spur's partner (R305): 0 by the torus, 1 learned and held, 2 on SP. -/
  spurRoute : Nat
  /-- The exclusion masks that take effect at the next boundary tick (R279). -/
  exclPending : Option Word
  /-- NORM64 operations of this part, and the totals it gathers as root (R281). -/
  norms : List NormOp
  normRoots : List NormRoot
  /-- Collective packets that came before their member issued the primitive (R313), oldest first. -/
  collHeld : List Packet
  /-- Bias writes that wait for the boundary tick, by table entry (R233). -/
  biasShadow : SMap Nat
  /-- Entries the host wrote at the last shadow application, with its schedule breath (R233). -/
  biasHost : List Nat
  biasHostBreath : Nat
  /-- The first window not closed; closed windows not applied, with whether their totals were sent; the totals of other
  parts, by window × 65536 + part, as (entry, total) pairs (R231). -/
  winNext : Nat
  winClosed : List (Nat × Bool)
  winTotals : SMap (List (Nat × Nat))
  /-- The pattern library (R389, R390): its version, its patterns, the next to run, and the package that replaces it. -/
  libVersion : Nat
  library : List Pattern
  libNext : Nat
  libPending : Option (Nat × List Pattern)
  breath : BreathS
  /-- Each far channel's tracking; each hive's fault sequence; memory is being brought up (R224). -/
  chans : SMap ChanS
  hives : SMap HiveS
  memTraining : Bool
  /-- Start-up has brought the memory up (R224). -/
  memUp : Bool
  power : PowerS
  counters : CounterS
  mp : MpS
  boot : BootS
  groups : GroupS
  host : HostS
  pins : PinS
  /-- What has left the part, newest first. -/
  out : List Out
  /-- The commands that wait, first in, first out. -/
  pending : List Instr
  deriving DecidableEq, Repr

/-- The part in full device reset: every register at its After reset value, memory with nothing listed. -/
def State.reset : State where
  regs := []
  mem := []
  poison := []
  filled := []
  us := 0
  pairs := []
  windowLoads := []
  log := []
  eventTimes := []
  eventDrops := 0
  heldEvents := []
  pendingFaults := []
  pcieD3 := false
  pcieUp := false
  newRecords := false
  adopted := false
  inService := false
  thermTrip := false
  mpHeldReset := false
  freshCount := 0
  requests := []
  nextReq := 0
  hubHeld := []
  partsIn := []
  ports := []
  spurRoute := 0
  exclPending := none
  norms := []
  normRoots := []
  collHeld := []
  biasShadow := []
  biasHost := []
  biasHostBreath := 0
  winNext := 0
  winClosed := []
  winTotals := []
  libVersion := 0
  library := []
  libNext := 0
  libPending := none
  breath := {}
  chans := []
  hives := []
  memTraining := false
  memUp := false
  power := {}
  counters := {}
  mp := {}
  boot := {}
  groups := {}
  host := {}
  pins := {}
  out := []
  pending := []

end Sys2Proof.Machine
end

