-- ==== Sys2Proof/Machine/Ops.lean ====
section
/-! DEFINITION. The shared operations: registers, memory, counters, the error log, event records, hive and pair
faults, semaphores. Every meaning is written over these. -/

namespace Sys2Proof.Machine

/-! ## Registers -/

/-- The key of instance i of a register. -/
def regKey (r : Reg) (i : Nat) : Nat := i * 256 + r.code

/-- The After reset value of a register (R10): its fields' values in place. FORAGER_RING.ring_base depends on the pair (R149). -/
def Reg.resetValue (r : Reg) (i : Nat) : Word :=
  let base := r.fields.foldl (fun w f => w + f.reset * 2 ^ f.lo) 0
  match r with
  | .FORAGER_RING => BitVec.ofNat 64 (base + i % 16)
  | _ => BitVec.ofNat 64 base

/-- The bits of a register that some field names; the others are reserved and read 0 (R9). -/
def Reg.fieldMask (r : Reg) : Word := r.fields.foldl (fun w f => w ||| maskW f.hi f.lo) 0

/-- The value a register holds. -/
def reg (s : State) (r : Reg) (i : Nat) : Word := SMap.get (r.resetValue i) s.regs (regKey r i)

/-- A register given a value; reserved bits take nothing (R9). -/
def setReg (r : Reg) (i : Nat) (w : Word) (s : State) : State :=
  { s with regs := SMap.set (r.resetValue i) s.regs (regKey r i) (w &&& r.fieldMask) }

/-- A register back at its After reset value. -/
def resetReg (r : Reg) (i : Nat) (s : State) : State :=
  { s with regs := SMap.erase s.regs (regKey r i) }

/-- A field of a word. -/
def getField (f : Fld) (w : Word) : Nat := ((w &&& maskW f.hi f.lo) >>> f.lo).toNat

/-- A word with one field replaced. -/
def putField (f : Fld) (v : Nat) (w : Word) : Word :=
  (w &&& ~~~(maskW f.hi f.lo)) ||| ((BitVec.ofNat 64 v <<< f.lo) &&& maskW f.hi f.lo)

/-- The value of a field of instance i of its register. -/
def fld (s : State) (f : Fld) (i : Nat := 0) : Nat := getField f (reg s f.reg i)

/-- A one-bit field as a truth value. -/
def fldB (s : State) (f : Fld) (i : Nat := 0) : Bool := decide (fld s f i ≠ 0)

/-- A field given a value, cut to its width. -/
def setFld (f : Fld) (i v : Nat) (s : State) : State :=
  setReg f.reg i (putField f v (reg s f.reg i)) s

/-- A one-bit field set: an event of an EVENTS register. -/
def raise (f : Fld) (i : Nat) (s : State) : State := setFld f i 1 s

/-- The width of a field. -/
def Fld.width (f : Fld) : Nat := f.hi + 1 - f.lo

/-- A count raised by n, stopping at its largest value. -/
def satAddFld (f : Fld) (i n : Nat) (s : State) : State := setFld f i (satAdd f.width (fld s f i) n) s

/-- A count raised by n, wrapping at its width. -/
def addFld (f : Fld) (i n : Nat) (s : State) : State := setFld f i (fld s f i + n) s

/-! ## Pairs -/

/-- The pair's units and queues. -/
def pair (s : State) (p : Nat) : PairS := SMap.get {} s.pairs p

/-- One pair's units and queues changed. -/
def modPair (p : Nat) (f : PairS → PairS) (s : State) : State :=
  { s with pairs := SMap.set {} s.pairs p (f (pair s p)) }

/-- The hive of a pair (R3). -/
def hiveOf (p : Nat) : Nat := p / 16

/-- The schedule breath number. -/
def schedBreath (s : State) : Nat := fld s F.BREATH_SCHED_sched_breath

/-- The number of the last tick. -/
def tickNumber (s : State) : Nat := fld s F.BREATH_TICK_tick_number

/-- The part's device ID (R322). -/
def deviceId (s : State) : Nat := fld s F.GROUP_STATUS_device_id

/-- Hive states of RL_HIVE_h.state. -/
abbrev hsInService : Nat := 0
abbrev hsQuiesce : Nat := 1
abbrev hsDump : Nat := 2
abbrev hsReset : Nat := 3
abbrev hsFaultHold : Nat := 4
abbrev hsHeld : Nat := 5
abbrev hsHeldHw : Nat := 6
abbrev hsDisabled : Nat := 7

/-- The state of a hive. -/
def hiveState (s : State) (h : Nat) : Nat := fld s F.RL_HIVE_h_state h

/-- A hive is under reset (R20), or a disabled hive's memory is not yet in service at start-up (R224). -/
def underReset (s : State) (h : Nat) : Bool :=
  hiveState s h ≠ hsInService && !(hiveState s h = hsDisabled && fldB s F.MEM_STATUS_near_ready h)

/-- The roles of GROUP_STATUS.role. -/
def isQueen (s : State) : Bool := fld s F.GROUP_STATUS_role = 1

/-! ## Output -/

/-- Something leaves the part. -/
def emit (o : Out) (s : State) : State := { s with out := o :: s.out }

/-- A byte of the MSI-X table (R331). Entry v is 16 bytes at 16v: address, data, vector control, whose bit 0 masks the vector;
after reset every vector is masked (PRESUMED, log 120). -/
def msixByte (s : State) (o : Nat) : Nat := SMap.get 0 s.host.msixArea o ^^^ b2n (o % 16 = 12)

/-- A little-endian number of n bytes of the MSI-X table. -/
def msixNum (s : State) (o n : Nat) : Nat := leNat ((List.range n).map (fun i => msixByte s (o + i)))

/-- An MSI-X message (R336): none is sent in D3hot or with the link down (R330), and vector 0 alone in RECOVERY (R410). That of a
masked vector waits in the PBA (R331). -/
def msix (v : Nat) (s : State) : State :=
  if s.pcieD3 || !s.pcieUp || (v ≠ 0 && fld s F.BOOT_STATUS_state = 3) then s
  else if bitAt (msixByte s (16 * v + 12)) 0 then { s with host := { s.host with pba := setBitN s.host.pba v } }
  else emit (.msix v (msixNum s (16 * v) 8) (msixNum s (16 * v + 8) 4)) s

/-- The pending vectors that are no longer masked send their messages. -/
def msixUnmask (s : State) : State :=
  iter 16 s (fun v t =>
    if bitAt t.host.pba v && !bitAt (msixByte t (16 * v + 12)) 0 then
      msix v { t with host := { t.host with pba := clearBitN t.host.pba v } }
    else t)

/-! ## FAULT_N -/

/-- FAULT_N is driven low (R371), in RECOVERY and NO_HIVE too (R409, R410). -/
def faultN (s : State) : Bool :=
  (List.range 4).any (fun h => hiveState s h ≠ hsInService && hiveState s h ≠ hsDisabled && s.inService)
    || fld s F.BOOT_STATUS_state = 3 || fld s F.BOOT_STATUS_state = 4
    || fld s F.BREATH_STATUS_state = 4
    || s.thermTrip || s.mpHeldReset || fldB s F.RL_STATUS_device_fault

/-! ## The error log (R383) -/

/-- The facts a log entry records. -/
structure LogFacts where
  block : Nat
  item : Nat
  severity : Nat
  hive : Nat := 0
  pair : Nat := 255
  requester : Nat := 0
  addr : Nat := 0
  data : Nat := 0
  deriving DecidableEq, Repr

/-- The index of the entry that this occurrence repeats, if the same schedule breath wrote one. -/
def logMatch (s : State) (f : LogFacts) (e : LogEntry) : Bool :=
  e.block = f.block && e.item = f.item && e.pair = f.pair && e.addr = f.addr && e.breath = schedBreath s

/-- A new entry in the ring, and in the first-error area where it belongs there (R383). -/
def logNew (f : LogFacts) (s : State) : State :=
  let seq := fld s F.RL_LOG_PTR_next_seq
  let e : LogEntry :=
    { seq := seq
      block := f.block, item := f.item, severity := f.severity, hive := f.hive, pair := f.pair
      breath := schedBreath s, tick := tickNumber s, requester := f.requester, addr := f.addr, data := f.data }
  let k := fld s F.RL_LOG_PTR_ring_next
  let first := fld s F.RL_LOG_PTR_first_count
  let overwrites := s.log.any (fun ke => ke.1 = k)
  let s := if f.severity ≥ 2 && first < 32 then
      setFld F.RL_LOG_PTR_first_count 0 (first + 1) { s with log := SMap.insert s.log first e } else s
  let s := if overwrites then raise F.RL_EVENTS_log_wrap 0 (satAddFld F.RL_LOG_PTR_lost 0 1 s) else s
  let s := { s with log := SMap.insert s.log k e }
  let s := setFld F.RL_LOG_PTR_ring_next 0 (if k + 1 > 511 then 32 else k + 1) s
  setFld F.RL_LOG_PTR_next_seq 0 (seq + 1) s

/-- An entry written, or merged into the one it repeats (R383). -/
def logEvent (f : LogFacts) (s : State) : State :=
  if s.log.any (fun ke => logMatch s f ke.2) then
    { s with log := s.log.map (fun ke => if logMatch s f ke.2 then (ke.1, { ke.2 with repeats := ke.2.repeats + 1 }) else ke) }
  else logNew f s

/-- The 64 bytes of an entry (R383). -/
def LogEntry.bytes (e : LogEntry) : List Nat :=
  natLe 4 e.seq ++ [e.block % 256, e.item % 256, e.severity % 8 + e.hive % 4 * 16, e.pair % 256]
    ++ natLe 8 (e.breath % 2 ^ 48) ++ natLe 8 (e.tick % 2 ^ 48) ++ natLe 8 (e.requester % 65536)
    ++ natLe 8 e.addr ++ natLe 8 e.data ++ natLe 8 (e.repeats % 2 ^ 32) ++ List.replicate 8 0

/-- Payload bytes added to a 96-bit port counter given by its low and high registers (R419, R422). -/
def countPort (lo hi : Fld) (port n : Nat) (s : State) : State :=
  if fldB s F.CTR_GLOBAL_run then
    let v := fld s hi port * 2 ^ 48 + fld s lo port + n
    setFld lo port v (setFld hi port (v / 2 ^ 48) s)
  else s

/-! ## The link hub: routes of packets (R294, R304–R307) -/

/-- Port states of R303. -/
abbrev ptOff : Nat := 0
abbrev ptTrain : Nat := 1
abbrev ptUp : Nat := 2
abbrev ptRetrain : Nat := 3
abbrev ptFailed : Nat := 4
abbrev ptPcie : Nat := 5

def portState (s : State) (n : Nat) : Nat := fld s F.PORT_STATUS_state n

/-- The coordinate of a device on an axis (R322). -/
def coordOf (id a : Nat) : Nat := bitsOf id (4 * a + 3) (4 * a)

/-- Parts on the ring of an axis (R323). -/
def ringOf (s : State) (a : Nat) : Nat := bitsOf (fld s F.GROUP_RINGS_ring_m1) (4 * a + 3) (4 * a) + 1

/-- The direction bits of a packet at injection: the shorter way round each ring, a tie in the P direction (R304). -/
def dirBits (s : State) (dst : Nat) : Nat :=
  (List.range 4).foldl (fun w a =>
    let m := ringOf s a
    let d := (coordOf dst a + m - coordOf (deviceId s) a % m) % m
    if 2 * d ≤ m then w else setBitN w a) 0

/-- The first axis on which the destination differs from this part. -/
def nextAxis (s : State) (dst : Nat) : Option Nat :=
  (List.range 4).find? (fun a => coordOf dst a ≠ coordOf (deviceId s) a)

/-- Payload bytes of a packet: whole 64-byte sectors (R294). -/
def payloadOf (p : Packet) : Nat := (p.data.length + 63) / 64 * 64

/-- The link layer of a port. -/
def portS (s : State) (n : Nat) : PortS := SMap.get {} s.ports n

def modPort (n : Nat) (f : PortS → PortS) (s : State) : State :=
  { s with ports := SMap.set {} s.ports n (f (portS s n)) }

/-! ### Check codes (R32, R292) -/

/-- One bit into a CRC-16 of R32. -/
def crc16Step (c : Nat) (b : Bool) : Nat :=
  let x := bitAt c 15 != b
  let c := (2 * c) % 65536
  if x then c ^^^ 0x1021 else c

/-- The CRC-16 of bits [127:16] of an ordered set's body, bit 127 first (R32). -/
def crc16 (body : Nat) : Nat := (List.range 112).foldl (fun c i => crc16Step c (bitAt body (127 - i))) 0xFFFF

/-- The body's own CRC agrees. -/
def crc16Ok (body : Nat) : Bool := crc16 body = body % 65536

/-- A body with its CRC in place. -/
def withCrc16 (body : Nat) : Nat := body / 65536 * 65536 + crc16 body

/-- One byte into the reflected CRC-32 of R292. -/
def crc32Byte (c b : Nat) : Nat :=
  (List.range 8).foldl (fun c _ => if c % 2 = 1 then (c / 2) ^^^ 0xEDB88320 else c / 2) (c ^^^ (b % 256))

/-- The CRC-32 of bytes (R292). -/
def crc32 (bs : List Nat) : Nat := (bs.foldl crc32Byte 0xFFFFFFFF) ^^^ 0xFFFFFFFF

/-! ### Flits and headers (R292–R294) -/

/-- DATA flits that a packet fills: 248 bytes of each carry packets (R292). -/
def flitsOf (p : Packet) : Nat := (32 + payloadOf p + 247) / 248

/-- The 32-byte header of a packet, as a number (R294). -/
def headerOf (m : Packet) : Nat :=
  m.ptype % 2 ^ 8 + m.dst % 2 ^ 16 * 2 ^ 8 + m.src % 2 ^ 16 * 2 ^ 24 + m.pair % 2 ^ 6 * 2 ^ 40 + m.rsem % 2 ^ 6 * 2 ^ 46
    + b2n m.rsig * 2 ^ 52 + m.cls % 4 * 2 ^ 53 + b2n m.vc * 2 ^ 55 + m.age % 2 ^ 20 * 2 ^ 56 + m.hops % 2 ^ 6 * 2 ^ 76
    + m.dir % 16 * 2 ^ 82 + m.rev % 16 * 2 ^ 86 + payloadOf m / 64 % 2 ^ 7 * 2 ^ 96 + m.tag % 16 * 2 ^ 108
    + m.generation % 2 ^ 16 * 2 ^ 112 + m.addr % 2 ^ 44 * 2 ^ 128 + m.poison % 2 ^ 64 * 2 ^ 192

/-- The packet that a header and its payload make. -/
def packetFrom (h : Nat) (data : List Nat) : Packet where
  ptype := bitsOf h 7 0
  dst := bitsOf h 23 8
  src := bitsOf h 39 24
  pair := bitsOf h 45 40
  rsem := bitsOf h 51 46
  rsig := bitAt h 52
  cls := bitsOf h 54 53
  vc := bitAt h 55
  age := bitsOf h 75 56
  hops := bitsOf h 81 76
  dir := bitsOf h 85 82
  rev := bitsOf h 89 86
  tag := bitsOf h 111 108
  generation := bitsOf h 127 112
  addr := bitsOf h 171 128
  data := data
  poison := bitsOf h 255 192

/-- The bytes of a packet on a link: its header, then its payload in whole sectors (R294). -/
def packetBytes (m : Packet) : List Nat :=
  natLe 32 (headerOf m) ++ m.data ++ List.replicate (payloadOf m - m.data.length) 0

/-- The last DATA number accepted in order from a port's partner. -/
def lastAccepted (s : State) (n : Nat) : Nat := ((portS s n).rxNext + 4095) % 4096

/-- The 256 bytes of a flit a port sends: its header with the acknowledgement of the moment, bytes 4–251, the CRC-32 (R292). -/
def flitBytes (s : State) (n kind seq : Nat) (nak : Bool) (body : List Nat) : List Nat :=
  let h := kind * 2 ^ 30 + seq * 2 ^ 18 + lastAccepted s n * 2 ^ 6 + b2n (portS s n).accepted * 2 ^ 5 + b2n nak * 2 ^ 4
  let bs := natLe 4 h ++ body
  bs ++ natLe 4 (crc32 bs)

/-- The bodies of a packet's DATA flits: it starts on a flit of its own, and zeros fill the last (DESIGN CHOICE, log 117). -/
def flitBodies (m : Packet) : List (List Nat) :=
  let bs := packetBytes m
  chunks 248 (flitsOf m) (bs ++ List.replicate (248 * flitsOf m - bs.length) 0)

/-- Bytes 4–251 of an IDLE flit: the spec gives them no value. -/
def idleBody : List Nat := (List.range 248).map (fun i => Config.idleByte i % 256)

/-- An IDLE flit that carries the acknowledgement, and a nak (R292, R300). -/
def sendIdle (n : Nat) (nak : Bool) (s : State) : State := emit (.flit n (flitBytes s n 2 0 nak idleBody)) s

/-- Bytes 4–251 of a CONTROL flit with one ordered set, in slot 0 (R293). -/
def controlBody (kind body : Nat) : List Nat :=
  [kind % 256] ++ List.replicate 27 0 ++ natLe 16 body ++ List.replicate 204 0

/-- An ordered set goes out on a port, in a CONTROL flit of its own (R293). -/
def sendSet (n kind body : Nat) (s : State) : State :=
  emit (.flit n (flitBytes s n 1 0 false (controlBody kind body))) (emit (.orderedSet n kind body) s)

/-! ### Ports and their queues (R300, R301, R304) -/

/-- A DATA flit goes out, numbered, and is kept until acknowledged (R300). -/
def sendData (n : Nat) (s : State) (body : List Nat) : State :=
  let q := (portS s n).txNext
  emit (.flit n (flitBytes s n 0 q false body))
    (modPort n (fun x => { x with txNext := (q + 1) % 4096, unacked := x.unacked ++ [(q, body)] }) s)

/-- A packet goes out on a port: its flits, its payload counted (R422). -/
def sendPacket (port : Nat) (p : Packet) (s : State) : State :=
  let p := { p with hops := p.hops + 1 }
  countPort F.PORTCTR_TX_LO_count F.PORTCTR_TX_HI_count port (payloadOf p)
    ((flitBodies p).foldl (sendData port) (emit (.packet port p) s))

/-- The port takes a packet now: it is UP and its replay buffer of 1,024 flits has room. The spur takes none for its partner
until its route is in use (R305). -/
def portRoom (s : State) (port : Nat) (p : Packet) : Bool :=
  portState s port = ptUp && (port ≠ 8 || s.spurRoute = 2) && (portS s port).unacked.length + flitsOf p ≤ 1024

/-- The place of a class in the order of priority: EVENT, RESPONSE, COLLECTIVE, REQUEST (R304). -/
def classRank (cls : Nat) : Nat := if cls = 0 then 0 else if cls = 2 then 1 else if cls = 3 then 2 else 3

/-- The packet a port serves next: of the highest class that waits, the inputs taken round-robin (R304). -/
def pickHeld (s : State) (n : Nat) : Option Held :=
  let hs := s.hubHeld.filter (fun h => h.port = n)
  let best := hs.foldl (fun b h => min b (classRank h.m.cls)) 4
  let hs := hs.filter (fun h => classRank h.m.cls = best)
  let first := SMap.get 0 (portS s n).turn best
  let input := (List.range 10).find? (fun k => hs.any (fun h => h.input = (first + k) % 10))
  hs.find? (fun h => h.input = (first + input.getD 0) % 10)

/-- A packet is too old, or has made too many hops (R307). -/
def outlived (s : State) (m : Packet) : Bool := m.age ≥ 1000000 || m.hops > fld s F.LINK_CTRL_max_hops

/-- A packet discarded for its age or its hops (R307). -/
def lifetimeDrop (s : State) : State := raise F.LINK_EVENTS_lifetime 0 (satAddFld F.LINK_COUNTS_lifetime 0 1 s)

/-- A packet with the time it has waited in the hub added to its age (R307). -/
def Held.aged (s : State) (h : Held) : Packet := { h.m with age := satAdd 20 h.m.age (1000 * (s.us - h.since)) }

/-- A port sends what waits for it while it takes packets; one that has outlived its lifetime is discarded (R307). -/
def servePort : Nat → Nat → State → State
  | 0, _, s => s
  | k + 1, n, s =>
    match pickHeld s n with
    | none => s
    | some h =>
      if !portRoom s n h.m then s
      else
        let m := h.aged s
        let s := modPort n (fun x => { x with turn := SMap.set 0 x.turn (classRank m.cls) ((h.input + 1) % 10) })
          { s with hubHeld := s.hubHeld.erase h }
        servePort k n (if outlived s m then lifetimeDrop s else sendPacket n m s)

/-- A port serves its queue. -/
def releaseHeld (n : Nat) (s : State) : State := servePort s.hubHeld.length n s

/-- A packet from an input put on a port: it joins those that wait, and the port serves them (R300, R301, R304, R306). -/
def transmit (port input : Nat) (p : Packet) (s : State) : State :=
  releaseHeld port { s with hubHeld := s.hubHeld ++ [{ port := port, input := input, since := s.us, m := p }] }

/-- The port a packet takes next, reversed once on its axis if it must (R304); none where it is unreachable. -/
def routeHop (s : State) (fromAxis : Option Nat) (p : Packet) : Option (Nat × Packet) :=
  match nextAxis s p.dst with
  | none => none
  | some a =>
    let vc := if fromAxis = some a then p.vc else false
    let port (d : Bool) : Nat := 2 * a + b2n d
    let closed (n : Nat) : Bool := portState s n = ptOff || portState s n = ptFailed
    let d := bitAt p.dir a
    let go (d : Bool) (p : Packet) : Option (Nat × Packet) :=
      let c := coordOf (deviceId s) a
      let edge := if d then c = 0 else c + 1 = ringOf s a
      some (port d, { p with vc := vc || edge })
    if !closed (port d) then go d p
    else if bitAt p.rev a || closed (port (!d)) then none
    else go (!d) { p with dir := if d then clearBitN p.dir a else setBitN p.dir a, rev := setBitN p.rev a }

/-- A packet from an input leaves on its route. `back` says what happens to one that is unreachable. -/
def sendOn (fromAxis : Option Nat) (input : Nat) (p : Packet) (back : State → State) (s : State) : State :=
  match routeHop s fromAxis p with
  | some (port, q) =>
    let s := if q.rev ≠ p.rev then raise F.LINK_EVENTS_reversal 0 (satAddFld F.LINK_COUNTS_reversals 0 1 s) else s
    transmit port input q s
  | none => back (raise F.LINK_EVENTS_unreachable 0 (satAddFld F.LINK_COUNTS_unreachable 0 1 s))

/-- A REFUSE of a packet, with its reason (R294). -/
def refusal (s : State) (p : Packet) (reason : Nat) : Packet where
  ptype := 5
  dst := p.src
  src := deviceId s
  pair := p.pair
  cls := 2
  tag := p.tag
  generation := p.generation
  req := p.req
  aux := p.ptype :: p.aux
  data := reason :: List.replicate 63 0

/-- The part of a list of pieces, laid end to end from offset `o`, that falls into bytes [lo, lo + 4096). -/
def piecesIn (lo : Nat) : Nat → List (Nat × Nat) → List (Nat × Nat)
  | _, [] => []
  | o, (a, n) :: xs =>
    let b := max o lo
    let e := min (o + n) (lo + 4096)
    if b < e then (a + (b - o), e - b) :: piecesIn lo (o + n) xs else piecesIn lo (o + n) xs

/-- The packets of a message: each carries 4,096 bytes at most (R294). -/
def packetsOf (p : Packet) : List Packet :=
  if p.data.length ≤ 4096 then [p]
  else
    let n := (p.data.length + 4095) / 4096
    (List.range n).map (fun k =>
      { p with
        data := (p.data.drop (4096 * k)).take 4096
        poison := p.poison / 2 ^ (64 * k) % 2 ^ 64
        pieces := piecesIn (4096 * k) 0 p.pieces
        part := k
        parts := n })

/-- A packet of this part's own goes out: to itself, on the spur to its partner (R305), or by the torus. The route to the partner
is the spur from its first learning until SP is OFF or FAILED. One that cannot be delivered comes back to this part as a
REFUSE (R304). -/
def injectOne (p : Packet) (s : State) : State :=
  let spur := portState s 8
  if p.dst = deviceId s then emit (.packet 9 p) s
  else if p.dst = fld s F.PORT_STATUS_partner_id 8 && s.spurRoute ≠ 0 && spur ≠ ptOff && spur ≠ ptFailed then transmit 8 9 p s
  else sendOn none 9 p (fun s => if p.ptype = 5 then s else emit (.packet 9 (refusal s p 2)) s) s

/-- A message of this part's own goes out with the given directions, in packets (R294, R304). -/
def injectVia (dirs : Nat) (p : Packet) (s : State) : State :=
  (packetsOf { p with src := deviceId s, dir := dirs, hops := 0, rev := 0, age := 0, vc := false }).foldl
    (fun t m => injectOne m t) s

/-- A message of this part's own goes out by the shorter ways round (R304). -/
def inject (p : Packet) (s : State) : State := injectVia (dirBits s p.dst) p s

/-! ### Messages that come in several packets (R294) -/

/-- What the packets of one message have in common. -/
def msgKey (m : Packet) : Packet :=
  { m with data := [], poison := 0, part := 0, age := 0, hops := 0, dir := 0, rev := 0, vc := false, pieces := [] }

/-- The packets of one message put together. -/
def joinParts (ms : List Packet) (m : Packet) : Packet :=
  let ps := (List.range m.parts).map (fun k => (ms.find? (fun x => x.part = k)).getD m)
  { m with
    data := ps.flatMap (fun x => x.data)
    pieces := ps.flatMap (fun x => x.pieces)
    poison := (List.range ps.length).foldl (fun w k => w + (nth {} ps k).poison % 2 ^ 64 * 2 ^ (64 * k)) 0
    part := 0
    parts := 1 }

/-- A packet arrives: the message that it makes whole, if it does. A part that comes twice begins its message anew. -/
def assemble (m : Packet) (s : State) : Option Packet × State :=
  if m.parts ≤ 1 then (some m, s)
  else
    let mine := s.partsIn.filter (fun x => msgKey x = msgKey m)
    let rest := s.partsIn.filter (fun x => msgKey x ≠ msgKey m)
    let ms := if mine.any (fun x => x.part = m.part) then [m] else mine ++ [m]
    if ms.length < m.parts then (none, { s with partsIn := rest ++ ms })
    else (some (joinParts ms m), { s with partsIn := rest })

/-! ## Event records (R334, R335) -/

/-- The 32 bytes of a record (R334). -/
def EventRec.bytes (e : EventRec) : List Nat :=
  natLe 2 e.device ++ natLe 2 (e.block * 256 + e.item) ++ natLe 2 e.dropped ++ [e.pair, 0]
    ++ natLe 8 e.breath ++ natLe 8 e.tick ++ natLe 8 e.data

/-- Records of the host event ring: 2^(size_log2 + 6). -/
def ringSize (s : State) : Nat := 2 ^ (fld s F.HOST_EVQ_BASE_size_log2 + 6)

/-- The ring takes a record: it is enabled, its link is up, and the host has room. -/
def ringOpen (s : State) : Bool :=
  fldB s F.HOST_CTRL_evq_en && s.pcieUp
    && (fld s F.HOST_EVQ_PTR_tail + 1) % ringSize s ≠ fld s F.HOST_EVQ_PTR_head % ringSize s

/-- A record written at the tail of the host event ring. -/
def ringWrite (e : EventRec) (s : State) : State :=
  let t := fld s F.HOST_EVQ_PTR_tail
  let s := emit (.hostWrite (fld s F.HOST_EVQ_BASE_base * 4096 + 32 * t) e.bytes) s
  setFld F.HOST_EVQ_PTR_tail 0 ((t + 1) % ringSize s) { s with newRecords := true }

/-- The queen takes a record: into the ring, held, or dropped (R335, R336). -/
def queenTake (e : EventRec) (s : State) : State :=
  if s.heldEvents.isEmpty && ringOpen s then ringWrite e s
  else if s.heldEvents.length < 4096 then { s with heldEvents := s.heldEvents ++ [e] }
  else msix 4 (satAddFld F.HOST_EVQ_PTR_dropped 0 1 s)

/-- Held records go to the ring while it is open, oldest first. -/
def drainHeld : Nat → State → State
  | 0, s => s
  | n + 1, s =>
    match s.heldEvents with
    | [] => s
    | e :: es => if ringOpen s then drainHeld n (ringWrite e { s with heldEvents := es }) else s

/-- The records of the last 100 µs (R335). -/
def recentSends (s : State) : List Nat := s.eventTimes.filter (fun t => s.us < t + 100)

/-- A part has a queen to send to: it is one, or it has adopted one's tokens (R335). -/
def hasQueen (s : State) : Bool := isQueen s || s.adopted

/-- A record goes to a device: this part's own queen unit, or a packet of class EVENT. -/
def deliverRec (dst : Nat) (e : EventRec) (s : State) : State :=
  if isQueen s && dst = deviceId s then queenTake e s
  else inject { ptype := 6, dst := dst, data := e.bytes ++ List.replicate 32 0 } s

/-- A record is formed and sent under the limit of R335, or dropped and counted. -/
def sendRec (dst : Option Nat) (device block item pr data : Nat) (s : State) : State :=
  let drop (s : State) : State := { s with eventDrops := satAdd 16 s.eventDrops 1 }
  match dst with
  | none => drop s
  | some d =>
    if (recentSends s).length ≥ 64 then drop s
    else
      let e : EventRec := { device := device, block := block, item := item, dropped := s.eventDrops, pair := pr, breath := schedBreath s, tick := tickNumber s, data := data }
      deliverRec d e { s with eventTimes := s.us :: recentSends s, eventDrops := 0 }

/-- The queen this part's records go to (R335). -/
def queenOf (s : State) : Option Nat :=
  if isQueen s then some (deviceId s) else if s.adopted then some (fld s F.GROUP_STATUS_queen_id) else none

/-- An event sent to the queen (R334). -/
def sendEvent (block item pr data : Nat) (s : State) : State :=
  sendRec (queenOf s) (deviceId s) block item pr data s

/-- The severity of an occurrence for which the spec states none. -/
def openSeverity (block item : Nat) : Nat := Config.logSeverity block item % 5

/-- The data of a record for which the spec defines none: a fresh free value each time. -/
def freshData (s : State) : Nat × State :=
  (Config.freeWord s.freshCount % 2 ^ 64, { s with freshCount := s.freshCount + 1 })

/-- An event whose data the spec leaves undefined. -/
def sendEventOpen (block item pr : Nat) (s : State) : State :=
  let (d, s) := freshData s
  sendEvent block item pr d s

/-! ## Memory (R206, R208) -/

/-- Where a local address lies (R206). -/
inductive Tier where
  | far (h : Nat) | near (h : Nat) | comb (p : Nat) | regs | unmapped
  deriving DecidableEq, Repr

/-- 0x080_0000_0000, the first near address. -/
abbrev nearBase : Nat := 0x08000000000
/-- 0x100_0000_0000, the first comb address. -/
abbrev combBase : Nat := 0x10000000000
/-- 0x20_0000_0000, the bytes of one hive's far or near memory. -/
abbrev hiveBytes : Nat := 0x2000000000
/-- 0x80_0000, the bytes of one comb. -/
abbrev combBytes : Nat := 0x800000
/-- 0x200_0000_0000, the register-space base. -/
abbrev regBase : Nat := 0x20000000000

/-- The tier of an address. -/
def tierOf (a : Nat) : Tier :=
  if a < nearBase then .far (a / hiveBytes)
  else if a < combBase then .near ((a - nearBase) / hiveBytes)
  else if a < combBase + 64 * combBytes then .comb ((a - combBase) / combBytes)
  else if a < regBase then .unmapped
  else if a < regBase + 0x2000000 then .regs
  else .unmapped

/-- A pair's comb address. -/
def combAddr (p off : Nat) : Nat := combBase + p * combBytes + off

/-- The channel within its hive that a far address lands in (R208). -/
def channelOf (a : Nat) : Nat :=
  let o := a % hiveBytes
  (bitsOf o 13 11) ^^^ (bitsOf o 22 20)

/-- The channel offset of a far address (R208). -/
def channelOffset (a : Nat) : Nat :=
  let o := a % hiveBytes
  bitsOf o 36 14 * 2048 + bitsOf o 10 0

/-- A far address lies in its hive's keep window (R15, R210). -/
def inKeep (a : Nat) : Bool := a < nearBase && a % hiveBytes ≥ 0x1FC0000000

/-- The hive that owns an address's memory. -/
def ownerHive (a : Nat) : Option Nat :=
  match tierOf a with
  | .far h => some h
  | .near h => some h
  | .comb p => some (hiveOf p)
  | _ => none

/-- A failed channel (R222). -/
def channelFailed (s : State) (a : Nat) : Bool :=
  match tierOf a with
  | .far h => bitAt (fld s F.MEM_STATUS_chan_failed h) (channelOf a)
  | _ => false

/-- The memory at an address answers as offline: its hive is under reset (R20) or its channel has failed (R222).
A comb is no near or far memory: R20 names only those. -/
def offline (s : State) (a : Nat) : Bool :=
  match tierOf a with
  | .far h => underReset s h || channelFailed s a
  | .near h => underReset s h
  | _ => false

/-- The byte at an address, as the cell holds it. -/
def byteAt (s : State) (a : Nat) : Nat := (SMap.get (0 : BitVec 8) s.mem a).toNat

/-- The bytes at n addresses from a. -/
def bytesAt (s : State) (a n : Nat) : List Nat := (List.range n).map (fun i => byteAt s (a + i))

/-- A little-endian number of n bytes at an address (R4). -/
def numAt (s : State) (a n : Nat) : Nat := leNat (bytesAt s a n)

/-- The pseudo-channel of a near address within its stack (R209). -/
def pseudoChannelOf (a : Nat) : Nat :=
  let o := (a - nearBase) % hiveBytes
  bitsOf o 12 8 ^^^ bitsOf o 17 13

/-- The offset of a near address within its pseudo-channel (R209). -/
def pseudoOffset (a : Nat) : Nat :=
  let o := (a - nearBase) % hiveBytes
  bitsOf o 36 13 * 256 + bitsOf o 7 0

/-- The 64-byte sectors that n bytes from a touch. -/
def sectorsOf (a n : Nat) : List Nat :=
  if n = 0 then [] else (List.range ((a + n - 1) / 64 - a / 64 + 1)).map (fun i => a / 64 + i)

/-- A sector's poison mark. -/
def marked (s : State) (sec : Nat) : Bool := SMap.get false s.poison sec

/-- A read of n bytes from a is delivered poisoned: a marked sector, or one offline (R20, R218, R222). -/
def poisoned (s : State) (a n : Nat) : Bool :=
  (sectorsOf a n).any (fun x => marked s x || offline s (x * 64))

/-- One cell written. -/
def pokeByte (a v : Nat) (s : State) : State :=
  { s with mem := SMap.set (0 : BitVec 8) s.mem a (BitVec.ofNat 8 v) }

/-- Bytes written from an address upward, with no check. -/
def pokeBytes : Nat → List Nat → State → State
  | _, [], s => s
  | a, b :: bs, s => pokeBytes (a + 1) bs (pokeByte a b s)

/-- A sector's mark set or cleared. -/
def setMark (sec : Nat) (v : Bool) (s : State) : State :=
  { s with poison := SMap.set false s.poison sec v }

/-- The zero-map bit of a far or near address (R223): 64 KiB of its channel, or of its stack. -/
def granuleOf (a : Nat) : Nat :=
  if a < nearBase then (8 * (a / hiveBytes) + channelOf a) * 2 ^ 18 + channelOffset a / 65536
  else 2 ^ 24 + (a - nearBase) / 65536

/-- The zero-map granule of an address marked filled (R223). -/
def fillGranule (a : Nat) (s : State) : State :=
  if a < combBase then { s with filled := SMap.set false s.filled (granuleOf a) true } else s

/-- The entries of a far channel's poison directory (R219): the marked sectors that land in it. -/
def dirEntries (s : State) (h j : Nat) : Nat :=
  s.poison.countP (fun e => e.1 * 64 < nearBase && e.1 * 64 / hiveBytes = h && channelOf (e.1 * 64) = j)

/-- The directory of a far sector's channel has no room (R219). -/
def dirFull (s : State) (a : Nat) : Bool :=
  match tierOf a with
  | .far h => dirEntries s h (channelOf a) ≥ 65536
  | _ => false

/-! ## Hive faults (R370, R372) -/

/-- A hive fault escalated to the boundary tick. One for a hive already under reset is logged alone (R372). -/
def escalate (h cause pr : Nat) (s : State) : State :=
  if underReset s h then
    logNew { block := 0x0C, item := 0, severity := 3, hive := h, pair := pr, data := cause } s
  else { s with pendingFaults := s.pendingFaults ++ [{ hive := h, cause := cause, pair := pr }] }

/-! ## Memory access with its rules -/

/-- A read that met offline memory is counted, marked and logged (R20, R221). -/
def noteOffline (a requester : Nat) (isRead : Bool) (s : State) : State :=
  let s := if isRead then satAddFld F.MEM_POISON_REC_offline 0 1 s else s
  match ownerHive a with
  | some h =>
    logEvent { block := 0x07, item := 0, severity := openSeverity 7 0, hive := h, requester := requester, addr := a }
      (raise F.MEM_EVENTS_offline_access h s)
  | none => s

/-- Every offline sector of a read or write noted. What one "read" of R20 and R221 is, the spec does not say: the model counts
and logs each 64-byte sector, and each unit of a copy, on its own (DESIGN CHOICE, log 113). -/
def noteOfflineRange (a n requester : Nat) (isRead : Bool) (s : State) : State :=
  ((sectorsOf a n).filter (fun x => offline s (x * 64))).foldl (fun t x => noteOffline (x * 64) requester isRead t) s

/-- The bytes of a read: an offline sector delivers a free value under its poison mark. -/
def readBytes (s : State) (a n : Nat) : List Nat :=
  (List.range n).map (fun i =>
    if offline s (a + i) then Config.offlineByte (a + i) % 256 else byteAt s (a + i))

/-- The part of a write that falls in one sector: poison sets the mark, a whole clean sector clears it, a partial clean
write leaves it (R218). A poisoned write that finds the directory full is dropped and escalated (R219). -/
def writeSector (a : Nat) (bs : List Nat) (poison : Bool) (s : State) : State :=
  let sec := a / 64
  if offline s a then noteOffline a 0 false s
  else if poison && !marked s sec && dirFull s a then
    match ownerHive a with
    | some h => escalate h 0x06 255 (raise F.MEM_EVENTS_poison_dir_full h s)
    | none => s
  else
    let s := pokeBytes a bs (fillGranule a s)
    if poison then setMark sec true s
    else if bs.length = 64 then setMark sec false s
    else s

/-- A write of bytes at an address, sector by sector in ascending order. -/
def writeBytes : Nat → Nat → List Nat → Bool → State → State
  | 0, _, _, _, s => s
  | n + 1, a, bs, poison, s =>
    match bs with
    | [] => s
    | _ :: _ =>
      let k := 64 - a % 64
      writeBytes n (a + k) (bs.drop k) poison (writeSector a (bs.take k) poison s)

/-- A write of bytes at an address. -/
def memWrite (a : Nat) (bs : List Nat) (poison : Bool) (s : State) : State :=
  writeBytes (bs.length / 64 + 2) a bs poison s

/-- A range lies wholly in far memory, in near memory, or in the comb of one pair (R165, R170). -/
def inOneMemory (a n : Nat) : Bool :=
  if n = 0 then true
  else match tierOf a, tierOf (a + n - 1) with
    | .far _, .far _ => true
    | .near _, .near _ => true
    | .comb p, .comb q => p = q
    | _, _ => false

/-- A piece cut where it crosses a sector boundary (a piece has at most 64 bytes and one crossing, or is cut on). -/
def splitPiece : Nat → Nat × List Nat × Bool → List (Nat × List Nat × Bool)
  | 0, _ => []
  | n + 1, (a, bs, bad) =>
    if bs.isEmpty then []
    else (a, bs.take (64 - a % 64), bad) :: splitPiece n (a + (64 - a % 64), bs.drop (64 - a % 64), bad)

/-- One piece within a sector: dropped where the sector is offline (R20) or the directory has no room (R219), else written,
its poison set. -/
def putPiece (x : Nat × List Nat × Bool) (s : State) : State :=
  if offline s x.1 then noteOffline x.1 0 false s
  else if x.2.2 && !marked s (x.1 / 64) && dirFull s x.1 then
    match ownerHive x.1 with
    | some h => escalate h 0x06 255 (raise F.MEM_EVENTS_poison_dir_full h s)
    | none => s
  else
    let s := pokeBytes x.1 x.2.1 (fillGranule x.1 s)
    if x.2.2 then setMark (x.1 / 64) true s else s

/-- The pieces of a write, none crossing a sector boundary. -/
def cutPieces (pieces : List (Nat × List Nat × Bool)) : List (Nat × List Nat × Bool) :=
  pieces.flatMap (fun x => splitPiece (x.2.1.length / 64 + 2) x)

/-- The sectors that cut pieces write whole and clean lose their marks (R218). -/
def clearWhole (cut : List (Nat × List Nat × Bool)) (s : State) : State :=
  let info : SMap (Nat × Bool) := cut.foldl (fun m x =>
    let old := SMap.get (0, false) m (x.1 / 64)
    SMap.insert m (x.1 / 64) (old.1 ||| ((2 ^ x.2.1.length - 1) * 2 ^ (x.1 % 64)), old.2 || x.2.2)) []
  info.foldl (fun t e =>
    if !e.2.2 && e.2.1 = 2 ^ 64 - 1 && !offline t (e.1 * 64) then setMark e.1 false t else t) s

/-- Pieces of one write: address, bytes, poison. Every sector holding a poisoned piece is marked; one wholly written clean
is unmarked; a partial clean write leaves its mark (R77, R218). -/
def scatter (pieces : List (Nat × List Nat × Bool)) (s : State) : State :=
  let cut := cutPieces pieces
  clearWhole cut (cut.foldl (fun t x => putPiece x t) s)

/-! ## Counters (R416–R423) -/

/-- A traffic-class event code (R418). -/
def isTraffic (code : Nat) : Bool := 0x20 ≤ code && code ≤ 0x26

/-- The event code a programmable counter selects. -/
def ctrSel (s : State) (p j : Nat) : Nat := bitsOf (fld s F.CTR_P_SEL_event p) (8 * j + 7) (8 * j)

/-- Counter j is the upper half of a chain (R419). -/
def chained (s : State) (p j : Nat) : Bool := j % 2 = 1 && isTraffic (ctrSel s p (j - 1))

/-- A sample taken if the counter crossed a multiple of its period (R423). -/
def ctrSample (p j old new code : Nat) (s : State) : State :=
  let n := fld s F.CTR_P_SAMPLE_period_log2 p
  if fldB s F.CTR_P_SAMPLE_en p && fld s F.CTR_P_SAMPLE_src p = j && old / 2 ^ n ≠ new / 2 ^ n then
    let idx := (pair s p).lastIssued
    let s := setFld F.CTR_P_SAMPLE_LAST_count_lo p new s
    let s := setFld F.CTR_P_SAMPLE_LAST_event p code s
    let s := setFld F.CTR_P_SAMPLE_LAST_src p j s
    let s := setFld F.CTR_P_SAMPLE_LAST_index p idx s
    sendEvent 0x06 0x40 p (idx % 2 ^ 20 + j * 2 ^ 20 + code * 2 ^ 24 + (new % 2 ^ 32) * 2 ^ 32) s
  else s

/-- The pair bank counts: run is set and the hive's clocks run (R416). -/
def ctrRuns (s : State) (p : Nat) : Bool :=
  fldB s F.CTR_GLOBAL_run && hiveState s (hiveOf p) ≠ hsReset && hiveState s (hiveOf p) ≠ hsHeld
    && hiveState s (hiveOf p) ≠ hsHeldHw && hiveState s (hiveOf p) ≠ hsDisabled

/-- One programmable counter advanced by n for its event. -/
def ctrBump (p j code n : Nat) (s : State) : State :=
  if bitAt (fld s F.CTR_P_CTRL_en p) j && ctrSel s p j = code && !chained s p j && n ≠ 0 && !(isTraffic code && j % 2 = 1) then
    let old := fld s F.CTR_P_n_count (8 * p + j)
    if isTraffic code then
      let hi := fld s F.CTR_P_n_count (8 * p + j + 1)
      let v := hi * 2 ^ 48 + old + n
      let s := setFld F.CTR_P_n_count (8 * p + j) v (setFld F.CTR_P_n_count (8 * p + j + 1) (v / 2 ^ 48) s)
      let s := if v ≥ 2 ^ 96 then setFld F.CTR_P_OVF_ovf p (setBitN (fld s F.CTR_P_OVF_ovf p) j) s else s
      ctrSample p j old (old + n) code s
    else
      let s := setFld F.CTR_P_n_count (8 * p + j) (old + n) s
      let s := if old + n ≥ 2 ^ 48 then setFld F.CTR_P_OVF_ovf p (setBitN (fld s F.CTR_P_OVF_ovf p) j) s else s
      ctrSample p j old (old + n) code s
  else s

/-- n occurrences of an event counted in the bank of pair p. -/
def count (p code n : Nat) (s : State) : State :=
  if ctrRuns s p then iter 8 s (fun j t => ctrBump p j code n t) else s

/-- Bytes read at an address for pair p, or for a requester that is no pair: another unit than the comb's own pair reaches a comb
through that pair's mesh port, and a pair reaches everything but its own comb through its own (R206, R418). -/
def countRead (p : Option Nat) (a n : Nat) (s : State) : State :=
  match tierOf a with
  | .comb q => if p = some q then count q 0x20 n s else p.elim id (count · 0x23 n) (count q 0x22 n (count q 0x20 n s))
  | _ => p.elim id (count · 0x23 n) s

/-- Bytes written at an address, likewise. -/
def countWrite (p : Option Nat) (a n : Nat) (s : State) : State :=
  match tierOf a with
  | .comb q => if p = some q then count q 0x21 n s else p.elim id (count · 0x22 n) (count q 0x23 n (count q 0x21 n s))
  | _ => p.elim id (count · 0x22 n) s

/-- n reed-slots added to a slot counter (R417): 0 retired, 1 wasted, 2 starved-front, 3 starved-back. -/
def countSlots (p k n : Nat) (s : State) : State :=
  if ctrRuns s p && bitAt (fld s F.CTR_P_CTRL_en p) (8 + k) then
    let old := fld s F.CTR_P_SLOT_k_count (4 * p + k)
    let s := setFld F.CTR_P_SLOT_k_count (4 * p + k) (old + n) s
    if old + n ≥ 2 ^ 48 then setFld F.CTR_P_OVF_ovf p (setBitN (fld s F.CTR_P_OVF_ovf p) (8 + k)) s else s
  else s

/-! ## Score and pair faults, semaphores (R154, R172) -/

/-- Sequencer states of R157. -/
abbrev sqIdle : Nat := 0
abbrev sqPending : Nat := 1
abbrev sqRunning : Nat := 2
abbrev sqWaiting : Nat := 3
abbrev sqPaused : Nat := 4
abbrev sqDone : Nat := 5
abbrev sqFaulted : Nat := 6

/-- The state of a pair's sequencer. -/
def seqState (s : State) (p : Nat) : Nat := fld s F.SEQ_STATUS_state p

/-- The index of the next instruction. -/
def seqPc (s : State) (p : Nat) : Nat := fld s F.SEQ_STATUS_pc p

/-- What a spill slot holds whose walk a fault has ended: kept until the hive is reset (R77). -/
abbrev spillDead : Nat := 2 ^ 30

/-- What a fault discards (R172): array work accepted and not begun, the rest of what has begun, the walks. -/
def PairS.faulted (x : PairS) : PairS :=
  { x with
    blocked := .none
    pauseReq := false
    inSlice := false
    owed := none
    loads := []
    walks := []
    walk := {}
    array :=
      { x.array with
        queue := []
        ended := 0
        held := []
        walkBad := 0
        tasks := []
        bind := []
        lru := []
        folds := []
        partials := []
        partialBad := []
        spills := x.array.spills.map (fun e => (e.1, spillDead)) } }

/-- A score or pair fault: code of R173, class of SEQ_FAULT.cls, the index, the semaphore of a SEM_OVERFLOW. -/
def pairFault (p code cls pc sem : Nat) (s : State) : State :=
  if seqState s p = sqFaulted then raise F.SEQ_EVENTS_fault_lost p s
  else
    let s := setFld F.SEQ_STATUS_state p sqFaulted s
    let s := setFld F.SEQ_FAULT_code p code s
    let s := setFld F.SEQ_FAULT_cls p cls s
    let s := setFld F.SEQ_FAULT_pc p pc s
    let s := setFld F.SEQ_FAULT_sem p sem s
    let s := raise F.SEQ_EVENTS_fault p (modPair p PairS.faulted s)
    let s := logEvent { block := 0x06, item := 0, severity := openSeverity 6 0, hive := hiveOf p, pair := p } s
    let s := sendEventOpen 0x06 0 p s
    if fldB s F.SEQ_CTRL_fault_escalate p then escalate (hiveOf p) 0x01 p s else s

/-- One increment of a semaphore; one that would carry out of bit 31 raises SEM_OVERFLOW (R154). -/
def semInc (p sem : Nat) (s : State) : State :=
  let c := fld s F.SEQ_SEM_i_count (64 * p + sem)
  if c = 0xFFFFFFFF then pairFault p 0x12 0xF (seqPc s p) sem s
  else setFld F.SEQ_SEM_i_count (64 * p + sem) (c + 1) s

/-- The count of a semaphore. -/
def semCount (s : State) (p sem : Nat) : Nat := fld s F.SEQ_SEM_i_count (64 * p + sem)

/-- A scalar register. -/
def scalar (s : State) (p i : Nat) : Nat := fld s F.SEQ_SCALAR_i_value (32 * p + i)

/-- A scalar register written. -/
def setScalar (p i v : Nat) (s : State) : State := setFld F.SEQ_SCALAR_i_value (32 * p + i) v s

end Sys2Proof.Machine
end

