-- ==== Sys2Proof/Machine/Operands.lean ====
section
/-! DEFINITION. The operand forms of a score instruction (R177–R203): header, code tables, scalar operands, rounding
and saturation fields, the format codes, and what issue checks of them. -/

namespace Sys2Proof.Machine

/-- Bits [hi:lo] of an instruction word. -/
abbrev wbits (w hi lo : Nat) : Nat := bitsOf w hi lo

/-- The header of R177. -/
def wCls (w : Nat) : Nat := wbits w 3 0
def wOp (w : Nat) : Nat := wbits w 9 4
def wSem (w : Nat) : Nat := wbits w 21 16
def wSig (w : Nat) : Bool := bitAt w 22

/-- The operations each class defines (R183–R203). -/
def definedOps : Nat → List Nat
  | 0 => [0]
  | 1 => [0, 1, 2, 3, 4]
  | 2 => [0]
  | 3 => [0, 1, 2, 3, 4, 5, 6, 7, 0x10, 0x11, 0x12, 0x18, 0x19, 0x1A, 0x20, 0x21, 0x22, 0x23,
          0x28, 0x29, 0x2A, 0x2B, 0x30, 0x31, 0x32, 0x33]
  | 4 => [0, 1, 2]
  | 5 => [0, 1, 2, 3, 4, 5, 6, 7, 8]
  | 6 => [0, 1, 2, 3, 4, 5, 6, 7, 8, 0x0A, 0x0B, 0x0C, 0x10, 0x11, 0x12, 0x18, 0x19]
  | 7 => [0, 1, 2]
  | _ => []

/-- The word names an operation that exists. -/
def definedOp (w : Nat) : Bool := (definedOps (wCls w)).contains (wOp w)

/-- Every bit of the word outside the listed fields is 0 (R177). -/
def onlyBits (w : Nat) (fields : List (Nat × Nat)) : Bool :=
  w == fields.foldl (fun a f => a + bitsOf w f.1 f.2 * 2 ^ f.2) 0

/-- Fields every word has: cls and op. -/
abbrev hdr : List (Nat × Nat) := [(9, 0)]
/-- The header with sem and sig in use. -/
abbrev hdrSig : List (Nat × Nat) := [(9, 0), (22, 16)]

/-- Where sig is 0 and sem has no other use, sem is 0 (R177). -/
def semOk (w : Nat) : Bool := wSig w || wSem w = 0

/-- A scalar operand that carries a comb offset has no bit above 22 (R179). -/
def combReg (v : Nat) : Bool := v < 2 ^ 23

/-- A range of comb offsets lies within the comb (R179). -/
def inComb (off n : Nat) : Bool := off + n ≤ combBytes

/-- Format codes 14 and 15 are illegal (R180). -/
def fmtCode (c : Nat) : Bool := c ≤ 13

/-- The format of a code's elements (R180). -/
def fmtOf : Nat → Fmt
  | 0 => .fp32 | 1 => .bf16 | 2 => .fp16 | 3 => .e4m3 | 4 => .e5m2 | 5 => .int8 | 6 => .int4 | 7 => .e2m1
  | 8 => .e4m3 | 9 => .e5m2 | 10 => .e2m3 | 11 => .e3m2 | 12 => .e2m1 | _ => .fp64

/-- An MX code. -/
def isMx (c : Nat) : Bool := 8 ≤ c && c ≤ 12

/-- Elements in a 16-bit slot (R53); MXFP6 sits unpacked in 8-bit positions (R55). -/
def slotElems (c : Nat) : Nat :=
  if c = 1 || c = 2 then 1 else if c = 6 || c = 7 || c = 12 then 4 else 2

/-- The bits an element occupies in a slot. -/
def slotBits (c : Nat) : Nat := 16 / slotElems c

/-- The operand pairs of R53. -/
def pairAccepted (c r : Nat) : Bool :=
  (c = 1 && r = 1) || (c = 2 && r = 2) || ((c = 3 || c = 4) && (r = 3 || r = 4)) || (c = 5 && r = 5)
    || (8 ≤ c && c ≤ 11 && 8 ≤ r && r ≤ 11) || (c = 7 && r = 7) || (c = 6 && r = 6) || (c = 12 && r = 12)

/-- A rounding field as this slice resolves it (R86, R87, R181): 0 RNE, 1 RNA, else the bits of SR. -/
def resolveRnd (s : State) (c : Nat) : Nat :=
  let sr (k : Nat) : Nat := if k = 0 then 8 else if k = 1 then 12 else 16
  match c with
  | 0 => 0
  | 1 => 1
  | 2 => 8
  | 3 => 12
  | 4 => 16
  | 5 => sr (fld s F.BOOT_STOP_sr_bits)
  | _ =>
    match fld s F.BOOT_STOP_rnd_default with
    | 0 => 0
    | 1 => 1
    | 2 => 8
    | 3 => 12
    | _ => 16

/-- The saturation a field selects for a target (R89, R181). -/
def resolveSat (f : Fmt) (c : Nat) : Bool :=
  if c = 1 then false else if c = 2 then true else f = .e4m3

/-- Codes of R173. -/
abbrev fIllegal : Nat := 0x01
abbrev fOperand : Nat := 0x02
abbrev fMisaligned : Nat := 0x03
abbrev fAddrRange : Nat := 0x04
abbrev fDescInvalid : Nat := 0x05
abbrev fOverlap : Nat := 0x06
abbrev fBranchRange : Nat := 0x07
abbrev fFetch : Nat := 0x10
abbrev fDescPoison : Nat := 0x11
abbrev fSemOverflow : Nat := 0x12
abbrev fRemoteReject : Nat := 0x13
abbrev fSpillFull : Nat := 0x14
abbrev fExecRange : Nat := 0x15
abbrev fWidth : Nat := 0x16

/-- What the checks and the issue of one instruction give. -/
inductive Issue where
  /-- A fault of R173; nothing else takes effect. -/
  | fault (code : Nat)
  /-- A descriptor the forager rejects (R116): the fault, and the event that goes with it. -/
  | reject (code : Nat) (s : State)
  /-- The unit's queue is full: nothing happens yet (R179). -/
  | stall
  /-- Issued: the state, and the next index if it is not the following one. -/
  | done (s : State) (next : Option Nat)

/-- The checks of R178 in order: illegal, operand, misaligned, address. -/
def checks (illegal operand misaligned range : Bool) (k : Issue) : Issue :=
  if illegal then .fault fIllegal
  else if operand then .fault fOperand
  else if misaligned then .fault fMisaligned
  else if range then .fault fAddrRange
  else k

/-- A 16-bit slot's element e of a format code. -/
def slotElem (c slot e : Nat) : Nat := slot / 2 ^ (slotBits c * e) % 2 ^ (fmtOf c).bits

/-- The signed value of a 12-bit stride. -/
def stride12 (v : Nat) : Int := toSigned 12 v

/-- An address in the R162 form: none where its reserved bits are set; else the device it names, if not this part, and
the local address. -/
def addrForm (s : State) (a : Nat) : Option (Option Nat × Nat) :=
  if bitsOf a 62 60 ≠ 0 then none
  else if bitAt a 63 then
    let d := bitsOf a 59 44
    some (if d = deviceId s then none else some d, bitsOf a 43 0)
  else if bitsOf a 59 44 ≠ 0 then none
  else some (none, bitsOf a 43 0)

end Sys2Proof.Machine
end

