-- ==== Sys2Proof/Machine/Flags.lean ====
section
/-! DEFINITION. The flags an arithmetic result sets: NUM_EVENTS and NUM_CVT_COUNTS (R84, R89, R101, R102), the array's
NaN and infinity bits (R77), the histogram (R98, R99), and the generator draws that go with a conversion (R88, R96). -/

namespace Sys2Proof.Machine

/-- What the elements of one instruction set. -/
structure NumFlags where
  flush : Bool := false
  nanIn : Bool := false
  invalid : Bool := false
  divZero : Bool := false
  inf : Bool := false
  sat : Nat := 0
  nan : Nat := 0
  deriving DecidableEq, Repr

def NumFlags.join (a b : NumFlags) : NumFlags where
  flush := a.flush || b.flush
  nanIn := a.nanIn || b.nanIn
  invalid := a.invalid || b.invalid
  divZero := a.divZero || b.divZero
  inf := a.inf || b.inf
  sat := a.sat + b.sat
  nan := a.nan + b.nan

/-- The flags of one conversion. -/
def Cvt.flags (c : Cvt) : NumFlags := { inf := c.inf, sat := b2n c.sat, nan := b2n c.nan }

/-- The flags of reading one operand element (R82, R84). -/
def readFlags (f : Fmt) (c : Nat) : NumFlags :=
  { flush := f.isSub c && f.flushes, nanIn := f.isNan c }

/-- A bit raised if the condition holds. -/
def raiseIf (b : Bool) (f : Fld) (i : Nat) (s : State) : State := if b then raise f i s else s

/-- The flags recorded for pair p (R102); invalid escalates under invalid_fault (R101). -/
def applyNum (p : Nat) (n : NumFlags) (s : State) : State :=
  let s := raiseIf n.flush F.NUM_EVENTS_subnormal_flush p s
  let s := raiseIf n.nanIn F.NUM_EVENTS_nan_in p s
  let s := raiseIf n.invalid F.NUM_EVENTS_invalid p s
  let s := raiseIf n.divZero F.NUM_EVENTS_div_by_zero p s
  let s := raiseIf n.inf F.NUM_EVENTS_cvt_inf p s
  let s := raiseIf (n.sat ≠ 0) F.NUM_EVENTS_cvt_sat p s
  let s := raiseIf (n.nan ≠ 0) F.NUM_EVENTS_cvt_nan p s
  let s := satAddFld F.NUM_CVT_COUNTS_sat_count p n.sat s
  let s := satAddFld F.NUM_CVT_COUNTS_nan_count p n.nan s
  if n.invalid && fldB s F.NUM_CTRL_invalid_fault p then escalate (hiveOf p) 0x07 p s else s

/-- A generator lane's state within the slice of a schedule breath (R95, R96). An instruction draws from the lanes of the
slice that issued it, whenever it completes: the pair clock does not alter a result (R97). -/
def laneState (x : PairS) (p breath lane : Nat) : Nat :=
  SMap.get (laneSeed x.seed p lane breath) x.lanes (breath * 512 + lane)

/-- One step of a lane: the draw of n bits and the pair with the lane moved on. -/
def drawLane (x : PairS) (p breath lane n : Nat) : Nat × PairS :=
  let v := laneStep (laneState x p breath lane)
  (laneDraw n v, { x with lanes := SMap.insert x.lanes (breath * 512 + lane) v })

/-- The rounding of one element: SR modes step their lane once (R88). -/
def drawRound (rnd : Nat) (x : PairS) (p breath lane : Nat) : Round × PairS :=
  if rnd = 0 then (.rne, x)
  else if rnd = 1 then (.rna, x)
  else
    let (r, x) := drawLane x p breath lane rnd
    (.sr rnd r, x)

/-- The base exponent of a histogram set (R102). -/
def histBase (s : State) (p set : Nat) : Int :=
  toSigned 8 (bitsOf (reg s .NUM_CTRL p).toNat (8 * set + 7) (8 * set))

/-- FP32 values counted into a histogram set; a counter saturates and says so (R98, R99). -/
def histCount (p set : Nat) (vals : List Nat) (s : State) : State :=
  let b := histBase s p set
  vals.foldl (fun t c =>
    let k := set * 64 + expBin b c
    let n := SMap.get 0 (pair t p).hist k
    if n ≥ 0xFFFFFFFF then raise F.NUM_EVENTS_hist_sat p t
    else
      let t := modPair p (fun x => { x with hist := SMap.set 0 x.hist k (n + 1) }) t
      raiseIf (n + 1 = 0xFFFFFFFF) F.NUM_EVENTS_hist_sat p t) s

end Sys2Proof.Machine
end

