-- ==== Sys2Proof/Machine/Sequencer.lean ====
section
/-! DEFINITION. The sequencer of a pair: fetch and issue (R150–R157, R172, R177, R178), the SYNC and CTL instructions
(R200–R202), HUM and CHKCMP (R203), waits and their release, pause, resume and clear (R159). -/

namespace Sys2Proof.Machine

/-- Steps, folds, drains, spills or loads in flight (ARRAY_STATUS.busy). -/
def ArrayS.busy (a : ArrayS) : Bool := !a.queue.isEmpty || !a.drains.isEmpty || !a.folds.isEmpty

/-- The pair is quiet (R156). -/
def PairS.quiet (x : PairS) : Bool :=
  x.copies.isEmpty && x.lists.isEmpty && x.walks.isEmpty && x.colls.isEmpty && x.vec.isEmpty && !x.array.busy

def pairQuiet (s : State) (p : Nat) : Bool := (pair s p).quiet

/-- Score length in instructions (R155, R176). -/
def scoreLength (s : State) (p : Nat) : Nat := fld s F.SEQ_SCORE_length_m1 p + 1

/-- The first index of the buffer window for next index i and refill point r (R155). -/
def windowBase (r i : Nat) : Nat := max r (i - 2048) / 4 * 4

/-- The sector of the score that holds index i, read from the buffer, or now from near memory into it: the latest of
the times R155 allows. The value is the sector's number times 2 plus its poison mark. -/
def fetchSector (p i : Nat) (s : State) : Nat × State :=
  let x := pair s p
  let b := windowBase x.refillAt i
  let buf := SMap.dropKeys x.ibuf (fun k => 4 * k < b || 4 * k ≥ b + 4096)
  match buf.find? (fun e => e.1 = i / 4) with
  | some e => (e.2, modPair p (fun x => { x with ibuf := buf }) s)
  | none =>
    let a := fld s F.SEQ_SCORE_base p * 4096 + 64 * (i / 4)
    let v := leNat (readBytes s a 64) * 2 + b2n (poisoned s a 64)
    let s := noteOfflineRange a 64 0 true s
    (v, count p 0x23 64 (modPair p (fun x => { x with ibuf := SMap.insert buf (i / 4) v }) s))

/-- The instruction word at index i and whether it is poisoned. -/
def fetchWord (p i : Nat) (s : State) : Nat × Bool × State :=
  let (v, s) := fetchSector p i s
  (v / 2 / 2 ^ (128 * (i % 4)) % 2 ^ 128, v % 2 = 1, s)

/-- The pair may issue: RUNNING and waiting for nothing. -/
def canIssue (s : State) (p : Nat) : Bool :=
  seqState s p = sqRunning && (pair s p).blocked = .none

/-- An instruction has issued: index, count, next index (R155, R418). -/
def issued (p : Nat) (pc : Nat) (next : Option Nat) (s : State) : State :=
  let s := setFld F.SEQ_STATUS_pc p (next.getD (pc + 1)) s
  count p 0x0A 1 (modPair p (fun x => { x with lastIssued := pc, past := decide (next.getD (pc + 1) ≥ 2 ^ 20), seq := x.seq + 1 }) s)

/-- The checks common to every instruction, then its own: the row's command acts only if the word is one of the row's, or
is one no row could issue (R172, R178). -/
def issueWith (p : Nat) (mine : Nat → State → Bool) (body : Nat → State → Issue) (s : State) : State :=
  if !canIssue s p then s
  else
    let pc := seqPc s p
    if pc ≥ scoreLength s p || (pair s p).past then pairFault p fBranchRange 0xF (scoreLength s p) 0 s
    else
      let (w, bad, t) := fetchWord p pc s
      if bad then pairFault p fFetch 0xF pc 0 t
      else if !definedOp w then pairFault p fIllegal (wCls w) pc 0 t
      else if !mine w t then s
      else
        match body w t with
        | .fault c => pairFault p c (wCls w) pc 0 t
        | .reject c t' => pairFault p c (wCls w) pc 0 t'
        | .stall => s
        | .done t' next => issued p pc next t'

/-- The word is operation `op` of class `cls`. -/
def isOp (cls op : Nat) (w : Nat) (_s : State) : Bool := wCls w = cls && wOp w = op

/-! ## Slice ends -/

/-- The load counts of a slice go to the window that holds its breath, and are cleared (R230). -/
def mergeLoads (p : Nat) (s : State) : State :=
  let x := pair s p
  let k := fld s F.ROUTE_CTRL_period
  let s := if fldB s F.ROUTE_CTRL_loop_en then
      x.loads.foldl (fun t e =>
        let key := x.sliceBreath / k * 4096 + e.1
        let v := SMap.get 0 t.windowLoads key + e.2
        raiseIf (v > 0xFFFFFFFF) F.ROUTE_EVENTS_count_sat 0
          { t with windowLoads := SMap.set 0 t.windowLoads key (min v 0xFFFFFFFF) }) s
    else s
  modPair p (fun x => { x with loads := [] }) s

/-- The bias of a table entry. -/
def biasOf (s : State) (e : Nat) : Nat :=
  if e % 2 = 0 then fld s F.ROUTE_BIAS_i_bias_lo (e / 2) else fld s F.ROUTE_BIAS_i_bias_hi (e / 2)

def setBias (e v : Nat) (s : State) : State :=
  if e % 2 = 0 then setFld F.ROUTE_BIAS_i_bias_lo (e / 2) v s else setFld F.ROUTE_BIAS_i_bias_hi (e / 2) v s

def setLoad (e v : Nat) (s : State) : State :=
  if e % 2 = 0 then setFld F.ROUTE_LOAD_i_load_lo (e / 2) v s else setFld F.ROUTE_LOAD_i_load_hi (e / 2) v s

/-- A router's experts, first entry and comb offset (R229). -/
def routerN (s : State) (r : Nat) : Nat := fld s F.ROUTER_r_experts r
def routerBase (s : State) (r : Nat) : Nat := fld s F.ROUTER_r_base r

/-- The enabled routers. -/
def routers (s : State) : List Nat := (List.range 16).filter (fun r => routerN s r ≠ 0)

/-- A router's biases written into a pair's comb copy (R233). -/
def biasCopy (p r : Nat) (s : State) : State :=
  let bs := (List.range (routerN s r)).flatMap (fun i => natLe 4 (biasOf s (routerBase s r + i)))
  memWrite (combAddr p (64 * fld s F.ROUTER_r_comb_off r)) bs false (count p 0x21 bs.length s)

/-- The copies a pair is owed, written before its slice begins. -/
def biasDeliver (p : Nat) (s : State) : State :=
  let due := (pair s p).biasDue
  let s := (setBitsOf 16 due).foldl (fun t r => biasCopy p r t) s
  modPair p (fun x => { x with biasDue := 0 }) s

/-- The schedule breaths whose lanes an instruction in flight still draws from. -/
def PairS.drawing (x : PairS) : List Nat :=
  x.vec.map UnitOp.breath ++ x.array.queue.map UnitOp.breath ++ x.array.drains.map DrainOp.breath

/-- The generator lanes load anew for a slice of breath n; those of a slice with work in flight stay for that work (R95, R97). -/
def PairS.loadLanes (n : Nat) (x : PairS) : PairS :=
  { x with lanes := SMap.dropKeys x.lanes (fun k => k / 512 = n || !x.drawing.contains (k / 512)) }

/-- A pair begins a slice of a schedule breath: its bias copies come first, its generator lanes load anew (R36, R95, R233). -/
def beginSlice (p n : Nat) (s : State) : State :=
  setFld F.SEQ_STATUS_state p sqRunning
    (modPair p (fun x => { x.loadLanes n with sliceBreath := n, inSlice := true, owed := none, startDue := false })
      (biasDeliver p s))

/-- A slice has ended: WAITING, or PAUSED if a pause waits for it (R157, R159). A slice owed begins at once, but in
DESYNC, where it is dropped (R36, R42, R46; DESIGN CHOICE, log 124). -/
def sliceEnd (p : Nat) (s : State) : State :=
  let x := pair s p
  let st := if x.pauseReq then sqPaused else sqWaiting
  let s := setFld F.SEQ_STATUS_state p st
    (modPair p (fun x => { x with blocked := .none, pauseReq := false, inSlice := false, owed := none }) (mergeLoads p s))
  match x.owed with
  | some n => if x.pauseReq || fld s F.BREATH_STATUS_state = 4 then s else beginSlice p n s
  | none => s

/-- The score has ended with its last slice: DONE (R157). -/
def scoreDone (p : Nat) (s : State) : State :=
  setFld F.SEQ_STATUS_state p sqDone
    (modPair p (fun x => { x with blocked := .none, pauseReq := false, inSlice := false, owed := none }) (mergeLoads p s))

/-- The sequencer waits. -/
def block (p : Nat) (b : Blocked) (s : State) : State := modPair p (fun x => { x with blocked := b }) s

/-! ## SYNC (R200) -/

/-- WAIT and HUM share their wait: the count taken if it suffices, else the sequencer waits (R154, R203). -/
def waitOn (p : Nat) (w : Nat) (b : Blocked) (s : State) : Issue :=
  let n := wbits w 39 24
  if n = 0 then .fault fIllegal
  else if semCount s p (wSem w) ≥ n then
    .done (setFld F.SEQ_SEM_i_count (64 * p + wSem w) (semCount s p (wSem w) - n) s) none
  else .done (block p b s) none

def issueWait (p w : Nat) (s : State) : Issue :=
  checks (!onlyBits w [(9, 0), (21, 16), (39, 24)]) false false false
    (waitOn p w (.sem (wSem w) (wbits w 39 24)) s)

def wait (p : Nat) (s : State) : State := issueWith p (isOp 4 0) (issueWait p) s

/-- A waiting semaphore has reached n: it is decremented and the sequencer resumes (R154). -/
def waitRelease (p : Nat) (s : State) : State :=
  let go (sem n : Nat) : State :=
    if semCount s p sem ≥ n then
      setFld F.SEQ_SEM_i_count (64 * p + sem) (semCount s p sem - n) (block p .none s)
    else s
  match (pair s p).blocked with
  | .sem sem n => go sem n
  | .hum sem n _ => go sem n
  | _ => s

/-- An access to an offline hive recorded in the error log (R20, R200). -/
def logOffline (h pr : Nat) (s : State) : State :=
  let (a, s) := freshData s
  logEvent { block := 0x07, item := 0, severity := openSeverity 7 0, hive := h, pair := pr, addr := a } s

/-- SIGNAL: the target semaphore gains 1; a target in a disabled hive or one under reset is dropped and logged. -/
def issueSignal (p w : Nat) (s : State) : Issue :=
  checks (!onlyBits w [(9, 0), (21, 16), (29, 24)]) false false false
    (let q := wbits w 29 24
     if hiveState s (hiveOf q) ≠ hsInService then .done (logOffline (hiveOf q) p s) none
     else .done (semInc q (wSem w) s) none)

def signal (p : Nat) (s : State) : State := issueWith p (isOp 4 1) (issueSignal p) s

def issueQuiet (p w : Nat) (s : State) : Issue :=
  checks (!onlyBits w hdr) false false false
    (if pairQuiet s p then .done s none else .done (block p .quiet s) none)

def quietOp (p : Nat) (s : State) : State := issueWith p (isOp 4 2) (issueQuiet p) s

/-- The pair has become quiet: a QUIET, a quiet SLICE or a quiet END completes (R156). -/
def quietRelease (p : Nat) (s : State) : State :=
  if !pairQuiet s p then s
  else
    match (pair s p).blocked with
    | .quiet => block p .none s
    | .sliceQuiet => sliceEnd p s
    | .endQuiet => scoreDone p s
    | _ => s

/-! ## CTL (R201, R202) -/

def cXd (w : Nat) : Nat := wbits w 28 24
def cXa (w : Nat) : Nat := wbits w 33 29
def cXb (w : Nat) : Nat := wbits w 38 34
def cImm (w : Nat) : Nat := wbits w 127 64

/-- The fields a CTL instruction lists (R201): flags only where its row names them; sem and sig are 0. -/
def ctlBits : List (Nat × Nat) := [(9, 0), (38, 24), (127, 64)]

/-- A CTL instruction that writes xd from its operands. -/
def ctlWrite (p w : Nat) (v : Nat → Nat → Nat → Nat) (s : State) : Issue :=
  checks (!onlyBits w ctlBits) false false false
    (.done (setScalar p (cXd w) (v (scalar s p (cXa w)) (scalar s p (cXb w)) (cImm w) % 2 ^ 64) s) none)

/-- The arithmetic right shift of a 64-bit value. -/
def sar64 (a n : Nat) : Nat := ofSigned 64 (toSigned 64 a / (2 ^ n : Nat))

def ctlNop (p : Nat) (s : State) : State :=
  issueWith p (isOp 6 0) (fun w t => checks (!onlyBits w ctlBits) false false false (.done t none)) s
def ctlLi (p : Nat) (s : State) : State := issueWith p (isOp 6 1) (fun w => ctlWrite p w (fun _ _ i => i)) s
def ctlAdd (p : Nat) (s : State) : State := issueWith p (isOp 6 2) (fun w => ctlWrite p w (fun a b _ => a + b)) s
def ctlAddi (p : Nat) (s : State) : State := issueWith p (isOp 6 3) (fun w => ctlWrite p w (fun a _ i => a + i)) s
def ctlSub (p : Nat) (s : State) : State :=
  issueWith p (isOp 6 4) (fun w => ctlWrite p w (fun a b _ => a + 2 ^ 64 - b)) s
def ctlMuli (p : Nat) (s : State) : State := issueWith p (isOp 6 5) (fun w => ctlWrite p w (fun a _ i => a * i)) s
def ctlAnd (p : Nat) (s : State) : State := issueWith p (isOp 6 6) (fun w => ctlWrite p w (fun a b _ => a &&& b)) s
def ctlOr (p : Nat) (s : State) : State := issueWith p (isOp 6 7) (fun w => ctlWrite p w (fun a b _ => a ||| b)) s
def ctlXor (p : Nat) (s : State) : State := issueWith p (isOp 6 8) (fun w => ctlWrite p w (fun a b _ => a ^^^ b)) s
def ctlShl (p : Nat) (s : State) : State :=
  issueWith p (isOp 6 0x0A) (fun w => ctlWrite p w (fun a _ i => a * 2 ^ (i % 64))) s
def ctlShr (p : Nat) (s : State) : State :=
  issueWith p (isOp 6 0x0B) (fun w => ctlWrite p w (fun a _ i => a / 2 ^ (i % 64))) s
def ctlSar (p : Nat) (s : State) : State :=
  issueWith p (isOp 6 0x0C) (fun w => ctlWrite p w (fun a _ i => sar64 a (i % 64))) s

/-- The conditions of R182; none above 10. -/
def condHolds (cc a b : Nat) : Bool :=
  let sa := toSigned 64 a
  let sb := toSigned 64 b
  match cc with
  | 0 => true
  | 1 => a = b
  | 2 => a ≠ b
  | 3 => sa < sb
  | 4 => sb ≤ sa
  | 5 => a < b
  | 6 => b ≤ a
  | 7 => sb < sa
  | 8 => sa ≤ sb
  | 9 => b < a
  | 10 => a ≤ b
  | _ => false

/-- A taken branch: inside the buffer window it costs nothing; outside, the buffer refills at the target. Sectors that lie in
the new window too never leave it, and are not read again (R155). -/
def takeBranch (p target : Nat) (s : State) : State :=
  let b := windowBase (pair s p).refillAt (seqPc s p)
  if b ≤ target && target < b + 4096 then s
  else modPair p (fun x => { x with refillAt := target / 4 * 4, blocked := .refill }) s

/-- Branch targets: imm [63:20] is 0, and a target at or beyond the score length is BRANCH_RANGE at issue (R201). -/
def branchTo (p w : Nat) (taken : Bool) (upd : State → State) (s : State) : Issue :=
  if cImm w ≥ scoreLength s p then .fault fBranchRange
  else if taken then .done (takeBranch p (cImm w) (upd s)) (some (cImm w))
  else .done (upd s) none

def issueBr (p w : Nat) (s : State) : Issue :=
  checks (!onlyBits w [(13, 0), (38, 24), (83, 64)] || wbits w 13 10 > 10) false false false
    (branchTo p w (condHolds (wbits w 13 10) (scalar s p (cXa w)) (scalar s p (cXb w))) id s)

def ctlBr (p : Nat) (s : State) : State := issueWith p (isOp 6 0x10) (issueBr p) s

def issueLoop (p w : Nat) (s : State) : Issue :=
  let v := (scalar s p (cXa w) + 2 ^ 64 - 1) % 2 ^ 64
  checks (!onlyBits w [(9, 0), (38, 24), (83, 64)]) false false false
    (branchTo p w (v ≠ 0) (setScalar p (cXa w) v) s)

def ctlLoop (p : Nat) (s : State) : State := issueWith p (isOp 6 0x11) (issueLoop p) s

/-- The values of R202. -/
def getValue (s : State) (p sel : Nat) : Nat :=
  match sel with
  | 0 => (pair s p).sliceBreath
  | 1 => p
  | 2 => hiveOf p
  | 3 => deviceId s
  | 4 => deviceId s
  | 5 => fld s F.GROUP_CFG_group_id
  | 6 => seqPc s p
  | _ => (pair s p).seed

def issueGet (p w : Nat) (s : State) : Issue :=
  checks (!onlyBits w ctlBits || cImm w % 16 ≥ 8) false false false
    (.done (setScalar p (cXd w) (getValue s p (cImm w % 16)) s) none)

def ctlGet (p : Nat) (s : State) : State := issueWith p (isOp 6 0x12) (issueGet p) s

def issueSlice (p w : Nat) (s : State) : Issue :=
  checks (!onlyBits w [(10, 0), (38, 24), (127, 64)]) false false false
    (if bitAt w 10 && !pairQuiet s p then .done (block p .sliceQuiet s) none
     else .done (sliceEnd p s) none)

def ctlSlice (p : Nat) (s : State) : State := issueWith p (isOp 6 0x18) (issueSlice p) s

def issueEnd (p w : Nat) (s : State) : Issue :=
  checks (!onlyBits w [(10, 0), (38, 24), (127, 64)]) false false false
    (if bitAt w 10 && !pairQuiet s p then .done (block p .endQuiet s) none
     else .done (scoreDone p s) none)

def ctlEnd (p : Nat) (s : State) : State := issueWith p (isOp 6 0x19) (issueEnd p) s

/-- The instruction buffer has refilled: issue resumes (R155). -/
def scoreRefill (p : Nat) (s : State) : State :=
  if (pair s p).blocked = .refill then block p .none s else s

/-! ## CHECK (R203) in the sequencer -/

def issueHum (p w : Nat) (s : State) : Issue :=
  checks (!onlyBits w [(10, 0), (21, 16), (39, 24)]) false false false
    (waitOn p w (.hum (wSem w) (wbits w 39 24) (bitAt w 10)) s)

def hum (p : Nat) (s : State) : State := issueWith p (isOp 7 0) (issueHum p) s

/-- A check mismatch: logged against a pair and marked (R388, R389). -/
def checkMismatch (p : Nat) (s : State) : State :=
  raise F.RL_EVENTS_check_mismatch 0
    (logEvent { block := 0x0C, item := 7, severity := openSeverity 0x0C 7, hive := hiveOf p, pair := p } s)

/-- CHKCMP: the 32-byte signatures at xa and xb compared; xd becomes 0 if equal and 1 if not. -/
def issueChkcmp (p w : Nat) (s : State) : Issue :=
  let a := scalar s p (wbits w 33 29)
  let b := scalar s p (wbits w 38 34)
  checks (!onlyBits w [(9, 0), (38, 24)]) false false
    (!combReg a || !combReg b || !inComb a 32 || !inComb b 32)
    (let same := bytesAt s (combAddr p a) 32 == bytesAt s (combAddr p b) 32
     let s := setScalar p (wbits w 28 24) (if same then 0 else 1) s
     .done (if same then s else checkMismatch p s) none)

def chkcmp (p : Nat) (s : State) : State := issueWith p (isOp 7 2) (issueChkcmp p) s

/-! ## Pause, resume, clear (R159) -/

/-- A command or write this pair's sequencer ignored. -/
def seqIgnored (p : Nat) (s : State) : State := raise F.SEQ_EVENTS_ignored_write p s

def seqPause (p : Nat) (s : State) : State :=
  if seqState s p = sqRunning then modPair p (fun x => { x with pauseReq := true }) s
  else if seqState s p = sqWaiting then setFld F.SEQ_STATUS_state p sqPaused s
  else seqIgnored p s

def seqResume (p : Nat) (s : State) : State :=
  if seqState s p = sqPaused then setFld F.SEQ_STATUS_state p sqWaiting s else seqIgnored p s

def seqClear (p : Nat) (s : State) : State :=
  if seqState s p = sqFaulted && !fldB s F.SEQ_CTRL_fault_escalate p && pairQuiet s p then
    setFld F.SEQ_STATUS_state p sqIdle (resetReg .SEQ_FAULT p s)
  else seqIgnored p s

end Sys2Proof.Machine
end

