-- ==== Sys2Proof/Machine/Array.lean ====
section
/-! DEFINITION. The dense array (R53–R66, R71–R78, R187–R193): issue of ACC, SPLIT, BPROD, DRAIN, STAGE and CHKMUL,
their completion, mode changes, drains and slice states. An array instruction takes effect whole when its completion
command comes, in issue order. -/

namespace Sys2Proof.Machine

/-- Array modes of ARRAY_STATUS.mode. -/
abbrev mFull : Nat := 0
abbrev mSplit : Nat := 1
abbrev mBlock : Nat := 2

/-- Slice states of R62. -/
abbrev slFree : Nat := 0
abbrev slOpen : Nat := 1
abbrev slClosed : Nat := 2
abbrev slDraining : Nat := 3

def arrayMode (s : State) (p : Nat) : Nat := fld s F.ARRAY_STATUS_mode p

/-- The array of a pair changed. -/
def modArray (p : Nat) (f : ArrayS → ArrayS) (s : State) : State :=
  modPair p (fun x => { x with array := f x.array }) s

/-- The state of slice k = bank × 4 + slice. -/
def sliceState (s : State) (p k : Nat) : Nat := fld s F.ARRAY_STATUS_slice_state p / 4 ^ k % 4

def setSlice (p k v : Nat) (s : State) : State :=
  let w := fld s F.ARRAY_STATUS_slice_state p
  setFld F.ARRAY_STATUS_slice_state p (putBits w (2 * k + 1) (2 * k) v) s

/-- The four slices of a bank given one state (R62). -/
def setBank (p b v : Nat) (s : State) : State := iter 4 s (fun r t => setSlice p (4 * b + r) v t)

/-! ## What the array meets (R75, R77, R418) -/

/-- n reed-slots lost to one cause: in the class k of R75 and under the event code of R418. -/
def loseSlots (p k code n : Nat) (s : State) : State := countSlots p k n (count p code n s)

/-- An uncorrectable accumulator error marks its row (R77): of its slice, and in block-product mode of the cell partials
(B0, B1) or of the block slot (B2, B3) that hold it (R72). -/
def accumulatorBad (s : State) (p bank row col : Nat) (a : ArrayS) : ArrayS :=
  let r := col / 16
  if arrayMode s p ≠ mBlock then { a with rowBad := SMap.set false a.rowBad ((bank * 4 + r) * 512 + row) true }
  else if bank < 2 then { a with partialBad := SMap.set false a.partialBad ((r * 2 + bank) * 32 + row % 16) true }
  else { a with slotBad := SMap.set false a.slotBad ((r * 64 + (bank - 2) * 32 + row / 16) * 32 + row % 16) true }

/-- Where an uncorrectable error lands. An error of the turn store is its task's alone. -/
def markErr (s : State) (p : Nat) (e : ArrayErr) (a : ArrayS) : ArrayS :=
  match e with
  | .accumulator bank row col => accumulatorBad s p bank row col a
  | .staging tile k n =>
    { a with tiles := SMap.update {} a.tiles tile (fun t =>
        { t with bad := (List.range n).foldl (fun m i => SMap.set false m (k + i) true) t.bad }) }
  | .held reed token => { a with heldBad := SMap.set false a.heldBad (reed * 512 + token) true }
  | _ => a

/-- A storage error of the array: corrected and counted, or counted and marked (R77). -/
def arrayErr (p : Nat) (e : ArrayErr) (s : State) : State :=
  match e with
  | .corrected => satAddFld F.ARRAY_ECC_corrected p 1 (raise F.ARRAY_EVENTS_ecc_corrected p s)
  | e => modArray p (markErr s p e) (satAddFld F.ARRAY_ECC_uncorrected p 1 (raise F.ARRAY_EVENTS_ecc_uncorrected p s))

/-- A storage error of a queue or of the ring, counted (R147). -/
def entryErr (p : Nat) (e : EntryErr) (s : State) : State :=
  if e = .corrected then satAddFld F.FORAGER_ECC_corrected p 1 (raise F.FORAGER_EVENTS_ecc_corrected p s)
  else satAddFld F.FORAGER_ECC_uncorrected p 1 (raise F.FORAGER_EVENTS_ecc_uncorrected p s)

/-- An uncorrectable error leaves the entry poisoned (R147). In a queue, an error of the header is taken like one of the
block (DESIGN CHOICE, log 107). -/
def entryBad (met : ArrayMet) : Bool := met.entry.any (fun e => e ≠ .corrected)

/-- What the array met while an operation ran. -/
def arrayMeets (p : Nat) (met : ArrayMet) (s : State) : State :=
  let s := met.entry.foldl (fun t e => entryErr p e t) (met.errs.foldl (fun t e => arrayErr p e t) s)
  let s := loseSlots p 2 0x03 met.queue s
  let s := loseSlots p 2 0x04 met.comb s
  let s := loseSlots p 2 0x05 met.load s
  let s := loseSlots p 3 0x06 met.drain s
  loseSlots p 3 0x07 met.spill s

/-- The SPARSE_RANGE condition of a pair (R146), n times: event, count and escalation. -/
def sparseRanges (p n : Nat) (s : State) : State :=
  if n = 0 then s
  else
    let s := satAddFld F.FORAGER_SPARSE_range_count p n (raise F.FORAGER_EVENTS_sparse_range p s)
    if fldB s F.FORAGER_CTRL_range_fault p then escalate (hiveOf p) 0x03 p s else s

/-- The SPARSE_RANGE condition once. -/
def sparseRange (p : Nat) (s : State) : State := sparseRanges p 1 s

/-! ## Fields of the words -/

/-- The mode an array instruction runs in; none for STAGE. -/
def opMode (w : Nat) : Option Nat :=
  if wCls w = 7 then some mFull
  else match wOp w with
    | 0 => some mFull
    | 1 => some mSplit
    | 2 => some mBlock
    | _ => none

/-- The slices (bank × 4 + slice) that an array instruction accumulates in. -/
def opSlices (w : Nat) : List Nat :=
  if wCls w = 7 then (List.range 4).map (fun r => 4 * wbits w 25 24 + r)
  else match wOp w with
    | 0 => (List.range 4).map (fun r => 4 * wbits w 33 32 + r)
    | 1 => if bitAt w 10 then (List.range 4).map (fun r => 4 * wbits w 33 32 + r) else []
    | _ => []

/-- The slices a drain names. -/
def DrainOp.slices (d : DrainOp) : List Nat :=
  if d.blk then [] else (setBitsOf 4 d.smask).map (fun r => 4 * d.bank + r)

/-- The mode the array will be in when the next instruction of the score reaches it. -/
def issueMode (s : State) (p : Nat) : Nat :=
  match ((pair s p).array.queue.filterMap (fun o => opMode o.word)).getLast? with
  | some m => m
  | none => arrayMode s p

/-- An array instruction ahead of issue place q still has to accumulate in one of the slices. -/
def arrayAhead (a : ArrayS) (q : Nat) (sl : List Nat) : Bool :=
  a.queue.any (fun o => o.seq < q && (opSlices o.word).any (fun k => sl.contains k))

/-- A drain ahead of issue place q names one of the slices. -/
def drainAhead (a : ArrayS) (q : Nat) (sl : List Nat) : Bool :=
  a.drains.any (fun d => d.seq < q && d.slices.any (fun k => sl.contains k))

/-- The slices that drains wait for are CLOSED, those of the drain in progress DRAINING (R62, R64). -/
def markDrains (p : Nat) (s : State) : State :=
  let a := (pair s p).array
  (List.range a.drains.length).foldl (fun t i =>
    match a.drains[i]? with
    | none => t
    | some d =>
      if arrayAhead a d.seq d.slices then t
      else d.slices.foldl (fun u k => setSlice p k (if i = 0 then slDraining else slClosed) u) t) s

/-- Room for an array instruction (R179). -/
def arrayRoom (s : State) (p : Nat) : Bool := (pair s p).array.queue.length < 8

/-- Room for a drain: one in progress and four waiting (R63). -/
def drainRoom (s : State) (p : Nat) : Bool := (pair s p).array.drains.length < 5

/-- An array instruction accepted. -/
def pushArray (p w : Nat) (vals : List Nat) (rnd : Nat) (s : State) : Issue :=
  if !arrayRoom s p then .stall
  else
    let o : UnitOp :=
      { word := w, index := seqPc s p, vals := vals, rnd := rnd, seq := (pair s p).seq, breath := (pair s p).sliceBreath }
    .done (modArray p (fun a => { a with queue := a.queue ++ [o] }) s) none

/-! ## Issue of ACC (R187) -/

/-- Offsets base + unit × k × stride for k below n all lie in the comb, with `size` bytes at each. -/
def strideInComb (base unit n size : Nat) (stride : Int) : Bool :=
  let last : Int := (base : Int) + (unit : Int) * ((n - 1 : Nat) : Int) * stride
  0 ≤ last && last + size ≤ combBytes && base + size ≤ combBytes

/-- Bytes of side vectors from a base: one per 32 elements of reduction for MX, one in all for INT8. -/
def sideCount (fmt n : Nat) : Nat := if isMx fmt then (n * slotElems fmt + 31) / 32 else 1

def accBits : List (Nat × Nat) := [(14, 0), (22, 16), (107, 24)]

def issueAcc (p w : Nat) (s : State) : Issue :=
  let fc := wbits w 27 24
  let fr := wbits w 31 28
  let csrc := bitAt w 10
  let rsrc := bitAt w 11
  let side := bitAt w 14
  let n := wbits w 53 34 + 1
  let xc := scalar s p (wbits w 73 69)
  let xr := scalar s p (wbits w 78 74)
  let cs := stride12 (wbits w 90 79)
  let rs := stride12 (wbits w 102 91)
  let xs := scalar s p (wbits w 107 103)
  let so := bitsOf xs 22 0
  let ro := bitsOf xs 54 32
  let six (f : Nat) : Bool := f = 10 || f = 11
  checks (!onlyBits w accBits || !semOk w || !fmtCode fc || !fmtCode fr)
    (!pairAccepted fc fr || (isMx fc && !side) || (!isMx fc && fc ≠ 5 && side) || (six fc && !csrc) || (six fr && !rsrc))
    ((!csrc && xc % 1024 ≠ 0) || (!rsrc && xr % 128 ≠ 0) || (side && (so % 64 ≠ 0 || ro % 64 ≠ 0)))
    ((!csrc && (!combReg xc || !strideInComb xc 1024 n 1024 cs)) || (!rsrc && (!combReg xr || !strideInComb xr 128 n 128 rs))
      || (side && (!inComb so (512 * sideCount fc n) || !inComb ro (64 * sideCount fr n)
            || bitsOf xs 31 23 ≠ 0 || bitsOf xs 63 55 ≠ 0)))
    (pushArray p w [xc, xr, xs] 0 s)

def acc (p : Nat) (s : State) : State := issueWith p (isOp 1 0) (issueAcc p) s

/-! ## Issue of SPLIT (R188) -/

/-- A panel register: base aligned, extent 1–8,192, and the panel within the comb. -/
def panelOperand (v : Nat) : Bool := bitsOf v 45 32 = 0 || bitsOf v 45 32 > 8192
def panelMisaligned (v : Nat) : Bool := bitsOf v 22 0 % 1024 ≠ 0
def panelRange (v : Nat) : Bool :=
  !inComb (bitsOf v 22 0) (1024 * bitsOf v 45 32) || bitsOf v 31 23 ≠ 0 || bitsOf v 63 46 ≠ 0

/-- Formats of a drain's output (R180). -/
def drainFmt (c : Nat) : Bool := c ≤ 2

def issueSplit (p w : Nat) (s : State) : Issue :=
  let staged := bitAt w 10
  let per := bitAt w 13
  let side := bitAt w 14
  let fc := wbits w 27 24
  let fr := wbits w 31 28
  let xp := wbits w 58 54
  let panels := (List.range (if per then 4 else 1)).map (fun r => scalar s p ((xp + r) % 32))
  let xr := scalar s p (wbits w 63 59)
  let xs := scalar s p (wbits w 80 76)
  let xo := scalar s p (wbits w 85 81)
  let fo := wbits w 89 86
  let rnd := wbits w 92 90
  let sat := wbits w 94 93
  let queueOnly := wbits w 85 81 ≠ 0 || fo ≠ 0 || rnd ≠ 0 || sat ≠ 0 || bitAt w 95 || wbits w 107 96 ≠ 0
  let stagedOnly := bitAt w 11 || bitAt w 12 || wbits w 33 32 ≠ 0 || wbits w 53 34 ≠ 0 || wbits w 63 59 ≠ 0
    || wbits w 75 64 ≠ 0
  checks (!onlyBits w [(14, 0), (22, 16), (107, 24)] || !semOk w || !fmtCode fc || !fmtCode fr || (per && xp > 28)
      || (staged && queueOnly) || (!staged && (stagedOnly || wbits w 107 96 = 0 || !fmtCode fo || rnd = 7 || sat = 3)))
    (!pairAccepted fc fr || isMx fc || isMx fr || (side && fc ≠ 5) || (!staged && !drainFmt fo) || panels.any panelOperand)
    (panels.any panelMisaligned || (side && bitsOf xs 22 0 % 64 ≠ 0) || (!staged && bitsOf xo 22 0 % 64 ≠ 0))
    (panels.any panelRange || (side && (!combReg xs || !inComb xs 512)) || (!staged && !combReg xo))
    (pushArray p w ([xr, xs, xo] ++ panels) (resolveRnd s rnd) s)

def split (p : Nat) (s : State) : State := issueWith p (isOp 1 1) (issueSplit p) s

/-! ## Issue of BPROD (R189) -/

/-- The token count T of a BPROD. -/
def bprodTokens (w : Nat) : Nat := 32 * slotElems (wbits w 27 24) * (wbits w 35 32 + 1)

def issueBprod (p w : Nat) (s : State) : Issue :=
  let fc := wbits w 27 24
  let fr := wbits w 31 28
  let panel := scalar s p (wbits w 46 42)
  let xh := scalar s p (wbits w 51 47)
  let xq := scalar s p (wbits w 56 52)
  checks (!onlyBits w [(9, 0), (22, 16), (56, 24)] || !semOk w || !fmtCode fc || !fmtCode fr)
    (!pairAccepted fc fr || isMx fc || isMx fr || bprodTokens w > 512 || panelOperand panel)
    (panelMisaligned panel)
    (panelRange panel || (addrForm s xh).isNone)
    (pushArray p w [panel, xh, xq] 0 s)

def bprod (p : Nat) (s : State) : State := issueWith p (isOp 1 2) (issueBprod p) s

/-! ## Issue of STAGE (R191) -/

/-- Bytes of a row of q elements of a format code in memory. -/
def rowBytes (fmt q : Nat) : Nat := (fmtOf fmt).bytesFor q

/-- A row is a whole number of bytes, or of 3-byte groups (R191). -/
def rowWhole (fmt q : Nat) : Bool :=
  if fmt = 10 || fmt = 11 then q % 4 = 0 else q * (fmtOf fmt).bits % 8 = 0

/-- First and last-plus-one local address of a strided source of rows. -/
def rowsSpan (a rows bytes : Nat) (stride : Int) : Int × Int :=
  let e : Int := (a : Int) + ((rows - 1 : Nat) : Int) * stride
  (min (a : Int) e, max (a : Int) e + bytes)

/-- A span lies in one memory (R165). -/
def spanOk (x : Int × Int) : Bool := 0 ≤ x.1 && inOneMemory x.1.toNat (x.2 - x.1).toNat

def issueStage (p w : Nat) (s : State) : Issue :=
  let half := wbits w 12 11
  let fmt := wbits w 27 24
  let rows := wbits w 36 28 + 1
  let cols := wbits w 45 37 + 1
  let xa := scalar s p (wbits w 50 46)
  let xt := scalar s p (wbits w 55 51)
  let cap := if half = 0 then 524288 else 262144
  checks (!onlyBits w [(12, 0), (22, 16), (55, 24)] || !semOk w || !fmtCode fmt || half = 3)
    (fmt = 0 || fmt = 13 || rows * cols * slotBits fmt > cap || !rowWhole fmt cols)
    false
    (match addrForm s xa with
     | none => true
     | some (some _, _) => false
     | some (none, a) => !spanOk (rowsSpan a rows (rowBytes fmt cols) (toSigned 64 xt)))
    (pushArray p w [xa, xt] 0 s)

def stage (p : Nat) (s : State) : State := issueWith p (isOp 1 4) (issueStage p) s

/-! ## Issue of CHKMUL (R203) -/

def issueChkmul (p w : Nat) (s : State) : Issue :=
  let f := wbits w 49 46
  let xd := scalar s p (wbits w 54 50)
  checks (!onlyBits w [(9, 0), (22, 16), (54, 24)] || !semOk w || !fmtCode f)
    (!pairAccepted f f) false (!combReg xd || !inComb xd 32)
    (pushArray p w [xd] 0 s)

def chkmul (p : Nat) (s : State) : State := issueWith p (isOp 7 1) (issueChkmul p) s

/-! ## Issue of DRAIN (R190) -/

/-- Bytes of an element of a drain's output format. -/
def outBytes (fmt : Nat) : Nat := if fmt = 0 then 4 else 2

/-- The last comb offset plus one that a drain of the slices reaches. -/
def drainEnd (blk orient : Bool) (smask bytes base step : Nat) : Nat :=
  let cols := if blk then 16 else 16 * (4 - (if bitAt smask 3 then 0 else if bitAt smask 2 then 1 else if bitAt smask 1 then 2 else 3))
  let rows := if blk then 16 else 512
  if orient then base + (cols - 1) * step + rows * bytes else base + (rows - 1) * step + cols * bytes

def issueDrain (p w : Nat) (s : State) : Issue :=
  let orient := bitAt w 10
  let keep := bitAt w 11
  let blk := bitAt w 12
  let rnd := wbits w 15 13
  let fo := wbits w 27 24
  let smask := wbits w 33 30
  let xd := scalar s p (wbits w 46 42)
  let step := 64 * wbits w 58 47
  let sat := wbits w 60 59
  let b := outBytes fo
  checks (!onlyBits w [(22, 0), (60, 24)] || !semOk w || rnd = 7 || sat = 3 || !fmtCode fo || step = 0 || (blk && keep)
      || (!blk && smask = 0))
    (!drainFmt fo || (!blk && issueMode s p = mFull && smask ≠ 15) || (blk && issueMode s p ≠ mBlock))
    (xd % 64 ≠ 0)
    (!combReg xd || drainEnd blk orient smask b xd step > combBytes)
    (if !drainRoom s p then .stall
     else
       let d : DrainOp :=
         { seq := (pair s p).seq, blk := blk, keep := keep, fmt := fo, rnd := resolveRnd s rnd, sat := sat
           bank := wbits w 29 28, smask := smask, reed := wbits w 35 34, slot := wbits w 41 36, base := xd
           rowStep := if orient then b else step, colStep := if orient then step else b
           sem := wSem w, sig := wSig w, breath := (pair s p).sliceBreath }
       .done (markDrains p (modArray p (fun a => { a with drains := a.drains ++ [d] }) s)) none)

def drain (p : Nat) (s : State) : State := issueWith p (isOp 1 3) (issueDrain p) s

/-! ## Operand vectors -/

/-- The operand element and poison of one slot, read from comb bytes. -/
def combSlot (s : State) (p off i : Nat) : Nat := numAt s (combAddr p (off + 2 * i)) 2

/-- The tile an instruction reads from a staging buffer: the whole buffer's, or the one half that holds one; with two
halves filled the spec does not say which is read, and a free value chooses. -/
def tileOf (s : State) (p buf seq : Nat) : Tile :=
  let a := (pair s p).array
  let get (h : Nat) : Tile := SMap.get {} a.tiles (3 * buf + h)
  if (get 0).valid then get 0
  else if (get 1).valid && (get 2).valid then (if Config.stagedHalf seq % 2 = 0 then get 1 else get 2)
  else if (get 1).valid then get 1 else get 2

/-- Element at (index of the vector axis, position of the step axis) of a tile, in either orientation; 0 beyond it (R65). -/
def Tile.at (t : Tile) (xp : Bool) (vec pos : Int) : Nat × Bool :=
  let r := if xp then pos else vec
  let c := if xp then vec else pos
  if r < 0 || c < 0 || r ≥ t.rows || c ≥ t.cols then (0, false)
  else
    let k := r.toNat * t.cols + c.toNat
    (SMap.get 0 t.elems k, SMap.get false t.bad k)

/-- A source of operand elements: step, index of the vector, element of the slot; code and poison. -/
abbrev Operand := Nat → Nat → Nat → Nat × Bool

/-- A vector read straight from comb (R57, R187). -/
def combOperand (s : State) (p fmt base unit : Nat) (stride : Int) : Operand := fun k i e =>
  let off := ((base : Int) + (unit : Int) * (k : Int) * stride).toNat
  (slotElem fmt (combSlot s p off i) e, marked s (combAddr p (off + 2 * i) / 64))

/-- A vector read from a staging buffer (R65, R187). Each slot packs t consecutive elements of the tile as it was staged, t being
that of the format the instruction names; an element is read as that format reads the code that was staged, of whatever width it was
(DESIGN CHOICE, log 108). -/
def stageOperand (t : Tile) (fmt base : Nat) (xp : Bool) (stride : Int) : Operand := fun k i e =>
  let pos : Int := ((bitsOf base 15 0 : Nat) : Int) + (k : Int) * stride
  t.at xp ((bitsOf base 31 16 + i : Nat) : Int) (pos * (slotElems fmt : Int) + (e : Int))

/-- The value of an operand element at an array port, a zero point subtracted (R83, R111). -/
def portVal (fmt code : Nat) (zp : Int) : Val :=
  if zp = 0 then (fmtOf fmt).read true code
  else
    let i := toSigned 8 code - zp
    .fin (decide (i < 0)) i.natAbs 1

/-- One step of one cell (R54, R91): the exact sum of t products, scaled, added with one rounding. -/
def cellStep (fc fr t : Nat) (zc zr : Int) (scale : Val) (a b : Nat → Nat) (accum : Nat) : Nat :=
  let sum := (List.range t).foldl (fun v e => v.add ((portVal fc (a e) zc).mul (portVal fr (b e) zr)))
    (.fin true 0 1 : Val)
  rne32 ((v32 accum).add (sum.mul scale))

/-- Accumulator key. -/
def accKey (bank row col : Nat) : Nat := (bank * 512 + row) * 64 + col

/-- Side vectors of an instruction: the signed zero point, or the E8M0 byte, of a slot at a step. -/
structure Side where
  on : Bool
  mx : Bool
  base : Nat
  stepElems : Nat

/-- The byte of a side vector and its poison. -/
def Side.byte (s : State) (p : Nat) (x : Side) (stride k i : Nat) : Nat × Bool :=
  if x.on then
    let off := combAddr p (x.base + (if x.mx then stride * (k * x.stepElems / 32) else 0) + i)
    (byteAt s off, marked s (off / 64))
  else (0, false)

/-- What a run of steps changes in one bank. -/
structure AccRun where
  fc : Nat
  fr : Nat
  col : Operand
  row : Operand
  cside : Side
  rside : Side

/-- An accumulator and whether it has become NaN, or infinite, on the way (R77). -/
structure AccVal where
  acc : Nat
  nan : Bool := false
  inf : Bool := false
  deriving DecidableEq, Repr

/-- An FP32 code is an infinity. -/
def isInf32 (c : Nat) : Bool := c % 0x80000000 = 0x7F800000

/-- The accumulator takes a new value. -/
def AccVal.next (a : AccVal) (v : Nat) : AccVal where
  acc := v
  nan := a.nan || (Fmt.fp32.isNan v && !Fmt.fp32.isNan a.acc)
  inf := a.inf || (isInf32 v && !isInf32 a.acc)

/-- The events of accumulators that became NaN or infinite (R77). -/
def accEvents (p : Nat) (vs : List AccVal) (s : State) : State :=
  raiseIf (vs.any AccVal.inf) F.ARRAY_EVENTS_inf_result p (raiseIf (vs.any AccVal.nan) F.ARRAY_EVENTS_nan_result p s)

/-- The accumulator after steps 0 to n − 1 of cell (i, j); `jr` is the slot index in the row vector. -/
def AccRun.cell (x : AccRun) (s : State) (p n i jr start : Nat) : AccVal :=
  let t := slotElems x.fc
  (List.range n).foldl (fun a k =>
    let sc := (x.cside.byte s p 512 k i).1
    let sr := (x.rside.byte s p 64 k jr).1
    let scale : Val := if x.cside.mx then (e8m0 sc).mul (e8m0 sr) else .fin false 1 1
    let zc : Int := if x.cside.on && !x.cside.mx then toSigned 8 sc else 0
    let zr : Int := if x.rside.on && !x.rside.mx then toSigned 8 sr else 0
    a.next (cellStep x.fc x.fr t zc zr scale (fun e => (x.col k i e).1) (fun e => (x.row k jr e).1) a.acc)) { acc := start }

/-- Row i is poisoned by the column side at some step. -/
def AccRun.rowPoison (x : AccRun) (s : State) (p n i : Nat) : Bool :=
  (List.range n).any (fun k => (List.range (slotElems x.fc)).any (fun e => (x.col k i e).2) || (x.cside.byte s p 512 k i).2)

def AccRun.colPoison (x : AccRun) (s : State) (p n j : Nat) : Bool :=
  (List.range n).any (fun k => (List.range (slotElems x.fr)).any (fun e => (x.row k j e).2) || (x.rside.byte s p 64 k j).2)

/-- Keys 0 to n − 1 whose test holds are set in a map of marks. -/
def markKeys (m : SMap Bool) (n : Nat) (key : Nat → Nat) (test : Nat → Bool) : SMap Bool :=
  (List.range n).foldl (fun a i => if test i then SMap.set false a (key i) true else a) m

/-- Steps of a run over rows 0 to m − 1 and columns c0 to c0 + w − 1 of a bank; row slots start at `jr0`. -/
def runSteps (p : Nat) (x : AccRun) (bank n m c0 w : Nat) (s : State) : State :=
  let a := (pair s p).array
  let cells := (List.range m).flatMap (fun i => (List.range w).map (fun j =>
    (accKey bank i (c0 + j), x.cell s p n i j (SMap.get 0 a.acc (accKey bank i (c0 + j))))))
  let acc' := cells.foldl (fun mp c => SMap.set 0 mp c.1 c.2.acc) a.acc
  let rowP := fun i => x.rowPoison s p n i
  let colP := fun j => x.colPoison s p n j
  let slicesHit := (List.range 4).filter (fun r => c0 < 16 * (r + 1) && 16 * r < c0 + w)
  let rowBad := slicesHit.foldl (fun mp r => markKeys mp m (fun i => (bank * 4 + r) * 512 + i) rowP) a.rowBad
  let colBad := markKeys a.colBad w (fun j => (bank * 4 + (c0 + j) / 16) * 16 + (c0 + j) % 16) colP
  let bad := (List.range m).any rowP || (List.range w).any colP
  let s := modArray p (fun a => { a with acc := acc', rowBad := rowBad, colBad := colBad }) s
  let s := raiseIf bad F.ARRAY_EVENTS_poison_in p (accEvents p (cells.map (fun c => c.2)) s)
  if bad && fldB s F.ARRAY_CTRL_poison_fault p then escalate (hiveOf p) 0x05 p s else s

/-! ## Completion -/

/-- The head of the array queue, if it is the operation the command names and nothing ahead of it stands in its way:
the mode is its own, no slice it names waits for an earlier drain (R64, R192). -/
def headReady (s : State) (p cls op : Nat) : Option UnitOp :=
  match (pair s p).array.queue with
  | [] => none
  | o :: _ =>
    let a := (pair s p).array
    let modeOk := match opMode o.word with
      | none => true
      | some m => arrayMode s p = m
    if wCls o.word = cls && wOp o.word = op && modeOk && !drainAhead a o.seq (opSlices o.word) then some o else none

/-- The head of the array queue is done: removed, its semaphore incremented (R60). -/
def finishArray (p : Nat) (o : UnitOp) (s : State) : State :=
  let s := modArray p (fun a => { a with queue := a.queue.drop 1 }) s
  let s := if wSig o.word then semInc p (wSem o.word) s else s
  markDrains p s

/-- The run an ACC makes. -/
def accRun (s : State) (p : Nat) (o : UnitOp) : AccRun :=
  let w := o.word
  let fc := wbits w 27 24
  let fr := wbits w 31 28
  let xs := nth 0 o.vals 2
  { fc := fc
    fr := fr
    col := if bitAt w 10 then stageOperand (tileOf s p 0 o.seq) fc (nth 0 o.vals 0) (bitAt w 12) (stride12 (wbits w 90 79))
      else combOperand s p fc (nth 0 o.vals 0) 1024 (stride12 (wbits w 90 79))
    row := if bitAt w 11 then stageOperand (tileOf s p 1 o.seq) fr (nth 0 o.vals 1) (bitAt w 13) (stride12 (wbits w 102 91))
      else combOperand s p fr (nth 0 o.vals 1) 128 (stride12 (wbits w 102 91))
    cside := { on := bitAt w 14, mx := isMx fc, base := bitsOf xs 22 0, stepElems := slotElems fc }
    rside := { on := bitAt w 14, mx := isMx fr, base := bitsOf xs 54 32, stepElems := slotElems fr } }

/-- The slots of n full-mode steps on the first w columns: the reed-slot of 16 columns that are all masked is wasted, every
other one retired (R60, R75, R417; DEDUCED, log 30). -/
def stepSlots (p n w : Nat) (s : State) : State :=
  let used := (w + 15) / 16
  countSlots p 0 (used * n) (countSlots p 1 ((4 - used) * n) s)

/-- The last step of an ACC lands (R60): its bank updated, its slices OPEN, its slots counted. -/
def accDone (p : Nat) (met : ArrayMet) (s : State) : State :=
  match headReady s p 1 0 with
  | none => s
  | some o =>
    let w := o.word
    let n := wbits w 53 34 + 1
    let s := arrayMeets p met s
    let s := runSteps p (accRun s p o) (wbits w 33 32) n (wbits w 62 54 + 1) 0 (wbits w 68 63 + 1) s
    let s := setBank p (wbits w 33 32) slOpen s
    let s := count p 0x20 ((if bitAt w 10 then 0 else 1024 * n) + (if bitAt w 11 then 0 else 128 * n)) s
    finishArray p o (stepSlots p n (wbits w 68 63 + 1) s)

/-- The panel of reed r of a SPLIT: base and extent. -/
def splitPanel (o : UnitOp) (r : Nat) : Nat × Nat :=
  let v := nth 0 o.vals (3 + (if bitAt o.word 13 then r else 0))
  (bitsOf v 22 0, bitsOf v 45 32)

/-- The stagger of a SPLIT: reed r begins r cycles after reed 0, each cycle a starved-front slot (R59, R417). -/
def stagger (p : Nat) (s : State) : State := if fldB s F.ARRAY_CTRL_stagger_en p then loseSlots p 2 0x05 6 s else s

/-- A staging-mode SPLIT completes (R188): each reed has stepped through its panel; steps beyond a panel are absent (R70). -/
def splitStagedDone (p : Nat) (o : UnitOp) (s : State) : State :=
  let w := o.word
  let fc := wbits w 27 24
  let fr := wbits w 31 28
  let bank := wbits w 33 32
  let n := wbits w 53 34 + 1
  let row := stageOperand (tileOf s p (wbits w 11 11) o.seq) fr (nth 0 o.vals 0) (bitAt w 12) (stride12 (wbits w 75 64))
  let s := iter 4 s (fun r t =>
    let pan := splitPanel o r
    let x : AccRun :=
      { fc := fc, fr := fr, col := combOperand t p fc pan.1 1024 1, row := row
        cside := { on := bitAt w 14, mx := false, base := bitsOf (nth 0 o.vals 1) 22 0, stepElems := slotElems fc }
        rside := { on := false, mx := false, base := 0, stepElems := 1 } }
    let k := min n pan.2
    let t := runSteps p x bank k 512 (16 * r) 16 t
    let t := setSlice p (4 * bank + r) slOpen t
    let t := countSlots p 0 k (countSlots p 1 (n - k) (count p 0x20 (1024 * k) t))
    sparseRanges p (n - k) (raiseIf (n > pan.2) F.ARRAY_EVENTS_sparse_range p t))
  finishArray p o s

/-- No drain of the head is left: every reed has consumed its END and its drains have written (R188). -/
def reedsDone (a : ArrayS) (o : UnitOp) : Bool := a.ended = 15 && !a.drains.any (fun d => d.owner = o.seq)

/-- A walk's state of the reeds cleared for the next instruction that consumes one. What the held stores hold is of this
walk's run of tasks: the next BPROD loads anew (R73). -/
def clearWalk (a : ArrayS) : ArrayS :=
  { a with ended := 0, walkBad := 0, tasks := [], bind := [], lru := [], spills := [], held := [] }

def splitDone (p : Nat) (met : ArrayMet) (s : State) : State :=
  match headReady s p 1 1 with
  | none => s
  | some o =>
    if bitAt o.word 10 then splitStagedDone p o (stagger p (arrayMeets p met s))
    else if reedsDone (pair s p).array o then finishArray p o (modArray p clearWalk (stagger p (arrayMeets p met s)))
    else s

/-- A BPROD completes: every reed has consumed END and its last fold has landed (R189). -/
def bprodDone (p : Nat) (met : ArrayMet) (s : State) : State :=
  match headReady s p 1 2 with
  | none => s
  | some o =>
    let a := (pair s p).array
    if a.ended = 15 && a.folds.isEmpty then finishArray p o (modArray p clearWalk (arrayMeets p met s)) else s

/-- The elements a STAGE reads, row by row; MXFP6 unpacked (R55, R65). For a remote source the bytes are those its
holder returned. -/
def stageTile (s : State) (o : UnitOp) (remote : List Nat) (remoteBad : Bool) : Tile × Nat × Nat :=
  let w := o.word
  let fmt := wbits w 27 24
  let rows := wbits w 36 28 + 1
  let cols := wbits w 45 37 + 1
  let rb := rowBytes fmt cols
  let stride := toSigned 64 (nth 0 o.vals 1)
  match addrForm s (nth 0 o.vals 0) with
  | some (none, a) =>
    let rowAt (i : Nat) : Nat := ((a : Int) + (i : Int) * stride).toNat
    let es := (List.range rows).flatMap (fun i =>
      let bs := readBytes s (rowAt i) rb
      (List.range cols).map (fun j => (fmtOf fmt).unpack bs j))
    let bad := (List.range rows).flatMap (fun i =>
      (List.range cols).map (fun j => poisoned s (rowAt i + j * (fmtOf fmt).bits / 8) 1))
    ({ valid := true, fmt := fmt, rows := rows, cols := cols
       elems := (List.range es.length).foldl (fun m k => SMap.set 0 m k (nth 0 es k)) []
       bad := (List.range bad.length).foldl (fun m k => SMap.set false m k (nth false bad k)) [] }, a, rows * rb)
  | _ =>
    let es := (List.range rows).flatMap (fun i => (List.range cols).map (fun j =>
      (fmtOf fmt).unpack ((remote.drop (i * rb)).take rb) j))
    ({ valid := true, fmt := fmt, rows := rows, cols := cols
       elems := (List.range es.length).foldl (fun m k => SMap.set 0 m k (nth 0 es k)) []
       bad := if remoteBad then (List.range es.length).foldl (fun m k => SMap.set false m k true) [] else [] }, 0, rows * rb)

/-- A staging fill completes (R191): the whole buffer's tile replaces both halves; a half's replaces the whole. -/
def stageDone (p : Nat) (remote : List Nat) (remoteBad : Bool) (s : State) : State :=
  match headReady s p 1 4 with
  | none => s
  | some o =>
    let buf := wbits o.word 10 10
    let half := wbits o.word 12 11
    let (t, a, n) := stageTile s o remote remoteBad
    let s := noteOfflineRange a n 0 true s
    let s := modArray p (fun x =>
      { x with
        tiles := if half = 0 then SMap.set {} (SMap.set {} (SMap.set {} x.tiles (3 * buf) t) (3 * buf + 1) {}) (3 * buf + 2) {}
          else SMap.set {} (SMap.set {} x.tiles (3 * buf) {}) (3 * buf + half) t }) s
    finishArray p o (countRead (some p) a n s)

/-! ## Check products (R203, R386, R387) -/

/-- The words of the check generator: a state derived as R95 derives one, stepping as R96. -/
def checkWords (seed u : Nat) : Nat → List Nat
  | 0 => []
  | n + 1 => (List.range (n + 1)).foldl (fun (acc : Nat × List Nat) _ =>
      let v := laneStep acc.1
      (v, acc.2 ++ [v])) (laneSeed seed 0 0 u, []) |>.2

/-- Any element whose encoding is NaN or infinite is replaced by +0 (R386). -/
def checkElem (f : Fmt) (c : Nat) : Nat := if f.isNan c || (f.hasInf && c % f.signBit = f.infCode) then 0 else c

/-- The signature of a check product (R386, R387) is a function of its operands' source, the steps and the format: a
digest of the 32,768 accumulators, given by the array's own step. -/
def checkCells (seed u fmt steps : Nat) : Nat → Nat → Nat := fun i j =>
  let ws := checkWords seed u (144 * steps)
  let slotOf (k idx : Nat) : Nat := nth 0 ws (144 * k + idx / 4) / 2 ^ (16 * (idx % 4)) % 65536
  let el (slot e : Nat) : Nat := checkElem (fmtOf fmt) (slotElem fmt slot e)
  (List.range steps).foldl (fun a k =>
    cellStep fmt fmt (slotElems fmt) 0 0 (.fin false 1 1) (el (slotOf k i)) (el (slotOf k (512 + j))) a) 0

/-! ## Mode change (R192, R73, R77) -/

/-- Every accumulator +0, every mark clear, every slice FREE. -/
def clearBanks (p : Nat) (s : State) : State :=
  setFld F.ARRAY_STATUS_slice_state p 0
    (modArray p (fun a => { a with acc := [], rowBad := [], colBad := [], slotBad := [], slotFull := [], partials := [], partialBad := [] }) s)

/-- The array changes to the mode the head of its queue needs, once every step, fold and drain in flight has landed. -/
def modeChange (p : Nat) (met : ArrayMet) (s : State) : State :=
  let a := (pair s p).array
  match a.queue with
  | [] => s
  | o :: _ =>
    match opMode o.word with
    | none => s
    | some m =>
      let cur := arrayMode s p
      if m = cur then s
      else if a.drains.any (fun d => d.seq < o.seq) || !a.folds.isEmpty then s
      else
        let s := if m = mBlock then
            modArray p (fun a => { a with tiles := [], held := [], heldElems := [], heldBad := [] }) (clearBanks p s)
          else if cur = mBlock then
            modArray p (fun a => { a with held := [], heldElems := [], heldBad := [] }) (clearBanks p s)
          else s
        setFld F.ARRAY_STATUS_mode p m (arrayMeets p met s)

/-! ## Drains (R63, R64, R77, R190) -/

/-- The narrowed code of one accumulator of a drain (R89, R90), its draw taken. -/
def drainElem (d : DrainOp) (v lane p : Nat) (x : PairS) : Cvt × PairS :=
  let (m, x) := drawRound d.rnd x p d.breath lane
  let f := fmtOf d.fmt
  (narrow f m (resolveSat f d.sat) (v32 v), x)

/-- The generator lane of accumulator (i, j) of a slice (R96). -/
def drainLane (i j : Nat) : Nat := 256 + 16 * (i % 16) + j

/-- The pieces a drain writes, its flags and the pair with its lanes moved on. -/
def drainPieces (p : Nat) (d : DrainOp) (cells : List (Nat × Nat × Nat × Bool)) (x : PairS) (colOff : Nat → Nat) :
    List (Nat × List Nat × Bool) × NumFlags × PairS :=
  cells.foldl (fun acc c =>
    let (i, j, v, bad) := c
    let (cv, x) := drainElem d v (drainLane i (j % 16)) p acc.2.2
    let addr := combAddr p (d.base + i * d.rowStep + colOff j * d.colStep)
    (acc.1 ++ [(addr, natLe (outBytes d.fmt) cv.code, bad)],
     (acc.2.1.join cv.flags).join { nanIn := Fmt.fp32.isNan v }, x)) ([], {}, x)

/-- The accumulators of one slice in drawing order: row, column, value, poison. -/
def sliceCells (a : ArrayS) (bank r : Nat) : List (Nat × Nat × Nat × Bool) :=
  (List.range 512).flatMap (fun i => (List.range 16).map (fun j =>
    (i, 16 * r + j, SMap.get 0 a.acc (accKey bank i (16 * r + j)),
      SMap.get false a.rowBad ((bank * 4 + r) * 512 + i) || SMap.get false a.colBad ((bank * 4 + r) * 16 + j))))

/-- The accumulators of a block slot. -/
def slotCells (a : ArrayS) (reed slot : Nat) : List (Nat × Nat × Nat × Bool) :=
  (List.range 16).flatMap (fun i => (List.range 16).map (fun j =>
    (i, j, SMap.get 0 a.acc (accKey (2 + slot / 32) (16 * (slot % 32) + i) (16 * reed + j)),
      SMap.get false a.slotBad ((reed * 64 + slot) * 32 + i) || SMap.get false a.slotBad ((reed * 64 + slot) * 32 + 16 + j))))

/-- A slice cleared to +0 with its marks, and FREE. -/
def clearSlice (p bank r : Nat) (s : State) : State :=
  setSlice p (4 * bank + r) slFree
    (modArray p (fun a =>
      { a with
        acc := SMap.dropKeys a.acc (fun k => k / 64 / 512 = bank && k % 64 / 16 = r)
        rowBad := SMap.dropKeys a.rowBad (fun k => k / 512 = bank * 4 + r)
        colBad := SMap.dropKeys a.colBad (fun k => k / 16 = bank * 4 + r) }) s)

/-- Everything a drain writes is written, and its flags recorded. Every output format is a target of the drain port's
conversion, FP32 among them: each element steps its lane under an SR mode, and its flags are recorded (R84, R88, R89;
DEDUCED, log 109). -/
def drainWrite (p : Nat) (d : DrainOp) (cells : List (Nat × Nat × Nat × Bool)) (colOff : Nat → Nat) (s : State) : State :=
  let (pieces, flags, x) := drainPieces p d cells (pair s p) colOff
  let s := modPair p (fun _ => x) s
  let s := scatter pieces s
  let s := raiseIf (pieces.any (fun q => q.2.2)) F.ARRAY_EVENTS_drain_poison p s
  count p 0x21 (pieces.length * outBytes d.fmt) (applyNum p flags s)

/-- One slice of a drain: written, then cleared and FREE, or kept and OPEN (R63). -/
def drainSlice (p : Nat) (d : DrainOp) (r : Nat) (s : State) : State :=
  let off (j : Nat) : Nat := if d.owner = 0 then j else j % 16
  let s := drainWrite p d (sliceCells (pair s p).array d.bank r) off s
  if d.keep then setSlice p (4 * d.bank + r) slOpen s else clearSlice p d.bank r s

/-- A block slot drained: written, then free for another task. -/
def drainSlot (p : Nat) (d : DrainOp) (s : State) : State :=
  let s := drainWrite p d (slotCells (pair s p).array d.reed d.slot) id s
  modArray p (fun a =>
    { a with
      slotFull := SMap.set false a.slotFull (d.reed * 64 + d.slot) false
      slotBad := SMap.dropKeys a.slotBad (fun k => k / 32 = d.reed * 64 + d.slot)
      acc := SMap.dropKeys a.acc (fun k => k / 64 / 512 = 2 + d.slot / 32 && k / 64 % 512 / 16 = d.slot % 32 && k % 64 / 16 = d.reed) }) s

/-- The drain in progress ends: its last word is written and its semaphore incremented. It waits for the array steps
issued before it on its slices (R64). -/
def drainDone (p : Nat) (met : ArrayMet) (s : State) : State :=
  let a := (pair s p).array
  match a.drains with
  | [] => s
  | d :: _ =>
    if d.owner = 0 && (arrayAhead a d.seq d.slices || (d.blk && !SMap.get false a.slotFull (d.reed * 64 + d.slot)
          && a.queue.any (fun o => o.seq < d.seq && wCls o.word = 1 && wOp o.word = 2))) then s
    else
      let s := arrayMeets p met s
      let s := if d.blk then drainSlot p d s else (setBitsOf 4 d.smask).foldl (fun t r => drainSlice p d r t) s
      let s := modArray p (fun a => { a with drains := a.drains.drop 1 }) s
      let s := count p 0x08 (if d.blk then 1 else (setBitsOf 4 d.smask).length) s
      let s := if d.sig then semInc p d.sem s else s
      markDrains p s

/-- The array as its hive's reset leaves it (R76). -/
def arrayReset (p : Nat) (s : State) : State :=
  [Reg.ARRAY_CTRL, .ARRAY_SPILL, .ARRAY_STATUS, .ARRAY_EVENTS, .ARRAY_ECC, .ARRAY_SPILLS].foldl
    (fun t r => resetReg r p t) (modArray p (fun _ => {}) s)

end Sys2Proof.Machine
end

