-- ==== Sys2Proof/Machine/Reeds.lean ====
section
/-! DEFINITION. The reeds (R67–R73, R77, R129, R130, R188, R189): what each queue entry does at its reed in a queue-mode
SPLIT or a BPROD, accumulator spills and reloads, block tasks and their folds. -/

namespace Sys2Proof.Machine

/-- The queue of a reed. -/
def reedQueue (x : PairS) (r : Nat) : List QEntry := SMap.get [] x.queues r

/-- The head of a reed's queue consumed. -/
def popQueue (p r : Nat) (s : State) : State :=
  modPair p (fun x => { x with queues := SMap.set [] x.queues r ((reedQueue x r).drop 1) }) s

/-- The queue-mode SPLIT at the head of the array, if reed r has not consumed its END. -/
def splitHead (s : State) (p r : Nat) : Option UnitOp :=
  match headReady s p 1 1 with
  | none => none
  | some o => if bitAt o.word 10 || bitAt (pair s p).array.ended r then none else some o

/-- The BPROD at the head of the array, if reed r has not consumed its END. -/
def bprodHead (s : State) (p r : Nat) : Option UnitOp :=
  match headReady s p 1 2 with
  | none => none
  | some o => if bitAt (pair s p).array.ended r then none else some o

/-! ## Spills and reloads (R68, R69) -/

/-- Comb offset of a spill slot. -/
def spillOffset (s : State) (p k : Nat) : Nat := (fld s F.ARRAY_SPILL_spill_base p + k) * 32768

/-- The free spill slot of lowest address. -/
def freeSpill (s : State) (p : Nat) : Option Nat :=
  (List.range (fld s F.ARRAY_CTRL_spill_slots p)).find? (fun k => SMap.get 0 (pair s p).array.spills k = 0)

/-- The spill slot that holds a block-column of a reed. -/
def spillOf (s : State) (p r nb : Nat) : Option Nat :=
  ((pair s p).array.spills.find? (fun e => e.2 = r * 2 ^ 20 + nb + 1)).map (fun e => e.1)

/-- The bank whose slice of reed r holds block-column nb of this walk. -/
def boundBank (s : State) (p r nb : Nat) : Option Nat :=
  (List.range 4).find? (fun b => SMap.get 0 (pair s p).array.bind (4 * b + r) = nb + 1)

/-- The lowest bank whose slice of reed r is FREE. -/
def freeBank (s : State) (p r : Nat) : Option Nat :=
  (List.range 4).find? (fun b => sliceState s p (4 * b + r) = slFree)

/-- Slice k becomes the most recently used. -/
def touch (k : Nat) (a : ArrayS) : ArrayS := { a with lru := a.lru.filter (· ≠ k) ++ [k] }

/-- A slice bound to a block-column and OPEN. -/
def bindSlice (p k nb : Nat) (s : State) : State :=
  setSlice p k slOpen (modArray p (fun a => touch k { a with bind := SMap.set 0 a.bind k (nb + 1) }) s)

/-- A slice no longer bound. -/
def unbind (p k : Nat) (s : State) : State :=
  modArray p (fun a => { a with bind := SMap.set 0 a.bind k 0, lru := a.lru.filter (· ≠ k) }) s

/-- The slice (bank, r) written to a spill slot and freed: 32 cycles that its reed stalls (R68). -/
def spillTo (p bank r k : Nat) (s : State) : State :=
  let a := (pair s p).array
  let off := spillOffset s p k
  let pieces := (List.range 512).map (fun i =>
    (combAddr p (off + 64 * i), (List.range 16).flatMap (fun j => natLe 4 (SMap.get 0 a.acc (accKey bank i (16 * r + j)))),
      SMap.get false a.rowBad ((bank * 4 + r) * 512 + i)
        || (List.range 16).any (fun j => SMap.get false a.colBad ((bank * 4 + r) * 16 + j))))
  let nb1 := SMap.get 0 a.bind (4 * bank + r)
  let s := clearSlice p bank r (unbind p (4 * bank + r) (scatter pieces s))
  let s := modArray p (fun a => { a with spills := SMap.insert a.spills k (r * 2 ^ 20 + nb1) }) s
  let s := satAddFld F.ARRAY_SPILLS_spills p 1 (raise F.ARRAY_EVENTS_spill p s)
  loseSlots p 3 0x07 32 (count p 0x21 32768 (addFld F.ARRAY_STATUS_spilled p 1 s))

/-- What taking a slice for a block-column gives. -/
inductive Take where
  /-- The bank that now holds it. -/
  | got (bank : Nat) (s : State)
  /-- No slice yet: the reed waits (R68). -/
  | wait
  /-- A spill found no slot: the reed stops (R69). -/
  | full

/-- A FREE slice for reed r, spilling the least recently used of the walk's if none is FREE. -/
def takeFree (p r : Nat) (s : State) : Take :=
  match freeBank s p r with
  | some b => .got b s
  | none =>
    match (pair s p).array.lru.find? (fun k => k % 4 = r) with
    | none => .wait
    | some k =>
      match freeSpill s p with
      | none => .full
      | some q => .got (k / 4) (spillTo p (k / 4) r q s)

/-- A spilled slice reloaded into bank b, its slot free again: 32 cycles that its reed stalls (R68). -/
def reload (p b r nb k : Nat) (s : State) : State :=
  let off := spillOffset s p k
  let rows := (List.range 512).map (fun i =>
    (bytesAt s (combAddr p (off + 64 * i)) 64, marked s (combAddr p (off + 64 * i) / 64)))
  let s := modArray p (fun a =>
    { a with
      spills := SMap.set 0 a.spills k 0
      acc := (List.range 512).foldl (fun m i => (List.range 16).foldl (fun m j =>
        SMap.set 0 m (accKey b i (16 * r + j)) (leNat (((nth ([], false) rows i).1.drop (4 * j)).take 4))) m) a.acc
      rowBad := markKeys a.rowBad 512 (fun i => (b * 4 + r) * 512 + i) (fun i => (nth ([], false) rows i).2) }) s
  let s := satAddFld F.ARRAY_SPILLS_reloads p 1 s
  let s := setFld F.ARRAY_STATUS_spilled p (fld s F.ARRAY_STATUS_spilled p - 1) s
  loseSlots p 3 0x07 32 (count p 0x20 32768 (bindSlice p (4 * b + r) nb s))

/-- The slice that holds block-column nb for reed r: the one already bound, its reloaded spill, or a fresh one (R68). -/
def takeColumn (p r nb : Nat) (s : State) : Take :=
  match boundBank s p r nb with
  | some b => .got b (modArray p (touch (4 * b + r)) s)
  | none =>
    match takeFree p r s with
    | .wait => .wait
    | .full => .full
    | .got b s =>
      match spillOf s p r nb with
      | some k => .got b (reload p b r nb k s)
      | none => .got b (bindSlice p (4 * b + r) nb s)

/-- A spill found no slot (R69). -/
def spillFull (p : Nat) (o : UnitOp) (s : State) : State :=
  pairFault p fSpillFull 1 o.index 0 (raise F.ARRAY_EVENTS_spill_full p s)

/-! ## Closing a block-column (R130, R188) -/

/-- The drain of a closed slice: its output layout comes from the SPLIT. -/
def closeDrain (o : UnitOp) (bank r nb : Nat) : DrainOp :=
  let w := o.word
  let b := outBytes (wbits w 89 86)
  let step := 64 * wbits w 107 96
  let xo := nth 0 o.vals 2
  { seq := o.seq
    owner := o.seq
    breath := o.breath
    fmt := wbits w 89 86
    rnd := o.rnd
    sat := wbits w 94 93
    bank := bank
    smask := 2 ^ r
    base := if bitAt w 95 then xo + 16 * nb * step else xo + nb * step
    rowStep := if bitAt w 95 then b else 16 * b
    colStep := if bitAt w 95 then step else b }

/-- The comb offset just past a closing drain's output. -/
def closeEnd (d : DrainOp) : Nat := d.base + 511 * d.rowStep + 15 * d.colStep + outBytes d.fmt

/-- Every row of a slice marked poisoned. -/
def poisonSlice (p bank r : Nat) (s : State) : State :=
  modArray p (fun a => { a with rowBad := markKeys a.rowBad 512 (fun i => (bank * 4 + r) * 512 + i) (fun _ => true) }) s

/-- The slice of reed r in a bank closes: its drain joins the drain queue, or its output would pass the end of the comb. -/
def closeSlice (p : Nat) (o : UnitOp) (r bank nb : Nat) (s : State) : State :=
  let d := closeDrain o bank r nb
  let s := setSlice p (4 * bank + r) slClosed (unbind p (4 * bank + r) s)
  let s := if bitAt (pair s p).array.walkBad r then poisonSlice p bank r s else s
  if closeEnd d > combBytes then pairFault p fExecRange 1 o.index 0 s
  else markDrains p (modArray p (fun a => { a with drains := a.drains ++ [d] }) s)

/-- Block-column nb closes as a CLOSE closes it: reloaded if spilled, taken from a FREE slice if neither OPEN nor spilled. -/
def closeColumn (p : Nat) (o : UnitOp) (r nb : Nat) (s : State) : Take :=
  match takeColumn p r nb s with
  | .got b s => .got b (closeSlice p o r b nb s)
  | t => t

/-! ## Entries of a queue-mode SPLIT -/

/-- The width code of a format's elements (R126). -/
def widthCode (fmt : Nat) : Nat := if slotElems fmt = 1 then 0 else if slotElems fmt = 2 then 1 else 2

/-- Element (a, b) of a block in queue layout (R118), 16 bits, 8 bits or 4 bits wide. -/
def blockElem (bits : Nat) (bs : List Nat) (a b : Nat) : Nat :=
  if bits = 16 then nth 0 bs (32 * a + 2 * b) + 256 * nth 0 bs (32 * a + 2 * b + 1)
  else if bits = 8 then nth 0 bs (32 * (a / 2) + 2 * b + a % 2)
  else nth 0 bs (32 * (a / 4) + 2 * b + a % 4 / 2) / 16 ^ (a % 2) % 16

/-- The reed's row vector: cycle c of the block, slot j, element e, in either orientation (R67, R118). -/
def blockOperand (fmt : Nat) (q : QEntry) : Operand := fun c j e =>
  let k := slotElems fmt * c + e
  (blockElem (slotBits fmt) q.block (if q.xpose then j else k) (if q.xpose then k else j), q.poison)

/-- The steps of a BLOCK entry in its slice. -/
def blockSteps (p : Nat) (o : UnitOp) (r bank : Nat) (q : QEntry) (s : State) : State :=
  let w := o.word
  let fc := wbits w 27 24
  let fr := wbits w 31 28
  let n := 16 / slotElems fr
  let x : AccRun :=
    { fc := fc
      fr := fr
      col := combOperand s p fc ((splitPanel o r).1 + 1024 * (q.kb * n)) 1024 1
      row := blockOperand fr q
      cside := { on := bitAt w 14, mx := false, base := bitsOf (nth 0 o.vals 1) 22 0, stepElems := slotElems fc }
      rside := { on := false, mx := false, base := 0, stepElems := 1 } }
  countSlots p 0 n (count p 0x20 (1024 * n) (runSteps p x bank n 512 (16 * r) 16 s))

/-- An entry consumed in one wasted cycle. -/
def wasted (p r : Nat) (s : State) : State := countSlots p 1 1 (popQueue p r s)

/-- A reed takes the BLOCK entry at the head of its queue (R67–R70, R130). It waits while no slice can be had, or while the
drain queue has no room for the close that the entry carries. -/
def reedBlock (p r : Nat) (met : ArrayMet) (s : State) : State :=
  match splitHead s p r, reedQueue (pair s p) r with
  | some o, q :: _ =>
    let fr := wbits o.word 31 28
    if q.kind ≠ 0 then s
    else if q.width ≠ widthCode fr then pairFault p fWidth 1 o.index 0 s
    else if q.last && !drainRoom s p then s
    else if (q.kb + 1) * (16 / slotElems fr) > (splitPanel o r).2 then
      let s' := wasted p r (sparseRange p (raise F.ARRAY_EVENTS_sparse_range p (arrayMeets p met s)))
      if q.last then
        match closeColumn p o r q.nb s' with
        | .got _ t => t
        | .wait => s
        | .full => spillFull p o s'
      else s'
    else
      match takeColumn p r q.nb s with
      | .wait => s
      | .full => spillFull p o s
      | .got b t =>
        let t := blockSteps p o r b { q with poison := q.poison || entryBad met } (popQueue p r (arrayMeets p met t))
        if q.last then closeSlice p o r b q.nb t else t
  | _, _ => s

/-- A reed takes a CLOSE entry (R130). In block-product mode no slice holds a block-column, and the entry is only consumed. -/
def reedClose (p r : Nat) (met : ArrayMet) (s : State) : State :=
  match reedQueue (pair s p) r with
  | [] => s
  | q :: _ =>
    if q.kind ≠ 1 then s
    else
      match splitHead s p r with
      | some o =>
        if !drainRoom s p then s
        else
          match closeColumn p o r q.nb s with
          | .got _ t => wasted p r (arrayMeets p met t)
          | .wait => s
          | .full => spillFull p o s
      | none => if (bprodHead s p r).isSome then wasted p r (arrayMeets p met s) else s

/-- The block-columns of the walk that a reed still holds OPEN or spilled, ascending. -/
def openColumns (s : State) (p r : Nat) : List Nat :=
  let a := (pair s p).array
  let bound := (List.range 4).filterMap (fun b =>
    let v := SMap.get 0 a.bind (4 * b + r)
    if v = 0 then none else some (v - 1))
  let spilled := a.spills.filterMap (fun e =>
    if e.2 ≠ spillDead && e.2 / 2 ^ 20 = r then some (e.2 % 2 ^ 20 - 1) else none)
  (bound ++ spilled).mergeSort (· ≤ ·)

/-- Every block-column of the walk closed in ascending order, as far as the drain queue has room: what is left, and the state. -/
def closeAll (p : Nat) (o : UnitOp) (r : Nat) : List Nat → State → Bool × State
  | [], s => (true, s)
  | nb :: nbs, s =>
    if !drainRoom s p || seqState s p = sqFaulted then (false, s)
    else
      match closeColumn p o r nb s with
      | .got _ t => closeAll p o r nbs t
      | .wait => (false, s)
      | .full => (false, spillFull p o s)

/-- A poisoned END: this walk's drains of the reed write poisoned words (R130). -/
def poisonWalk (p : Nat) (o : UnitOp) (r : Nat) (s : State) : State :=
  let ds := (pair s p).array.drains.filter (fun d => d.owner = o.seq && bitAt d.smask r)
  ds.foldl (fun t d => poisonSlice p d.bank r t)
    (modArray p (fun a => { a with walkBad := setBitN a.walkBad r }) s)

/-- A poisoned END of a BPROD: the block slots of the reed that hold a result of this walk, or will, drain poisoned words
(R193, R204). -/
def poisonTasks (p : Nat) (o : UnitOp) (r : Nat) (s : State) : State :=
  modArray p (fun a =>
    let slots := (List.range (SMap.get 0 a.tasks r)).map (fun i => (wbits o.word 41 36 + i) % 64)
    let full := slots.filter (fun k => SMap.get false a.slotFull (r * 64 + k))
    { a with
      walkBad := setBitN a.walkBad r
      slotBad := full.foldl (fun m k => markKeys m 16 (fun i => (r * 64 + k) * 32 + i) (fun _ => true)) a.slotBad }) s

/-- The reed has consumed its END. -/
def endReed (p r : Nat) (s : State) : State :=
  wasted p r (modArray p (fun a => { a with ended := setBitN a.ended r }) s)

/-- A reed takes an END entry (R130): it closes what is left, oldest block-column number first, as the drain queue takes
them, and consumes the entry once nothing is left. -/
def reedEnd (p r : Nat) (met : ArrayMet) (s : State) : State :=
  match reedQueue (pair s p) r with
  | [] => s
  | q :: _ =>
    if q.kind ≠ 2 then s
    else
      match splitHead s p r with
      | some o =>
        let s := arrayMeets p met s
        let s := if q.poison then poisonWalk p o r s else s
        let (all, t) := closeAll p o r (openColumns s p r) s
        if all && seqState t p ≠ sqFaulted then endReed p r t else t
      | none =>
        match bprodHead s p r with
        | some o =>
          let s := arrayMeets p met s
          endReed p r (if q.poison then poisonTasks p o r s else s)
        | none => s

/-! ## Block-product mode (R71–R73, R189) -/

/-- Element (token, index) of the panel operand of a BPROD, and its poison. -/
def panelElem (s : State) (p fmt base tok idx : Nat) : Nat × Bool :=
  let t := slotElems fmt
  let off := base + 1024 * (idx / t) + 2 * tok
  (slotElem fmt (numAt s (combAddr p off) 2) (idx % t), marked s (combAddr p off / 64))

/-- The held operand of a task: T × 16 elements, token-major, and the poisoned ones. Bytes of another part's memory are
those its holder returned. -/
def heldOperand (s : State) (o : UnitOp) (fmt x tokens : Nat) (remote : List Nat) (remoteBad : Bool) :
    List (Nat × Bool) :=
  let rb := (fmtOf fmt).bytesFor 16
  match addrForm s ((nth 0 o.vals 1 + x * nth 0 o.vals 2) % 2 ^ 64) with
  | some (none, a) =>
    (List.range tokens).flatMap (fun k =>
      let bs := readBytes s (a + k * rb) rb
      let bad := poisoned s (a + k * rb) rb
      (List.range 16).map (fun j => ((fmtOf fmt).unpack bs j, bad)))
  | _ =>
    (List.range tokens).flatMap (fun k => (List.range 16).map (fun j =>
      ((fmtOf fmt).unpack ((remote.drop (k * rb)).take rb) j, remoteBad)))

/-- The side of a task that the held store holds is loaded if its index differs from the one held (R189). -/
def loadHeld (p : Nat) (o : UnitOp) (r x : Nat) (remote : List Nat) (remoteBad : Bool) (s : State) : State :=
  if SMap.get 0 (pair s p).array.held r = x + 1 then s
  else
    let w := o.word
    let fmt := if fldB s F.ARRAY_CTRL_bp_hold p then wbits w 27 24 else wbits w 31 28
    let es := heldOperand s o fmt x (bprodTokens w) remote remoteBad
    let s := match addrForm s ((nth 0 o.vals 1 + x * nth 0 o.vals 2) % 2 ^ 64) with
      | some (none, a) => noteOfflineRange a (bprodTokens w * (fmtOf fmt).bytesFor 16) 0 true s
      | _ => s
    modArray p (fun a =>
      { a with
        held := SMap.insert a.held r (x + 1)
        heldElems := (List.range es.length).foldl (fun m k => SMap.set 0 m (r * 8192 + k) (nth (0, false) es k).1)
          (SMap.dropKeys a.heldElems (fun k => k / 8192 = r))
        heldBad := (List.range (es.length / 16)).foldl (fun m k =>
            SMap.set false m (r * 512 + k) (nth (0, false) es (16 * k)).2)
          (SMap.dropKeys a.heldBad (fun k => k / 512 = r)) }) s

/-- X and dY of a task at (token, index within the block): whichever is held comes from the held store. -/
def taskElem (s : State) (p r : Nat) (heldSide : Bool) (fmt base blk tok k : Nat) : Nat × Bool :=
  let a := (pair s p).array
  if heldSide then (SMap.get 0 a.heldElems (r * 8192 + tok * 16 + k), SMap.get false a.heldBad (r * 512 + tok))
  else panelElem s p fmt base tok (16 * blk + k)

/-- The indices of the streamed block that the turn store delivered poisoned (R77). -/
def turnedBad (met : ArrayMet) : List Nat := met.errs.filterMap (fun e =>
  match e with
  | .turn k => some k
  | _ => none)

/-- The group partials of a task (R71). `turn` names the indices of the streamed block that the turn store delivered poisoned. -/
def taskSteps (p : Nat) (o : UnitOp) (r phase kb nb : Nat) (turn : List Nat) (s : State) : State :=
  let w := o.word
  let fc := wbits w 27 24
  let fr := wbits w 31 28
  let t := slotElems fc
  let tokens := bprodTokens w
  let base := bitsOf (nth 0 o.vals 0) 22 0
  let hold := fldB s F.ARRAY_CTRL_bp_hold p
  let xe (tok k : Nat) := taskElem s p r hold fc base kb tok k
  let ye (tok n : Nat) := taskElem s p r (!hold) fr base nb tok n
  let cell (g k n : Nat) : AccVal :=
    (List.range (tokens / (32 * t))).foldl (fun a c =>
      let t0 := 32 * t * c + t * g
      a.next (cellStep fc fr t 0 0 (.fin false 1 1) (fun e => (xe (t0 + e) k).1) (fun e => (ye (t0 + e) n).1) a.acc)) { acc := 0 }
  let id := r * 2 + phase
  let cells := (List.range 32).flatMap (fun g => (List.range 16).flatMap (fun k => (List.range 16).map (fun n =>
    (id * 8192 + g * 256 + k * 16 + n, cell g k n))))
  let rowP (k : Nat) : Bool := (!hold && turn.contains k) || (List.range tokens).any (fun tok => (xe tok k).2)
  let colP (n : Nat) : Bool := (hold && turn.contains n) || (List.range tokens).any (fun tok => (ye tok n).2)
  let bad := (List.range 16).any (fun k => rowP k || colP k)
  let s := modArray p (fun a =>
    { a with
      partials := cells.foldl (fun m c => SMap.set 0 m c.1 c.2.acc) (SMap.dropKeys a.partials (fun k => k / 8192 = id))
      partialBad := markKeys (markKeys (SMap.dropKeys a.partialBad (fun k => k / 32 = id)) 16 (fun k => id * 32 + k) rowP)
        16 (fun n => id * 32 + 16 + n) colP }) s
  let s := raiseIf bad F.ARRAY_EVENTS_poison_in p (accEvents p (cells.map (fun c => c.2)) s)
  if bad && fldB s F.ARRAY_CTRL_poison_fault p then escalate (hiveOf p) 0x05 p s else s

/-- A reed takes a TASK entry: the held operand loaded if it changes, the task's steps, and its fold begun. The task waits
for its slot's result to be drained, and for a set of cell partials to be free (R72). -/
def reedTask (p r : Nat) (remote : List Nat) (remoteBad : Bool) (met : ArrayMet) (s : State) : State :=
  match bprodHead s p r, reedQueue (pair s p) r with
  | some o, q :: _ =>
    let a := (pair s p).array
    let w := o.word
    let i := SMap.get 0 a.tasks r
    let slot := (wbits w 41 36 + i) % 64
    let phase := i % 2
    let hold := fldB s F.ARRAY_CTRL_bp_hold p
    let x := if hold then q.kb else q.nb
    let str := if hold then q.nb else q.kb
    let tStr := slotElems (wbits w 27 24)
    if q.kind ≠ 3 then s
    else if SMap.get false a.slotFull (r * 64 + slot) || a.folds.any (fun f => f.1 = r * 2 + phase || (f.1 / 2 = r && f.2 = slot)) then s
    else
      let s := modArray p (fun a => { a with tasks := SMap.set 0 a.tasks r (i + 1) }) (popQueue p r s)
      let s := if i = 0 then loseSlots p 2 0x05 (16 / tStr) s else s
      if (str + 1) * (16 / tStr) > bitsOf (nth 0 o.vals 0) 45 32 then
        countSlots p 1 1 (sparseRange p (raise F.ARRAY_EVENTS_sparse_range p (arrayMeets p met s)))
      else
        let s := arrayMeets p met (loadHeld p o r x remote remoteBad s)
        let s := taskSteps p o r phase q.kb q.nb (turnedBad met) s
        let s := modArray p (fun a => { a with folds := a.folds ++ [(r * 2 + phase, slot)] }) s
        countSlots p 0 (bprodTokens w / (32 * tStr)) s
  | _, _ => s

/-- The fold unit reduces the oldest task's 32 group partials into its block slot (R72). -/
def foldDone (p : Nat) (met : ArrayMet) (s : State) : State :=
  let a := (pair s p).array
  match a.folds with
  | [] => s
  | f :: fs =>
    let id := f.1
    let slot := f.2
    let r := id / 2
    let part (g k n : Nat) : Nat := SMap.get 0 a.partials (id * 8192 + g * 256 + k * 16 + n)
    let out (k n : Nat) : AccVal := (List.range 31).foldl (fun v g => v.next (add32 v.acc (part (g + 1) k n))) { acc := part 0 k n }
    let key (k n : Nat) : Nat := accKey (2 + slot / 32) (16 * (slot % 32) + k) (16 * r + n)
    let cells := (List.range 16).flatMap (fun k => (List.range 16).map (fun n => (key k n, out k n)))
    let s := modArray p (fun a =>
      { a with
        folds := fs
        acc := cells.foldl (fun m c => SMap.set 0 m c.1 c.2.acc) a.acc
        slotFull := SMap.set false a.slotFull (r * 64 + slot) true
        slotBad := markKeys a.slotBad 32 (fun i => (r * 64 + slot) * 32 + i)
          (fun i => SMap.get false a.partialBad (id * 32 + i) || (bitAt a.walkBad r && i < 16))
        partials := SMap.dropKeys a.partials (fun k => k / 8192 = id)
        partialBad := SMap.dropKeys a.partialBad (fun k => k / 32 = id) }) (arrayMeets p met s)
    accEvents p (cells.map (fun c => c.2)) s

end Sys2Proof.Machine
end

