-- ==== Sys2Proof/Machine/Forager.lean ====
section
/-! DEFINITION. The feed engine of a forager (R116–R135, R146–R148): the FORAGE descriptor, WALK, the entries it sends,
the spill ring. -/

namespace Sys2Proof.Machine

/-! ## The FORAGE instruction and its descriptor (R116, R183, R185) -/

/-- Near memory of a hive (R206). -/
def nearStart (h : Nat) : Nat := nearBase + h * hiveBytes

/-- n bytes from a lie in the near memory of pair p's hive (R116). -/
def inHiveNear (p a n : Nat) : Bool :=
  nearStart (hiveOf p) ≤ a && a + n ≤ nearStart (hiveOf p) + hiveBytes

/-- n bytes from a lie in the comb of pair p. -/
def inOwnComb (p a n : Nat) : Bool := combAddr p 0 ≤ a && a + n ≤ combAddr p combBytes

/-- The comb offset of the descriptor that a word names. -/
def descOff (w : Nat) : Nat := wbits w 46 24

/-- The addend of a descriptor word (R183): the scalar register if enabled. -/
def addend (s : State) (p w lo : Nat) : Nat := if bitAt w (lo + 5) then scalar s p (wbits w (lo + 4) lo) else 0

/-- The words of a descriptor in comb, the scalar sums applied to words 1 and 2. -/
def descWords (s : State) (p w n : Nat) : List Nat :=
  (List.range n).map (fun i =>
    let v := numAt s (combAddr p (descOff w + 8 * i)) 8
    if i = 1 then (v + addend s p w 47) % 2 ^ 64
    else if i = 2 then (v + addend s p w 53) % 2 ^ 64
    else v)

/-- The function a FORAGE's descriptor selects, if the descriptor can be read and selects one. -/
def forageFn (s : State) (p w : Nat) : Option Nat :=
  let f := wbits (numAt s (combAddr p (descOff w)) 8) 63 60
  if descOff w % 64 ≠ 0 || !inComb (descOff w) 64 || poisoned s (combAddr p (descOff w)) 64 then none
  else if 1 ≤ f && f ≤ 8 then some f else none

/-- The word is a FORAGE of this row's function, or one that no function's row could issue. -/
def isForage (p fn : Nat) (w : Nat) (s : State) : Bool :=
  wCls w = 2 && wOp w = 0 && (match forageFn s p w with
    | none => true
    | some f => f = fn)

/-- A descriptor is rejected (R116): addr_fault and a score fault. -/
def rejectDesc (p code : Nat) (s : State) : Issue := .reject code (raise F.FORAGER_EVENTS_addr_fault p s)

/-- The words that only the given fields of a descriptor may hold (R126, R185). -/
def onlyFields (ws : List Nat) (allowed : List (List (Nat × Nat))) : Bool :=
  (List.range allowed.length).all (fun i => onlyBits (nth 0 ws i) (nth [] allowed i))

/-- Issue of a FORAGE: its own checks, then the descriptor's poison, reserved codes and ranges, then room in its queue. -/
def issueForage (p : Nat) (valid inRange : List Nat → Bool) (room : PairS → Bool) (push : UnitOp → PairS → PairS)
    (w : Nat) (s : State) : Issue :=
  checks (!onlyBits w [(9, 0), (22, 16), (58, 24)] || !semOk w) false (descOff w % 64 ≠ 0) (!inComb (descOff w) 64)
    (if poisoned s (combAddr p (descOff w)) 64 then .fault 0x11
     else
       let ws := descWords s p w 8
       if (forageFn s p w).isNone || !valid ws then rejectDesc p fDescInvalid s
       else if !inRange ws then rejectDesc p fAddrRange s
       else if !room (pair s p) then .stall
       else
         let o : UnitOp := { word := w, index := seqPc s p, desc := ws, seq := (pair s p).seq }
         .done (modPair p (push o) s) none)

/-! ## WALK (R126) -/

/-- Bits of an element of a width code. -/
def widthBits (c : Nat) : Nat := 16 / 2 ^ c

/-- Bytes of a block of a width code (R118). -/
def blockBytes (c : Nat) : Nat := 32 * widthBits c

/-- A value rounded up to a multiple. -/
def roundUp (v m : Nat) : Nat := (v + m - 1) / m * m

/-- The fields of a WALK descriptor. -/
structure WalkD where
  form : Nat
  dense : Bool
  width : Nat
  xposeAll : Bool
  zeroEmpty : Bool
  tasks : Bool
  count : Nat
  list : Nat
  blocks : Nat
  kb : Nat
  nb : Nat
  n : Nat
  tk : Nat
  tn : Nat
  stride : Nat

def walkD (ws : List Nat) : WalkD :=
  let w0 := nth 0 ws 0
  let w3 := nth 0 ws 3
  { form := bitsOf w0 59 58
    dense := bitAt w0 57
    width := bitsOf w0 56 55
    xposeAll := bitAt w0 54
    zeroEmpty := bitAt w0 53
    tasks := bitAt w0 52
    count := bitsOf w0 31 0
    list := nth 0 ws 1
    blocks := nth 0 ws 2
    kb := bitsOf w3 13 0 + 1
    nb := bitsOf w3 29 16 + 1
    n := bitsOf w3 39 32 + 1
    tk := bitsOf w3 45 40 + 1
    tn := bitsOf w3 53 48 + 1
    stride := bitsOf (nth 0 ws 4) 39 0 }

/-- Bytes of a group record (R121). -/
def groupBytes (n : Nat) : Nat := roundUp (2 + 2 * n) 8

/-- The bytes of a row-major matrix of 16·kb × 16·nb elements (R126). -/
def matrixBytes (kb nb stride width : Nat) : Nat := (16 * kb - 1) * stride + 16 * nb * widthBits width / 8

/-- Reserved codes and bits of a WALK descriptor, and its fields' ranges (R117, R126). -/
def walkValid (ws : List Nat) : Bool :=
  let d := walkD ws
  onlyFields ws [[(63, 52), (31, 0)], [(43, 0)], [(43, 0)], [(13, 0), (29, 16), (39, 32), (45, 40), (53, 48)], [(39, 0)], [], [], []]
    && d.form ≠ 3 && d.width ≠ 3 && d.kb ≤ 16383
    && (!(d.dense && d.form ≠ 2) || (d.stride ≠ 0 && d.stride % 16 = 0))

/-- The list and block extents that a WALK descriptor fixes lie in the hive's near memory (R116), those of a
walk of tasks as well. -/
def walkRange (p : Nat) (ws : List Nat) : Bool :=
  let d := walkD ws
  let b := blockBytes d.width
  let listLen := if d.form = 0 then 4 * d.count else if d.form = 1 then groupBytes d.n * d.count else 2 * d.count
  let blockLen := if d.form = 2 then 0
    else if d.dense then matrixBytes d.kb d.nb d.stride d.width
    else if d.form = 0 then b * d.count else b * d.n * d.count
  inHiveNear p d.list listLen && inHiveNear p d.blocks blockLen

def walk (p : Nat) (s : State) : State :=
  issueWith p (isForage p 1)
    (issueForage p walkValid (walkRange p) (fun x => x.walks.length < 4) (fun o x =>
      { x with
        walk := if x.walks.isEmpty then { body := (walkD o.desc).blocks } else x.walk
        walks := x.walks ++ [o] })) s

/-! ## Sending an entry (R129, R134, R135) -/

/-- The header of an entry (R129). -/
def QEntry.header (q : QEntry) : Nat :=
  q.kind * 2 ^ 62 + b2n q.xpose * 2 ^ 61 + b2n q.last * 2 ^ 60 + b2n q.poison * 2 ^ 59 + q.width * 2 ^ 46 + q.nb * 2 ^ 32
    + q.kb * 2 ^ 16 + q.seq

/-- The entry a header and a block make. -/
def QEntry.ofHeader (h : Nat) (block : List Nat) : QEntry where
  kind := bitsOf h 63 62
  xpose := bitAt h 61
  last := bitAt h 60
  poison := bitAt h 59
  width := bitsOf h 47 46
  nb := bitsOf h 45 32
  kb := bitsOf h 29 16
  seq := bitsOf h 15 0
  block := block

/-- First near address and size of the spill ring (R149). -/
def ringSpan (s : State) (p : Nat) : Nat × Nat :=
  (nearStart (hiveOf p) + fld s F.FORAGER_RING_ring_base p * 2 ^ 20, fld s F.FORAGER_RING_ring_size p * 65536)

/-- Bytes of a ring slot for entries of a width (R134). -/
def ringSlotBytes (width : Nat) : Nat := roundUp (8 + blockBytes width) 64

/-- The lowest place in the ring with room for a slot: the ring's start, or just past a slot in use. -/
def ringPlace (s : State) (p size : Nat) : Option Nat :=
  let (a, n) := ringSpan s p
  let used := (pair s p).ring
  let free (x : Nat) : Bool := x + size ≤ a + n && !used.any (fun r => x < r.addr + r.size && r.addr < x + size)
  ((a :: used.map (fun r => r.addr + r.size)).mergeSort (· ≤ ·)).find? free

/-- A reed has entries in the ring. -/
def inRing (x : PairS) (r : Nat) : Bool := x.ring.any (fun e => e.reed = r)

/-- An entry given to the queue of a reed. -/
def enqueue (p r : Nat) (q : QEntry) (s : State) : State :=
  count p 0x0E 1 (modPair p (fun x => { x with queues := SMap.set [] x.queues r (reedQueue x r ++ [q]) }) s)

/-- An entry written to the spill ring (R134). -/
def ringPut (p r a : Nat) (q : QEntry) (s : State) : State :=
  let s := memWrite a (natLe 8 q.header ++ q.block) false s
  let slot : RingSlot := { reed := r, addr := a, size := ringSlotBytes q.width, blockLen := q.block.length }
  let s := modPair p (fun x => { x with ring := x.ring ++ [slot] }) s
  let s := satAddFld F.FORAGER_SPILLS_spilled p 1 (raise F.FORAGER_EVENTS_ring_spill p s)
  count p 0x0F 1 s

/-- The next entry of the walk sent to a reed: to its queue, or to the ring if the queue is full or the reed already has
entries there; none where the feed engine must stall (R135). -/
def send (p r : Nat) (q : QEntry) (s : State) : Option State :=
  let x := pair s p
  let n := SMap.get 0 x.walk.sent r
  let q := { q with seq := n % 65536 }
  let sent (s : State) : State :=
    modPair p (fun x => { x with walk := { x.walk with sent := SMap.set 0 x.walk.sent r (n + 1) } }) s
  if !inRing x r && (reedQueue x r).length < 64 then some (enqueue p r q (sent s))
  else if fldB s F.FORAGER_CTRL_ring_en p then
    match ringPlace s p (ringSlotBytes q.width) with
    | some a => some (ringPut p r a q (sent s))
    | none => none
  else none

/-! ## Conditions (R122, R125, R128, R146, R147) -/

/-- n entries ignored as excess (R122). -/
def sparseExcess (p n : Nat) (s : State) : State :=
  let s := satAddFld F.FORAGER_SPARSE_excess_count p n (raise F.FORAGER_EVENTS_sparse_excess p s)
  if fldB s F.FORAGER_CTRL_excess_fault p then escalate (hiveOf p) 0x03 p s else s

/-- A list out of order, or an entry of a closed block-column (R128). -/
def listOrder (p : Nat) (s : State) : State :=
  let s := satAddFld F.FORAGER_SPARSE_order_count p 1 (raise F.FORAGER_EVENTS_list_order p s)
  if fldB s F.FORAGER_CTRL_order_fault p then escalate (hiveOf p) 0x03 p s else s

/-- A poisoned list word: the event and a hive fault in every case (R147). -/
def listPoison (p : Nat) (s : State) : State :=
  escalate (hiveOf p) 0x04 p (raise F.FORAGER_EVENTS_list_poison p s)

def modWalk (p : Nat) (f : WalkS → WalkS) (s : State) : State := modPair p (fun x => { x with walk := f x.walk }) s

/-- The walk goes on to its ENDs. -/
def walkEnds (p : Nat) (poison : Bool) (s : State) : State :=
  modWalk p (fun k => { k with ending := true, poison := k.poison || poison }) s

/-- A walk stopped by a poisoned list word (R147). -/
def walkPoisoned (p : Nat) (s : State) : State := walkEnds p true (listPoison p s)

/-- A STILE body outside the allowed range (R116): addr_fault, and the walk goes on to a poisoned END for every reed. -/
def walkOutOfRange (p : Nat) (s : State) : State :=
  modWalk p (fun k => { k with outRange := true }) (walkEnds p true (raise F.FORAGER_EVENTS_addr_fault p s))

/-! ## Entries of a walk -/

/-- A list entry as read: reed, transpose flag, last flag, coordinates, the address of its packed block. -/
structure WalkEntry where
  reed : Nat
  xpose : Bool
  last : Bool
  kb : Nat
  nb : Nat
  addr : Nat
  /-- A close marker. -/
  close : Bool := false
  /-- A block of a STILE dense body. -/
  padding : Bool := false
  /-- Outside its tile. -/
  outside : Bool := false
  /-- Read from the row-major matrix. -/
  gather : Bool := false

/-- The address of row a of block (kb, nb) in a row-major matrix (R118, R126). -/
def blockRow (origin stride width kb nb a : Nat) : Nat := origin + (16 * kb + a) * stride + 16 * nb * widthBits width / 8

/-- The bytes of a block gathered from a row-major matrix into queue layout (R118, R126), and its poison. -/
def gatherBlock (s : State) (origin stride width kb nb : Nat) : List Nat × Bool :=
  let bits := widthBits width
  let rowAt := blockRow origin stride width kb nb
  let rows := (List.range 16).map (fun a => readBytes s (rowAt a) (2 * bits))
  let el (a b : Nat) : Nat :=
    let row := nth [] rows a
    if bits = 16 then nth 0 row (2 * b) + 256 * nth 0 row (2 * b + 1)
    else if bits = 8 then nth 0 row b
    else nth 0 row (b / 2) / 16 ^ (b % 2) % 16
  let t := 16 / bits
  let bytes := (List.range (16 / t)).flatMap (fun c => (List.range 16).flatMap (fun b =>
    natLe 2 ((List.range t).foldl (fun v e => v + el (t * c + e) b * 2 ^ (bits * e)) 0)))
  (bytes, (List.range 16).any (fun a => poisoned s (rowAt a) (2 * bits)))

/-- Block-column nb is closed for a reed in this walk (R128). -/
def columnClosed (s : State) (p r nb : Nat) : Bool := SMap.get false (pair s p).walk.closed (r * 16384 + nb)

def markClosed (p r nb : Nat) (s : State) : State :=
  modWalk p (fun k => { k with closed := SMap.set false k.closed (r * 16384 + nb) true }) s

/-- A CLOSE sent for a block-column, unless the reed has closed it already (R125, R128). -/
def sendClose (p : Nat) (d : WalkD) (r nb : Nat) (s : State) : Option State :=
  if columnClosed s p r nb then some (listOrder p s)
  else (send p r { kind := 1, width := d.width, nb := nb } (markClosed p r nb s))

/-- One entry handled: range, then order, then sent (R125, R128, R129). -/
def sendEntry (p : Nat) (d : WalkD) (e : WalkEntry) (s : State) : Option State :=
  let far := e.outside || e.nb ≥ d.nb || (e.kb ≥ d.kb && !e.close)
  if far then
    if e.padding then
      if e.last && e.nb < d.nb then sendClose p d e.reed e.nb s else some s
    else
      let s := sparseRange p s
      if e.last then sendClose p d e.reed (e.nb % 16384) s
      else if columnClosed s p e.reed (e.nb % 16384) then some (listOrder p s)
      else some s
  else if columnClosed s p e.reed e.nb then some (listOrder p s)
  else if e.close then sendClose p d e.reed e.nb s
  else
    let s := if d.tasks then s
      else if e.gather then iter 16 s (fun a t =>
        noteOfflineRange (blockRow d.blocks d.stride d.width e.kb e.nb a) (2 * widthBits d.width) 0 true t)
      else noteOfflineRange e.addr (blockBytes d.width) 0 true s
    let (bytes, bad) := if d.tasks then ([], false)
      else if e.gather then gatherBlock s d.blocks d.stride d.width e.kb e.nb
      else (readBytes s e.addr (blockBytes d.width), poisoned s e.addr (blockBytes d.width))
    let s := raiseIf bad F.FORAGER_EVENTS_block_poison p s
    let s := if e.last then markClosed p e.reed e.nb s else s
    let q : QEntry :=
      { kind := if d.tasks then 3 else 0, xpose := e.xpose || d.xposeAll, last := e.last, poison := bad, width := d.width,
        nb := e.nb, kb := e.kb, block := bytes }
    send p e.reed q (count p 0x24 bytes.length s)

/-- The next list entry begun. -/
def nextItem (p : Nat) (s : State) : State := modWalk p (fun k => { k with item := k.item + 1, sub := 0 }) s
def nextSub (p : Nat) (s : State) : State := modWalk p (fun k => { k with sub := k.sub + 1 }) s

/-- The next BCL entry (R120). -/
def stepBcl (p : Nat) (d : WalkD) (s : State) : Option State :=
  let i := (pair s p).walk.item
  let a := d.list + 4 * i
  let s := noteOfflineRange a 4 0 true s
  if poisoned s a 4 then some (walkPoisoned p s)
  else
    let v := numAt s a 4
    let e : WalkEntry :=
      { reed := bitsOf v 31 30, xpose := bitAt v 29, last := bitAt v 28, nb := bitsOf v 27 14, kb := bitsOf v 13 0,
        close := bitsOf v 13 0 = 0x3FFF, addr := d.blocks + i * blockBytes d.width, gather := d.dense }
    (sendEntry p d e (count p 0x24 4 s)).map (nextItem p)

/-- The next BGRP slot, or an empty group (R121, R122). -/
def stepBgrp (p : Nat) (d : WalkD) (s : State) : Option State :=
  let k := (pair s p).walk
  let a := d.list + k.item * groupBytes d.n
  let s := noteOfflineRange a 2 0 true s
  if poisoned s a 2 then some (walkPoisoned p s)
  else
    let h := numAt s a 2
    let cnt := bitsOf h 12 0
    let kept := min cnt d.n
    let s := count p 0x24 2 s
    let s := if k.sub = 0 && cnt > d.n then sparseExcess p (cnt - d.n) s else s
    if kept = 0 then
      if d.zeroEmpty then (sendClose p d (bitsOf h 15 14) (k.item % 16384) s).map (nextItem p) else some (nextItem p s)
    else
      let b := a + 2 + 2 * k.sub
      let s := noteOfflineRange b 2 0 true s
      if poisoned s b 2 then some (walkPoisoned p s)
      else
        let e : WalkEntry :=
          { reed := bitsOf h 15 14, xpose := bitAt h 13, last := k.sub + 1 = kept, nb := k.item, kb := numAt s b 2 % 16384,
            addr := d.blocks + (k.item * d.n + k.sub) * blockBytes d.width, gather := d.dense }
        (sendEntry p d e s).map (if k.sub + 1 = kept then nextItem p else nextSub p)

/-- The largest count of a sparse body that fits the dense size (R124). -/
def stileFit (d : WalkD) (cnt : Nat) : Nat :=
  let b := blockBytes d.width
  let dense := d.tk * d.tn * b
  if roundUp (cnt * (b + 2)) 64 ≤ dense then cnt else dense / 64 * 64 / (b + 2)

/-- The next STILE tile begun: its body follows the last on a 64-byte boundary. -/
def nextTile (p size : Nat) (s : State) : State :=
  modWalk p (fun k => { k with item := k.item + 1, sub := 0, body := roundUp (k.body + size) 64 }) s

/-- The next coordinate or dense block of a STILE tile (R123, R124). -/
def stepStile (p : Nat) (d : WalkD) (s : State) : Option State :=
  let k := (pair s p).walk
  let b := blockBytes d.width
  let a := d.list + 2 * k.item
  let kTiles := (d.kb + d.tk - 1) / d.tk
  let i := k.item % kTiles
  let j := k.item / kTiles
  let s := noteOfflineRange a 2 0 true s
  if poisoned s a 2 then some (walkPoisoned p s)
  else
    let h := numAt s a 2
    let dense := bitAt h 15
    let cnt := bitsOf h 11 0
    let kept := if dense then d.tk * d.tn else stileFit d cnt
    let size := if dense then d.tk * d.tn * b else kept * (b + 2)
    if !inHiveNear p k.body size then some (walkOutOfRange p s)
    else
      let s := if k.sub = 0 then count p 0x24 2 s else s
      let s := if k.sub = 0 && !dense && kept < cnt then sparseExcess p (cnt - kept) s else s
      if kept = 0 then some (nextTile p size s)
      else
        let go (e : WalkEntry) (s : State) : Option State :=
          (sendEntry p d e s).map (if k.sub + 1 = kept then nextTile p size else nextSub p)
        if dense then
          let kl := k.sub / d.tn
          let nl := k.sub % d.tn
          go { reed := nl % 4, xpose := false, last := kl + 1 = d.tk && i + 1 = kTiles, kb := i * d.tk + kl,
               nb := j * d.tn + nl, addr := k.body + (kl * d.tn + nl) * b, padding := true } s
        else
          let ca := k.body + kept * b + 2 * k.sub
          let s := noteOfflineRange ca 2 0 true s
          if poisoned s ca 2 then some (walkPoisoned p s)
          else
            let c := numAt s ca 2
            let kl := bitsOf c 5 0
            let nl := bitsOf c 11 6
            go { reed := bitsOf c 15 14, xpose := bitAt c 12, last := bitAt c 13, kb := i * d.tk + kl, nb := j * d.tn + nl,
                 addr := k.body + k.sub * b, outside := kl ≥ d.tk || nl ≥ d.tn } (count p 0x24 2 s)

/-- The next END of the walk, one to each reed in turn (R130). After the last of a walk that left the allowed range, the
pair fault (R116). -/
def stepEnd (p : Nat) (o : UnitOp) (d : WalkD) (s : State) : Option State :=
  let k := (pair s p).walk
  (send p k.endReed { kind := 2, poison := k.poison, width := d.width } s).map (fun t =>
    let t := modWalk p (fun k => { k with endReed := k.endReed + 1 }) t
    if k.outRange && k.endReed = 3 then pairFault p fExecRange 2 o.index 0 t else t)

/-- The feed engine handles the next entry of its walk, or the next END. Where the entry must wait for room, it stalls for
the given stack cycles (R135). -/
def foragerEntrySend (p stalled : Nat) (s : State) : State :=
  match (pair s p).walks with
  | [] => s
  | o :: _ =>
    let d := walkD o.desc
    let k := (pair s p).walk
    if k.ending && k.endReed ≥ 4 then s
    else
      let r :=
        if k.ending then stepEnd p o d s
        else if k.item ≥ d.count then stepEnd p o d (walkEnds p false s)
        else if d.form = 0 then stepBcl p d s
        else if d.form = 1 then stepBgrp p d s
        else stepStile p d s
      match r with
      | some t => t
      | none => satAddFld F.FORAGER_SPILLS_stall_cycles p stalled (raise F.FORAGER_EVENTS_ring_stall p s)

/-- The walk in progress has sent its last END: its semaphore is incremented and the next walk begins (R130, R183). -/
def walkDone (p : Nat) (s : State) : State :=
  match (pair s p).walks with
  | [] => s
  | o :: rest =>
    let k := (pair s p).walk
    if k.ending && k.endReed ≥ 4 then
      let s := modPair p (fun x =>
        { x with
          walks := rest
          walk := match rest with
            | [] => {}
            | n :: _ => { body := (walkD n.desc).blocks } }) s
      if wSig o.word then semInc p (wSem o.word) s else s
    else s

/-- A reed's queue has room: its oldest entry in the ring follows (R134). A poisoned header is a poisoned list word, a
poisoned block a poisoned entry (R147). `errs` are the storage errors met in the slot. -/
def ringRefill (p r : Nat) (errs : List EntryErr) (s : State) : State :=
  let x := pair s p
  match x.ring.find? (fun e => e.reed = r) with
  | none => s
  | some e =>
    if (reedQueue x r).length ≥ 64 then s
    else
      let out (s : State) : State := modPair p (fun x => { x with ring := x.ring.filter (fun f => f.addr ≠ e.addr) }) s
      let s := errs.foldl (fun t e => entryErr p e t) (noteOfflineRange e.addr (8 + e.blockLen) 0 true s)
      if poisoned s e.addr 8 || errs.contains .header then (if x.walks.isEmpty then listPoison p (out s) else walkPoisoned p (out s))
      else
        let bad := e.blockLen ≠ 0 && poisoned s (e.addr + 8) e.blockLen
        let q := QEntry.ofHeader (numAt s e.addr 8) (readBytes s (e.addr + 8) e.blockLen)
        let s := raiseIf bad F.FORAGER_EVENTS_block_poison p s
        enqueue p r { q with poison := q.poison || bad || errs.contains .block } (out s)

/-- The forager as its hive's reset leaves it (R147, R148). -/
def foragerReset (p : Nat) (s : State) : State :=
  [Reg.FORAGER_CTRL, .FORAGER_RING, .FORAGER_STATUS, .FORAGER_EVENTS, .FORAGER_SPARSE, .FORAGER_SPILLS, .FORAGER_ECC].foldl
    (fun t r => resetReg r p t)
    (modPair p (fun x => { x with walks := [], walk := {}, lists := [], queues := [], ring := [] }) s)

end Sys2Proof.Machine
end

