-- ==== Sys2Proof/Machine/Lists.lean ====
section
/-! DEFINITION. The list engine of a forager (R137–R145, R185, R186, R247): MERGE, PREFIX, SORT, PACK, UNPACK, COMBINE and
ENCODE are accepted at issue and take effect, result block and semaphore with it, when they end. -/

namespace Sys2Proof.Machine

/-- What a list function leaves: its result words, whether it met poison, and the state. -/
structure ListEnd where
  code : Nat := 0
  carry : Bool := false
  w1 : Nat := 0
  w2 : Nat := 0
  w3 : Nat := 0
  w4 : Nat := 0
  poison : Bool := false
  /-- An address in a table is outside the hive (R247): the function is rejected. -/
  outside : Bool := false

/-- The comb offset of the result block (R185). -/
def resultOff (ws : List Nat) : Nat := bitsOf (nth 0 ws 7) 22 0

/-- The result word's place: own comb, 64-byte aligned. -/
def resultOk (ws : List Nat) : Bool := inComb (resultOff ws) 64
def resultAligned (ws : List Nat) : Bool := resultOff ws % 64 = 0

abbrev near44 : List (Nat × Nat) := [(43, 0)]
abbrev resultBits : List (Nat × Nat) := [(22, 0)]

/-- A list function accepted (R137): four at most. -/
def issueList (p fn : Nat) (valid inRange : List Nat → Bool) (s : State) : State :=
  issueWith p (isForage p fn)
    (issueForage p (fun ws => valid ws && resultAligned ws) (fun ws => inRange ws && resultOk ws)
      (fun x => x.lists.length < 4) (fun o x => { x with lists := x.lists ++ [o] })) s

/-! ## MERGE (R140) -/

def mergeA (ws : List Nat) : Nat := bitsOf (nth 0 ws 0) 31 0
def mergeB (ws : List Nat) : Nat := bitsOf (nth 0 ws 4) 31 0
def mergeOp (ws : List Nat) : Nat := bitsOf (nth 0 ws 0) 57 56

/-- The most entries a MERGE can write. -/
def mergeMax (ws : List Nat) : Nat :=
  if mergeOp ws = 0 then mergeA ws + mergeB ws else if mergeOp ws = 1 then min (mergeA ws) (mergeB ws) else mergeA ws

def merge (p : Nat) (s : State) : State :=
  issueList p 2
    (fun ws => onlyFields ws [[(63, 60), (57, 56), (31, 0)], near44, near44, near44, [(31, 0)], [], [], resultBits] && mergeOp ws ≠ 3)
    (fun ws => inHiveNear p (nth 0 ws 1) (4 * mergeA ws) && inHiveNear p (nth 0 ws 2) (4 * mergeB ws)
      && inHiveNear p (nth 0 ws 3) (4 * mergeMax ws)) s

/-- A list being read: next address, entries left, the last key taken. -/
structure Reader where
  addr : Nat
  left : Nat
  last : Option Nat := none

/-- What the head of a list is. -/
inductive Head where
  | empty
  | poison
  | disorder
  | repeated
  | entry (v : Nat)

def Reader.head (s : State) (x : Reader) : Head :=
  if x.left = 0 then .empty
  else if poisoned s x.addr 4 then .poison
  else
    let v := numAt s x.addr 4
    match x.last with
    | none => .entry v
    | some k => if v % 2 ^ 28 < k then .disorder else if v % 2 ^ 28 = k then .repeated else .entry v

def Reader.skip (x : Reader) : Reader := { x with addr := x.addr + 4, left := x.left - 1 }
def Reader.take (x : Reader) (v : Nat) : Reader := { x.skip with last := some (v % 2 ^ 28) }

/-- The merge of two lists: the entries written, newest first, the repeats taken once, the end code. -/
def mergeGo (s : State) (op : Nat) : Nat → Reader → Reader → List Nat → Nat → List Nat × Nat × Nat
  | 0, _, _, out, rep => (out, rep, 0)
  | n + 1, a, b, out, rep =>
    let putIf (c : Bool) (v : Nat) : List Nat := if c then v :: out else out
    match a.head s, b.head s with
    | .poison, _ => (out, rep, 2)
    | .disorder, _ => (out, rep, 1)
    | .repeated, _ => mergeGo s op n a.skip b out (rep + 1)
    | _, .poison => (out, rep, 2)
    | _, .disorder => (out, rep, 1)
    | _, .repeated => mergeGo s op n a b.skip out (rep + 1)
    | .empty, .empty => (out, rep, 0)
    | .entry v, .empty => mergeGo s op n (a.take v) b (putIf (op ≠ 1) v) rep
    | .empty, .entry v => mergeGo s op n a (b.take v) (putIf (op = 0) v) rep
    | .entry v, .entry u =>
      if v % 2 ^ 28 < u % 2 ^ 28 then mergeGo s op n (a.take v) b (putIf (op ≠ 1) v) rep
      else if u % 2 ^ 28 < v % 2 ^ 28 then mergeGo s op n a (b.take u) (putIf (op = 0) u) rep
      else mergeGo s op n (a.take v) (b.take u) (putIf (op ≠ 2) v) rep

def mergeDone (p : Nat) (ws : List Nat) (s : State) : ListEnd × State :=
  let (out, rep, code) := mergeGo s (mergeOp ws) (mergeA ws + mergeB ws + 1) { addr := nth 0 ws 1, left := mergeA ws }
    { addr := nth 0 ws 2, left := mergeB ws } [] 0
  let s := count p 0x24 (4 * (mergeA ws + mergeB ws)) s
  let s := memWrite (nth 0 ws 3) (out.reverse.flatMap (natLe 4)) false s
  let s := if code = 1 then listOrder p s else s
  ({ code := code, w1 := out.length, w2 := rep, poison := code = 2 }, s)

/-! ## PREFIX (R141) -/

def prefixN (ws : List Nat) : Nat := bitsOf (nth 0 ws 0) 31 0 + 1

def prefixSum (p : Nat) (s : State) : State :=
  issueList p 3
    (fun ws => onlyFields ws [[(63, 60), (31, 0)], near44, near44, [], [], [], [], resultBits])
    (fun ws => inHiveNear p (nth 0 ws 1) (4 * prefixN ws) && inHiveNear p (nth 0 ws 2) (4 * (prefixN ws + 1))) s

/-- Sums so far, newest first: value and poison, the carry, the running sum and its poison. -/
def prefixGo (s : State) (a : Nat) (n : Nat) : List (Nat × Bool) × Bool × Nat × Bool :=
  (List.range n).foldl (fun acc i =>
    let (out, carry, sum, bad) := acc
    let t := sum + numAt s (a + 4 * i) 4
    ((sum, bad) :: out, carry || decide (t ≥ 2 ^ 32), t % 2 ^ 32, bad || poisoned s (a + 4 * i) 4)) ([], false, 0, false)

/-- A sum that takes in a poisoned value is written poisoned. -/
def prefixDone (p : Nat) (ws : List Nat) (s : State) : ListEnd × State × Bool :=
  let n := prefixN ws
  let (out, carry, total, bad) := prefixGo s (nth 0 ws 1) n
  let vals := out.reverse ++ [(total, bad)]
  let s := scatter ((List.range (n + 1)).map (fun i =>
    (nth 0 ws 2 + 4 * i, natLe 4 (nth (0, false) vals i).1, (nth (0, false) vals i).2))) s
  ({ carry := carry, w1 := total }, count p 0x24 (4 * n) s, bad)

/-! ## SORT (R142) -/

def sortN (ws : List Nat) : Nat := bitsOf (nth 0 ws 0) 31 0
def sortD (ws : List Nat) : Nat := bitsOf (nth 0 ws 4) 11 0 + 1
def sortR (ws : List Nat) : Nat := 16 * (bitsOf (nth 0 ws 4) 27 16 + 1)
def sortCapVec (ws : List Nat) : Bool := bitAt (nth 0 ws 4) 28
def sortTable (ws : List Nat) : Nat := roundUp (4 * sortD ws) 64

def sort (p : Nat) (s : State) : State :=
  issueList p 4
    (fun ws => onlyFields ws [[(63, 60), (31, 0)], near44, near44, near44, [(11, 0), (28, 16), (63, 32)], near44, near44, resultBits]
      && nth 0 ws 6 % 64 = 0)
    (fun ws =>
      let n := sortN ws
      inHiveNear p (nth 0 ws 1) (n * sortR ws) && inHiveNear p (nth 0 ws 2) (n * sortR ws) && inHiveNear p (nth 0 ws 3) (2 * n)
        && (!sortCapVec ws || inHiveNear p (nth 0 ws 5) (4 * sortD ws))
        && inHiveNear p (nth 0 ws 6) (3 * sortTable ws + 4 * n)) s

/-- Counts of SORT's first pass, input by input: kept and dropped by destination, skipped, absent, and the place within
its group of each record that is kept. -/
structure SortCount where
  kept : SMap Nat := []
  dropped : SMap Nat := []
  skipped : Nat := 0
  absent : Nat := 0
  place : SMap Nat := []

def sortStep (cap : Nat → Nat) (d dst i : Nat) (c : SortCount) : SortCount :=
  if dst = 0xFFFF then { c with skipped := c.skipped + 1 }
  else if dst ≥ d then { c with absent := c.absent + 1 }
  else
    let k := SMap.get 0 c.kept dst
    if k < cap dst then { c with kept := SMap.set 0 c.kept dst (k + 1), place := SMap.insert c.place i k }
    else { c with dropped := SMap.update 0 c.dropped dst (· + 1) }

def sumTo (f : Nat → Nat) (n : Nat) : Nat := (List.range n).foldl (fun a i => a + f i) 0

def sortDone (p : Nat) (ws : List Nat) (s : State) : ListEnd × State :=
  let n := sortN ws
  let d := sortD ws
  let r := sortR ws
  let dv := nth 0 ws 3
  let cv := nth 0 ws 5
  if (n ≠ 0 && poisoned s dv (2 * n)) || (sortCapVec ws && poisoned s cv (4 * d)) then ({ code := 2, poison := true }, s)
  else
    let dst (i : Nat) : Nat := numAt s (dv + 2 * i) 2
    let cap (k : Nat) : Nat := if sortCapVec ws then numAt s (cv + 4 * k) 4 else bitsOf (nth 0 ws 4) 63 32
    let c := (List.range n).foldl (fun c i => sortStep cap d (dst i) i c) {}
    let kept (k : Nat) : Nat := SMap.get 0 c.kept k
    let offs := (List.range d).foldl (fun (acc : List Nat × Nat) k => (acc.2 :: acc.1, acc.2 + kept k)) ([], 0)
    let off (k : Nat) : Nat := nth 0 offs.1.reverse k
    let total := offs.2
    let outIdx (i : Nat) : Option Nat := (c.place.find? (fun e => e.1 = i)).map (fun e => off (dst i) + e.2)
    let pieces := (List.range n).flatMap (fun i =>
      match outIdx i with
      | none => []
      | some k => (List.range (r / 16)).map (fun q =>
          let a := nth 0 ws 1 + i * r + 16 * q
          (nth 0 ws 2 + k * r + 16 * q, readBytes s a 16, poisoned s a 16)))
    let t := nth 0 ws 6
    let tab := sortTable ws
    let s := scatter pieces s
    let s := memWrite t ((List.range d).flatMap (fun k => natLe 4 (kept k))) false s
    let s := memWrite (t + tab) ((List.range d).flatMap (fun k => natLe 4 (off k))) false s
    let s := memWrite (t + 2 * tab) ((List.range d).flatMap (fun k => natLe 4 (SMap.get 0 c.dropped k))) false s
    let s := memWrite (t + 3 * tab) ((List.range n).flatMap (fun i => natLe 4 ((outIdx i).getD 0xFFFFFFFF))) false s
    let s := iter c.absent s (fun _ t => sparseRange p t)
    ({ w1 := total, w2 := sumTo (fun k => SMap.get 0 c.dropped k) d, w3 := c.skipped, w4 := c.absent },
      count p 0x24 (2 * n + r * total) s)

/-! ## PACK and UNPACK (R143, R247) -/

def packMask (ws : List Nat) : Nat := bitsOf (nth 0 ws 0) 47 0
def packPanel (ws : List Nat) : Bool := bitAt (nth 0 ws 0) 52
def packFill (ws : List Nat) : Bool := bitAt (nth 0 ws 0) 53
def packLimit (ws : List Nat) : Nat := bitsOf (nth 0 ws 3) 15 0 + 1
def packRow (ws : List Nat) : Nat := bitsOf (nth 0 ws 3) 63 32

def packBytes (ws : List Nat) : Nat :=
  if packPanel ws then (packRow ws + 1) / 2 * 1024 else packLimit ws * packRow ws

def packValid (ws : List Nat) : Bool :=
  onlyFields ws [[(63, 60), (55, 52), (47, 0)], near44, near44, [(15, 0), (63, 32)], [(5, 0), (63, 32)], [], [], resultBits]
    && bitsOf (nth 0 ws 0) 55 54 ≠ 3 && !(packPanel ws && packLimit ws > 512)

def packRange (p : Nat) (ws : List Nat) : Bool :=
  inHiveNear p (nth 0 ws 1) (48 * 64)
    && (inHiveNear p (nth 0 ws 2) (packBytes ws) || inOwnComb p (nth 0 ws 2) (packBytes ws))

def pack (p : Nat) (s : State) : State := issueList p 5 packValid (packRange p) s
def unpack (p : Nat) (s : State) : State := issueList p 6 packValid (packRange p) s

/-- A position of a context takes no part (R247). -/
def posSkipped (s : State) (flags map x : Nat) : Bool :=
  bitAt flags 32 || (map ≠ 0 && (if bitAt flags 33 then byteAt s (map + x) ≠ 0 else bitAt (byteAt s (map + x / 8)) (x % 8)))

/-- Bytes of a context's skip map. -/
def skipBytes (flags : Nat) : Nat := if bitAt flags 33 then bitsOf flags 31 0 else (bitsOf flags 31 0 + 7) / 8

/-- A context read: poisoned, outside the hive, or its rows (position and address) from a position on. -/
inductive Context where
  | poison
  | outside
  | rows (xs : List (Nat × Nat × Nat))

def contextRows (s : State) (p table q start rowBytes : Nat) : Context :=
  let a := table + 64 * q
  if poisoned s a 24 then .poison
  else
    let f := numAt s a 8
    let base := numAt s (a + 8) 8 % 2 ^ 44
    let map := numAt s (a + 16) 8 % 2 ^ 44
    let len := if bitAt f 34 then bitsOf f 31 0 else 0
    if len = 0 || bitAt f 32 then .rows []
    else if !inHiveNear p base (len * rowBytes) || (map ≠ 0 && !inHiveNear p map (skipBytes f)) then .outside
    else if map ≠ 0 && poisoned s map (skipBytes f) then .poison
    else .rows (((List.range len).filter (fun x => start ≤ x && !posSkipped s f map x)).map (fun x => (q, x, base + x * rowBytes)))

/-- The rows of the contexts in the mask from the resume point, in order; none on poison or an address outside the hive. -/
def packRows (s : State) (p : Nat) (ws : List Nat) : List Nat → List (Nat × Nat × Nat) → Except Bool (List (Nat × Nat × Nat))
  | [], acc => .ok acc
  | q :: qs, acc =>
    let rq := bitsOf (nth 0 ws 4) 5 0
    let rp := bitsOf (nth 0 ws 4) 63 32
    if acc.length > packLimit ws then .ok acc
    else
      match contextRows s p (nth 0 ws 1) q (if q = rq then rp else 0) (packRow ws) with
      | .poison => .error true
      | .outside => .error false
      | .rows xs => packRows s p ws qs (acc ++ xs)

/-- Where bytes 2c and 2c + 1 of packed row i lie in the dense buffer. -/
def packPlace (ws : List Nat) (i c : Nat) : Nat :=
  if packPanel ws then nth 0 ws 2 + 1024 * c + 2 * i else nth 0 ws 2 + i * packRow ws + 2 * c

/-- The pieces of at most two bytes that one row moves: its address in memory and in the dense buffer, and its length. -/
def packPieces (ws : List Nat) (i addr : Nat) : List (Nat × Nat × Nat) :=
  (List.range ((packRow ws + 1) / 2)).map (fun c => (addr + 2 * c, packPlace ws i c, min 2 (packRow ws - 2 * c)))

def packMove (p : Nat) (back : Bool) (ws : List Nat) (s : State) : ListEnd × State :=
  let qs := (setBitsOf 48 (packMask ws)).filter (fun q => bitsOf (nth 0 ws 4) 5 0 ≤ q)
  match packRows s p ws qs [] with
  | .error true => ({ code := 2, poison := true }, s)
  | .error false => ({ outside := true }, s)
  | .ok all =>
    let rows := all.take (packLimit ws)
    let moves := (List.range rows.length).flatMap (fun i => packPieces ws i (nth (0, 0, 0) rows i).2.2)
    let pieces := moves.map (fun m =>
      let src := if back then m.2.1 else m.1
      let dst := if back then m.1 else m.2.1
      (dst, readBytes s src m.2.2, poisoned s src m.2.2))
    let fill := if !back && packFill ws && packPanel ws then
        (List.range (512 - rows.length)).flatMap (fun k =>
          (List.range ((packRow ws + 1) / 2)).map (fun c => (packPlace ws (rows.length + k) c, [0, 0], false)))
      else []
    let s := scatter (pieces ++ fill) s
    let e : ListEnd := { w1 := rows.length }
    let e := match all[packLimit ws]? with
      | some r => { e with code := 3, w2 := r.1, w3 := r.2.1 }
      | none => e
    (e, count p 0x24 (rows.length * packRow ws) s)

/-! ## COMBINE (R144) -/

def combineN (ws : List Nat) : Nat := bitsOf (nth 0 ws 0) 31 0
def combineRow (ws : List Nat) : Nat := bitsOf (nth 0 ws 3) 31 0
def combineTokens (ws : List Nat) : Nat := bitsOf (nth 0 ws 3) 63 32

def combine (p : Nat) (s : State) : State :=
  issueList p 7
    (fun ws => onlyFields ws [[(63, 60), (31, 0)], near44, near44, [(63, 0)], [], [], [], resultBits] && combineRow ws % 4 = 0)
    (fun ws => inHiveNear p (nth 0 ws 1) (16 * combineN ws) && inHiveNear p (nth 0 ws 2) (combineRow ws * combineTokens ws)) s

/-- A source row's bytes: the forager reads only its own hive's near memory, and what it delivers for another address the
spec leaves open. -/
def combineSource (s : State) (p a n : Nat) : List Nat × Bool :=
  if inHiveNear p a n then (readBytes s a n, false) else ((List.range n).map (fun i => Config.offlineByte (a + i) % 256), true)

/-- One record applied: every element of its destination row gains the source element, rounded to FP32 with RNE. -/
def combineApply (p : Nat) (ws : List Nat) (pos src : Nat) (s : State) : State :=
  let n := combineRow ws
  let dst := nth 0 ws 2 + pos * n
  let (bs, free) := combineSource s p src n
  scatter ((List.range (n / 4)).map (fun k =>
    (dst + 4 * k, natLe 4 (add32 (numAt s (dst + 4 * k) 4) (leNat ((bs.drop (4 * k)).take 4))),
      poisoned s (dst + 4 * k) 4 || (!free && poisoned s (src + 4 * k) 4)))) s

structure CombineRun where
  applied : Nat := 0
  absent : Nat := 0
  last : Option (Nat × Nat) := none
  code : Nat := 0
  state : State

def combineStep (p : Nat) (ws : List Nat) (i : Nat) (c : CombineRun) : CombineRun :=
  if c.code ≠ 0 then c
  else
    let a := nth 0 ws 1 + 16 * i
    let s := c.state
    if poisoned s a 16 then { c with code := 2 }
    else
      let v := numAt s a 16
      let ex := bitsOf v 15 0
      let pos := bitsOf v 63 32
      let behind := match c.last with
        | none => false
        | some (e, q) => decide (ex < e) || (decide (ex = e) && decide (pos < q))
      if behind then { c with code := 1, state := listOrder p s }
      else if pos ≥ combineTokens ws then { c with absent := c.absent + 1, last := some (ex, pos), state := sparseRange p s }
      else { c with applied := c.applied + 1, last := some (ex, pos), state := combineApply p ws pos (bitsOf v 107 64) s }

def combineDone (p : Nat) (ws : List Nat) (s : State) : ListEnd × State :=
  let c : CombineRun := iter (combineN ws) { state := s } (combineStep p ws)
  ({ code := c.code, w1 := c.applied, w4 := c.absent, poison := c.code = 2 },
    count p 0x24 (16 * combineN ws + 2 * combineRow ws * c.applied) c.state)

/-! ## ENCODE (R123, R124, R145) -/

structure EncodeD where
  n : Nat
  width : Nat
  list : Nat
  matrix : Nat
  base : Nat
  stride : Nat
  kb : Nat
  nb : Nat
  tk : Nat
  tn : Nat

def encodeD (ws : List Nat) : EncodeD :=
  let e := nth 0 ws 5
  { n := bitsOf (nth 0 ws 0) 31 0, width := bitsOf (nth 0 ws 0) 56 55, list := nth 0 ws 1, matrix := nth 0 ws 2, base := nth 0 ws 3,
    stride := bitsOf (nth 0 ws 4) 39 0, kb := bitsOf e 13 0 + 1, nb := bitsOf e 29 16 + 1, tk := bitsOf e 45 40 + 1,
    tn := bitsOf e 53 48 + 1 }

def EncodeD.kTiles (d : EncodeD) : Nat := (d.kb + d.tk - 1) / d.tk
def EncodeD.tiles (d : EncodeD) : Nat := d.kTiles * ((d.nb + d.tn - 1) / d.tn)
def EncodeD.dense (d : EncodeD) : Nat := d.tk * d.tn * blockBytes d.width

def encode (p : Nat) (s : State) : State :=
  issueList p 8
    (fun ws =>
      let d := encodeD ws
      onlyFields ws [[(63, 60), (56, 55), (31, 0)], near44, near44, near44, [(39, 0)], [(13, 0), (29, 16), (45, 40), (53, 48)], [], resultBits]
        && d.width ≠ 3 && d.kb ≤ 16383 && d.stride ≠ 0 && d.stride % 16 = 0)
    (fun ws =>
      let d := encodeD ws
      inHiveNear p d.list (4 * d.n) && inHiveNear p d.matrix (matrixBytes d.kb d.nb d.stride d.width)
        && inHiveNear p d.base (roundUp (2 * d.tiles) 64 + d.tiles * d.dense)) s

/-- What ENCODE has written: the next body's address, the tile being gathered with its mask entries, tiles written. -/
structure EncodeRun where
  body : Nat
  tile : Nat := 0
  entries : List Nat := []
  absent : Nat := 0
  code : Nat := 0
  state : State

/-- A tile written in the form R124 chooses. -/
def encodeTile (d : EncodeD) (c : EncodeRun) : EncodeRun :=
  let b := blockBytes d.width
  let cnt := c.entries.length
  let kt := c.tile % d.kTiles
  let nt := c.tile / d.kTiles
  let sparse := roundUp (cnt * (b + 2)) 64 ≤ d.dense
  let s := c.state
  let block (v : Nat) : List Nat × Bool := gatherBlock s d.matrix d.stride d.width (bitsOf v 13 0) (bitsOf v 27 14)
  let hdr := if sparse then cnt else 0x8000
  let coord (v : Nat) : Nat :=
    bitsOf v 31 30 * 2 ^ 14 + b2n (bitAt v 28) * 2 ^ 13 + b2n (bitAt v 29) * 2 ^ 12
      + (bitsOf v 27 14 - nt * d.tn) * 64 + (bitsOf v 13 0 - kt * d.tk)
  let size := if sparse then cnt * (b + 2) else d.dense
  let pieces := if sparse then
      (List.range cnt).map (fun i =>
        let x := block (nth 0 c.entries i)
        (c.body + i * b, x.1, x.2))
      ++ (List.range cnt).map (fun i => (c.body + cnt * b + 2 * i, natLe 2 (coord (nth 0 c.entries i)), false))
    else
      (List.range (d.tk * d.tn)).map (fun i =>
        let kb := kt * d.tk + i / d.tn
        let nb := nt * d.tn + i % d.tn
        match c.entries.find? (fun v => bitsOf v 13 0 = kb && bitsOf v 27 14 = nb) with
        | some v => (c.body + i * b, (block v).1, (block v).2)
        | none => (c.body + i * b, List.replicate b 0, false))
  let flat := pieces.flatMap (fun x => (List.range ((x.2.1.length + 1) / 2)).map (fun k =>
    (x.1 + 2 * k, (x.2.1.drop (2 * k)).take 2, x.2.2)))
  { c with
    body := roundUp (c.body + size) 64
    tile := c.tile + 1
    entries := []
    state := memWrite (d.base + 2 * c.tile) (natLe 2 hdr) false (scatter flat s) }

/-- Tiles up to (not including) t written. -/
def encodeUpTo (d : EncodeD) (t : Nat) (c : EncodeRun) : EncodeRun := iter (t - c.tile) c (fun _ c => encodeTile d c)

def encodeStep (p : Nat) (d : EncodeD) (i : Nat) (c : EncodeRun) : EncodeRun :=
  if c.code ≠ 0 then c
  else
    let a := d.list + 4 * i
    if poisoned c.state a 4 then { c with code := 2 }
    else
      let v := numAt c.state a 4
      let kb := bitsOf v 13 0
      let nb := bitsOf v 27 14
      if kb = 0x3FFF then c
      else if kb ≥ d.kb || nb ≥ d.nb then { c with absent := c.absent + 1, state := sparseRange p c.state }
      else
        let t := nb / d.tn * d.kTiles + kb / d.tk
        if t < c.tile then { c with code := 1, state := listOrder p c.state }
        else
          let c := encodeUpTo d t c
          { c with entries := c.entries ++ [v] }

def encodeDone (p : Nat) (ws : List Nat) (s : State) : ListEnd × State :=
  let d := encodeD ws
  let c : EncodeRun := iter d.n { body := d.base + roundUp (2 * d.tiles) 64, state := s } (encodeStep p d)
  let c := if c.code = 0 then encodeUpTo d d.tiles c else c
  ({ code := c.code, w1 := c.tile, w4 := c.absent, poison := c.code = 2 }, count p 0x24 (4 * d.n) c.state)

/-! ## Order between the two engines (R139) -/

/-- The near-memory ranges an accepted list function names: address and length. -/
def listRanges (ws : List Nat) : List (Nat × Nat) :=
  match bitsOf (nth 0 ws 0) 63 60 with
  | 2 => [(nth 0 ws 1, 4 * mergeA ws), (nth 0 ws 2, 4 * mergeB ws), (nth 0 ws 3, 4 * mergeMax ws)]
  | 3 => [(nth 0 ws 1, 4 * prefixN ws), (nth 0 ws 2, 4 * (prefixN ws + 1))]
  | 4 => [(nth 0 ws 1, sortN ws * sortR ws), (nth 0 ws 2, sortN ws * sortR ws), (nth 0 ws 3, 2 * sortN ws),
          (nth 0 ws 6, 3 * sortTable ws + 4 * sortN ws)] ++ (if sortCapVec ws then [(nth 0 ws 5, 4 * sortD ws)] else [])
  | 5 => [(nth 0 ws 1, 48 * 64), (nth 0 ws 2, packBytes ws)]
  | 6 => [(nth 0 ws 1, 48 * 64), (nth 0 ws 2, packBytes ws)]
  | 7 => [(nth 0 ws 1, 16 * combineN ws), (nth 0 ws 2, combineRow ws * combineTokens ws)]
  | _ =>
    let d := encodeD ws
    [(d.list, 4 * d.n), (d.matrix, matrixBytes d.kb d.nb d.stride d.width),
     (d.base, roundUp (2 * d.tiles) 64 + d.tiles * d.dense)]

/-- The near-memory ranges of a walk; the bodies of a STILE operand taken at their largest. -/
def walkRanges (ws : List Nat) : List (Nat × Nat) :=
  let d := walkD ws
  let b := blockBytes d.width
  [(d.list, if d.form = 0 then 4 * d.count else if d.form = 1 then groupBytes d.n * d.count else 2 * d.count),
   (d.blocks, if d.form = 2 then d.count * d.tk * d.tn * b
      else if d.dense then matrixBytes d.kb d.nb d.stride d.width
      else if d.form = 0 then b * d.count else b * d.n * d.count)]

def rangesMeet (xs ys : List (Nat × Nat)) : Bool :=
  xs.any (fun x => ys.any (fun y => x.2 ≠ 0 && y.2 ≠ 0 && x.1 < y.1 + y.2 && y.1 < x.1 + x.2))

/-- The feed engine's next entry (R129), once no list function accepted before the walk and over its ranges is unfinished. -/
def feedSend (p stalled : Nat) (s : State) : State :=
  let x := pair s p
  match x.walks with
  | [] => s
  | o :: _ =>
    if x.lists.any (fun l => l.seq < o.seq && rangesMeet (listRanges l.desc) (walkRanges o.desc)) then s
    else foragerEntrySend p stalled s

/-! ## The end of a list function (R137, R186) -/

/-- The 64 bytes of a result block. -/
def ListEnd.bytes (e : ListEnd) : List Nat :=
  natLe 8 (e.code + b2n e.carry * 256) ++ natLe 8 e.w1 ++ natLe 8 e.w2 ++ natLe 8 e.w3 ++ natLe 8 e.w4 ++ List.replicate 24 0

/-- What an accepted list function reads while its hive is under reset: the word whose poison stops it, or for PREFIX, which
no poison stops, every word. -/
def listReads (ws : List Nat) : List (Nat × Nat) :=
  match bitsOf (nth 0 ws 0) 63 60 with
  | 2 => [(nth 0 ws 1, min 4 (4 * mergeA ws)), (nth 0 ws 2, min 4 (4 * mergeB ws))]
  | 3 => [(nth 0 ws 1, 4 * prefixN ws)]
  | 4 => (nth 0 ws 3, 2 * sortN ws) :: (if sortCapVec ws then [(nth 0 ws 5, 4 * sortD ws)] else [])
  | 5 | 6 =>
    match (setBitsOf 48 (packMask ws)).find? (fun q => bitsOf (nth 0 ws 4) 5 0 ≤ q) with
    | some q => [(nth 0 ws 1 + 64 * q, 24)]
    | none => []
  | 7 => [(nth 0 ws 1, min 16 (16 * combineN ws))]
  | _ => [((encodeD ws).list, min 4 (4 * (encodeD ws).n))]

/-- The function of an accepted descriptor run: what it ends with, and whether its result is poisoned. -/
def runList (p : Nat) (o : UnitOp) (s : State) : ListEnd × State × Bool :=
  let ws := o.desc
  let clean (r : ListEnd × State) : ListEnd × State × Bool := (r.1, r.2, false)
  match bitsOf (nth 0 ws 0) 63 60 with
  | 2 => clean (mergeDone p ws s)
  | 3 => prefixDone p ws s
  | 4 => clean (sortDone p ws s)
  | 5 => clean (packMove p false ws s)
  | 6 => clean (packMove p true ws s)
  | 7 => clean (combineDone p ws s)
  | _ => clean (encodeDone p ws s)

/-- The list function in progress ends: its writes, its result block, its semaphore. One that reaches an address outside
the hive is rejected (R116, R247): nothing is written. -/
def listFunctionDone (p : Nat) (s : State) : State :=
  match (pair s p).lists with
  | [] => s
  | o :: rest =>
    let pop (s : State) : State := modPair p (fun x => { x with lists := rest }) s
    let (e, t, bad) := runList p o ((listReads o.desc).foldl (fun t x => noteOfflineRange x.1 x.2 0 true t) s)
    if (pair s p).walks.any (fun w => w.seq < o.seq && rangesMeet (walkRanges w.desc) (listRanges o.desc)) then s
    else if e.outside then pairFault p fAddrRange 2 o.index 0 (raise F.FORAGER_EVENTS_addr_fault p (pop s))
    else
      let t := if e.poison then listPoison p t else t
      let t := memWrite (combAddr p (resultOff o.desc)) e.bytes bad (pop t)
      let t := count p 0x21 64 t
      if wSig o.word then semInc p (wSem o.word) t else t

end Sys2Proof.Machine
end

