-- ==== Sys2Proof/Machine/Copies.lean ====
section
/-! DEFINITION. The copy engine of a pair (R161–R171): SHAPE, GATHER and SCATTER descriptors, their start and completion,
and the puts and gets of other parts. -/

namespace Sys2Proof.Machine

/-! ## Descriptors (R163–R166, R169) -/

/-- The operation a COPY's descriptor selects, if it can be read and selects one. -/
def copyFn (s : State) (p w : Nat) : Option Nat :=
  let f := wbits (numAt s (combAddr p (descOff w)) 8) 63 60
  if descOff w % 128 ≠ 0 || !inComb (descOff w) 128 || poisoned s (combAddr p (descOff w)) 128 then none
  else if 8 ≤ f && f ≤ 10 then some f else none

/-- The word is a COPY of this row's operation, or one that no row could issue. -/
def isCopy (p fn : Nat) (w : Nat) (s : State) : Bool :=
  wCls w = 0 && wOp w = 0 && (match copyFn s p w with
    | none => true
    | some f => f = fn)

/-- A side of a copy: the part that holds it, if another, its base address, and what it spans. -/
structure Side2 where
  remote : Option Nat
  base : Nat
  lo : Int
  len : Nat

/-- The footprint of a side (R164): the smallest range that holds every unit. -/
def footprint (base u : Nat) (ext : List Nat) (stride : List Int) : Int × Nat :=
  let span := (List.range 4).map (fun a => ((nth 1 ext a - 1 : Nat) : Int) * nth 0 stride a)
  let lo := (base : Int) + (span.map (fun x => min x 0)).foldl (· + ·) 0
  let hi := (base : Int) + (span.map (fun x => max x 0)).foldl (· + ·) 0
  (lo, (hi - lo).toNat + u)

/-- A local footprint lies in far memory, in near memory or in one comb (R165). -/
def footOk (f : Int × Nat) : Bool := 0 ≤ f.1 && inOneMemory f.1.toNat f.2

/-- Two local footprints lie in one memory and intersect. -/
def footMeet (x y : Int × Nat) : Bool := x.1 < y.1 + (y.2 : Int) && y.1 < x.1 + (x.2 : Int)

/-- The address a side names: none where its reserved bits are set (R162). -/
def CopyOp.srcSide (s : State) (c : CopyOp) : Option (Option Nat × Nat) := addrForm s c.src
def CopyOp.dstSide (s : State) (c : CopyOp) : Option (Option Nat × Nat) := addrForm s c.dst

/-- The fields of a copy descriptor. -/
def copyOp (s : State) (p : Nat) (ws : List Nat) : CopyOp :=
  let w0 := nth 0 ws 0
  let shape := bitsOf w0 63 60 = 8
  { kind := bitsOf w0 63 60
    unit := bitsOf w0 59 57
    width := bitsOf w0 56 55
    inPlace := bitAt w0 54
    sem := bitsOf w0 53 48
    rsig := bitAt w0 47
    rsem := bitsOf w0 46 41
    rpair := bitsOf w0 40 35
    src := nth 0 ws 1
    dst := nth 0 ws 2
    ext := if shape then (List.range 4).map (fun a => bitsOf (nth 0 ws 3) (16 * a + 15) (16 * a) + 1) else []
    sstride := if shape then (List.range 4).map (fun a => toSigned 64 (nth 0 ws (4 + a))) else []
    dstride := if shape then (List.range 4).map (fun a => toSigned 64 (nth 0 ws (8 + a))) else []
    stage := bitsOf (nth 0 ws 12) 22 0
    list := if shape then 0 else nth 0 ws 3
    count := bitsOf (nth 0 ws 4) 31 0
    kbExt := bitsOf (nth 0 ws 5) 13 0
    nbExt := bitsOf (nth 0 ws 5) 29 16
    rowStride := bitsOf (nth 0 ws 6) 39 0
    index := seqPc s p
    seq := (pair s p).seq }

/-- Bytes of a unit. -/
def CopyOp.u (c : CopyOp) : Nat := 2 ^ c.unit

/-- The square tile that in_place requires (R166). -/
def CopyOp.square (c : CopyOp) : Bool :=
  let n := nth 1 c.ext 0
  n = nth 1 c.ext 1 && nth 1 c.ext 2 = 1 && nth 1 c.ext 3 = 1 && n * n * c.u ≤ 65536
    && nth 0 c.dstride 0 = nth 0 c.sstride 1 && nth 0 c.dstride 1 = nth 0 c.sstride 0

/-- The copy is plain (R164). -/
def CopyOp.plain (c : CopyOp) : Bool :=
  (List.range 4).all (fun a => nth 1 c.ext a = 1 || nth 0 c.dstride a = nth 0 c.sstride a)

/-- Local sources and destinations of a copy, as ranges; a remote side contributes none. -/
def CopyOp.feet (s : State) (c : CopyOp) : List (Int × Nat) × List (Int × Nat) :=
  if c.kind = 8 then
    let side (f : Option (Option Nat × Nat)) (stride : List Int) : List (Int × Nat) :=
      match f with
      | some (none, a) => [footprint a c.u c.ext stride]
      | _ => []
    (side (c.srcSide s) c.sstride, side (c.dstSide s) c.dstride)
  else
    let at44 (v : Nat) : Nat := bitsOf v 43 0
    let matrix : Int × Nat := ((at44 c.src : Nat), matrixBytes (c.kbExt + 1) (c.nbExt + 1) c.rowStride c.width)
    let packed : Int × Nat := ((at44 c.dst : Nat), c.count * blockBytes c.width)
    let list : Int × Nat := ((at44 c.list : Nat), 4 * c.count)
    if c.kind = 9 then ([matrix, list], [packed]) else ([packed, list], [matrix])

/-- The staging area of an in-place copy. -/
def CopyOp.stageRange (p : Nat) (c : CopyOp) : Int × Nat :=
  ((combAddr p c.stage : Nat), nth 1 c.ext 0 * nth 1 c.ext 0 * c.u)

/-- What is wrong with a copy's descriptor: the fault, if any (R165, R166, R169). -/
def copyFault (s : State) (p : Nat) (ws : List Nat) (c : CopyOp) : Option Nat :=
  let zero (xs : List Nat) : Bool := xs.all (fun i => nth 0 ws i = 0)
  let strideOk (x : Int) : Bool := x.natAbs < 2 ^ 44
  if c.kind = 8 then
    let bad :=
      !onlyBits (nth 0 ws 0) [(63, 57), (54, 35)] || !zero [13, 14, 15]
        || (if c.inPlace then !onlyBits (nth 0 ws 12) [(22, 0)] else nth 0 ws 12 ≠ 0)
        || (c.srcSide s).isNone || (c.dstSide s).isNone
        || (List.range 4).any (fun a => nth 0 c.dstride a = 0 && nth 1 c.ext a > 1)
        || !(c.sstride.all strideOk && c.dstride.all strideOk)
        || (c.inPlace && !c.square)
        || (match c.srcSide s, c.dstSide s with
            | some (some _, _), some (some _, _) => true
            | _, some (none, _) => c.rsig
            | _, _ => false)
    let m := min c.u 64
    let off := c.src % m ≠ 0 || c.dst % m ≠ 0 || (c.sstride ++ c.dstride).any (fun x => x % (m : Int) ≠ 0)
      || (c.inPlace && c.stage % 64 ≠ 0)
    let (fs, fd) := c.feet s
    let stg := c.stageRange p
    let range := !((fs ++ fd).all footOk) || (c.inPlace && !inComb c.stage stg.2)
    let overlap := fs.any (fun x => fd.any (fun y => footMeet x y))
    if bad then some fDescInvalid
    else if off then some fMisaligned
    else if range then some fAddrRange
    else if c.inPlace then (if (fs ++ fd).any (fun x => footMeet x stg) then some fOverlap else none)
    else if overlap && !c.plain then some fOverlap
    else none
  else
    let local44 (v : Nat) : Bool := match addrForm s v with
      | some (none, _) => true
      | _ => false
    let bad :=
      !onlyBits (nth 0 ws 0) [(63, 60), (56, 55), (53, 48)] || c.width = 3 || !onlyBits (nth 0 ws 4) [(31, 0)]
        || !onlyBits (nth 0 ws 5) [(13, 0), (29, 16)] || !onlyBits (nth 0 ws 6) [(39, 0)]
        || !zero [7, 8, 9, 10, 11, 12, 13, 14, 15] || c.count = 0 || c.rowStride = 0 || c.rowStride % 16 ≠ 0
        || c.kbExt + 1 > 16383 || !local44 c.src || !local44 c.dst || !local44 c.list
    let (fs, fd) := c.feet s
    if bad then some fDescInvalid
    else if !((fs ++ fd).all footOk) then some fAddrRange
    else if fs.any (fun x => fd.any (fun y => footMeet x y)) then some fOverlap
    else none

/-- Issue of a COPY (R163, R178): eight at most wait (R167). -/
def issueCopy (p w : Nat) (s : State) : Issue :=
  checks (!onlyBits w [(9, 0), (58, 24)]) false (descOff w % 128 ≠ 0) (!inComb (descOff w) 128)
    (if poisoned s (combAddr p (descOff w)) 128 then .fault 0x11
     else if (copyFn s p w).isNone then .fault fDescInvalid
     else
       let ws := descWords s p w 16
       let c := copyOp s p ws
       match copyFault s p ws c with
       | some f => .fault f
       | none =>
         if (pair s p).copies.length ≥ 8 then .stall
         else .done (modPair p (fun x => { x with copies := x.copies ++ [c] }) s) none)

def copyShape (p : Nat) (s : State) : State := issueWith p (isCopy p 8) (issueCopy p) s
def copyGather (p : Nat) (s : State) : State := issueWith p (isCopy p 9) (issueCopy p) s
def copyScatter (p : Nat) (s : State) : State := issueWith p (isCopy p 10) (issueCopy p) s

/-! ## Units (R164) -/

/-- The number of units. -/
def CopyOp.units (c : CopyOp) : Nat := c.ext.foldl (· * ·) 1

/-- The address of unit L on a side. -/
def unitAddr (base : Nat) (ext : List Nat) (stride : List Int) (l : Nat) : Nat :=
  let n (a : Nat) : Nat := nth 1 ext a
  let i0 := l % n 0
  let i1 := l / n 0 % n 1
  let i2 := l / n 0 / n 1 % n 2
  let i3 := l / n 0 / n 1 / n 2
  ((base : Int) + i0 * nth 0 stride 0 + i1 * nth 0 stride 1 + i2 * nth 0 stride 2 + i3 * nth 0 stride 3).toNat

/-! ## Start (R167) -/

/-- A copy must wait for an earlier unfinished one. -/
def mustWait (s : State) (later earlier : CopyOp) : Bool :=
  let (ls, ld) := later.feet s
  let (es, ed) := earlier.feet s
  (ls ++ ld).any (fun x => ed.any (fun y => footMeet x y)) || ld.any (fun x => es.any (fun y => footMeet x y))

/-- Element k of a pair's copies replaced. -/
def setCopy (p k : Nat) (c : CopyOp) (s : State) : State := modPair p (fun x => { x with copies := x.copies.set k c }) s

/-- A request recorded and its message sent (R308). -/
def sendRequest (kind p ref member : Nat) (m : Packet) (s : State) : State :=
  let id := s.nextReq
  let r : Request := { id := id, pair := p, kind := kind, dst := m.dst, sent := s.us, ref := ref, member := member }
  inject { m with req := id, pair := m.pair } { s with requests := s.requests ++ [r], nextReq := id + 1 }

/-- A unit as pieces of a sector each at most: its bytes from `src`, its poison by the sector that feeds it (R218). -/
def unitPieces (s : State) (src dst u : Nat) : List (Nat × List Nat × Bool) :=
  (List.range ((u + 63) / 64)).map (fun k =>
    let n := min 64 (u - 64 * k)
    (dst + 64 * k, readBytes s (src + 64 * k) n, poisoned s (src + 64 * k) n))

/-- The reads of a copy's source, noted where they meet offline memory. -/
def noteSource (c : CopyOp) (sa : Nat) (s : State) : State :=
  iter c.units s (fun l t => noteOfflineRange (unitAddr sa c.ext c.sstride l) c.u 0 true t)

/-- The tile of an in-place copy read into its staging area (R166). -/
def stageTile2 (p : Nat) (c : CopyOp) (sa : Nat) (s : State) : State :=
  let src (l : Nat) : Nat := unitAddr sa c.ext c.sstride l
  let pieces := (List.range c.units).flatMap (fun l => unitPieces s (src l) (combAddr p (c.stage + l * c.u)) c.u)
  scatter pieces (noteSource c sa s)

/-- The message of a put: its units in ascending L, from the source or from the staging area, where each goes, its footprint,
its poison by payload sector. -/
def putMessage (s : State) (p : Nat) (c : CopyOp) (dev sa da : Nat) : Packet :=
  let ls := List.range c.units
  let src (l : Nat) : Nat := if c.inPlace then combAddr p (c.stage + l * c.u) else unitAddr sa c.ext c.sstride l
  let cut := ls.flatMap (fun l => unitPieces s (src l) (l * c.u) c.u)
  let f := footprint da c.u c.ext c.dstride
  { ptype := 1
    dst := dev
    cls := 1
    pair := c.rpair
    rsem := c.rsem
    rsig := c.rsig
    addr := da
    data := cut.flatMap (fun x => x.2.1)
    pieces := ls.map (fun l => (unitAddr da c.ext c.dstride l, c.u))
    aux := [ofSigned 64 f.1, f.2]
    poison := cut.foldl (fun m x => if x.2.2 then setBitN m (x.1 / 64) else m) 0 }

/-- The message of a get: the units it asks for. -/
def getMessage (p : Nat) (c : CopyOp) (dev sa : Nat) : Packet :=
  let f := footprint sa c.u c.ext c.sstride
  { ptype := 2
    dst := dev
    cls := 1
    pair := p
    addr := sa
    pieces := (List.range c.units).map (fun l => (unitAddr sa c.ext c.sstride l, c.u))
    aux := [ofSigned 64 f.1, f.2] }

/-- The oldest copy not yet started starts, if fewer than copy_inflight run and none before it stands in its way. A remote
one sends its request. -/
def copyStart (p : Nat) (s : State) : State :=
  let cs := (pair s p).copies
  let running := cs.countP (fun c => c.started)
  match cs[running]? with
  | none => s
  | some c =>
    if running ≥ fld s F.SEQ_CTRL_copy_inflight p || (cs.take running).any (mustWait s c) then s
    else
      let s := setCopy p running { c with started := true } s
      if c.kind ≠ 8 then s
      else
        match c.srcSide s, c.dstSide s with
        | some (none, sa), some (some d, da) =>
          let s := if c.inPlace then stageTile2 p c sa s else noteSource c sa s
          sendRequest 0 p c.seq 0 (putMessage s p c d sa da) s
        | some (some d, sa), some (none, _) => sendRequest 1 p c.seq 0 (getMessage p c d sa) s
        | _, _ => s

/-! ## Effects -/

/-- One unit read and written before the next is read (R166). -/
def moveUnit (src dst u : Nat) (s : State) : State :=
  scatter (unitPieces s src dst u) (noteOfflineRange src u 0 true s)

/-- A local SHAPE copy: ordered, layout-changing, or through its staging area (R166). -/
def shapeCopy (p : Nat) (c : CopyOp) (sa da : Nat) (s : State) : State :=
  let n := c.units
  let src (l : Nat) : Nat := unitAddr sa c.ext c.sstride l
  let dst (l : Nat) : Nat := unitAddr da c.ext c.dstride l
  let stg (l : Nat) : Nat := combAddr p (c.stage + l * c.u)
  if c.inPlace then
    let s := stageTile2 p c sa s
    scatter ((List.range n).flatMap (fun l => unitPieces s (stg l) (dst l) c.u)) s
  else
    let (fs, fd) := c.feet s
    if fs.any (fun x => fd.any (fun y => footMeet x y)) then
      raise F.SEQ_EVENTS_copy_ordered p (iter n s (fun l t => moveUnit (src l) (dst l) c.u t))
    else
      let pieces := (List.range n).flatMap (fun l => unitPieces s (src l) (dst l) c.u)
      scatter pieces (noteSource c sa s)

/-- The pieces of a packed block in its matrix (R118, R126). -/
def unpackBlock (s : State) (packed matrix stride width kb nb : Nat) : List (Nat × List Nat × Bool) :=
  let bits := widthBits width
  let bs := readBytes s packed (blockBytes width)
  (List.range 16).map (fun a =>
    let row := (List.range 16).map (fun b => blockElem bits bs a b)
    let bytes := if bits = 16 then row.flatMap (natLe 2) else if bits = 8 then row
      else (List.range 8).map (fun i => nth 0 row (2 * i) + 16 * nth 0 row (2 * i + 1))
    (matrix + (16 * kb + a) * stride + 16 * nb * bits / 8, bytes, poisoned s packed (blockBytes width)))

/-- One entry of a GATHER or SCATTER (R169). -/
def moveBlock (p : Nat) (c : CopyOp) (i : Nat) (s : State) : State :=
  let matrix := bitsOf c.src 43 0
  let packed := bitsOf c.dst 43 0 + i * blockBytes c.width
  let v := numAt s (bitsOf c.list 43 0 + 4 * i) 4
  let kb := bitsOf v 13 0
  let nb := bitsOf v 27 14
  let mark := kb = 0x3FFF
  let far := nb > c.nbExt || (kb > c.kbExt && !mark)
  let out := far || mark
  let s := if far then sparseRange p s else s
  let s := noteOfflineRange (bitsOf c.list 43 0 + 4 * i) 4 0 true s
  let listBad := poisoned s (bitsOf c.list 43 0 + 4 * i) 4
  if c.kind = 9 then
    if out then memWrite packed (List.replicate (blockBytes c.width) 0) listBad s
    else
      let (bs, bad) := gatherBlock s matrix c.rowStride c.width kb nb
      memWrite packed bs (bad || listBad) (iter 16 s (fun a t =>
        noteOfflineRange (blockRow matrix c.rowStride c.width kb nb a) (2 * widthBits c.width) 0 true t))
  else if out then s
  else
    let s := noteOfflineRange packed (blockBytes c.width) 0 true s
    scatter ((unpackBlock s packed matrix c.rowStride c.width kb nb).map (fun x => (x.1, x.2.1, x.2.2 || listBad))) s

/-- Bytes a copy writes at its destination. -/
def CopyOp.bytes (c : CopyOp) : Nat := if c.kind = 8 then c.units * c.u else c.count * blockBytes c.width

/-- The bytes of a completed copy counted. Those of a copy within its pair's own comb pass the mesh port out and in (R168). -/
def countCopy (p : Nat) (c : CopyOp) (s : State) : State :=
  let n := c.bytes
  let s := count p 0x25 n s
  match addrForm s c.src, addrForm s c.dst with
  | some (none, a), some (none, b) =>
    if tierOf a = .comb p then
      if tierOf b = .comb p then countRead none a n (countWrite none b n s) else count p 0x20 n (countWrite (some p) b n s)
    else if tierOf b = .comb p then count p 0x21 n (countRead (some p) a n s)
    else countRead (some p) a n (countWrite (some p) b n s)
  | some (none, a), _ => if tierOf a = .comb p then countRead none a n s else countRead (some p) a n (count p 0x22 n s)
  | _, some (none, b) => if tierOf b = .comb p then countWrite none b n s else countWrite (some p) b n (count p 0x23 n s)
  | _, _ => s

/-- A running copy writes its last unit, or has been acknowledged or answered: it leaves the engine and its semaphore is
incremented (R163, R166, R170). -/
def copyDone (p k : Nat) (s : State) : State :=
  match (pair s p).copies[k]? with
  | none => s
  | some c =>
    let fin (s : State) : State :=
      semInc p c.sem (countCopy p c (modPair p (fun x => { x with copies := x.copies.eraseIdx k }) s))
    if !c.started then s
    else if c.kind ≠ 8 then fin (iter c.count s (moveBlock p c))
    else
      match c.srcSide s, c.dstSide s with
      | some (none, sa), some (none, da) => fin (shapeCopy p c sa da s)
      | _, _ => if c.finished then fin s else s

/-! ## Puts and gets of other parts (R170) -/

/-- The footprint that a put or get message names, in its own part's map. -/
def footOf (m : Packet) : Int × Nat := (toSigned 64 (nth 0 m.aux 0), nth 0 m.aux 1)

/-- An ACK of a message. -/
def acknowledge (s : State) (m : Packet) : Packet where
  ptype := 4
  dst := m.src
  src := deviceId s
  pair := m.pair
  cls := 2
  tag := m.tag
  generation := m.generation
  req := m.req
  aux := [m.ptype]

/-- A request of another part that this part's map refuses: logged, and a REFUSE returned. -/
def refuseFoot (m : Packet) (s : State) : State :=
  let s := logEvent { block := 0x0A, item := 0x40, severity := openSeverity 0x0A 0x40, requester := m.src, addr := m.addr } s
  inject (refusal s m 1) s

/-- The pieces a put writes: bytes of the payload in order, poisoned by payload sector. -/
def putPieces (m : Packet) : List (Nat × List Nat × Bool) :=
  (m.pieces.foldl (fun (acc : Nat × List (Nat × List Nat × Bool)) x =>
    (acc.1 + x.2, acc.2 ++ (List.range ((x.2 + 63) / 64)).map (fun k =>
      (x.1 + 64 * k, ((m.data.drop acc.1).take x.2 |>.drop (64 * k)).take 64, bitAt m.poison ((acc.1 + 64 * k) / 64))))) (0, [])).2

/-- A put has been written whole: its rsem is incremented, and it is acknowledged. The increment is dropped and counted where
the pair's hive is under reset. -/
def putWhole (m : Packet) (s : State) : State :=
  let s := if !m.rsig then s
    else if hiveState s (hiveOf m.pair) ≠ hsInService then logOffline (hiveOf m.pair) m.pair s
    else semInc m.pair m.rsem s
  inject (acknowledge s m) s

/-- A PUT arrives: validated against this part's map, written, and once all its packets have come, ended. A put whose footprint
the map refuses is refused once. -/
def putReceive (m : Packet) (s : State) : State :=
  if !footOk (footOf m) then (if m.part + 1 ≥ m.parts then refuseFoot m s else s)
  else
    match assemble m ((putPieces m).foldl (fun t x => countWrite none x.1 x.2.1.length t) (scatter (putPieces m) s)) with
    | (some w, t) => putWhole w t
    | (none, t) => t

/-- A GET_REQ arrives: validated and answered with its data, or refused. -/
def getReqReceive (m : Packet) (s : State) : State :=
  if !footOk (footOf m) then refuseFoot m s
  else
    let cut := (m.pieces.foldl (fun (acc : Nat × List (Nat × List Nat × Bool)) x =>
      (acc.1 + x.2, acc.2 ++ unitPieces s x.1 acc.1 x.2)) (0, [])).2
    let answer : Packet :=
      { ptype := 3, dst := m.src, pair := m.pair, cls := 2, req := m.req
        data := cut.flatMap (fun x => x.2.1)
        poison := cut.foldl (fun w x => if x.2.2 then setBitN w (x.1 / 64) else w) 0 }
    inject answer (m.pieces.foldl (fun t x => countRead none x.1 x.2 (noteOfflineRange x.1 x.2 m.src true t)) s)

/-- A message that answers no request of this part is discarded and counted (R308). -/
def staleMessage (s : State) : State := raise F.LINK_EVENTS_stale 0 (satAddFld F.LINK_COUNTS_stale 0 1 s)

/-- The request of an answer. -/
def findRequest (s : State) (id : Nat) : Option Request := s.requests.find? (fun r => r.id = id)

def dropRequest (id : Nat) (s : State) : State := { s with requests := s.requests.filter (fun r => r.id ≠ id) }

/-- The copy of a request is marked finished. -/
def finishCopy (p seq : Nat) (s : State) : State :=
  modPair p (fun x => { x with copies := x.copies.map (fun c => if c.seq = seq then { c with finished := true } else c) }) s

/-- Where unit L of a get is written: at its destination, or in the staging area of an in-place copy (R166). -/
def getPlace (p : Nat) (c : CopyOp) (da l : Nat) : Nat :=
  if c.inPlace then combAddr p (c.stage + l * c.u) else unitAddr da c.ext c.dstride l

/-- The tile of an in-place get written from its staging area, once it is whole (R166). -/
def unstage (p : Nat) (c : CopyOp) (da : Nat) (s : State) : State :=
  if c.inPlace then
    scatter ((List.range c.units).flatMap (fun l =>
      unitPieces s (combAddr p (c.stage + l * c.u)) (unitAddr da c.ext c.dstride l) c.u)) s
  else s

/-- Data of a get arrives: the units it carries are written in ascending L; with its last packet the copy has written its
last unit. -/
def getDataReceive (m : Packet) (s : State) : State :=
  match findRequest s m.req with
  | none => staleMessage s
  | some r =>
    match (pair s r.pair).copies.find? (fun c => c.seq = r.ref) with
    | none => staleMessage (dropRequest r.id s)
    | some c =>
      match c.dstSide s with
      | some (none, da) =>
        let first := 4096 * m.part / c.u
        let pieces := (List.range (min (4096 / c.u) (c.units - first))).flatMap (fun i =>
          (List.range ((c.u + 63) / 64)).map (fun k =>
            (getPlace r.pair c da (first + i) + 64 * k, ((m.data.drop (i * c.u)).take c.u |>.drop (64 * k)).take 64,
              bitAt m.poison ((i * c.u + 64 * k) / 64))))
        match assemble m (scatter pieces s) with
        | (some _, t) => finishCopy r.pair r.ref (unstage r.pair c da (dropRequest r.id t))
        | (none, t) => t
      | _ => staleMessage (dropRequest r.id s)

/-- A put or a get was refused, or timed out: the pair fault REMOTE_REJECT, and the copy ends without its semaphore. -/
def rejectCopy (r : Request) (s : State) : State :=
  match (pair s r.pair).copies.find? (fun c => c.seq = r.ref) with
  | none => s
  | some c =>
    pairFault r.pair fRemoteReject 0 c.index 0
      (modPair r.pair (fun x => { x with copies := x.copies.filter (fun c => c.seq ≠ r.ref) }) s)

end Sys2Proof.Machine
end

