-- ==== Sys2Proof/Machine/Vector.lean ====
section
/-! DEFINITION. The vector engine (R92, R93, R98, R99, R101, R194–R197): operand layout and issue checks, element-wise
operations, sums, row operations, SELECT and HSTORE. A VEC instruction takes effect whole when it completes. -/

namespace Sys2Proof.Machine

/-! ## The VEC word (R194) -/

def vFa (w : Nat) : Nat := wbits w 27 24
def vFb (w : Nat) : Nat := wbits w 31 28
def vFd (w : Nat) : Nat := wbits w 35 32
def vN (w : Nat) : Nat := wbits w 79 59 + 1
def vImm (w : Nat) : Nat := wbits w 111 80
def vL (w : Nat) : Nat := wbits w 95 80 + 1
def vAux (w : Nat) : Nat := wbits w 127 112
def vRows (w : Nat) : Nat := vN w / vL w

/-- The scalars of xd, xa, xb and xc, in this order. -/
def vecVals (s : State) (p w : Nat) : List Nat :=
  [scalar s p (wbits w 43 39), scalar s p (wbits w 48 44), scalar s p (wbits w 53 49), scalar s p (wbits w 58 54)]

/-- What an operation adds to the checks of every VEC instruction. -/
structure VecSpec where
  /-- The aux bits it lays out; the others are reserved. -/
  auxMask : Nat := 0
  illegal : Bool := false
  operand : Bool := false
  /-- Its comb operands: offset register value and bytes. -/
  feet : List (Nat × Nat) := []

/-- Issue of a VEC instruction: its checks, and a place among eight (R179). -/
def issueVec (p : Nat) (spec : Nat → List Nat → VecSpec) (w : Nat) (s : State) : Issue :=
  let vals := vecVals s p w
  let x := spec w vals
  checks (!onlyBits w [(14, 0), (22, 16), (127, 24)] || !semOk w || !fmtCode (vFa w) || !fmtCode (vFb w) || !fmtCode (vFd w)
      || wbits w 38 36 = 7 || wbits w 14 13 = 3 || (vAux w &&& x.auxMask) ≠ vAux w || x.illegal)
    x.operand (x.feet.any (fun f => f.1 % 64 ≠ 0)) (x.feet.any (fun f => !combReg f.1 || !inComb f.1 f.2))
    (if (pair s p).vec.length ≥ 8 then .stall
     else
       let o : UnitOp :=
         { word := w, index := seqPc s p, vals := vals, rnd := resolveRnd s (wbits w 38 36), seq := (pair s p).seq,
           breath := (pair s p).sliceBreath }
       .done (modPair p (fun x => { x with vec := x.vec ++ [o] }) s) none)

/-- A VEC row: operation `op` of class 3. -/
def vecRow (p op : Nat) (spec : Nat → List Nat → VecSpec) (s : State) : State := issueWith p (isOp 3 op) (issueVec p spec) s

def xdOf (v : List Nat) : Nat := nth 0 v 0
def xaOf (v : List Nat) : Nat := nth 0 v 1
def xbOf (v : List Nat) : Nat := nth 0 v 2
def xcOf (v : List Nat) : Nat := nth 0 v 3

/-- Bytes of n elements of a format code. -/
def fmtBytes (c n : Nat) : Nat := (fmtOf c).bytesFor n

/-- Codes of a plain VEC input or output (R180). -/
def plainFmt (c : Nat) : Bool := c ≤ 7

/-! ## Specs of the plain operations (R195) -/

/-- All formats BF16: the operation runs at double rate. -/
def doubleRate (w : Nat) : Bool := vFa w = 1 && vFb w = 1 && vFd w = 1

/-- An element-wise operation with `k` operands; `dbl` if it can run at double rate. -/
def elemSpec (k : Nat) (dbl : Bool) (w : Nat) (v : List Nat) : VecSpec :=
  let n := vN w
  let b := vAux w % 2 = 1
  let c := vAux w / 2 % 2 = 1
  { auxMask := 3
    operand := !plainFmt (vFa w) || !plainFmt (vFd w) || (k ≥ 2 && !plainFmt (vFb w))
      || (dbl && doubleRate w && wbits w 38 36 ≠ 0)
    feet := [(xdOf v, fmtBytes (vFd w) n), (xaOf v, fmtBytes (vFa w) n)]
      ++ (if k ≥ 2 then [(xbOf v, fmtBytes (vFb w) (if b then 1 else n))] else [])
      ++ (if k ≥ 3 then [(xcOf v, fmtBytes (vFb w) (if c then 1 else n))] else []) }

/-- A special-function operation. -/
def specialSpec (w : Nat) (v : List Nat) : VecSpec :=
  { operand := !plainFmt (vFa w) || !plainFmt (vFd w)
    feet := [(xdOf v, fmtBytes (vFd w) (vN w)), (xaOf v, fmtBytes (vFa w) (vN w))] }

/-- rnd and sat are 0. -/
def noNarrow (w : Nat) : Bool := wbits w 38 36 = 0 && wbits w 14 13 = 0

/-- SUM and DOT. -/
def sumSpec (k : Nat) (w : Nat) (v : List Nat) : VecSpec :=
  { operand := !plainFmt (vFa w) || (k ≥ 2 && !plainFmt (vFb w)) || vFd w ≠ 0 || !noNarrow w
    feet := [(xdOf v, 4), (xaOf v, fmtBytes (vFa w) (vN w))] ++ (if k ≥ 2 then [(xbOf v, fmtBytes (vFb w) (vN w))] else []) }

def sumSqSpec (w : Nat) (v : List Nat) : VecSpec :=
  { operand := vFa w ≠ 0 || vFd w ≠ 13 || !noNarrow w
    feet := [(xdOf v, 8), (xaOf v, 4 * vN w)] }

/-- Row operations need n to be whole rows; the high half of imm is reserved. -/
def rowIllegal (w : Nat) : Bool := wbits w 111 96 ≠ 0
def rowOperand (w : Nat) : Bool := vN w % vL w ≠ 0

def rowSpec (w : Nat) (v : List Nat) : VecSpec :=
  { illegal := rowIllegal w
    operand := rowOperand w || !plainFmt (vFa w) || vFd w ≠ 0 || !noNarrow w
    feet := [(xdOf v, 4 * vRows w), (xaOf v, fmtBytes (vFa w) (vN w))] }

def softmaxSpec (w : Nat) (v : List Nat) : VecSpec :=
  { auxMask := 3
    illegal := rowIllegal w
    operand := rowOperand w || !plainFmt (vFa w) || !plainFmt (vFd w) || vAux w = 3
    feet := [(xdOf v, fmtBytes (vFd w) (vN w)), (xaOf v, fmtBytes (vFa w) (vN w))]
      ++ (if vAux w ≠ 0 then [(xcOf v, 8 * vRows w)] else []) }

/-- k of a SELECT. -/
def selK (w : Nat) : Nat := vAux w % 8 + 1

def selectSpec (w : Nat) (v : List Nat) : VecSpec :=
  { auxMask := 15
    illegal := rowIllegal w
    operand := rowOperand w || !plainFmt (vFa w) || vFd w ≠ 0 || !noNarrow w || bitAt w 10
    feet := [(xdOf v, 2 * selK w * vRows w), (xaOf v, fmtBytes (vFa w) (vN w)), (xbOf v, 4 * vL w), (xcOf v, 4 * selK w * vRows w)] }

def hstoreSpec (w : Nat) (v : List Nat) : VecSpec :=
  { auxMask := 1, operand := vN w ≠ 1 || bitAt w 10, feet := [(xdOf v, 256)] }

def vecAdd (p : Nat) (s : State) : State := vecRow p 0 (elemSpec 2 true) s
def vecSub (p : Nat) (s : State) : State := vecRow p 1 (elemSpec 2 true) s
def vecMul (p : Nat) (s : State) : State := vecRow p 2 (elemSpec 2 true) s
def vecFma (p : Nat) (s : State) : State := vecRow p 3 (elemSpec 3 true) s
def vecMin (p : Nat) (s : State) : State := vecRow p 4 (elemSpec 2 false) s
def vecMax (p : Nat) (s : State) : State := vecRow p 5 (elemSpec 2 false) s
def vecCvt (p : Nat) (s : State) : State := vecRow p 6 (elemSpec 1 false) s
def vecAxpy (p : Nat) (s : State) : State := vecRow p 7 (elemSpec 2 false) s
def vecExp (p : Nat) (s : State) : State := vecRow p 0x10 specialSpec s
def vecRecip (p : Nat) (s : State) : State := vecRow p 0x11 specialSpec s
def vecRsqrt (p : Nat) (s : State) : State := vecRow p 0x12 specialSpec s
def vecSum (p : Nat) (s : State) : State := vecRow p 0x18 (sumSpec 1) s
def vecDot (p : Nat) (s : State) : State := vecRow p 0x19 (sumSpec 2) s
def vecSumsq64 (p : Nat) (s : State) : State := vecRow p 0x1A sumSqSpec s
def vecRmax (p : Nat) (s : State) : State := vecRow p 0x20 rowSpec s
def vecRsum (p : Nat) (s : State) : State := vecRow p 0x21 rowSpec s
def vecSoftmax (p : Nat) (s : State) : State := vecRow p 0x22 softmaxSpec s
def vecSelect (p : Nat) (s : State) : State := vecRow p 0x23 selectSpec s
def vecHstore (p : Nat) (s : State) : State := vecRow p 0x2B hstoreSpec s

/-! ## Elements in comb (R81) -/

/-- The comb bytes that element i of packed data from an offset lies in: first offset and length. -/
def elemPlace (f : Fmt) (off i : Nat) : Nat × Nat :=
  match f.bits with
  | 4 => (off + i / 2, 1)
  | 6 => (off + 3 * (i / 4), 3)
  | b => (off + b / 8 * i, b / 8)

/-- The code of element i, and its poison. -/
def combElem (s : State) (p : Nat) (f : Fmt) (off i : Nat) : Nat × Bool :=
  let (a, n) := elemPlace f off i
  let v := numAt s (combAddr p a) n
  let code := match f.bits with
    | 4 => v / 16 ^ (i % 2) % 16
    | 6 => v / 64 ^ (i % 4) % 64
    | _ => v
  (code, poisoned s (combAddr p a) n)

/-- n elements from an offset. -/
def combElems (s : State) (p : Nat) (f : Fmt) (off n : Nat) : List (Nat × Bool) :=
  (List.range n).map (fun i => combElem s p f off i)

/-- Elements per packed group of whole bytes, and bytes of a group. -/
def groupOf (f : Fmt) : Nat × Nat :=
  match f.bits with
  | 4 => (2, 1)
  | 6 => (4, 3)
  | b => (1, b / 8)

/-- Codes and poison written from a comb offset upward. -/
def writeElems (p off : Nat) (f : Fmt) (xs : List (Nat × Bool)) (s : State) : State :=
  let (k, b) := groupOf f
  let groups := chunks k ((xs.length + k - 1) / k) xs
  let pieces := (List.range groups.length).map (fun i =>
    let g := nth [] groups i
    (combAddr p (off + b * i), f.pack (g.map (fun e => e.1)), g.any (fun e => e.2)))
  count p 0x21 (b * groups.length) (scatter pieces s)

/-! ## Results -/

/-- The roundings of n elements in order, their draws taken: element i from lane i mod 256 (R88, R96). -/
def vecRounds (p : Nat) (o : UnitOp) (n : Nat) (s : State) : List Round × State :=
  let (rs, x) := (List.range n).foldl (fun (acc : List Round × PairS) i =>
    let (r, x) := drawRound o.rnd acc.2 p o.breath (i % 256)
    (r :: acc.1, x)) ([], pair s p)
  (rs.reverse, modPair p (fun _ => x) s)

/-- FP32 results counted into the histogram set that the instruction names; a poisoned one is left out (R98). -/
def vecHist (p w : Nat) (xs : List (Nat × Bool)) (s : State) : State :=
  if bitAt w 10 then
    let s := histCount p (wbits w 12 11) ((xs.filter (fun x => !x.2)).map (fun x => x.1)) s
    raiseIf (xs.any (fun x => x.2)) F.NUM_EVENTS_hist_poison p s
  else s

/-- The results of an operation, FP32 codes with their poison, narrowed once into fmt_d and written (R194). -/
def vecOut (p : Nat) (o : UnitOp) (off : Nat) (xs : List (Nat × Bool)) (flags : NumFlags) (s : State) : State :=
  let w := o.word
  let f := fmtOf (vFd w)
  let s := vecHist p w xs s
  let (rs, s) := vecRounds p o xs.length s
  let cs := (List.range xs.length).map (fun i =>
    (narrow f (nth .rne rs i) (resolveSat f (wbits w 14 13)) (v32 (nth (0, false) xs i).1), (nth (0, false) xs i).2))
  let flags := cs.foldl (fun a c => a.join c.1.flags) flags
  applyNum p flags (writeElems p off f (cs.map (fun c => (c.1.code, c.2))) s)

/-- Results that are FP32 codes already: written as they are. -/
def vecOut32 (p : Nat) (o : UnitOp) (off : Nat) (xs : List (Nat × Bool)) (flags : NumFlags) (s : State) : State :=
  applyNum p flags (writeElems p off .fp32 xs (vecHist p o.word xs s))

/-- The flags of reading elements of a format. -/
def readAll (f : Fmt) (xs : List (Nat × Bool)) : NumFlags := xs.foldl (fun a x => a.join (readFlags f x.1)) {}

/-- A result rounded to FP32, and whether it is a NaN made from operands that are none (R85). -/
def made32 (ops : List Val) (r : Val) : Nat × NumFlags := (rne32 r, { invalid := madeNan ops r })

/-! ## Element-wise operations (R195) -/

/-- One element: the FP32 result before narrowing, and its flags. At double rate the one rounding is to BF16. -/
def elemResult (op : Nat) (dbl : Bool) (imm a b c : Val) : Nat × NumFlags :=
  let fin (ops : List Val) (r : Val) : Nat × NumFlags :=
    if dbl then (rne .bf16 r * 65536, { invalid := madeNan ops r }) else made32 ops r
  match op with
  | 0 => fin [a, b] (a.add b)
  | 1 => fin [a, b] (a.sub b)
  | 2 => fin [a, b] (a.mul b)
  | 3 => fin [a, b, c] ((a.mul b).add c)
  | 4 => made32 [a, b] (a.min2 b)
  | 5 => made32 [a, b] (a.max2 b)
  | 6 => made32 [a] a
  | 7 => made32 [imm, a, b] ((imm.mul a).add b)
  | 0x10 => (exp32 (rne32 a), {})
  | 0x11 => (recip32 (rne32 a), { divZero := a.isZero })
  | _ => (rsqrt32 (rne32 a), { divZero := a.isZero, invalid := a.lt Val.zero })

def vecElemDone (p : Nat) (o : UnitOp) (s : State) : State :=
  let w := o.word
  let n := vN w
  let op := wOp w
  let fa := fmtOf (vFa w)
  let fb := fmtOf (vFb w)
  let usesB := [0, 1, 2, 3, 4, 5, 7].contains op
  let usesC := op = 3
  let one (bc : Bool) (i : Nat) : Nat := if bc then 0 else i
  let as := combElems s p fa (xaOf o.vals) n
  let bs := if usesB then (List.range n).map (fun i => combElem s p fb (xbOf o.vals) (one (bitAt (vAux w) 0) i)) else []
  let cs := if usesC then (List.range n).map (fun i => combElem s p fb (xcOf o.vals) (one (bitAt (vAux w) 1) i)) else []
  let dbl := op ≤ 3 && doubleRate w
  let rs := (List.range n).map (fun i =>
    let a := nth (0, false) as i
    let b := nth (0, false) bs i
    let c := nth (0, false) cs i
    let r := elemResult op dbl (v32 (vImm w)) (fa.read false a.1) (fb.read false b.1) (fb.read false c.1)
    (r.1, a.2 || b.2 || c.2, r.2))
  let imm : NumFlags := { nanIn := op = 7 && Fmt.fp32.isNan (vImm w) }
  let flags := (readAll fa as).join ((readAll fb bs).join ((readAll fb cs).join imm))
  let flags := rs.foldl (fun f r => f.join r.2.2) flags
  vecOut p o (xdOf o.vals) (rs.map (fun r => (r.1, r.2.1))) flags s

/-! ## Sums (R92, R93) -/

/-- An addition on codes that carries in bit `k` whether a NaN was made. -/
def addMark (k : Nat) (add : Nat → Nat → Nat) (val : Nat → Val) (a b : Nat) : Nat :=
  let x := a % 2 ^ k
  let y := b % 2 ^ k
  let r := add x y
  let mk := madeNan [val x, val y] ((val x).add (val y))
  r + (if mk || a ≥ 2 ^ k || b ≥ 2 ^ k then 2 ^ k else 0)

def add32m : Nat → Nat → Nat := addMark 64 add32 v32
def add64m : Nat → Nat → Nat := addMark 64 add64 v64

/-- A sum in the order of R93, with whether a NaN was made on the way. -/
def sumFlag (n : Nat) (x : Nat → Nat) : Nat × Bool :=
  let r := treeSum add32m negZero32 (laneFold (fun a i => add32m a (x i)) negZero32 n)
  (r % 2 ^ 64, decide (r ≥ 2 ^ 64))

def dotFlag (n : Nat) (x y : Nat → Nat) : Nat × Bool :=
  let step (a i : Nat) : Nat :=
    let c := a % 2 ^ 64
    let ops := [v32 (x i), v32 (y i), v32 c]
    let v := ((v32 (x i)).mul (v32 (y i))).add (v32 c)
    rne32 v + (if madeNan ops v || a ≥ 2 ^ 64 then 2 ^ 64 else 0)
  let r := treeSum add32m negZero32 (laneFold step negZero32 n)
  (r % 2 ^ 64, decide (r ≥ 2 ^ 64))

def sumSqFlag (n : Nat) (x : Nat → Nat) : Nat × Bool :=
  let sq (i : Nat) : Nat := rne .fp64 ((v32 (x i)).mul (v32 (x i)))
  let r := treeSum add64m negZero64 (laneFold (fun a i => add64m a (sq i)) negZero64 n)
  (r % 2 ^ 64, decide (r ≥ 2 ^ 64))

/-- Elements widened to FP32. -/
def widen (f : Fmt) (xs : List (Nat × Bool)) (i : Nat) : Nat := rne32 (f.read false (nth (0, false) xs i).1)

def anyBad (xs : List (Nat × Bool)) : Bool := xs.any (fun x => x.2)

def vecSumDone (p : Nat) (o : UnitOp) (s : State) : State :=
  let w := o.word
  let n := vN w
  let fa := fmtOf (vFa w)
  let fb := fmtOf (vFb w)
  let as := combElems s p fa (xaOf o.vals) n
  let bs := if wOp w = 0x19 then combElems s p fb (xbOf o.vals) n else []
  let (r, inv) := if wOp w = 0x19 then dotFlag n (widen fa as) (widen fb bs) else sumFlag n (widen fa as)
  let flags := ((readAll fa as).join (readAll fb bs)).join { invalid := inv }
  vecOut32 p o (xdOf o.vals) [(r, anyBad as || anyBad bs)] flags s

/-- SUMSQ64: the histogram, where it is named, counts the sum rounded to FP32. -/
def vecSumSqDone (p : Nat) (o : UnitOp) (s : State) : State :=
  let as := combElems s p .fp32 (xaOf o.vals) (vN o.word)
  let (r, inv) := sumSqFlag (vN o.word) (widen .fp32 as)
  let s := vecHist p o.word [(rne32 (v64 r), anyBad as)] s
  applyNum p ((readAll .fp32 as).join { invalid := inv }) (writeElems p (xdOf o.vals) .fp64 [(r, anyBad as)] s)

/-! ## Row operations (R195, R196) -/

/-- The elements of row r. -/
def rowElems (s : State) (p : Nat) (o : UnitOp) (r : Nat) : List (Nat × Bool) :=
  (List.range (vL o.word)).map (fun j => combElem s p (fmtOf (vFa o.word)) (xaOf o.vals) (r * vL o.word + j))

/-- The maximum of a row, in FP32 (R85). -/
def rowMax (l : Nat) (x : Nat → Nat) : Nat :=
  rne32 ((List.range (l - 1)).foldl (fun m j => m.max2 (v32 (x (j + 1)))) (v32 (x 0)))

def vecRowDone (p : Nat) (o : UnitOp) (s : State) : State :=
  let w := o.word
  let l := vL w
  let fa := fmtOf (vFa w)
  let rs := (List.range (vRows w)).map (fun r =>
    let xs := rowElems s p o r
    let x := widen fa xs
    let (v, inv) := if wOp w = 0x20 then (rowMax l x, false) else sumFlag l x
    (v, anyBad xs, (readAll fa xs).join { invalid := inv }))
  let flags := rs.foldl (fun f r => f.join r.2.2) {}
  vecOut32 p o (xdOf o.vals) (rs.map (fun r => (r.1, r.2.1))) flags s

/-- One row of a SOFTMAX: its outputs in FP32, m, s and flags. Given statistics stand for the computed ones (R196). -/
def softmaxRow (l : Nat) (x : Nat → Nat) (stats : Option (Nat × Nat)) : List Nat × Nat × Nat × NumFlags :=
  let nanC := Fmt.fp32.nanCode
  let m := match stats with
    | some st => st.1
    | none => rowMax l x
  let diff (i : Nat) : Val := (v32 (x i)).sub (v32 m)
  let e (i : Nat) : Nat := exp32 (rne32 (diff i))
  let es := (List.range l).map e
  let inv := (List.range l).any (fun i => madeNan [v32 (x i), v32 m] (diff i))
  let (t, inv2) := match stats with
    | some st => (st.2, false)
    | none => sumFlag l (nth 0 es)
  let r := recip32 t
  let prod (i : Nat) : Val := (v32 (nth 0 es i)).mul (v32 r)
  let anyNan := (List.range l).any (fun i => Fmt.fp32.isNan (x i))
  let ys := (List.range l).map (fun i =>
    if anyNan then nanC
    else if v32 m = .inf false then (if v32 (x i) = .inf false then nanC else 0)
    else rne32 (prod i))
  let inv3 := v32 m ≠ .inf false && (List.range l).any (fun i => madeNan [v32 (nth 0 es i), v32 r] (prod i))
  (ys, m, t, { invalid := inv || inv2 || inv3, divZero := (v32 t).isZero })

def vecSoftmaxDone (p : Nat) (o : UnitOp) (s : State) : State :=
  let w := o.word
  let l := vL w
  let fa := fmtOf (vFa w)
  let statsIn := bitAt (vAux w) 1
  let rs := (List.range (vRows w)).map (fun r =>
    let xs := rowElems s p o r
    let st := (combElem s p .fp32 (xcOf o.vals) (2 * r), combElem s p .fp32 (xcOf o.vals) (2 * r + 1))
    let bad := anyBad xs || (statsIn && (st.1.2 || st.2.2))
    let y := softmaxRow l (widen fa xs) (if statsIn then some (st.1.1, st.2.1) else none)
    let given : NumFlags := { nanIn := statsIn && (Fmt.fp32.isNan st.1.1 || Fmt.fp32.isNan st.2.1) }
    (y.1, y.2.1, y.2.2.1, bad, ((readAll fa xs).join given).join y.2.2.2))
  let flags := rs.foldl (fun f r => f.join r.2.2.2.2) {}
  let s := vecOut p o (xdOf o.vals) (rs.flatMap (fun r => r.1.map (fun y => (y, r.2.2.2.1)))) flags s
  if bitAt (vAux w) 0 then
    writeElems p (xcOf o.vals) .fp32 (rs.flatMap (fun r => [(r.2.1, r.2.2.2.1), (r.2.2.1, r.2.2.2.1)])) s
  else s

/-! ## SELECT (R197, R229) -/

/-- Index i ranks before index j: the larger value, NaN below every number, equal values by lower index. -/
def ranksBefore (v : Nat → Val) (i j : Nat) : Bool :=
  if (v i).isNan then (v j).isNan && i ≤ j
  else if (v j).isNan then true
  else (v j).lt (v i) || (!(v i).lt (v j) && i ≤ j)

/-- The router whose comb copy a counting SELECT names (R229). -/
def routerAt (s : State) (xb : Nat) : Option Nat :=
  (List.range 16).find? (fun r => fld s F.ROUTER_r_experts r ≠ 0 && 64 * fld s F.ROUTER_r_comb_off r = xb)

/-- Chosen indices counted into the pair's load counters. -/
def countLoads (p xb : Nat) (chosen : List Nat) (s : State) : State :=
  match routerAt s xb with
  | none => raise F.ROUTE_EVENTS_count_miss 0 s
  | some r =>
    let n := fld s F.ROUTER_r_experts r
    let b := fld s F.ROUTER_r_base r
    chosen.foldl (fun t i =>
      if i < n then modPair p (fun x => { x with loads := SMap.update 0 x.loads (b + i) (· + 1) }) t
      else raise F.ROUTE_EVENTS_count_range 0 t) s

/-- The k best of a row; beyond the row's length the spec names no index, and a free value stands in its place. -/
def selectRow (base k l r : Nat) (v : Nat → Val) : List Nat :=
  let order := (List.range l).mergeSort (ranksBefore v)
  (List.range k).map (fun j => match order[j]? with
    | some i => i
    | none => Config.freeWord (base + r * 8 + j) % 65536)

def vecSelectDone (p : Nat) (o : UnitOp) (s : State) : State :=
  let w := o.word
  let l := vL w
  let k := selK w
  let fa := fmtOf (vFa w)
  let bias := combElems s p .fp32 (xbOf o.vals) l
  let rs := (List.range (vRows w)).map (fun r =>
    let xs := rowElems s p o r
    let x := widen fa xs
    let sum (i : Nat) : Val := (v32 (x i)).add (v32 (nth (0, false) bias i).1)
    let pick := selectRow s.freshCount k l r (fun i => v32 (rne32 (sum i)))
    let inv := (List.range l).any (fun i => madeNan [v32 (x i), v32 (nth (0, false) bias i).1] (sum i))
    (pick, pick.map x, anyBad xs || anyBad bias, ((readAll fa xs).join (readAll .fp32 bias)).join { invalid := inv }))
  let flags := rs.foldl (fun f r => f.join r.2.2.2) {}
  let idx := rs.flatMap (fun r => r.1.map (fun i => (i, r.2.2.1)))
  let scores := rs.flatMap (fun r => r.2.1.map (fun c => (c, r.2.2.1)))
  let s := { s with freshCount := s.freshCount + (if l < k then 8 * vRows w else 0) }
  let s := writeElems p (xdOf o.vals) .bf16 idx s
  let s := applyNum p flags (writeElems p (xcOf o.vals) .fp32 scores s)
  if bitAt (vAux w) 3 then countLoads p (xbOf o.vals) (rs.flatMap (fun r => r.1)) s else s

/-! ## HSTORE (R99) -/

def vecHstoreDone (p : Nat) (o : UnitOp) (s : State) : State :=
  let set := wbits o.word 12 11
  let counts := (List.range 64).map (fun b => SMap.get 0 (pair s p).hist (set * 64 + b))
  let s := memWrite (combAddr p (xdOf o.vals)) (counts.flatMap (natLe 4)) false (count p 0x21 256 s)
  if bitAt (vAux o.word) 0 then modPair p (fun x => { x with hist := SMap.dropKeys x.hist (fun k => k / 64 = set) }) s else s

end Sys2Proof.Machine
end

