-- ==== Sys2Proof/Machine/Quant.lean ====
section
/-! DEFINITION. The quantiser (R103–R115, R198): QUANT, DEQUANT and DQACC, their issue checks and what they do when they
complete. -/

namespace Sys2Proof.Machine

/-! ## The aux fields of R198 -/

def qGran (w : Nat) : Nat := bitsOf (vAux w) 1 0
def qSource (w : Nat) : Nat := bitsOf (vAux w) 3 2
def qAsym (w : Nat) : Bool := bitAt (vAux w) 4
def qAxis (w : Nat) : Nat := bitsOf (vAux w) 5 5
def qBr (w : Nat) : Nat := 16 * 2 ^ bitsOf (vAux w) 7 6
def qBc (w : Nat) : Nat := 16 * 2 ^ bitsOf (vAux w) 9 8
def qSet (w : Nat) : Nat := bitsOf (vAux w) 11 10

/-- Units of the tile: sets of elements that share one scale (R104). -/
def qUnits (w : Nat) : Nat :=
  match qGran w with
  | 0 => 1
  | 1 => if qAxis w = 0 then vRows w else vL w
  | 2 => (vRows w / qBr w) * (vL w / qBc w)
  | _ => vN w / 32

/-- The unit of element i. MX blocks along the rows axis lie in rows 32 at a time, in block-row-major order. -/
def qUnitOf (w i : Nat) : Nat :=
  let l := vL w
  match qGran w with
  | 0 => 0
  | 1 => if qAxis w = 0 then i / l else i % l
  | 2 => (i / l / qBr w) * (l / qBc w) + i % l / qBc w
  | _ => if qAxis w = 0 then (i / l / 32) * l + i % l else i / 32

/-- The elements of unit u, ascending. -/
def qElemsOf (w u : Nat) : List Nat := (List.range (vN w)).filter (fun i => qUnitOf w i = u)

/-- Extents that are no multiples of the block. -/
def qExtents (w : Nat) : Bool :=
  (qGran w = 2 && (vRows w % qBr w ≠ 0 || vL w % qBc w ≠ 0))
    || (qGran w = 3 && (if qAxis w = 0 then vRows w else vL w) % 32 ≠ 0)

/-- A target of a plain granularity, or of MX (R104). -/
def qTarget (w c : Nat) : Bool := if qGran w = 3 then isMx c else 3 ≤ c && c ≤ 6

/-- Bytes of the scale vector. -/
def qScaleBytes (w : Nat) : Nat := if qGran w = 3 then qUnits w else 4 * qUnits w

/-! ## Issue -/

def quantSpec (w : Nat) (v : List Nat) : VecSpec :=
  { auxMask := 0xFFF
    illegal := rowIllegal w || qSource w = 3 || bitsOf (vAux w) 7 6 = 3
    operand := rowOperand w || !plainFmt (vFa w) || !qTarget w (vFd w) || qExtents w || bitAt w 10
      || (qAsym w && (vFd w ≠ 5 || qGran w = 3 || qSource w = 2))
      || (qSource w = 2 && qGran w ≥ 2)
    feet := [(xdOf v, fmtBytes (vFd w) (vN w)), (xaOf v, fmtBytes (vFa w) (vN w)), (xbOf v, qScaleBytes w)]
      ++ (if qAsym w then [(xcOf v, qUnits w)] else []) }

/-- An output of a dequantise: FP32, BF16 or FP16 (R112). -/
def dqOut (w : Nat) : Bool := vFd w ≤ 2

def dequantSpec (w : Nat) (v : List Nat) : VecSpec :=
  { auxMask := 0x3F3
    illegal := rowIllegal w || bitsOf (vAux w) 7 6 = 3
    operand := rowOperand w || !dqOut w || !qTarget w (vFa w) || qExtents w
      || (qAsym w && (vFa w ≠ 5 || qGran w = 3))
    feet := [(xdOf v, fmtBytes (vFd w) (vN w)), (xaOf v, fmtBytes (vFa w) (vN w)), (xbOf v, qScaleBytes w)]
      ++ (if qAsym w then [(xcOf v, qUnits w)] else []) }

def dqaccSpec (w : Nat) (v : List Nat) : VecSpec :=
  { illegal := rowIllegal w
    operand := rowOperand w || !dqOut w || vFa w ≠ 0
    feet := [(xdOf v, fmtBytes (vFd w) (vN w)), (xaOf v, 4 * vN w), (xbOf v, 4 * vRows w), (xcOf v, 4 * vL w)] }

def vecQuant (p : Nat) (s : State) : State := vecRow p 0x28 quantSpec s
def vecDequant (p : Nat) (s : State) : State := vecRow p 0x29 dequantSpec s
def vecDqacc (p : Nat) (s : State) : State := vecRow p 0x2A dqaccSpec s

/-! ## Scales (R105–R110) -/

/-- What a unit's elements become. -/
inductive QFill where
  /-- x × mul + zp, narrowed once. -/
  | scaled (mul : Val) (zp : Int)
  /-- One code for every element (R107, R109). -/
  | fixed (code : Nat)
  /-- The result of a NaN source (R89). -/
  | nanSource
  /-- An MX block that holds a NaN: +0 elements. -/
  | blockNan
  /-- Poisoned codes. -/
  | poison
  deriving DecidableEq, Repr

/-- A unit's scale and zero point, whether they are poisoned and are to be written, and what it set. -/
structure QUnit where
  scale : Nat := 0
  zp : Int := 0
  bad : Bool := false
  write : Bool := true
  fill : QFill := .poison
  const : Bool := false
  clampScale : Bool := false
  clampZp : Bool := false
  nonfinite : Bool := false
  badScale : Bool := false
  deriving DecidableEq, Repr

/-- The scale 2^-126, the least a fit gives. -/
abbrev minScale32 : Nat := 0x00800000

/-- The largest code magnitude a fit aims at: its value for the target (R106). -/
def qMax (f : Fmt) : Val := f.value f.maxCode

/-- The encoding of 1 in the target (R107). -/
def codeOne (f : Fmt) : Nat := if f.isInt then 1 else f.bias * 2 ^ f.mant

def Val.isFinite : Val → Bool
  | .fin _ _ _ => true
  | _ => false

/-- A scale at least 2^-126, and whether it was raised to that. -/
def clampScale (c : Nat) : Nat × Bool :=
  if (v32 c).lt (v32 minScale32) then (minScale32, true) else (c, false)

/-- The multiplier of a scale: its rounded reciprocal (R106). -/
def scaleRecip (c : Nat) : Val := v32 (rne32 (Val.div (.fin false 1 1) (v32 c)))

/-- The nearest integer of a value, ties away from zero. -/
def rnaInt : Val → Int
  | .fin s n d => (if s then -1 else 1) * (roundInt .rna n d : Int)
  | _ => 0

def Val.ofInt (i : Int) : Val := .fin (decide (i < 0)) i.natAbs 1

/-- A fitted unit of a plain granularity (R106, R107). -/
def fitUnit (f : Fmt) (asym : Bool) (xs : List (Nat × Bool)) : QUnit :=
  let vs := xs.map (fun x => v32 x.1)
  let v0 := vs.headD Val.zero
  if anyBad xs then { bad := true }
  else if vs.any (fun v => !v.isFinite) then { scale := Fmt.fp32.nanCode, fill := .nanSource, nonfinite := true }
  else
    let lo := vs.foldl (fun m v => if v.lt m then v else m) v0
    let hi := vs.foldl (fun m v => if m.lt v then v else m) v0
    if lo.eqv hi then
      if v0.isZero then { scale := 0x3F800000, fill := .fixed 0, const := true }
      else { scale := rne32 v0, fill := .fixed (codeOne f), const := true }
    else if asym then
      let lo := if Val.zero.lt lo then Val.zero else lo
      let hi := if hi.lt Val.zero then Val.zero else hi
      let (c, k) := clampScale (rne32 (Val.div (hi.sub lo) (.fin false 255 1)))
      let r := scaleRecip c
      let z := -128 - rnaInt (lo.mul r)
      let zp : Int := if z > 127 then 127 else z
      { scale := c, zp := zp, fill := .scaled r zp, clampScale := k, clampZp := decide (z > 127) }
    else
      let m := lo.abs.max2 hi.abs
      let (c, k) := clampScale (rne32 (m.div (qMax f)))
      { scale := c, fill := .scaled (scaleRecip c) 0, clampScale := k }

/-- The least integer e with n/d ≤ 2^e. -/
def ceilLog2 (n d : Nat) : Int :=
  let e := floorLog2 n d
  let (a, b) := scalePow 1 1 e
  if n * b = a * d then e else e + 1

/-- The exponent that R109 subtracts: that of the format's largest finite value. -/
def mxEmax (f : Fmt) : Int :=
  match qMax f with
  | .fin _ n d => floorLog2 n d
  | _ => 0

/-- A fitted MX block (R109). -/
def fitMx (f : Fmt) (noclip : Bool) (xs : List (Nat × Bool)) : QUnit :=
  let vs := xs.map (fun x => v32 x.1)
  if anyBad xs then { bad := true }
  else if vs.any (fun v => !v.isFinite) then { scale := 0xFF, fill := .blockNan, nonfinite := true }
  else
    match vs.foldl (fun m v => m.max2 v.abs) Val.zero with
    | .fin _ n d =>
      if n = 0 then { scale := 0x7F, fill := .fixed 0 }
      else
        let e := if noclip then
            match Val.div (.fin false n d) (qMax f) with
            | .fin _ a b => ceilLog2 a b
            | _ => 0
          else floorLog2 n d - mxEmax f
        let c := max (-127) (min 127 e)
        { scale := (c + 127).toNat, fill := .scaled (finPow false 1 (-c)) 0, clampScale := decide (c ≠ e) }
    | _ => {}

/-- A given scale that no unit may use (R108). -/
def scaleUnusable (c : Nat) : Bool :=
  match v32 c with
  | .fin _ n _ => n = 0 || Fmt.fp32.isSub c
  | _ => true

/-- A unit with a given scale and zero point, and its elements (R108, R89, R114). A code is of the exact quotient by the
scale, so that a constant unit comes back in every mode (R108). -/
def givenUnit (f : Fmt) (mx : Bool) (sc zp : Nat × Bool) (xs : List (Nat × Bool)) : QUnit :=
  if sc.2 || zp.2 then { write := false }
  else if mx then
    let small := !f.hasInf && f ≠ .e4m3
    if sc.1 = 0xFF then { write := false, fill := if small then .blockNan else .nanSource, badScale := true }
    else if small && xs.any (fun x => !x.2 && Fmt.fp32.isNan x.1) then { scale := 0xFF, fill := .blockNan }
    else { write := false, fill := .scaled (finPow false 1 (127 - (sc.1 : Int))) 0 }
  else if scaleUnusable sc.1 then { write := false, fill := .nanSource, badScale := true }
  else { write := false, fill := .scaled (Val.div (.fin false 1 1) (v32 sc.1)) (toSigned 8 zp.1) }

/-- What a histogram set gives (R110): amax's code, whether bin 62 was chosen; none where no bin qualifies. -/
def histAmax (s : State) (p set : Nat) : Option (Nat × Bool) :=
  let n (k : Nat) : Nat := SMap.get 0 (pair s p).hist (set * 64 + k)
  let tail (k : Nat) : Nat := ((List.range 63).filter (fun j => k ≤ j)).foldl (fun a j => a + n j) 0
  let thr := tail 0 / 2 ^ fld s F.QUANT_CTRL_tail_shift p
  match ((List.range 62).map (fun j => 62 - j)).find? (fun k => thr < tail k) with
  | none => none
  | some k =>
    let v := finPow false 1 (histBase s p set + k)
    let cap := v32 Fmt.fp32.maxCode
    some (if cap.lt v then Fmt.fp32.maxCode else rne32 v, k = 62)

/-- The unit every HIST unit is (R110). -/
def histUnit (f : Fmt) (amax : Option (Nat × Bool)) : QUnit :=
  match amax with
  | none => { scale := 0x3F800000, fill := .scaled (.fin false 1 1) 0 }
  | some a =>
    let (c, k) := clampScale (rne32 ((v32 a.1).div (qMax f)))
    { scale := c, fill := .scaled (scaleRecip c) 0, clampScale := k }

/-- The code of an element of a unit, its poison, and its flags. `fit` units of symmetric INT stay within ±qmax (R106). -/
def quantCode (f : Fmt) (mode : Round) (sat within : Bool) (u : QUnit) (x : Nat × Bool) (free : Nat) : Nat × Bool × NumFlags :=
  match u.fill with
  | .poison => (free % 2 ^ f.bits, true, {})
  | .blockNan => (0, x.2, {})
  | .fixed c => (c, x.2, {})
  | .nanSource => let c := narrow f mode sat .nan; (c.code, x.2, c.flags)
  | .scaled mul zp =>
    let c := narrow f mode sat (if zp = 0 then (v32 x.1).mul mul else ((v32 x.1).mul mul).add (Val.ofInt zp))
    if within && f.isInt && c.code = f.signBit then
      (ofSigned f.bits (-(f.maxCode : Int)), x.2, { c.flags with sat := 1 })
    else (c.code, x.2, c.flags)

/-! ## Completion -/

/-- n free values taken in a row. -/
def freeList (n : Nat) (s : State) : List Nat × State :=
  ((List.range n).map (fun i => Config.freeWord (s.freshCount + i)), { s with freshCount := s.freshCount + n })

/-- The elements of an input, widened to FP32, with their poison. -/
def inputs32 (s : State) (p : Nat) (f : Fmt) (off n : Nat) : List (Nat × Bool) :=
  (combElems s p f off n).map (fun x => (rne32 (f.read false x.1), x.2))

/-- The scale of unit u as comb holds it. -/
def scaleAt (s : State) (p w xb u : Nat) : Nat × Bool :=
  if qGran w = 3 then (numAt s (combAddr p (xb + u)) 1, poisoned s (combAddr p (xb + u)) 1)
  else combElem s p .fp32 xb u

/-- The zero point of unit u as comb holds it; 0 where there is none. -/
def zpAt (s : State) (p w xc u : Nat) : Nat × Bool :=
  if qAsym w then combElem s p .int8 xc u else (0, false)

def countTrue {α : Type} (f : α → Bool) (xs : List α) : Nat := xs.countP f

/-- What the units of a QUANT set (R115). -/
def quantFlags (p : Nat) (us : List QUnit) (s : State) : State :=
  let s := raiseIf (us.any (fun u => u.const)) F.QUANT_EVENTS_const_channel p s
  let s := satAddFld F.QUANT_COUNTS_const_count p (countTrue (fun u => u.const) us) s
  let s := raiseIf (us.any (fun u => u.clampScale)) F.QUANT_EVENTS_scale_clamp p s
  let s := raiseIf (us.any (fun u => u.clampZp)) F.QUANT_EVENTS_zp_clamp p s
  let s := satAddFld F.QUANT_COUNTS_clamp_count p
    (countTrue (fun u => u.clampScale) us + countTrue (fun u => u.clampZp) us) s
  let s := raiseIf (us.any (fun u => u.badScale)) F.QUANT_EVENTS_bad_scale p s
  if us.any (fun u => u.nonfinite) then
    let s := raise F.QUANT_EVENTS_nonfinite p s
    if fldB s F.QUANT_CTRL_nonfinite_fault p then escalate (hiveOf p) 0x07 p s else s
  else s

/-- The units of a QUANT with their scales, before anything is written. -/
def quantUnits (p : Nat) (o : UnitOp) (xs : List (Nat × Bool)) (s : State) : List QUnit :=
  let w := o.word
  let f := fmtOf (vFd w)
  let h := histUnit f (histAmax s p (qSet w))
  let h := { h with clampScale := false }
  (List.range (qUnits w)).map (fun u =>
    let es := (qElemsOf w u).map (nth (0, false) xs)
    match qSource w with
    | 0 => givenUnit f (qGran w = 3) (scaleAt s p w (xbOf o.vals) u) (zpAt s p w (xcOf o.vals) u) es
    | 1 => if qGran w = 3 then fitMx f (fldB s F.QUANT_CTRL_mx_noclip p) es else fitUnit f (qAsym w) es
    | _ => h)

/-- The events of a HIST source, its one scale counted once where it was clamped (R110). -/
def histFlags (p : Nat) (o : UnitOp) (s : State) : State :=
  let a := histAmax s p (qSet o.word)
  let s := raiseIf a.isNone F.QUANT_EVENTS_hist_empty p s
  let s := raiseIf (a.any (fun x => x.2)) F.QUANT_EVENTS_hist_clip p s
  let u := histUnit (fmtOf (vFd o.word)) a
  if u.clampScale then satAddFld F.QUANT_COUNTS_clamp_count p 1 (raise F.QUANT_EVENTS_scale_clamp p s) else s

/-- Scales written where the unit has one to write; a poisoned unit's data bits are free. -/
def writeScales (p : Nat) (o : UnitOp) (us : List QUnit) (s : State) : State :=
  let w := o.word
  let (fs, s) := freeList (2 * us.length) s
  let size := if qGran w = 3 then 1 else 4
  let scales := (List.range us.length).filterMap (fun i =>
    let u := nth {} us i
    if u.write then
      some (combAddr p (xbOf o.vals + size * i), natLe size (if u.bad then nth 0 fs (2 * i) else u.scale), u.bad)
    else none)
  let zps := if qAsym w then (List.range us.length).filterMap (fun i =>
      let u := nth {} us i
      if u.write then
        some (combAddr p (xcOf o.vals + i), [if u.bad then nth 0 fs (2 * i + 1) % 256 else ofSigned 8 u.zp], u.bad)
      else none)
    else []
  scatter zps (scatter scales s)

def vecQuantDone (p : Nat) (o : UnitOp) (s : State) : State :=
  let w := o.word
  let n := vN w
  let fa := fmtOf (vFa w)
  let f := fmtOf (vFd w)
  let raw := combElems s p fa (xaOf o.vals) n
  let xs := inputs32 s p fa (xaOf o.vals) n
  let us := quantUnits p o xs s
  let within := qSource w ≠ 0 && !qAsym w
  let s := if qSource w = 2 then histFlags p o s else s
  let (fs, s) := freeList n s
  let (rs, s) := vecRounds p o n s
  let cs := (List.range n).map (fun i =>
    quantCode f (nth .rne rs i) (resolveSat f (wbits w 14 13)) within (nth {} us (qUnitOf w i)) (nth (0, false) xs i) (nth 0 fs i))
  let flags := cs.foldl (fun a c => a.join c.2.2) (readAll fa raw)
  let flags := { flags with nan := flags.nan + countTrue (fun u => u.fill = .blockNan) us }
  let s := writeElems p (xdOf o.vals) f (cs.map (fun c => (c.1, c.2.1))) s
  applyNum p flags (quantFlags p us (writeScales p o us s))

/-- The exact products of a dequantise: counted as FP32 values, then rounded once, FP32 by RNE and a narrower format by the
named mode (R112). -/
def dqWrite (p : Nat) (o : UnitOp) (ys : List (Val × Bool)) (flags : NumFlags) (s : State) : State :=
  let w := o.word
  let f := fmtOf (vFd w)
  let s := vecHist p w (ys.map (fun y => (rne32 y.1, y.2))) s
  let (rs, s) := vecRounds p o ys.length s
  let cs := (List.range ys.length).map (fun i =>
    let y := nth (Val.zero, false) ys i
    (narrow f (if f = .fp32 then .rne else nth .rne rs i) (resolveSat f (wbits w 14 13)) y.1, y.2))
  let flags := cs.foldl (fun a c => a.join c.1.flags) flags
  applyNum p flags (writeElems p (xdOf o.vals) f (cs.map (fun c => (c.1.code, c.2))) s)

def vecDequantDone (p : Nat) (o : UnitOp) (s : State) : State :=
  let w := o.word
  let n := vN w
  let fa := fmtOf (vFa w)
  let raw := combElems s p fa (xaOf o.vals) n
  let ys := (List.range n).map (fun i =>
    let u := qUnitOf w i
    let sc := scaleAt s p w (xbOf o.vals) u
    let z := zpAt s p w (xcOf o.vals) u
    let sv := if qGran w = 3 then e8m0 sc.1 else v32 sc.1
    let q := nth (0, false) raw i
    let d := if qAsym w then (fa.read false q.1).sub (Val.ofInt (toSigned 8 z.1)) else fa.read false q.1
    (sv.mul d, q.2 || sc.2 || z.2, madeNan [sv, d] (sv.mul d), sv.isNan))
  let flags := (readAll fa raw).join
    { invalid := ys.any (fun y => y.2.2.1), nanIn := ys.any (fun y => y.2.2.2) }
  dqWrite p o (ys.map (fun y => (y.1, y.2.1))) flags s

def vecDqaccDone (p : Nat) (o : UnitOp) (s : State) : State :=
  let w := o.word
  let l := vL w
  let acc := combElems s p .fp32 (xaOf o.vals) (vN w)
  let sa := combElems s p .fp32 (xbOf o.vals) (vRows w)
  let sb := combElems s p .fp32 (xcOf o.vals) l
  let ys := (List.range (vN w)).map (fun i =>
    let x := nth (0, false) acc i
    let a := nth (0, false) sa (i / l)
    let b := nth (0, false) sb (i % l)
    let y := ((v32 x.1).mul (v32 a.1)).mul (v32 b.1)
    (y, x.2 || a.2 || b.2, madeNan [v32 x.1, v32 a.1, v32 b.1] y))
  let flags := ((readAll .fp32 acc).join ((readAll .fp32 sa).join (readAll .fp32 sb))).join
    { invalid := ys.any (fun y => y.2.2) }
  dqWrite p o (ys.map (fun y => (y.1, y.2.1))) flags s

end Sys2Proof.Machine
end

