-- ==== Sys2Proof/Machine/GradVec.lean ====
section
/-! DEFINITION. The gradient operations of the vector engine (R267–R271, R283–R285): GENC, GDEC, OPTW and DIGEST, with the
wire formats and the digest fold that the exchange and the recovery checks share. VEC_DONE completes every VEC operation. -/

namespace Sys2Proof.Machine

/-! ## Issue -/

def gFmt (w : Nat) : Nat := bitsOf (vAux w) 1 0
def gK (w : Nat) : Nat := bitsOf (vAux w) 13 2 + 1

/-- Groups or blocks of k entries that n entries make. -/
def groupsOf (k n : Nat) : Nat := (n + k - 1) / k

/-- The most bytes the wire form of n entries takes (R268–R271): 0 SIGN1, 1 TOPK, 2 and 3 COMPAT16, 4 PSUM32. -/
def wireMax (fmt n : Nat) : Nat :=
  match fmt with
  | 0 => 36 * groupsOf 256 n
  | 1 => roundUp (2 * groupsOf 4096 n) 64 + 2 * n
  | 4 => 4 * n
  | _ => 64 + 2 * n

/-- A COMPAT16 scale: positive, finite and normal (R270). -/
def compatScale (c : Nat) : Bool := c < 0x7F800000 && c ≥ 0x00800000

def gencSpec (w : Nat) (v : List Nat) : VecSpec :=
  let n := vN w
  { auxMask := 0x3FFF
    operand := vFa w ≠ 0 || vFb w ≠ 0 || vFd w ≠ 0 || !noNarrow w || bitAt w 10 || (gFmt w ≥ 2 && !compatScale (vImm w))
    feet := [(xdOf v, wireMax (gFmt w) n), (xaOf v, 4 * n), (xbOf v, 4 * n)] }

def gdecSpec (w : Nat) (v : List Nat) : VecSpec :=
  { auxMask := 3, operand := bitAt w 10, feet := [(xdOf v, 4 * vN w), (xaOf v, wireMax (gFmt w) (vN w))] }

/-- The rule of an OPTW and whether it folds the digest (R284). -/
def optRule (w : Nat) : Nat := bitsOf (vAux w) 3 0
def optFold (w : Nat) : Bool := bitAt (vAux w) 4

def optwSpec (w : Nat) (v : List Nat) : VecSpec :=
  let n := vN w
  let st := match optRule w with
    | 0 => 4 * n
    | 1 => 8 * n
    | _ => 0
  { auxMask := 0x1F
    operand := 1 < vFd w || vFa w ≠ vFd w || vFb w ≠ 0 || 2 < optRule w || bitAt w 10
    feet := [(xaOf v, fmtBytes (vFd w) n), (xbOf v, 4 * n), (xcOf v, 64 + st)] ++ (if optFold w then [(xdOf v, 64)] else []) }

def digestSpec (w : Nat) (v : List Nat) : VecSpec :=
  { operand := bitAt w 10 || !plainFmt (vFa w), feet := [(xdOf v, 64), (xaOf v, fmtBytes (vFa w) (vN w))] }

def vecGenc (p : Nat) (s : State) : State := vecRow p 0x30 gencSpec s
def vecGdec (p : Nat) (s : State) : State := vecRow p 0x31 gdecSpec s
def vecOptw (p : Nat) (s : State) : State := vecRow p 0x32 optwSpec s
def vecDigest (p : Nat) (s : State) : State := vecRow p 0x33 digestSpec s

/-! ## GENC (R267–R270) -/

/-- An entry of v: its FP32 code, its poison. -/
abbrev Entry := Nat × Bool

/-- The encoded form of a group or block: pieces of the wire by offset, residuals, whether it is non-finite, flags. -/
structure Enc where
  pieces : List (Nat × List Nat × Bool) := []
  residual : List Entry := []
  nonfinite : Bool := false
  flags : NumFlags := {}
  deriving DecidableEq, Repr

def finite32 (c : Nat) : Bool := (v32 c).isFinite
def neg32 (c : Nat) : Nat := (c + 0x80000000) % 0x100000000
def abs32 (c : Nat) : Nat := c % 0x80000000
def signOf32 (c : Nat) : Bool := decide (c ≥ 0x80000000)

/-- The sign bits of up to eight entries as a byte. -/
def signByte (vs : List Entry) : Nat := (List.range vs.length).foldl (fun a i => a + b2n (signOf32 (nth (0, false) vs i).1) * 2 ^ i) 0

/-- A SIGN1 group (R268): the scale at the record's start, the sign bytes after it. -/
def encSign (vs : List Entry) : Enc :=
  let c := vs.length
  let bad := vs.any (fun v => !finite32 v.1)
  let sum := vecSum32 c (fun i => abs32 (nth (0, false) vs i).1)
  let scale := if bad then Fmt.fp32.nanCode else rne32 ((v32 sum).div (.fin false c 1))
  let scale := if !bad && !finite32 sum then Fmt.fp32.infCode else scale
  let bytes := (List.range 32).map (fun i =>
    let g := (vs.drop (8 * i)).take 8
    (4 + i, [if bad then 0 else signByte g], g.any (fun v => v.2)))
  { pieces := (0, natLe 4 scale, false) :: bytes
    residual := vs.map (fun v => (if bad then 0 else rne32 ((v32 v.1).sub (v32 (if signOf32 v.1 then neg32 scale else scale))), v.2))
    nonfinite := bad }

/-- The BF16 of an entry with saturation, and what is left of it (R269). -/
def bf16Sat (c : Nat) : Cvt := narrow .bf16 .rne true (v32 c)
def bf16Rest (c code : Nat) : Nat := rne32 ((v32 c).sub (v32 (code * 65536)))

/-- Indices of the k entries of largest magnitude, equal magnitudes by lower index, ascending. -/
def topIdx (k : Nat) (vs : List Entry) : List Nat :=
  let m (i : Nat) : Nat := abs32 (nth (0, false) vs i).1
  let order := (List.range vs.length).mergeSort (fun i j => m i > m j || (m i = m j && i ≤ j))
  (List.range vs.length).filter (fun i => (order.take k).contains i)

/-- A TOPK block (R269): its header at offset 0 of the result, its body from offset 2. -/
def encTop (k : Nat) (vs : List Entry) : Enc :=
  let c := vs.length
  let bad := vs.any (fun v => !finite32 v.1)
  let keep := min k c
  if !bad && 4 * keep ≤ 2 * c then
    let idx := topIdx keep vs
    let cv := idx.map (fun i => bf16Sat (nth (0, false) vs i).1)
    { pieces := (0, natLe 2 keep, false) :: (List.range keep).map (fun j =>
        let i := nth 0 idx j
        (2 + 4 * j, natLe 4 (i + (nth {} cv j).code * 65536), (nth (0, false) vs i).2))
      residual := (List.range c).map (fun i =>
        let v := nth (0, false) vs i
        (if idx.contains i then bf16Rest v.1 (bf16Sat v.1).code else v.1, v.2))
      flags := cv.foldl (fun a x => a.join x.flags) {} }
  else
    let cv := vs.map (fun v => bf16Sat v.1)
    { pieces := (0, natLe 2 0x8000, false) :: (List.range c).map (fun i =>
        (2 + 2 * i, natLe 2 (nth {} cv i).code, (nth (0, false) vs i).2))
      residual := vs.map (fun v => (if bad then 0 else bf16Rest v.1 (bf16Sat v.1).code, v.2))
      nonfinite := bad
      flags := cv.foldl (fun a x => a.join x.flags) {} }

/-- A COMPAT16 entry (R270). -/
def encCompat (f : Fmt) (scale : Nat) (v : Entry) : Enc :=
  let x : Val := match v32 v.1 with
    | .fin s n d => Val.div (.fin s n d) (v32 scale)
    | y => y
  let c := narrow f .rne true x
  let d := rne32 ((v32 scale).mul (f.value c.code))
  { pieces := [(0, natLe 2 c.code, v.2)]
    residual := [(if finite32 v.1 then rne32 ((v32 v.1).sub (v32 d)) else 0, v.2)]
    nonfinite := !finite32 v.1
    flags := c.flags }

/-- The encoded groups of v, each with the offset its pieces start from: for TOPK the header's offset and the body's. -/
def encodeAll (w : Nat) (vs : List Entry) : List Enc × List (Nat × List Nat × Bool) :=
  let n := vs.length
  let shift (k : Nat) (e : Enc) : List (Nat × List Nat × Bool) := e.pieces.map (fun x => (x.1 + k, x.2))
  match gFmt w with
  | 0 =>
    let es := (chunks 256 (groupsOf 256 n) vs).map encSign
    (es, (List.range es.length).flatMap (fun g => shift (36 * g) (nth {} es g)))
  | 1 =>
    let es := (chunks 4096 (groupsOf 4096 n) vs).map (encTop (gK w))
    let first := roundUp (2 * es.length) 64
    let place := (List.range es.length).foldl (fun (acc : Nat × List (Nat × List Nat × Bool)) g =>
      let e := nth {} es g
      let size := (e.pieces.drop 1).foldl (fun a x => a + x.2.1.length) 0
      let head := (e.pieces.take 1).map (fun x => (x.1 + 2 * g, x.2))
      let body := (e.pieces.drop 1).map (fun x => (x.1 - 2 + acc.1, x.2))
      (acc.1 + size, acc.2 ++ head ++ body)) (first, [])
    (es, place.2 ++ [(2 * es.length, List.replicate (first - 2 * es.length) 0, false)])
  | m =>
    let f : Fmt := if m = 2 then .bf16 else .fp16
    let es := vs.map (encCompat f (vImm w))
    (es, (0, natLe 4 (vImm w) ++ List.replicate 60 0, false)
      :: (List.range es.length).flatMap (fun i => shift (64 + 2 * i) (nth {} es i)))

def vecGencDone (p : Nat) (o : UnitOp) (s : State) : State :=
  let w := o.word
  let n := vN w
  let gs := combElems s p .fp32 (xaOf o.vals) n
  let es := combElems s p .fp32 (xbOf o.vals) n
  let sum (i : Nat) : Val := (v32 (nth (0, false) gs i).1).add (v32 (nth (0, false) es i).1)
  let vs := (List.range n).map (fun i => (rne32 (sum i), (nth (0, false) gs i).2 || (nth (0, false) es i).2))
  let inv := (List.range n).any (fun i => madeNan [v32 (nth (0, false) gs i).1, v32 (nth (0, false) es i).1] (sum i))
  let (encs, pieces) := encodeAll w vs
  let s := scatter (pieces.map (fun x => (combAddr p (xdOf o.vals + x.1), x.2))) s
  let s := writeElems p (xbOf o.vals) .fp32 (encs.flatMap (fun e => e.residual)) s
  let s := raiseIf (encs.any (fun e => e.nonfinite)) F.GEX_EVENTS_nonfinite 0 s
  applyNum p (encs.foldl (fun a e => a.join e.flags)
    (((readAll .fp32 gs).join (readAll .fp32 es)).join { invalid := inv })) s

/-! ## Decoding a wire form (R268–R271) -/

/-- What decoding gives: for each entry the FP32 values to add in order, with their poison, and the entries counted as
excess and as out of range. -/
structure Dec where
  vals : List (List Entry) := []
  excess : Nat := 0
  range : Nat := 0
  deriving DecidableEq, Repr

/-- An FP32 code from a wire word. -/
def wireAt (s : State) (a n : Nat) : Nat × Bool := (numAt s a n, poisoned s a n)

/-- One TOPK block of c entries whose header is at `h` and body at `b`; `lost` says an earlier header was poisoned. Gives the
entries, the body's bytes, excess and range. -/
def decTop (s : State) (h b c : Nat) (lost : Bool) : List (List Entry) × Nat × Nat × Nat × Bool :=
  let hd := wireAt s h 2
  let lost := lost || hd.2
  if bitAt hd.1 15 then
    ((List.range c).map (fun i => let x := wireAt s (b + 2 * i) 2; [(x.1 * 65536, x.2 || lost)]), 2 * c, 0, 0, lost)
  else
    let cnt := bitsOf hd.1 12 0
    let kept := min cnt (c / 2)
    let ents := (List.range kept).map (fun j => let x := wireAt s (b + 4 * j) 4; (bitsOf x.1 11 0, bitsOf x.1 31 16, x.2))
    ((List.range c).map (fun i =>
      match (ents.filter (fun e => e.1 = i)).map (fun e => (e.2.1 * 65536, e.2.2 || lost)) with
      | [] => [(0, lost)]
      | xs => xs),
     4 * kept, cnt - kept, (ents.filter (fun e => c ≤ e.1)).length, lost)

/-- The n entries of a wire form at an address. -/
def decodeWire (s : State) (a fmt n : Nat) : Dec :=
  match fmt with
  | 0 =>
    { vals := (List.range n).map (fun i =>
        let r := a + 36 * (i / 256)
        let sc := wireAt s r 4
        let b := wireAt s (r + 4 + i % 256 / 8) 1
        [(if bitAt b.1 (i % 8) then neg32 sc.1 else sc.1, sc.2 || b.2)]) }
  | 1 =>
    let blocks := groupsOf 4096 n
    let r := (List.range blocks).foldl (fun (acc : Dec × Nat × Bool) g =>
      let (vs, size, ex, rg, lost) := decTop s (a + 2 * g) acc.2.1 (min 4096 (n - 4096 * g)) acc.2.2
      ({ vals := acc.1.vals ++ vs, excess := acc.1.excess + ex, range := acc.1.range + rg }, acc.2.1 + size, lost))
      ({}, a + roundUp (2 * blocks) 64, false)
    r.1
  | 4 => { vals := (List.range n).map (fun i => [wireAt s (a + 4 * i) 4]) }
  | m =>
    let f : Fmt := if m = 2 then .bf16 else .fp16
    let sc := wireAt s a 4
    { vals := (List.range n).map (fun i =>
        let c := wireAt s (a + 64 + 2 * i) 2
        [(rne32 ((v32 sc.1).mul (f.read false c.1)), sc.2 || c.2)]) }

/-- The events of a decode (R269). -/
def decEvents (p : Nat) (d : Dec) (s : State) : State :=
  let s := if d.excess = 0 then s else sparseExcess p d.excess (raise F.GEX_EVENTS_topk_excess 0 s)
  iter d.range (raiseIf (d.range ≠ 0) F.GEX_EVENTS_topk_range 0 s) (fun _ t => sparseRange p t)

/-- A decode holds a NaN or an infinity. -/
def decNonfinite (d : Dec) : Bool := d.vals.any (fun vs => vs.any (fun v => !finite32 v.1))

/-- An FP32 addition of entries, with whether it made a NaN. -/
def addEntry (a b : Entry) : Entry := (add32 a.1 b.1, a.2 || b.2)

def addMade (a b : Entry) : Bool := madeNan [v32 a.1, v32 b.1] ((v32 a.1).add (v32 b.1))

/-- A decode added into the n FP32 values at a comb offset, or, for the first contribution, written (R266, R276). -/
def addDecoded (p off : Nat) (first : Bool) (d : Dec) (s : State) : State :=
  let n := d.vals.length
  let old := combElems s p .fp32 off n
  let r := (List.range n).map (fun i =>
    let vs := nth [] d.vals i
    let start := if first then (vs.headD (0, false), vs.drop 1) else (nth (0, false) old i, vs)
    start.2.foldl (fun (acc : Entry × Bool) v => (addEntry acc.1 v, acc.2 || addMade acc.1 v)) (start.1, false))
  let inv := r.any (fun x => x.2)
  let nanIn := d.vals.any (fun vs => vs.any (fun v => (v32 v.1).isNan)) || (!first && old.any (fun v => (v32 v.1).isNan))
  let s := writeElems p off .fp32 (r.map (fun x => x.1)) (decEvents p d s)
  applyNum p { invalid := inv, nanIn := nanIn } s

def vecGdecDone (p : Nat) (o : UnitOp) (s : State) : State :=
  addDecoded p (xdOf o.vals) false (decodeWire s (combAddr p (xaOf o.vals)) (gFmt o.word) (vN o.word)) s

/-! ## The digest (R285) -/

/-- The mixed term of lane j for the element of index k with stored bits b. -/
def digestTerm (k j b : Nat) : Nat :=
  let m := 2 ^ 64
  let z := ((4 * k + j + 1) * 0x9E3779B97F4A7C15 + b) % m
  let z := ((z ^^^ (z >>> 30)) * 0xBF58476D1CE4E5B9) % m
  let z := ((z ^^^ (z >>> 27)) * 0x94D049BB133111EB) % m
  z ^^^ (z >>> 31)

/-- Four lanes with n elements, of index `next` onward, folded in. -/
def digestFold (lanes : List Nat) (next : Nat) (xs : List Nat) : List Nat :=
  (List.range 4).map (fun j =>
    (List.range xs.length).foldl (fun a i => (a + digestTerm ((next + i) % 2 ^ 64) j (nth 0 xs i)) % 2 ^ 64) (nth 0 lanes j))

/-- Elements folded into the digest state at a comb offset. -/
def foldDigest (p off : Nat) (xs : List Entry) (s : State) : State :=
  let a := combAddr p off
  let ws := (List.range 8).map (fun i => numAt s (a + 8 * i) 8)
  let bad := poisoned s a 64
  let next := nth 0 ws 4
  let w5 := if anyBad xs then setBitN (nth 0 ws 5) 0 else nth 0 ws 5
  let out := digestFold (ws.take 4) next (xs.map (fun x => x.1)) ++ [(next + xs.length) % 2 ^ 64, w5] ++ ws.drop 6
  memWrite a (out.flatMap (natLe 8)) bad (count p 0x21 64 s)

def vecDigestDone (p : Nat) (o : UnitOp) (s : State) : State :=
  foldDigest p (xdOf o.vals) (combElems s p (fmtOf (vFa o.word)) (xaOf o.vals) (vN o.word)) s

/-! ## OPTW (R283, R284) -/

/-- A result of one FP32 operation with what it flagged. -/
structure Op32 where
  code : Nat := 0
  inv : Bool := false
  dz : Bool := false
  deriving DecidableEq, Repr

def op32 (xs : List Op32) (r : Val) : Op32 :=
  { code := rne32 r
    inv := xs.any (fun x => x.inv) || madeNan (xs.map (fun x => v32 x.code)) r
    dz := xs.any (fun x => x.dz) }

def omul (a b : Op32) : Op32 := op32 [a, b] ((v32 a.code).mul (v32 b.code))
def oadd (a b : Op32) : Op32 := op32 [a, b] ((v32 a.code).add (v32 b.code))
def ofma (a b c : Op32) : Op32 := op32 [a, b, c] (((v32 a.code).mul (v32 b.code)).add (v32 c.code))
def oneg (a : Op32) : Op32 := { a with code := neg32 a.code }
def orecip (a : Op32) : Op32 := { code := recip32 a.code, inv := a.inv, dz := a.dz || (v32 a.code).isZero }
def orsqrt (a : Op32) : Op32 :=
  { code := rsqrt32 a.code, inv := a.inv || (v32 a.code).lt Val.zero, dz := a.dz || (v32 a.code).isZero }

/-- The parameters of the block at xc by byte offset. -/
abbrev OptBlock := Nat → Op32

/-- One parameter under SGDM: the new m and p. -/
def sgdm (k : OptBlock) (p m gs : Op32) : Op32 × Op32 :=
  let g := omul (k 48) gs
  let m := ofma (k 4) m g
  (m, ofma (oneg (k 0)) (ofma (k 24) p m) p)

/-- One parameter under ADAMW: the new m, v and p. -/
def adamw (k : OptBlock) (p m v gs : Op32) : Op32 × Op32 × Op32 :=
  let g := omul (k 48) gs
  let m := ofma (k 4) m (omul (k 8) g)
  let v := ofma (k 12) v (omul (k 16) (omul g g))
  let d := orecip (orsqrt (omul v (k 32)))
  let u := omul (omul m (k 28)) (orecip (oadd d (k 20)))
  (m, v, ofma (oneg (k 0)) (ofma (k 24) p u) p)

/-- The write of an OPTW whose skip flag is clear. -/
def optWrite (p : Nat) (o : UnitOp) (s : State) : State :=
  let w := o.word
  let n := vN w
  let f := fmtOf (vFd w)
  let rule := optRule w
  let blk := poisoned s (combAddr p (xcOf o.vals)) 64
  let k : OptBlock := fun off => { code := numAt s (combAddr p (xcOf o.vals + off)) 4 }
  let ps := combElems s p f (xaOf o.vals) n
  let gs := combElems s p .fp32 (xbOf o.vals) n
  let ms := combElems s p .fp32 (xcOf o.vals + 64) n
  let vs := if rule = 1 then combElems s p .fp32 (xcOf o.vals + 64 + 4 * n) n else []
  let rs := (List.range n).map (fun i =>
    let x := nth (0, false) ps i
    let g := nth (0, false) gs i
    let m := nth (0, false) ms i
    let v := nth (0, false) vs i
    let pc : Op32 := { code := rne32 (f.read false x.1) }
    let mBad := blk || g.2 || m.2
    if rule = 0 then
      let y := sgdm k pc { code := m.1 } { code := g.1 }
      (y.2, y.1, ({} : Op32), mBad || x.2, mBad, false)
    else
      let y := adamw k pc { code := m.1 } { code := v.1 } { code := g.1 }
      let vBad := blk || g.2 || v.2
      (y.2.2, y.1, y.2.1, mBad || vBad || x.2, mBad, vBad))
  let used : List Nat := if rule = 0 then [0, 4, 24, 48] else [0, 4, 8, 12, 16, 20, 24, 28, 32, 48]
  let words : NumFlags := { nanIn := used.any (fun off => Fmt.fp32.isNan (k off).code) }
  let flags := rs.foldl (fun a r => a.join { invalid := r.1.inv || r.2.1.inv || r.2.2.1.inv, divZero := r.1.dz })
    ((readAll f ps).join ((readAll .fp32 gs).join (((readAll .fp32 ms).join (readAll .fp32 vs)).join words)))
  let (rnds, s) := vecRounds p o n s
  let cs := (List.range n).map (fun i =>
    let r := nth (({} : Op32), ({} : Op32), ({} : Op32), false, false, false) rs i
    (narrow f (nth .rne rnds i) (resolveSat f (wbits w 14 13)) (v32 r.1.code), r.2.2.2.1))
  let flags := cs.foldl (fun a c => a.join c.1.flags) flags
  let s := writeElems p (xaOf o.vals) f (cs.map (fun c => (c.1.code, c.2))) s
  let s := writeElems p (xcOf o.vals + 64) .fp32 (rs.map (fun r => (r.2.1.code, r.2.2.2.2.1))) s
  let s := if rule = 1 then
      writeElems p (xcOf o.vals + 64 + 4 * n) .fp32 (rs.map (fun r => (r.2.2.1.code, r.2.2.2.2.2))) s
    else s
  applyNum p flags s

def vecOptwDone (p : Nat) (o : UnitOp) (s : State) : State :=
  let w := o.word
  let skip := bitAt (numAt s (combAddr p (xcOf o.vals + 52)) 4) 0
  let s := if skip then
      let s := raise F.GEX_EVENTS_skip 0 s
      if fldB s F.GEX_CTRL_skip_fault then escalate (hiveOf p) 0x08 p s else s
    else if optRule w = 2 then s
    else optWrite p o s
  if optFold w then foldDigest p (xdOf o.vals) (combElems s p (fmtOf (vFd w)) (xaOf o.vals) (vN w)) s else s

/-! ## VEC_DONE -/

/-- The effect of a VEC operation. -/
def vecEffect (p : Nat) (o : UnitOp) (s : State) : State :=
  let op := wOp o.word
  if op ≤ 0x12 then vecElemDone p o s
  else if op ≤ 0x19 then vecSumDone p o s
  else if op = 0x1A then vecSumSqDone p o s
  else if op ≤ 0x21 then vecRowDone p o s
  else if op = 0x22 then vecSoftmaxDone p o s
  else if op = 0x23 then vecSelectDone p o s
  else if op = 0x28 then vecQuantDone p o s
  else if op = 0x29 then vecDequantDone p o s
  else if op = 0x2A then vecDqaccDone p o s
  else if op = 0x2B then vecHstoreDone p o s
  else if op = 0x30 then vecGencDone p o s
  else if op = 0x31 then vecGdecDone p o s
  else if op = 0x32 then vecOptwDone p o s
  else vecDigestDone p o s

/-- Comb bytes a VEC operation reads, each operand once. -/
def vecReads (p : Nat) (o : UnitOp) (s : State) : Nat :=
  let w := o.word
  let op := wOp w
  let n := vN w
  let a := fmtBytes (vFa w) n
  let b (k : Nat) : Nat := fmtBytes (vFb w) (if bitAt (vAux w) k then 1 else n)
  if op = 3 then a + b 0 + b 1
  else if op = 6 then a
  else if op ≤ 7 then a + b 0
  else if op = 0x19 then a + fmtBytes (vFb w) n
  else if op ≤ 0x21 then a
  else if op = 0x22 then a + (if bitAt (vAux w) 1 then 8 * vRows w else 0)
  else if op = 0x23 then a + 4 * vL w
  else if op = 0x28 then a + (if qSource w = 0 then qScaleBytes w + (if qAsym w then qUnits w else 0) else 0)
  else if op = 0x29 then a + qScaleBytes w + (if qAsym w then qUnits w else 0)
  else if op = 0x2A then a + 4 * vRows w + 4 * vL w
  else if op = 0x2B then 0
  else if op = 0x30 then 8 * n
  else if op = 0x31 then
    let x := combAddr p (xaOf o.vals)
    4 * n + (if gFmt w = 1 then
      (List.range (groupsOf 4096 n)).foldl (fun t g =>
        let h := numAt s (x + 2 * g) 2
        let c := min 4096 (n - 4096 * g)
        t + 2 + (if bitAt h 15 then 2 * c else 4 * min (bitsOf h 12 0) (c / 2))) 0
      else wireMax (gFmt w) n)
  else if op = 0x32 then
    a + 4 * n + 64 + (if optRule w = 0 then 4 * n else if optRule w = 1 then 8 * n else 0) + (if optFold w then 64 else 0)
  else a + 64

/-- The oldest VEC operation takes effect, leaves the queue and increments its semaphore (R195). -/
def vecDone (p : Nat) (s : State) : State :=
  match (pair s p).vec with
  | [] => s
  | o :: os =>
    let s := modPair p (fun x => { x with vec := os }) (vecEffect p o (count p 0x20 (vecReads p o s) s))
    if wSig o.word then semInc p (wSem o.word) s else s

end Sys2Proof.Machine
end

