-- ==== Sys2Proof/Machine/Check.lean ====
section
/-! DEFINITION. Check products (R203, R386–R391): CHKMUL, the check units of hum, their cross-check, charges and the
suspect event. -/

namespace Sys2Proof.Machine

/-- The digest of a check product's 32,768 accumulators, row by row, as a 256-bit number h₀ lowest (R387). -/
def checkSignature (seed u fmt steps : Nat) : Nat :=
  let cells := checkCells seed u fmt steps
  let lanes := digestFold [0, 0, 0, 0] 0 ((List.range 32768).map (fun k => cells (k / 64) (k % 64)))
  leNat (lanes.flatMap (natLe 8))

/-- CHKMUL completes: the signature of its product is written, and its bank is FREE. Its operands take the pair's next unit
number. -/
def chkmulDone (p : Nat) (met : ArrayMet) (s : State) : State :=
  match headReady s p 7 1 with
  | none => s
  | some o =>
    let w := o.word
    let n := wbits w 45 26 + 1
    let sig := checkSignature (fld s F.RL_CHECK_SEED_seed) (pair s p).check.units (wbits w 49 46) n
    let s := memWrite (combAddr p (nth 0 o.vals 0)) (natLe 32 sig) false (count p 0x21 32 s)
    finishArray p o (countSlots p 0 (4 * n) (setBank p (wbits w 25 24) slFree (arrayMeets p met s)))

/-- A pair's check state changed. -/
def modCheck (p : Nat) (f : CheckS → CheckS) (s : State) : State := modPair p (fun x => { x with check := f x.check }) s

/-- Hum is in CHECK mode (R358, R392). -/
def checkMode (s : State) : Bool := fld s F.PCC_CTRL_hum_mode = 2 || fldB s F.RL_STATUS_window

/-- The pair's hum works on check units: hum is in CHECK mode, and the HUM that it waits in, if it waits in one, is a check
HUM (R203, R358). -/
def checksUnits (s : State) (p : Nat) : Bool :=
  checkMode s && (match (pair s p).blocked with
    | .hum _ _ check => check
    | _ => true)

/-- The pair runs hum: it waits in a HUM, or waits for its slice where that is allowed (R358). -/
def humRuns (s : State) (p : Nat) : Bool :=
  hiveState s (hiveOf p) = hsInService &&
    ((match (pair s p).blocked with
      | .hum _ _ _ => seqState s p = sqRunning
      | _ => false)
    || (fldB s F.PCC_CTRL_hum_slice_end && seqState s p = sqWaiting))

/-- A bank whose four slices are FREE stands ready for a hum burst. -/
def humBank (s : State) (p : Nat) : Bool := (List.range 4).any (fun b => (List.range 4).all (fun r => sliceState s p (4 * b + r) = slFree))

/-- The suspect count of a pair: at its limit within 60 minutes the event goes out (R391). -/
def noteCharge (p : Nat) (s : State) : State :=
  let recent := (pair s p).check.charges.filter (fun t => s.us < t + 3600000000) ++ [s.us]
  if recent.length ≥ fld s F.RL_CHECK_suspect then
    sendEventOpen 0x0C 8 p (raise F.RL_EVENTS_suspect 0 (modCheck p (fun c => { c with charges := [] }) s))
  else modCheck p (fun c => { c with charges := recent }) s

/-- A pair is charged one mismatch (R388). -/
def chargePair (p : Nat) (s : State) : State :=
  let s := checkMismatch p s
  if fldB s F.RL_STATUS_window then satAddFld F.RL_PAIR_p_charged_margin p 1 s
  else noteCharge p (satAddFld F.RL_PAIR_p_charged p 1 s)

/-- A unit rerun for pair a and its partner (R388). -/
def settleRerun (r a sa sb c : Nat) (s : State) : State :=
  let b := a ^^^ 32
  let s := if sa ≠ c then chargePair a s else s
  let s := if sb ≠ c then chargePair b s else s
  if sa ≠ c && sb ≠ c then
    [a, b, r].foldl (fun t q => satAddFld F.RL_PAIR_p_unresolved q 1 t) s
  else s

/-- A pair's own unit u is finished with signature c: compared with its partner's, or kept (R388). -/
def crossCheck (p u c : Nat) (s : State) : State :=
  let q := p ^^^ 32
  match (pair s q).check.sigs.find? (fun e => e.1 = u) with
  | some e =>
    let s := modCheck q (fun k => { k with sigs := SMap.erase k.sigs u }) s
    if e.2 = c then s
    else
      let a := min p q
      let (sa, sb) := if p = a then (c, e.2) else (e.2, c)
      modCheck (a ^^^ 16) (fun k => { k with reruns := k.reruns ++ [(u, a, sa, sb)] }) s
  | none =>
    let old := (pair s p).check.sigs.filter (fun e => e.1 + 64 ≤ u)
    let s := modCheck p (fun k => { k with sigs := SMap.insert (k.sigs.filter (fun e => u < e.1 + 64)) u c }) s
    if old.isEmpty then s
    else raise F.RL_EVENTS_unchecked 0 (satAddFld F.RL_PAIR_p_units p old.length s)

/-- The unit takes its operands from the library (R389). -/
def libraryUnit (s : State) (u : Nat) : Bool := u % 16 < fld s F.RL_CHECK_lib_share && !s.library.isEmpty

/-- The pattern whose turn it is. -/
def nextPattern (s : State) : Pattern := nth {} s.library (s.libNext % s.library.length)

/-- The signature of a pattern's product: unit 0 of the pattern's own seed (DEDUCED, log 51). -/
def patternSignature (pat : Pattern) : Nat := checkSignature pat.seed 0 pat.fmt (pat.steps + 1)

/-- The unit that a pair works on as the library is replaced keeps its operands (R390). -/
def unitKept (p : Nat) (s : State) : State :=
  let k := (pair s p).check
  if !(checksUnits s p && humRuns s p && humBank s p) || !k.reruns.isEmpty || k.begun.isSome then s
  else if libraryUnit s k.units then
    modCheck p (fun k => { k with begun := some (some (nextPattern s)) }) { s with libNext := s.libNext + 1 }
  else modCheck p (fun k => { k with begun := some none }) s

/-- A library unit is finished with signature c. -/
def libraryCheck (p c : Nat) (pat : Pattern) (s : State) : State :=
  if c = pat.expected then s
  else
    let s := raise F.RL_EVENTS_lib_mismatch 0 (satAddFld F.RL_PAIR_p_lib_fail p 1 s)
    let s := logEvent { block := 0x0C, item := 9, severity := openSeverity 0x0C 9, hive := hiveOf p, pair := p } s
    noteCharge p s

/-- A hum check unit finishes. `err` is what the pair's arithmetic got wrong: the difference, bit by bit, between the
signature it formed and the right one. -/
def checkUnitDone (p err : Nat) (s : State) : State :=
  if !(checksUnits s p && humRuns s p && humBank s p) then s
  else
    let k := (pair s p).check
    let wrong (sig : Nat) : Nat := sig ^^^ (err % 2 ^ 256)
    let sigOf (u : Nat) : Nat :=
      checkSignature (fld s F.RL_CHECK_SEED_seed) u (fld s F.RL_CHECK_fmt) (fld s F.RL_CHECK_steps_m1 + 1)
    match k.reruns with
    | (u, a, sa, sb) :: rest => settleRerun p a sa sb (wrong (sigOf u)) (modCheck p (fun k => { k with reruns := rest }) s)
    | [] =>
      let u := k.units
      let s := modCheck p (fun k => { k with units := k.units + 1, begun := none }) s
      match k.begun with
      | some (some pat) => libraryCheck p (wrong (patternSignature pat)) pat s
      | some none => crossCheck p u (wrong (sigOf u)) s
      | none =>
        if libraryUnit s u then
          let pat := nextPattern s
          libraryCheck p (wrong (patternSignature pat)) pat { s with libNext := s.libNext + 1 }
        else crossCheck p u (wrong (sigOf u)) s

/-- A hive reset of a pair: its comparisons and its partner's are discarded and both counters restart (R388). -/
def checkReset (p : Nat) (s : State) : State :=
  let q := p ^^^ 32
  let a := min p q
  let s := modCheck (a ^^^ 16) (fun k => { k with reruns := k.reruns.filter (fun r => r.2.1 ≠ a) }) s
  modCheck q (fun k => { k with units := 0, sigs := [], begun := none })
    (modCheck p (fun k => { k with units := 0, sigs := [], reruns := [], begun := none }) s)

end Sys2Proof.Machine
end

