-- ==== Sys2Proof/Machine/Coll.lean ====
section
/-! DEFINITION. What every COLL primitive shares (R183, R184, R265, R309): the descriptor, issue, the members of a ring, the
completion at a pair, and the messages of the exchange and the collectives. -/

namespace Sys2Proof.Machine

/-! ## Rings and members -/

/-- The axis a COLL instruction names (R183). -/
def collAxis (w : Nat) : Nat := wbits w 60 59

/-- Members of the ring of an axis (R265). -/
def ringSizeOf (s : State) (axis : Nat) : Nat := ringOf s axis

/-- This part's member number on an axis. -/
def memberOf (s : State) (axis : Nat) : Nat := coordOf (deviceId s) axis

/-- The device of member m of the ring of an axis. -/
def memberDev (s : State) (axis m : Nat) : Nat := putBits (deviceId s) (4 * axis + 3) (4 * axis) m

/-- The exclusion mask of an axis (R279). -/
def exclMask (s : State) (axis : Nat) : Nat := bitsOf (reg s .GEX_EXCLUDE 0).toNat (16 * axis + 15) (16 * axis)

def excluded (s : State) (axis m : Nat) : Bool := bitAt (exclMask s axis) m

/-- The members of the ring, ascending, and those not excluded. -/
def ringMembers (s : State) (axis : Nat) : List Nat := List.range (ringSizeOf s axis)
def activeMembers (s : State) (axis : Nat) : List Nat := (ringMembers s axis).filter (fun m => !excluded s axis m)

/-- A set of members as a mask. -/
def maskOf (ms : List Nat) : Nat := ms.foldl setBitN 0

/-- A part lies on this part's ring of an axis. -/
def onRing (s : State) (axis dev : Nat) : Bool := memberDev s axis (coordOf dev axis) = dev && coordOf dev axis < ringSizeOf s axis

/-! ## Ranges (R265) -/

/-- Entries per member, for an alignment. -/
def rangeStep (align n m : Nat) : Nat := groupsOf (align * m) n * align

/-- First entry and entries of member k's range. -/
def rangeOf (align n m k : Nat) : Nat × Nat :=
  let st := rangeStep align n m
  (k * st, min ((k + 1) * st) n - k * st)

/-- The alignment of an exchange format. -/
def gexAlign (fmt : Nat) : Nat := if fmt = 1 then 4096 else 256

/-! ## Issue -/

/-- The schedule breath b0 in which a pair issues a primitive: its slice's, which a late slice keeps past the boundary. -/
def issueBreath (s : State) (p : Nat) : Nat := (pair s p).sliceBreath

/-- The descriptor can be read. -/
def collReadable (s : State) (p w : Nat) : Bool :=
  descOff w % 128 = 0 && inComb (descOff w) 128 && !poisoned s (combAddr p (descOff w)) 128

/-- Word 0 of a COLL's descriptor. -/
def collWord0 (s : State) (p w : Nat) : Nat := numAt s (combAddr p (descOff w)) 8

/-- A COLL of operation `op`, of a form if the operation has forms: a word no row could issue belongs to each, a descriptor of
a form that GEXCH does not have, too. -/
def isColl (p op : Nat) (form : Option Nat) (w : Nat) (s : State) : Bool :=
  wCls w = 5 && wOp w = op && (match form with
    | none => true
    | some f =>
      let form := bitsOf (collWord0 s p w) 63 62
      !collReadable s p w || form = f || (op = 6 && 2 ≤ form))

/-- Issue of a COLL (R178, R183): its descriptor's checks, a place among eight, then its effect. -/
def issueColl (p : Nat) (fault : State → List Nat → Nat → Option Nat) (body : List Nat → UnitOp → State → State) (w : Nat)
    (s : State) : Issue :=
  checks (!onlyBits w [(9, 0), (22, 16), (60, 24)] || !semOk w) false (descOff w % 128 ≠ 0) (!inComb (descOff w) 128)
    (if poisoned s (combAddr p (descOff w)) 128 then .fault fDescPoison
     else
       let ws := descWords s p w 16
       match fault s ws (collAxis w) with
       | some f => .fault f
       | none =>
         if (pair s p).colls.length ≥ 8 then .stall
         else
           let o : UnitOp := { word := w, index := seqPc s p, desc := ws, seq := (pair s p).seq }
           .done (body ws o (modPair p (fun x => { x with colls := x.colls ++ [o] }) s)) none)

/-- The first fault that applies, in the order of R178. -/
def collChecks (invalid misaligned range : Bool) : Option Nat :=
  if invalid then some fDescInvalid else if misaligned then some fMisaligned else if range then some fAddrRange else none

/-- Words of a descriptor that are 0. -/
def zeroWords (ws : List Nat) (is : List Nat) : Bool := is.all (fun i => nth 0 ws i = 0)

/-- A comb offset held in a descriptor word's low 23 bits, nothing above. -/
def combWord (v : Nat) : Bool := onlyBits v [(22, 0)]

/-- The primitive is complete at this pair: it leaves the hub's queue and increments its semaphore (R184). -/
def finishColl (p seq : Nat) (s : State) : State :=
  match (pair s p).colls.find? (fun o => o.seq = seq) with
  | none => s
  | some o =>
    let s := modPair p (fun x => { x with colls := x.colls.filter (fun o => o.seq ≠ seq) }) s
    if wSig o.word then semInc p (wSem o.word) s else s

/-- A 64-byte result block written in comb. -/
def writeBlock (p off : Nat) (ws : List Nat) (s : State) : State :=
  let ws := ws ++ List.replicate (8 - ws.length) 0
  memWrite (combAddr p off) (ws.flatMap (natLe 8)) false (count p 0x21 64 s)

/-- A boundary tick comes that begins a schedule breath, or a later one: the breath unit is ARMED or RUNNING (R46, R318). -/
def tickReached (s : State) (breath : Nat) : Bool :=
  (fld s F.BREATH_STATUS_state = 1 || fld s F.BREATH_STATUS_state = 2) && breath ≤ schedBreath s + 1

/-- The breath a close at a deadline falls in, and one before it. -/
def closeBreath (s : State) (late : Bool) : Nat := schedBreath s + (if late then 1 else 0)

/-! ## Messages -/

/-- A collective's message goes out one way round its axis: P, or N (R311, R312). -/
def sendAlong (p axis : Nat) (neg : Bool) (m : Packet) (s : State) : State :=
  injectVia (if neg then setBitN (dirBits s m.dst) axis else clearBitN (dirBits s m.dst) axis) { m with pair := p, cls := 3 } s

/-- A message's payload is counted, and leaves by the pair's mesh port (R418). -/
def countSent (p : Nat) (m : Packet) (s : State) : State := count p 0x22 m.data.length (count p 0x26 m.data.length s)

/-- A collective's message goes out, its payload counted. -/
def sendColl (p : Nat) (m : Packet) (s : State) : State :=
  inject { m with pair := p, cls := 3 } (countSent p m s)

/-- A message of an exchange goes out as a request that is acknowledged or refused (R308). -/
def requestColl (p kind ref member : Nat) (m : Packet) (s : State) : State :=
  sendRequest kind p ref member { m with pair := p, cls := 3 } (countSent p m s)

/-- A message is acknowledged. -/
def ackMessage (m : Packet) (s : State) : State := inject (acknowledge s m) s

/-- A message is refused with a reason (R294). -/
def refuseMessage (m : Packet) (reason : Nat) (s : State) : State := inject (refusal s m reason) s

/-- The payload poison of bytes, by 64-byte sector. -/
def sectorPoison (bad : List Bool) : Nat :=
  (List.range bad.length).foldl (fun m i => if nth false bad i then setBitN m (i / 64) else m) 0

/-- The poison of bytes read from an address, one by one. -/
def badBytes (s : State) (a n : Nat) : List Bool := (List.range n).map (fun i => poisoned s (a + i) 1)

/-- Bytes of a payload as pieces of a write, poisoned by payload sector: `skip` bytes of the payload come before them. -/
def payloadPieces (a skip poison : Nat) (bs : List Nat) : List (Nat × List Nat × Bool) :=
  (List.range ((bs.length + 15) / 16)).map (fun i =>
    (a + 16 * i, (bs.drop (16 * i)).take 16, bitAt poison ((skip + 16 * i) / 64)))

/-- The packet type of a kind of message (R294). -/
abbrev ptAlltoall : Nat := 0x10
abbrev ptGexch : Nat := 0x11
abbrev ptNorm : Nat := 0x12
abbrev ptColl : Nat := 0x13
abbrev ptPermute : Nat := 0x14
abbrev ptDigcmp : Nat := 0x15

end Sys2Proof.Machine
end

