-- ==== Sys2Proof/Machine/Gex.lean ====
section
/-! DEFINITION. The gradient exchange (R265, R266, R272–R279, R286–R288): GEXCH in its two forms, its messages, decodes,
closes, masks, fold-back and exclusion. -/

namespace Sys2Proof.Machine

/-! ## Descriptor (R273, R274) -/

/-- The most bytes a body for n entries takes (R273). -/
def gexBody (fmt n : Nat) : Nat :=
  match fmt with
  | 0 => 36 * n / 256
  | 1 => roundUp (2 * n / 4096) 64 + 2 * n
  | 4 => 4 * n
  | _ => 64 + 2 * n

/-- A slot's bytes in the receive area. -/
def gexSlot (fmt n m : Nat) : Nat := roundUp (gexBody fmt (rangeStep (gexAlign fmt) n m)) 64

def gexPostFault (p : Nat) (s : State) (ws : List Nat) (axis : Nat) : Option Nat :=
  let w0 := nth 0 ws 0
  let fmt := bitsOf w0 45 43
  let n := bitsOf w0 20 0 + 1
  let m := ringSizeOf s axis
  let st := rangeStep (gexAlign fmt) n m
  let offs := [nth 0 ws 1, nth 0 ws 2, nth 0 ws 3]
  collChecks
    (!onlyBits w0 [(63, 42), (20, 0)] || bitsOf w0 63 62 ≠ 0 || !offs.all combWord || !zeroWords ws [4, 5, 6, 7, 8, 9, 10, 11, 12, 13, 14, 15]
      || bitsOf w0 57 50 = 0 || bitsOf w0 49 46 = 0 || fmt > 4
      || (pair s p).posts.any (fun e => e.1 = bitsOf w0 61 58))
    (offs.any (fun o => o % 64 ≠ 0))
    (!inComb (nth 0 ws 1) (4 * st) || !inComb (nth 0 ws 2) (m * gexSlot fmt n m) || !inComb (nth 0 ws 3) 64)

def gexSendFault (p : Nat) (s : State) (ws : List Nat) (_axis : Nat) : Option Nat :=
  let w0 := nth 0 ws 0
  let fmt := bitsOf w0 45 43
  let n := bitsOf w0 20 0 + 1
  let offs := [nth 0 ws 1, nth 0 ws 2, nth 0 ws 3]
  let c := nth 0 ws 4
  collChecks
    (!onlyBits w0 [(63, 50), (45, 43), (20, 0)] || bitsOf w0 63 62 ≠ 1 || !offs.all combWord || !zeroWords ws [5, 6, 7, 8, 9, 10, 11, 12, 13, 14, 15]
      || bitsOf w0 57 50 = 0 || fmt > 4 || (if fmt = 4 then c = 0 || c > 65535 else c ≠ 0)
      || (pair s p).sends.any (fun e => e.1 = bitsOf w0 61 58))
    (offs.any (fun o => o % 64 ≠ 0))
    (!inComb (nth 0 ws 1) (wireMax fmt n) || !inComb (nth 0 ws 2) (4 * n) || !inComb (nth 0 ws 3) 64)

/-! ## Slices of a wire form -/

/-- Bytes of a TOPK block's body as a reader takes it (R269). -/
def topkBody (s : State) (h c : Nat) : Nat :=
  let v := numAt s h 2
  if bitAt v 15 then 2 * c else 4 * min (bitsOf v 12 0) (c / 2)

/-- The first body byte of block g of a TOPK wire form of n entries. -/
def topkStart (s : State) (a n g : Nat) : Nat :=
  (List.range g).foldl (fun t i => t + topkBody s (a + 2 * i) (min 4096 (n - 4096 * i)))
    (a + roundUp (2 * groupsOf 4096 n) 64)

/-- The body of a message for entries first to first + cnt − 1: pieces of the wire form, by address and length, with padding
as a piece at no address (R272). -/
def bodyPieces (s : State) (a fmt n first cnt : Nat) : List (Option Nat × Nat) :=
  match fmt with
  | 0 => [(some (a + 36 * (first / 256)), 36 * groupsOf 256 cnt)]
  | 1 =>
    let g0 := first / 4096
    let g := groupsOf 4096 cnt
    let b0 := topkStart s a n g0
    let b1 := topkStart s a n (g0 + g)
    [(some (a + 2 * g0), 2 * g), (none, roundUp (2 * g) 64 - 2 * g), (some b0, b1 - b0)]
  | 4 => [(some (a + 4 * first), 4 * cnt)]
  | _ => [(some (a + 64 + 2 * first), 2 * cnt)]

/-- The bytes of a body and the poison of each. -/
def bodyBytes (s : State) (ps : List (Option Nat × Nat)) : List (Nat × Bool) :=
  ps.flatMap (fun x => match x.1 with
    | none => List.replicate x.2 (0, false)
    | some a => (List.range x.2).map (fun i => (byteAt s (a + i), poisoned s (a + i) 1)))

/-- The 32-byte header of a message (R272). -/
def gexHeader (fmt tag sender axis gen first cnt count scale bytes : Nat) : List Nat :=
  natLe 4 (fmt + 16 * tag + 256 * sender + 4096 * axis + 65536 * (gen % 65536)) ++ natLe 4 first ++ natLe 4 cnt
    ++ natLe 4 count ++ natLe 4 scale ++ natLe 4 bytes ++ natLe 8 0

/-- The fields of a message's header. -/
structure GexHead where
  fmt : Nat
  tag : Nat
  sender : Nat
  axis : Nat
  gen : Nat
  first : Nat
  entries : Nat
  count : Nat
  scale : Nat
  bytes : Nat
  deriving DecidableEq, Repr

def gexHead (d : List Nat) : GexHead :=
  let at32 (i : Nat) : Nat := leNat ((d.drop (4 * i)).take 4)
  let w := at32 0
  { fmt := bitsOf w 3 0, tag := bitsOf w 7 4, sender := bitsOf w 11 8, axis := bitsOf w 13 12, gen := bitsOf w 31 16
    first := at32 1, entries := at32 2, count := at32 3, scale := at32 4, bytes := at32 5 }

/-- The entries first to first + cnt − 1 of a wire form decoded. -/
def decodeSlice (s : State) (a fmt n first cnt : Nat) : Dec :=
  match fmt with
  | 1 =>
    let g0 := first / 4096
    let r := (List.range (groupsOf 4096 cnt)).foldl (fun (acc : Dec × Nat × Bool) i =>
      let g := g0 + i
      let (vs, size, ex, rg, lost) := decTop s (a + 2 * g) acc.2.1 (min 4096 (n - 4096 * g)) acc.2.2
      ({ vals := acc.1.vals ++ vs, excess := acc.1.excess + ex, range := acc.1.range + rg }, acc.2.1 + size, lost))
      ({}, topkStart s a n g0, false)
    r.1
  | _ =>
    let d := decodeWire s a fmt n
    { d with vals := (d.vals.drop first).take cnt }

/-! ## POST and SEND (R273, R275, R278) -/

def setPost (p tag : Nat) (x : GexPost) (s : State) : State :=
  modPair p (fun q => { q with posts := SMap.insert q.posts tag x }) s

def setSend (p tag : Nat) (x : GexSend) (s : State) : State :=
  modPair p (fun q => { q with sends := SMap.insert q.sends tag x }) s

def findPost (s : State) (p tag : Nat) : Option GexPost := ((pair s p).posts.find? (fun e => e.1 = tag)).map (fun e => e.2)
def findSend (s : State) (p tag : Nat) : Option GexSend := ((pair s p).sends.find? (fun e => e.1 = tag)).map (fun e => e.2)

/-- The range of this member under a post. -/
def postRange (s : State) (x : GexPost) : Nat × Nat := rangeOf (gexAlign x.fmt) x.n (ringSizeOf s x.axis) (memberOf s x.axis)

def postStep (s : State) (x : GexPost) : Nat := rangeStep (gexAlign x.fmt) x.n (ringSizeOf s x.axis)

/-- A slot's address in the receive area. -/
def slotOff (s : State) (x : GexPost) (m : Nat) : Nat := x.area + m * gexSlot x.fmt x.n (ringSizeOf s x.axis)

/-- Every non-excluded member has been accepted. -/
def postFull (s : State) (x : GexPost) : Bool := (activeMembers s x.axis).all (bitAt x.mask)

/-- The breath whose beginning closes a post. -/
def GexPost.due (x : GexPost) : Nat := x.b0 + x.ahead + x.deadline

/-- One decode: the slot's contribution written or added into the sum buffer (R266, R276). -/
def decodeMember (p : Nat) (x : GexPost) (m : Nat) (s : State) : GexPost × State :=
  let d := decodeWire s (combAddr p (slotOff s x m)) x.fmt (postRange s x).2
  ({ x with next := m + 1, wrote := true, nonfinite := x.nonfinite || decNonfinite d }, addDecoded p x.sum (!x.wrote) d s)

/-- The received-mask sent to every member (R277). -/
def sendMasks (p : Nat) (x : GexPost) (s : State) : State :=
  (ringMembers s x.axis).foldl (fun t m =>
    sendColl p { ptype := ptGexch, dst := memberDev s x.axis m, tag := x.tag, generation := (x.b0 + x.ahead) % 65536
                 aux := [1, x.mask, x.axis] } t) s

/-- The close of a post in the order of R277. -/
def closePost (p : Nat) (x : GexPost) (late : Bool) (s : State) : State :=
  let (x, s) := ((ringMembers s x.axis).filter (fun m => x.next ≤ m && bitAt x.mask m)).foldl
    (fun (acc : GexPost × State) m => decodeMember p acc.1 m acc.2) (x, s)
  let st := postStep s x
  let empty := (postRange s x).2 = 0
  let total := x.counts.foldl (fun a e => a + e.2) 0
  let s := if total = 0 then writeElems p x.sum .fp32 (List.replicate st (0, false)) s
    else if x.avg then
      writeElems p x.sum .fp32 ((combElems s p .fp32 x.sum st).map (fun e =>
        (match v32 e.1 with
          | .fin g n d => rne32 (Val.div (.fin g n d) (.fin false total 1))
          | v => rne32 v, e.2))) s
    else s
  let es := combElems s p .fp32 x.sum st
  let (sq, inv) := sumSqFlag st (fun i => (nth (0, false) es i).1)
  let s := applyNum p { invalid := inv } s
  let mask := if empty then maskOf (activeMembers s x.axis) else x.mask
  let partialClose := !(activeMembers s x.axis).all (bitAt mask)
  let br := closeBreath s late
  let blk := [mask + (if late then 2 ^ 16 else 0) + (if x.nonfinite then 2 ^ 17 else 0) + (if empty then 2 ^ 18 else 0),
    total, sq, x.refused, br % 2 ^ 48]
  let s := writeBlock p x.res blk s
  let s := if anyBad es then setMark ((combAddr p x.res) / 64) true s else s
  let s := modPair p (fun q => { q with posts := SMap.erase q.posts x.tag }) s
  let s := finishColl p x.seq s
  let s := sendMasks p { x with mask := mask } s
  if partialClose then
    let s := raise F.GEX_EVENTS_partial 0 (satAddFld F.GEX_COUNTS_partial 0 1 s)
    let s := setFld F.GEX_LAST_mask 0 mask s
    let s := setFld F.GEX_LAST_axis 0 x.axis s
    let s := setFld F.GEX_LAST_tag 0 x.tag s
    let s := setFld F.GEX_LAST_pair 0 p s
    let s := setFld F.GEX_LAST_breath 0 br s
    if fldB s F.GEX_CTRL_partial_event then sendEventOpen 0x09 1 p s else s
  else s

/-- A POST opens its receive side; one whose range is empty closes at issue. -/
def postBody (p : Nat) (ws : List Nat) (o : UnitOp) (s : State) : State :=
  let w0 := nth 0 ws 0
  let x : GexPost :=
    { seq := o.seq, tag := bitsOf w0 61 58, axis := collAxis o.word, b0 := issueBreath s p, ahead := bitsOf w0 49 46
      deadline := bitsOf w0 57 50, fmt := bitsOf w0 45 43, avg := bitAt w0 42, n := bitsOf w0 20 0 + 1
      sum := nth 0 ws 1, area := nth 0 ws 2, res := nth 0 ws 3 }
  let s := setPost p x.tag x s
  if (postRange s x).2 = 0 then closePost p x false s else s

def gexchPost (p : Nat) (s : State) : State :=
  issueWith p (isColl p 6 (some 0)) (issueColl p (gexPostFault p) (postBody p)) s

/-- The scale a message carries (R272). -/
def sendScale (s : State) (p : Nat) (x : GexSend) : Nat := if x.fmt = 2 || x.fmt = 3 then numAt s (combAddr p x.wire) 4 else 0

/-- One message to an owner, with the exchange's header. -/
def sendMessage (p : Nat) (x : GexSend) (cnt owner : Nat) (s : State) : State :=
  let m := ringSizeOf s x.axis
  let r := rangeOf (gexAlign x.fmt) x.n m owner
  let a := combAddr p x.wire
  let body := bodyBytes s (bodyPieces s a x.fmt x.n r.1 r.2)
  let head := gexHeader x.fmt x.tag (memberOf s x.axis) x.axis x.b0 r.1 r.2 cnt (sendScale s p x) body.length
  let scaleBad := (x.fmt = 2 || x.fmt = 3) && poisoned s a 4
  requestColl p 2 x.tag owner
    { ptype := ptGexch, dst := memberDev s x.axis owner, tag := x.tag, generation := x.b0 % 65536
      data := head ++ body.map (fun b => b.1)
      poison := sectorPoison (List.replicate 32 scaleBad ++ body.map (fun b => b.2)), aux := [0] } s

/-- A SEND: one message to each owner of a non-empty range, in ascending order; its masks are awaited. -/
def sendBody (p : Nat) (ws : List Nat) (o : UnitOp) (s : State) : State :=
  let w0 := nth 0 ws 0
  let fmt := bitsOf w0 45 43
  let axis := collAxis o.word
  let n := bitsOf w0 20 0 + 1
  let m := ringSizeOf s axis
  let owners := (ringMembers s axis).filter (fun k => (rangeOf (gexAlign fmt) n m k).2 ≠ 0)
  let nf := owners.filter (fun k =>
    let r := rangeOf (gexAlign fmt) n m k
    decNonfinite (decodeSlice s (combAddr p (nth 0 ws 1)) fmt n r.1 r.2))
  let x : GexSend :=
    { seq := o.seq, tag := bitsOf w0 61 58, axis := axis, b0 := issueBreath s p, deadline := bitsOf w0 57 50, fmt := fmt
      n := n, wire := nth 0 ws 1, err := nth 0 ws 2, res := nth 0 ws 3, await := maskOf owners, nonfinite := maskOf nf }
  owners.foldl (fun t k => sendMessage p x (if fmt = 4 then nth 0 ws 4 else 1) k t) (setSend p x.tag x s)

def gexchSend (p : Nat) (s : State) : State :=
  issueWith p (isColl p 6 (some 1)) (issueColl p (gexSendFault p) (sendBody p)) s

/-! ## Receiving (R275) -/

/-- A message refused by this owner: counted, and the sender told. -/
def gexRefuse (m : Packet) (reason : Nat) (s : State) : State :=
  let s := satAddFld F.GEX_COUNTS_refused 0 1 s
  let s := if reason = 5 then raise F.GEX_EVENTS_poison_refused 0 s else raise F.GEX_EVENTS_refused 0 s
  refuseMessage m reason s

/-- Why a post refuses a message: the reason, if any. -/
def gexReject (s : State) (x : GexPost) (m : Packet) (h : GexHead) : Option Nat :=
  let r := rangeOf (gexAlign x.fmt) x.n (ringSizeOf s x.axis) (memberOf s x.axis)
  if h.gen ≠ (x.b0 + x.ahead) % 65536 || h.fmt ≠ x.fmt || h.axis ≠ x.axis || h.first ≠ r.1 || h.entries ≠ r.2 then some 3
  else if excluded s x.axis h.sender then some 4
  else if bitAt x.mask h.sender || h.sender ≥ ringSizeOf s x.axis || h.bytes > gexBody x.fmt (postStep s x) then some 3
  else if m.poison ≠ 0 then some 5
  else none

/-- What a slot holds: the body, and for COMPAT16 the wire form's head before it (R270, R273). -/
def slotBytes (h : GexHead) (body : List Nat) : List Nat :=
  if h.fmt = 2 || h.fmt = 3 then natLe 4 h.scale ++ List.replicate 60 0 ++ body else body

/-- An exchange message arrives: accepted into its sender's slot, or refused. -/
def gexMessageReceive (m : Packet) (s : State) : State :=
  let p := m.pair
  let h := gexHead m.data
  match findPost s p h.tag with
  | none => gexRefuse m 3 s
  | some x =>
    match gexReject s x m h with
    | some reason => gexRefuse m reason (setPost p h.tag { x with refused := x.refused + 1 } s)
    | none =>
      let body := (m.data.drop 32).take h.bytes
      let bs := slotBytes h body
      let s := memWrite (combAddr p (slotOff s x h.sender)) bs false (count p 0x23 bs.length (count p 0x21 bs.length s))
      ackMessage m (setPost p h.tag
        { x with mask := setBitN x.mask h.sender, counts := SMap.insert x.counts h.sender h.count } s)

/-- The hub's next decode of a post: the lowest member not decoded, once its message is in (R276). -/
def gexDecode (p tag : Nat) (s : State) : State :=
  match findPost s p tag with
  | none => s
  | some x =>
    if x.next < ringSizeOf s x.axis && bitAt x.mask x.next then
      let (x, s) := decodeMember p x x.next s
      setPost p tag x s
    else s

/-- A post closes: every non-excluded member is in, or its deadline's tick has come (R277). -/
def gexPostClose (p tag : Nat) (s : State) : State :=
  match findPost s p tag with
  | none => s
  | some x =>
    if postFull s x then closePost p x false s
    else if tickReached s x.due then closePost p x true s
    else s

/-! ## Masks and fold-back (R278) -/

/-- A refused contribution goes back into the error memory, or a partial sum into its buffer. -/
def foldBack (p : Nat) (x : GexSend) (owner : Nat) (s : State) : GexSend × State :=
  if bitAt x.folded owner then (x, s)
  else
    let r := rangeOf (gexAlign x.fmt) x.n (ringSizeOf s x.axis) owner
    let d := decodeSlice s (combAddr p x.wire) x.fmt x.n r.1 r.2
    ({ x with folded := setBitN x.folded owner, foldedEntries := x.foldedEntries + r.2 },
     addDecoded p (x.err + 4 * r.1) false d s)

/-- A send whose masks are all settled writes its result block and completes. -/
def settleSend (p : Nat) (x : GexSend) (late : Bool) (s : State) : State :=
  if x.await ≠ 0 then setSend p x.tag x s
  else
    let s := writeBlock p x.res
      [x.got + x.timedOut * 65536, popCount 16 x.folded, x.foldedEntries, popCount 16 x.refusedBy, closeBreath s late % 2 ^ 48] s
    finishColl p x.seq (modPair p (fun q => { q with sends := SMap.erase q.sends x.tag }) s)

/-- A received-mask arrives at a sender. -/
def maskReceive (m : Packet) (s : State) : State :=
  let p := m.pair
  let axis := nth 0 m.aux 2
  let o := coordOf m.src axis
  match findSend s p m.tag with
  | none => staleMessage s
  | some x =>
    if x.axis ≠ axis || x.b0 % 65536 ≠ m.generation || !bitAt x.await o then staleMessage s
    else
      let x := { x with await := clearBitN x.await o }
      if bitAt (nth 0 m.aux 1) (memberOf s axis) then
        let s := if bitAt x.nonfinite o && fldB s F.GEX_CTRL_nonfinite_fault then escalate (hiveOf p) 0x08 p s else s
        settleSend p { x with got := setBitN x.got o } false s
      else
        let (x, s) := foldBack p x o s
        settleSend p x false s

/-- The masks that have not come by the tick after the deadline are taken as set. -/
def maskTimeout (p tag : Nat) (s : State) : State :=
  match findSend s p tag with
  | none => s
  | some x =>
    if !tickReached s (x.b0 + x.deadline + 1) || x.await = 0 then s
    else
      let s := sendEventOpen 0x09 9 p (raise F.GEX_EVENTS_mask_timeout 0 s)
      settleSend p { x with timedOut := x.await, await := 0 } true s

/-- A message of a send was refused, or timed out: it is folded back (R278, R308). -/
def gexRefused (r : Request) (s : State) : State :=
  match findSend s r.pair r.ref with
  | none => s
  | some x =>
    let (x, s) := foldBack r.pair { x with refusedBy := setBitN x.refusedBy r.member } r.member s
    setSend r.pair r.ref x s

/-! ## Exclusion (R279) -/

/-- A write to GEX_EXCLUDE takes effect, before the deadlines of its tick. -/
def excludeApply (s : State) : State :=
  match s.exclPending with
  | none => s
  | some w => setReg .GEX_EXCLUDE 0 w { s with exclPending := none }

end Sys2Proof.Machine
end

