-- ==== Sys2Proof/Machine/Norm.lean ====
section
/-! DEFINITION. NORM64 (R280–R282) and DIGCMP (R393, R394): the global norm and the comparison of replica digests. -/

namespace Sys2Proof.Machine

/-! ## NORM64 -/

def normAxes (w0 : Nat) : Nat := bitsOf w0 3 0

/-- The offsets a NORM64 lists. -/
def normList (s : State) (p : Nat) (ws : List Nat) : List Nat :=
  (List.range (bitsOf (nth 0 ws 0) 17 12 + 1)).map (fun i => numAt s (combAddr p (bitsOf (nth 0 ws 1) 22 0 + 4 * i)) 4)

/-- A clip bound is +0 or a positive normal number (R280). -/
def clipOk (c : Nat) : Bool := c = 0 || (c < 0x7F800000 && c ≥ 0x00800000)

def normFault (p : Nat) (s : State) (ws : List Nat) (_axis : Nat) : Option Nat :=
  let w0 := nth 0 ws 0
  let l := bitsOf w0 17 12 + 1
  collChecks
    (!onlyBits w0 [(21, 0)] || !combWord (nth 0 ws 1) || !onlyBits (nth 0 ws 2) [(31, 0)] || !combWord (nth 0 ws 3)
      || !zeroWords ws [5, 6, 7, 8, 9, 10, 11, 12, 13, 14, 15] || normAxes w0 = 0 || bitsOf w0 11 4 = 0
      || !clipOk (bitsOf (nth 0 ws 2) 31 0))
    (nth 0 ws 3 % 16 ≠ 0)
    (!inComb (nth 0 ws 1) (4 * l) || !inComb (nth 0 ws 3) 16 || (normList s p ws).any (fun o => !inComb o 8))

/-- A part shares this part's coordinates on the axes outside a mask, and lies on the rings (R280). -/
def inScope (s : State) (axes dev : Nat) : Bool :=
  (List.range 4).all (fun a => if bitAt axes a then coordOf dev a < ringOf s a else coordOf dev a = coordOf (deviceId s) a)

/-- The parts of a scope in ascending linear coordinate, which is the order of their device IDs. -/
def scopeParts (s : State) (axes : Nat) : List Nat :=
  let axisVals (a : Nat) : List Nat := if bitAt axes a then List.range (ringOf s a) else [coordOf (deviceId s) a]
  (axisVals 3).flatMap (fun w => (axisVals 2).flatMap (fun z => (axisVals 1).flatMap (fun y =>
    (axisVals 0).map (fun x => x + 16 * (y + 16 * (z + 16 * w))))))

/-- The parts expected: those not excluded on a scope axis (R281). -/
def expectedParts (s : State) (axes : Nat) : List Nat :=
  (scopeParts s axes).filter (fun d => (List.range 4).all (fun a => !(bitAt axes a && excluded s a (coordOf d a))))

/-- The root of a scope: coordinate 0 on every scope axis. -/
def scopeRoot (s : State) (axes : Nat) : Nat :=
  (List.range 4).foldl (fun d a => if bitAt axes a then putBits d (4 * a + 3) (4 * a) 0 else d) (deviceId s)

/-- An FP64 value with its poison, as twice the value plus the poison. -/
def mark64 (v : Nat) (bad : Bool) : Nat := 2 * v + b2n bad

/-- The FP64 sum of marked values in order; the first is taken as it is. -/
def sum64 : List Nat → Nat
  | [] => 0
  | v :: vs => vs.foldl (fun a x => mark64 (add64 (a / 2) (x / 2)) (a % 2 = 1 || x % 2 = 1)) v

def modNorms (f : NormOp → NormOp) (tag b0 : Nat) (s : State) : State :=
  { s with norms := s.norms.map (fun n => if n.tag = tag && n.b0 = b0 then f n else n) }

/-- Once every participating pair has issued, the part's value goes to the root. -/
def normTry (tag b0 : Nat) (s : State) : State :=
  match s.norms.find? (fun n => n.tag = tag && n.b0 = b0) with
  | none => s
  | some n =>
    if n.sent || !(setBitsOf 64 n.pairs).all (fun p => n.vals.any (fun e => e.1 = p)) then s
    else
      let v := sum64 ((setBitsOf 64 n.pairs).map (fun p => SMap.get 0 n.vals p))
      let s := modNorms (fun n => { n with sent := true }) tag b0 s
      sendColl (lowestBit 64 n.pairs)
        { ptype := ptNorm, dst := scopeRoot s n.axes, tag := tag, generation := b0 % 65536
          aux := [0, n.axes, n.deadline, b0, v], data := natLe 8 (v / 2) } s

/-- A pair issues NORM64: its listed values are added in list order (R281). -/
def normBody (p : Nat) (ws : List Nat) (o : UnitOp) (s : State) : State :=
  let w0 := nth 0 ws 0
  let tag := bitsOf w0 21 18
  let b0 := issueBreath s p
  let vs := (normList s p ws).map (fun off => mark64 (numAt s (combAddr p off) 8) (poisoned s (combAddr p off) 8))
  let s := if s.norms.any (fun n => n.tag = tag && n.b0 = b0) then s
    else { s with norms := s.norms ++
      [{ tag := tag, b0 := b0, axes := normAxes w0, deadline := bitsOf w0 11 4, pairs := nth 0 ws 4 }] }
  let s := modNorms (fun n => { n with vals := SMap.insert n.vals p (sum64 vs), outs := n.outs ++ [(p, nth 0 ws 3, nth 0 ws 2, o.seq)] }) tag b0 s
  normTry tag b0 s

def norm64 (p : Nat) (s : State) : State := issueWith p (isColl p 7 none) (issueColl p (normFault p) (normBody p)) s

/-- A part's value arrives at the root. -/
def normReportReceive (m : Packet) (s : State) : State :=
  let k : NormRoot :=
    { tag := m.tag, generation := m.generation, b0 := nth 0 m.aux 3, axes := nth 0 m.aux 1, deadline := nth 0 m.aux 2 }
  if k.b0 + k.deadline ≤ schedBreath s
      || s.normRoots.any (fun r => r.tag = m.tag && r.generation = m.generation && r.formed) then staleMessage s
  else
    let s := { s with normRoots := s.normRoots.filter (fun r => !r.formed || schedBreath s < r.b0 + r.deadline) }
    let s := if s.normRoots.any (fun r => r.tag = m.tag && r.generation = m.generation) then s
      else { s with normRoots := s.normRoots ++ [k] }
    { s with normRoots := s.normRoots.map (fun r =>
        if r.tag = m.tag && r.generation = m.generation then { r with reports := SMap.insert r.reports m.src (nth 0 m.aux 4) }
        else r) }

/-- The root forms the total, once: every expected part has reported, or the guard point of breath b0 + deadline − 1 has come. -/
def normTotal (k : Nat) (guard : Bool) (s : State) : State :=
  match s.normRoots[k]? with
  | none => s
  | some r =>
    let parts := expectedParts s r.axes
    let have_ := parts.filter (fun d => r.reports.any (fun e => e.1 = d))
    let full := have_.length = parts.length
    if r.formed || (!full && !(guard && r.b0 + r.deadline ≤ schedBreath s + 1)) then s
    else
      let v := sum64 (have_.map (fun d => SMap.get 0 r.reports d))
      let s := { s with normRoots := s.normRoots.set k { r with formed := true } }
      (scopeParts s r.axes).foldl (fun t d =>
        inject { ptype := ptNorm, dst := d, cls := 3, tag := r.tag, generation := r.generation
                 aux := [1, r.b0, v, parts.length, have_.length], data := natLe 8 (v / 2) } t) s

/-- The clip factor and the skip flag of a total (R282). -/
def clipFactor (total clip : Nat) : Nat × Bool :=
  match v64 total with
  | .fin g n d =>
    if clip = 0 then (0x3F800000, false)
    else
      let r := if g && n ≠ 0 then Fmt.fp64.nanCode else rne .fp64 (sqrtVal n d)
      if (v64 r).le (v32 clip) then (0x3F800000, false)
      else
        (match v64 r, v32 clip with
          | .fin rg rn rd, .fin cg cn cd => rne32 (Val.div (.fin cg cn cd) (.fin rg rn rd))
          | _, _ => Fmt.fp32.nanCode, false)
  | _ => (0, true)

/-- The outputs of a NORM64 at this part, then its semaphores. -/
def normWrite (n : NormOp) (factor : Nat → Nat × Bool) (incomplete bad : Bool) (total : Nat) (s : State) : State :=
  let s := n.outs.foldl (fun t x =>
    let (p, off, clip, _) := x
    let (f, skip) := factor clip
    memWrite (combAddr p off) (natLe 4 f ++ natLe 4 (b2n skip + 2 * b2n incomplete) ++ natLe 8 total) bad t) s
  let s := { s with norms := s.norms.filter (fun k => !(k.tag = n.tag && k.b0 = n.b0)) }
  n.outs.foldl (fun t x => finishColl x.1 x.2.2.2 t) s

/-- The total arrives: each pair's output is written (R281, R282). -/
def normTotalReceive (m : Packet) (s : State) : State :=
  match s.norms.find? (fun n => n.tag = m.tag && n.b0 % 65536 = m.generation) with
  | none => staleMessage s
  | some n =>
    let v := nth 0 m.aux 2
    let expected := nth 0 m.aux 3
    let included := nth 0 m.aux 4
    let incomplete := included < expected
    let s := setReg .GEX_NORM 0 (BitVec.ofNat 64 (v / 2)) s
    let s := setFld F.GEX_NORM_CNT_included 0 included (setFld F.GEX_NORM_CNT_expected 0 expected s)
    let s := raiseIf incomplete F.GEX_EVENTS_norm_incomplete 0 s
    normWrite n (clipFactor (v / 2)) incomplete (v % 2 = 1) (v / 2) s

/-- No total has come by the tick that begins b0 + deadline: the factor is +0, with skip and incomplete; the spec gives no
total, and a free value stands there. -/
def normTimeout (k : Nat) (s : State) : State :=
  match s.norms[k]? with
  | none => s
  | some n =>
    if !tickReached s (n.b0 + n.deadline) then s
    else
      let (v, s) := freshData s
      normWrite n (fun _ => (0, true)) true false v (raise F.GEX_EVENTS_norm_incomplete 0 s)

/-! ## DIGCMP (R393, R394) -/

def digFault (s : State) (ws : List Nat) (axis : Nat) : Option Nat :=
  let w0 := nth 0 ws 0
  let off := nth 0 ws 1
  let res := nth 0 ws 3
  collChecks
    (!onlyBits w0 [(57, 46)] || bitsOf w0 57 50 = 0 || !combWord off || !combWord res
      || !zeroWords ws [2, 4, 5, 6, 7, 8, 9, 10, 11, 12, 13, 14, 15])
    (off % 64 ≠ 0 || res % 64 ≠ 0)
    (!inComb off (64 * ringSizeOf s axis) || !inComb res 64)

/-- A digest state as DIGCMP compares it: its 256-bit value, plus 2^256 where it is poisoned. -/
def digValue (s : State) (a : Nat) : Nat :=
  let v := leNat (bytesAt s a 32)
  if bitAt (numAt s (a + 40) 8) 0 || poisoned s a 64 then v + 2 ^ 256 else v

/-- The collectives of a pair that take part: an excluded member does nothing (R309). -/
def digBody (p : Nat) (ws : List Nat) (o : UnitOp) (s : State) : State :=
  let w0 := nth 0 ws 0
  let axis := collAxis o.word
  let x : DigOp :=
    { seq := o.seq, tag := bitsOf w0 49 46, axis := axis, b0 := issueBreath s p, deadline := bitsOf w0 57 50, res := nth 0 ws 3 }
  let vals := (ringMembers s axis).map (fun r => digValue s (combAddr p (nth 0 ws 1 + 64 * r)))
  let s := modPair p (fun q => { q with digs := q.digs ++ [x] }) s
  let s := if excluded s axis (memberOf s axis) then s
    else (ringMembers s axis).foldl (fun t m =>
      sendColl p { ptype := ptDigcmp, dst := memberDev s axis m, tag := x.tag, generation := x.b0 % 65536, aux := axis :: vals
                   data := List.replicate (64 * vals.length) 0 } t) s
  let early := s.collHeld.filter (fun m => m.ptype = ptDigcmp && m.pair = p && m.tag = x.tag && m.generation = x.b0 % 65536)
  let s := { s with collHeld := s.collHeld.filter (fun m =>
      !(m.ptype = ptDigcmp && m.pair = p && m.tag = x.tag && m.generation = x.b0 % 65536)) }
  modPair p (fun q => { q with digs := q.digs.map (fun d =>
    if d.seq = x.seq then early.foldl (fun d m =>
      let k := coordOf m.src axis
      { d with got := setBitN d.got k
               vals := (List.range (m.aux.length - 1)).foldl (fun v r => SMap.insert v (k * 16 + r) (nth 0 m.aux (r + 1))) d.vals }) d
    else d) }) s

def digcmp (p : Nat) (s : State) : State := issueWith p (isColl p 8 none) (issueColl p digFault (digBody p)) s

/-- Bytes of packets held for collectives not yet issued: 1 MiB in all (R313). -/
def heldBytes (s : State) : Nat := s.collHeld.foldl (fun a m => a + payloadOf m) 0

/-- The key of a collective that closed. -/
def closedKey (ptype kind tag : Nat) : Nat := ptype * 4096 + kind * 16 + tag

/-- A generation of a collective that has closed at a pair: the last that closed, or, going back less than half way round
the 65,536, one before it (R313). -/
def wasClosed (s : State) (p ptype kind tag gen : Nat) : Bool :=
  let c := SMap.get 0 (pair s p).closedGen (closedKey ptype kind tag)
  c ≠ 0 && (c + 65535 - gen) % 65536 < 32768

/-- A stale packet of a collective, counted also by the primitive of its kind and tag that is in progress (R314). -/
def staleColl (m : Packet) (kind : Nat) (s : State) : State :=
  staleMessage (modPair m.pair (fun q =>
    { q with rings := q.rings.map (fun x =>
        if m.ptype = ptColl && x.op = kind && x.tag = m.tag then { x with stale := x.stale + 1 } else x) }) s)

def noteClosed (p ptype kind tag b0 : Nat) (s : State) : State :=
  modPair p (fun q => { q with closedGen := SMap.insert q.closedGen (closedKey ptype kind tag) (b0 % 65536 + 1) }) s

/-- A packet of a collective that no primitive of the pair claims: discarded where its primitive has closed, held while the
buffer has room; a full buffer leaves it on its link (R313). -/
def holdOrDrop (m : Packet) (kind : Nat) (s : State) : State :=
  if wasClosed s m.pair m.ptype kind m.tag m.generation then staleColl m kind s
  else if heldBytes s + payloadOf m ≤ 2 ^ 20 then { s with collHeld := s.collHeld ++ [m] }
  else s

/-- A member's vector arrives; one of an excluded member counts for nothing. -/
def digcmpVectorReceive (m : Packet) (s : State) : State :=
  let p := m.pair
  match (pair s p).digs.find? (fun d => d.tag = m.tag && d.b0 % 65536 = m.generation) with
  | none => holdOrDrop m 0 s
  | some x =>
    let k := coordOf m.src x.axis
    if excluded s x.axis k then staleMessage s
    else
      modPair p (fun q => { q with digs := q.digs.map (fun d =>
        if d.seq = x.seq then
          { d with got := setBitN d.got k
                   vals := (List.range (m.aux.length - 1)).foldl (fun v r => SMap.insert v (k * 16 + r) (nth 0 m.aux (r + 1))) d.vals }
        else d) }) s

/-- The value more than half of the reporting members hold for a range, if any; a poisoned value equals no other. -/
def digMajority (x : DigOp) (ms : List Nat) (r : Nat) : Option Nat :=
  (ms.map (fun m => SMap.get 0 x.vals (m * 16 + r))).find? (fun v =>
    v < 2 ^ 256 && 2 * ms.countP (fun m => SMap.get 0 x.vals (m * 16 + r) = v) > ms.length)

/-- A DIGCMP closes: every member has reported, or its deadline's tick has come (R393, R394). -/
def digcmpClose (p k : Nat) (s : State) : State :=
  match (pair s p).digs[k]? with
  | none => s
  | some x =>
    let act := activeMembers s x.axis
    let full := act.all (bitAt x.got)
    if !full && !tickReached s (x.b0 + x.deadline) then s
    else
      let ms := act.filter (bitAt x.got)
      let ranges := ringMembers s x.axis
      let masks := ranges.map (fun r => match digMajority x ms r with
        | some v => maskOf (ms.filter (fun m => SMap.get 0 x.vals (m * 16 + r) ≠ v))
        | none => 0)
      let none_ := maskOf (ranges.filter (fun r => (digMajority x ms r).isNone))
      let wd (i : Nat) : Nat := leNat ((List.range 4).flatMap (fun j => natLe 2 (nth 0 masks (4 * i + j))))
      let s := modPair p (fun q => { q with digs := q.digs.eraseIdx k }) s
      let s := noteClosed p ptDigcmp 0 x.tag x.b0 s
      let s := if excluded s x.axis (memberOf s x.axis) then s
        else writeBlock p x.res
          [wd 0, wd 1, wd 2, wd 3, none_ + maskOf ms * 65536 + (if full then 0 else 2 ^ 32), closeBreath s (!full) % 2 ^ 48] s
      let all := masks.foldl (· ||| ·) 0
      let s := if all ≠ 0 then sendEvent 0x0C 12 p all (raise F.RL_EVENTS_digest_mismatch 0 s) else s
      let s := raiseIf (none_ ≠ 0) F.RL_EVENTS_no_majority 0 s
      finishColl p x.seq s

end Sys2Proof.Machine
end

