-- ==== Sys2Proof/Machine/Rings.lean ====
section
/-! DEFINITION. The ring collectives ALLREDUCE, REDSCAT, ALLGATHER and BCAST (R309–R314) and PERMUTE (R310, R315, R316). -/

namespace Sys2Proof.Machine

/-! ## Descriptors (R310) -/

/-- A local range lies in the pair's comb, or in the near or far memory of its hive. -/
def inPairReach (p a n : Nat) : Bool :=
  inOneMemory a n && (match tierOf a with
    | .comb q => q = p
    | .near h => h = hiveOf p
    | .far h => h = hiveOf p
    | _ => false)

/-- A descriptor word that holds a local 44-bit address. -/
def localWord (s : State) (v : Nat) : Bool := bitAt v 63 == false && bitsOf v 62 44 = 0 && (addrForm s v).isSome

def ringFault (op p : Nat) (s : State) (ws : List Nat) (axis : Nat) : Option Nat :=
  let w0 := nth 0 ws 0
  let n := bitsOf w0 31 0
  let m := ringSizeOf s axis
  let src := nth 0 ws 1
  let dst := nth 0 ws 2
  let res := nth 0 ws 3
  let srcLen := if op ≤ 1 then 4 * n else n
  let dstLen := if op = 0 then 4 * n else if op = 1 then 4 * rangeStep 256 n m else if op = 2 then m * n else n
  collChecks
    (!onlyBits w0 ((57, 46) :: (31, 0) :: (if op ≤ 1 then [(45, 44)] else if op = 3 then [(43, 40)] else []))
      || bitsOf w0 57 50 = 0 || n = 0 || (op ≤ 1 && bitsOf w0 45 44 = 3) || (2 ≤ op && n % 64 ≠ 0)
      || !localWord s src || !localWord s dst || !combWord res || !zeroWords ws [4, 5, 6, 7, 8, 9, 10, 11, 12, 13, 14, 15])
    (src % 64 ≠ 0 || dst % 64 ≠ 0 || res % 64 ≠ 0)
    (!inPairReach p src srcLen || !inPairReach p dst dstLen || !inComb res 64)

/-! ## Segments -/

/-- Elements of a segment (R311). -/
abbrev segElems : Nat := 16384

def segCount (n : Nat) : Nat := (n + segElems - 1) / segElems

/-- First element and elements of segment i. -/
def segRange (n i : Nat) : Nat × Nat := (i * segElems, min segElems (n - i * segElems))

def modRing (p seq : Nat) (f : RingOp → RingOp) (s : State) : State :=
  modPair p (fun q => { q with rings := q.rings.map (fun x => if x.seq = seq then f x else x) }) s

/-- Elements in memory, FP32 codes with their poison. -/
def elemsAt (s : State) (a n : Nat) : List Entry :=
  (List.range n).map (fun i => (leNat (readBytes s (a + 4 * i) 4), poisoned s (a + 4 * i) 4))

/-- The elements of a packet's payload. -/
def payloadElems (m : Packet) : List Entry :=
  (List.range (m.data.length / 4)).map (fun i => (leNat ((m.data.drop (4 * i)).take 4), bitAt m.poison (4 * i / 64)))

/-- Elements written to memory. -/
def putElems (a : Nat) (es : List Entry) (s : State) : State :=
  scatter ((List.range es.length).map (fun i => (a + 4 * i, natLe 4 (nth (0, false) es i).1, (nth (0, false) es i).2))) s

/-- One reduction of two FP32 values (R311): 0 SUM, 1 MAX, 2 MIN. -/
def reduce32 (red a b : Nat) : Nat :=
  match red with
  | 0 => add32 a b
  | 1 => rne32 ((v32 a).max2 (v32 b))
  | _ => rne32 ((v32 a).min2 (v32 b))

/-- A segment added into an incoming partial, with the flags of the vector engine's operation. -/
def reduceSeg (red : Nat) (inc own : List Entry) : List Entry × NumFlags :=
  let n := own.length
  let r := (List.range n).map (fun i =>
    let a := nth (0, false) inc i
    let b := nth (0, false) own i
    ((reduce32 red a.1 b.1, a.2 || b.2), red = 0 && madeNan [v32 a.1, v32 b.1] ((v32 a.1).add (v32 b.1))))
  (r.map (fun x => x.1), (readAll .fp32 (inc ++ own)).join { invalid := r.any (fun x => x.2) })

/-- The next and the previous member that take part. -/
def nextMember (s : State) (axis m : Nat) : Option Nat := (activeMembers s axis).find? (fun k => m < k)
def prevMember (s : State) (axis m : Nat) : Option Nat := (activeMembers s axis).reverse.find? (fun k => k < m)

/-- A ring packet: its phase (0 a partial, 1 a final segment, 2 a member's bytes), the segment or member, the members it
holds, the axis, and for phase 2 whether it goes round the N way. -/
def ringPacket (s : State) (x : RingOp) (dstMember phase idx members : Nat) (neg : Bool) (data : List Nat) (poison : Nat) :
    Packet where
  ptype := ptColl
  dst := memberDev s x.axis dstMember
  tag := x.tag
  generation := x.b0 % 65536
  aux := [x.op, phase, idx, members, x.axis, b2n neg]
  data := data
  poison := poison

def entryBytes (es : List Entry) : List Nat := es.flatMap (fun e => natLe 4 e.1)
def entryPoison (es : List Entry) : Nat := sectorPoison (es.flatMap (fun e => List.replicate 4 e.2))

/-- What this member writes of a final segment (R311), and how many bytes. -/
def writeFinal (x : RingOp) (i : Nat) (es : List Entry) (s : State) : Nat × State :=
  let r := segRange x.count i
  if x.op = 0 then (4 * es.length, putElems (x.dst + 4 * r.1) es s)
  else
    let own := rangeOf 256 x.count (ringSizeOf s x.axis) (memberOf s x.axis)
    let lo := max r.1 own.1
    let hi := min (r.1 + r.2) (own.1 + own.2)
    if lo < hi then (4 * (hi - lo), putElems (x.dst + 4 * (lo - own.1)) ((es.drop (lo - r.1)).take (hi - lo)) s)
    else (0, s)

/-- A final segment at this member: written. -/
def takeFinal (p : Nat) (x : RingOp) (i members : Nat) (es : List Entry) (s : State) : State :=
  let (k, s) := writeFinal x i es s
  modRing p x.seq (fun x =>
    { x with parts := x.parts + 1, bytes := x.bytes + k, members := x.members ||| members }) s

/-- A message of this pair's goes along the ring of its axis, its payload counted (R418). -/
def sendRing (p axis : Nat) (neg : Bool) (m : Packet) (s : State) : State :=
  sendAlong p axis neg m (countSent p m s)

/-- A partial of a segment at this member, its own term added: passed up the chain on P. At the highest member it is final, and
goes down the ring on N (R311). -/
def takePartial (p : Nat) (x : RingOp) (i members : Nat) (es : List Entry) (s : State) : State :=
  let me := memberOf s x.axis
  let members := setBitN members me
  match nextMember s x.axis me with
  | some q => sendRing p x.axis false (ringPacket s x q 0 i members false (entryBytes es) (entryPoison es)) s
  | none =>
    let s := takeFinal p x i members es s
    match prevMember s x.axis me with
    | some q => sendRing p x.axis true (ringPacket s x q 1 i members true (entryBytes es) (entryPoison es)) s
    | none => s

/-- This member's own segment. -/
def ownSeg (s : State) (x : RingOp) (i : Nat) : List Entry :=
  let r := segRange x.count i
  elemsAt s (x.src + 4 * r.1) r.2

/-- The members that a gather's bytes reach on the way P, or N, from member k, in order: each by its shorter way, the half of
an even ring by P (R312). -/
def wayMembers (s : State) (axis k : Nat) (neg : Bool) : List Nat :=
  let m := ringSizeOf s axis
  let ms := if neg then (List.range ((m - 1) / 2)).map (fun d => (k + m - (d + 1)) % m)
    else (List.range (m / 2)).map (fun d => (k + d + 1) % m)
  ms.filter (fun j => !excluded s axis j)

/-- The member after `me` on a way. -/
def nextOnWay (ms : List Nat) (me : Nat) : Option Nat := ((ms.dropWhile (fun j => j ≠ me)).drop 1).head?

/-- A hub passes a multicast message on as it comes, whether or not its own member has issued (R311, R312): a final segment to
the next member down, a gather's bytes to the next on their way. -/
def hubForward (m : Packet) (s : State) : State :=
  let axis := nth 0 m.aux 4
  let me := memberOf s axis
  let neg := nth 0 m.aux 5 = 1
  let next :=
    if nth 0 m.aux 1 = 1 then prevMember s axis me
    else if nth 0 m.aux 1 = 2 then nextOnWay (wayMembers s axis (nth 0 m.aux 2) neg) me
    else none
  match next with
  | some q => sendAlong m.pair axis neg { m with dst := memberDev s axis q } s
  | none => s

/-- A packet of the primitive taken by its member. -/
def ringTake (p : Nat) (x : RingOp) (m : Packet) (s : State) : State :=
  let phase := nth 0 m.aux 1
  let idx := nth 0 m.aux 2
  let members := nth 0 m.aux 3
  if phase = 0 then
    let (es, flags) := reduceSeg x.red (payloadElems m) (ownSeg s x idx)
    takePartial p x idx members es (applyNum p flags s)
  else if phase = 1 then takeFinal p x idx members (payloadElems m) s
  else
    let a := if x.op = 2 then x.dst + idx * x.count else x.dst
    let s := scatter (payloadPieces a 0 m.poison m.data) s
    modRing p x.seq (fun x =>
      { x with parts := x.parts + 1, bytes := x.bytes + m.data.length, members := setBitN x.members idx }) s

/-- A packet belongs to this primitive. -/
def ringMine (x : RingOp) (m : Packet) : Bool :=
  x.op = nth 0 m.aux 0 && x.tag = m.tag && x.b0 % 65536 = m.generation

/-- A message of the primitive at its member. A partial's addition enters the pair's vector queue behind what is there, and
takes effect in its turn (R276, R311): at once where the queue is empty (DEDUCED, log 119). -/
def ringEnter (p : Nat) (x : RingOp) (m : Packet) (s : State) : State :=
  if nth 0 m.aux 1 = 0 && !(pair s p).vec.isEmpty then
    modPair p (fun q => { q with vec := q.vec ++ [{ seq := x.seq, hub := some m }] }) s
  else ringTake p x m s

/-- What a member does when it issues: the first of a chain sends its segments, a gather sends its bytes to every member. -/
def ringStart (p : Nat) (x : RingOp) (s : State) : State :=
  let me := memberOf s x.axis
  let bytes := (List.range x.count).map (fun i => nth 0 (readBytes s (x.src + i) 1) 0)
  let data (n : Nat) : List Nat × Nat := (bytes.take n, sectorPoison (badBytes s x.src n))
  if x.op ≤ 1 then
    if (activeMembers s x.axis).headD me = me then
      iter (segCount x.count) s (fun i t => takePartial p x i 0 (ownSeg t x i) t)
    else s
  else if x.op = 2 || x.root = me then
    let d := data x.count
    let s := ringTake p x (ringPacket s x me 2 me 0 false d.1 d.2) s
    [false, true].foldl (fun t neg =>
      match (wayMembers t x.axis me neg).head? with
      | some k => sendRing p x.axis neg (ringPacket t x k 2 me 0 neg d.1 d.2) t
      | none => t) s
  else s

/-- A ring collective issued: an excluded member takes no part; held packets of the primitive are taken at once. -/
def ringBody (op p : Nat) (ws : List Nat) (o : UnitOp) (s : State) : State :=
  let w0 := nth 0 ws 0
  let axis := collAxis o.word
  let x : RingOp :=
    { op := op, seq := o.seq, tag := bitsOf w0 49 46, axis := axis, b0 := issueBreath s p, deadline := bitsOf w0 57 50
      red := bitsOf w0 45 44, root := bitsOf w0 43 40, count := bitsOf w0 31 0, src := nth 0 ws 1, dst := nth 0 ws 2
      res := nth 0 ws 3 }
  let s := modPair p (fun q => { q with rings := q.rings ++ [x] }) s
  if excluded s axis (memberOf s axis) then s
  else
    let s := ringStart p x s
    let mine (m : Packet) : Bool := m.ptype = ptColl && m.pair = p && ringMine x m
    let early := s.collHeld.filter mine
    early.foldl (fun t m => ringEnter p x m t) { s with collHeld := s.collHeld.filter (fun m => !mine m) }

def allreduce (p : Nat) (s : State) : State := issueWith p (isColl p 0 none) (issueColl p (ringFault 0 p) (ringBody 0 p)) s
def redscat (p : Nat) (s : State) : State := issueWith p (isColl p 1 none) (issueColl p (ringFault 1 p) (ringBody 1 p)) s
def allgather (p : Nat) (s : State) : State := issueWith p (isColl p 2 none) (issueColl p (ringFault 2 p) (ringBody 2 p)) s
def bcast (p : Nat) (s : State) : State := issueWith p (isColl p 3 none) (issueColl p (ringFault 3 p) (ringBody 3 p)) s

/-- A collective message arrives: its hub passes on what is multicast, and its member's primitive takes it, or it is held, or
stale (R313). -/
def collSegmentReceive (m : Packet) (s : State) : State :=
  let s := hubForward m s
  match (pair s m.pair).rings.find? (fun x => ringMine x m) with
  | some x => if excluded s x.axis (memberOf s x.axis) then staleColl m x.op s else ringEnter m.pair x m s
  | none => holdOrDrop m (nth 0 m.aux 0) s

/-- The oldest entry of the vector queue takes effect: a VEC instruction (R195), or an addition that the hub issued, dropped
where its primitive has closed (R311). -/
def vecNext (p : Nat) (s : State) : State :=
  match (pair s p).vec with
  | [] => s
  | o :: os =>
    match o.hub with
    | none => vecDone p s
    | some m =>
      let s := modPair p (fun x => { x with vec := os }) s
      match (pair s p).rings.find? (fun x => ringMine x m) with
      | some x => ringTake p x m s
      | none => staleColl m (nth 0 m.aux 0) s

/-- Segments or members' parts that a member writes in full. -/
def ringGoal (s : State) (x : RingOp) : Nat :=
  if x.op ≤ 1 then segCount x.count else if x.op = 2 then (activeMembers s x.axis).length else 1

/-- A ring collective closes at its member: complete, or at its deadline's tick (R313, R314). -/
def collClose (p k : Nat) (s : State) : State :=
  match (pair s p).rings[k]? with
  | none => s
  | some x =>
    let excl := excluded s x.axis (memberOf s x.axis)
    let full := !excl && x.parts ≥ ringGoal s x
    if !full && !tickReached s (x.b0 + x.deadline) then s
    else
      let s := modPair p (fun q => { q with rings := q.rings.eraseIdx k }) s
      let s := noteClosed p ptColl x.op x.tag x.b0 s
      let s := if excl then s
        else writeBlock p x.res
          [b2n full + 2 * b2n (!full) + x.members * 65536, x.bytes, x.stale, closeBreath s (!full) % 2 ^ 48] s
      let s := if full || excl then s
        else
          let s := sendEventOpen 0x0A 7 p (raise F.LINK_EVENTS_coll_incomplete 0 s)
          if fldB s F.LINK_CTRL_coll_fault then escalate (hiveOf p) 0x09 p s else s
      finishColl p x.seq s

/-! ## PERMUTE (R315, R316) -/

def permFault (p : Nat) (s : State) (ws : List Nat) (_axis : Nat) : Option Nat :=
  let w0 := nth 0 ws 0
  let n := bitsOf w0 31 0
  let table := nth 0 ws 1
  let base := nth 0 ws 2
  let res := nth 0 ws 3
  let bytes := nth 0 ws 4
  let isNear : Bool := match tierOf table with
    | .near h => h = hiveOf p
    | _ => false
  let isFar : Bool := match tierOf base with
    | .far h => h = hiveOf p
    | _ => false
  collChecks
    (!onlyBits w0 [(57, 46), (31, 0)] || bitsOf w0 57 50 = 0 || n = 0 || n > 65536 || !localWord s table || !localWord s base
      || !combWord res || !onlyBits bytes [(39, 0)] || !zeroWords ws [5, 6, 7, 8, 9, 10, 11, 12, 13, 14, 15])
    (table % 64 ≠ 0 || base % 64 ≠ 0 || res % 64 ≠ 0)
    (!isNear || !isFar || !inOneMemory table (32 * n) || !inOneMemory base bytes || !inComb res 64)

/-- An entry of a PERMUTE table (R315). -/
structure PermEntry where
  src : Nat := 0
  dst : Nat := 0
  bytes : Nat := 0
  from_ : Nat := 0
  into : Nat := 0
  stage : Nat := 0
  bad : Bool := false
  deriving DecidableEq, Repr

def permEntry (s : State) (table i : Nat) : PermEntry :=
  let a := table + 32 * i
  let w0 := numAt s a 8
  { src := bitsOf w0 3 0, dst := bitsOf w0 7 4, bytes := bitsOf w0 63 32
    from_ := bitsOf (numAt s (a + 8) 8) 43 0, into := bitsOf (numAt s (a + 16) 8) 43 0
    stage := bitsOf (numAt s (a + 24) 8) 39 0, bad := poisoned s a 32 }

/-- The entry is valid, its addresses held to pair p's comb or hive. -/
def PermEntry.ok (p : Nat) (x : PermOp) (m : Nat) (e : PermEntry) : Bool :=
  !e.bad && e.bytes ≠ 0 && e.bytes % 64 = 0 && e.stage % 64 = 0 && e.stage + e.bytes ≤ x.bytes
    && e.src < m && e.dst < m && inPairReach p e.from_ e.bytes && inPairReach p e.into e.bytes

def permEntries (s : State) (x : PermOp) : List PermEntry := (List.range x.entries).map (permEntry s x.table)

/-- Entries that name an excluded member are skipped. -/
def permSkip (s : State) (x : PermOp) (e : PermEntry) : Bool := excluded s x.axis e.src || excluded s x.axis e.dst

/-- The indices of the entries this member sends, and of those it stages. -/
def permOut (s : State) (x : PermOp) : List Nat :=
  let es := permEntries s x
  (List.range x.entries).filter (fun i => !permSkip s x (nth {} es i) && (nth {} es i).src = memberOf s x.axis)
def permIn (s : State) (x : PermOp) : List Nat :=
  let es := permEntries s x
  (List.range x.entries).filter (fun i => !permSkip s x (nth {} es i) && (nth {} es i).dst = memberOf s x.axis)

def modPerm (p seq : Nat) (f : PermOp → PermOp) (s : State) : State :=
  modPair p (fun q => { q with perms := q.perms.map (fun x => if x.seq = seq then f x else x) }) s

def findPerm (s : State) (p seq : Nat) : Option PermOp := (pair s p).perms.find? (fun x => x.seq = seq)

/-- A word of a PERMUTE to every member of the ring that takes part: 1 READY, 2 an outcome. -/
def permTell (p : Nat) (x : PermOp) (kind v : Nat) (s : State) : State :=
  (activeMembers s x.axis).foldl (fun t m =>
    sendColl p { ptype := ptPermute, dst := memberDev s x.axis m, tag := x.tag, generation := x.b0 % 65536, aux := [kind, v, x.axis] } t) s

/-- READY goes out once every outgoing entry is acknowledged and every incoming one staged. -/
def permTry (p seq : Nat) (s : State) : State :=
  match findPerm s p seq with
  | none => s
  | some x =>
    if x.sentReady || x.failed || x.outcome ≠ 0 || x.acked < (permOut s x).length
        || !(permIn s x).all (fun i => SMap.get false x.staged i) then s
    else permTell p x 1 0 (modPerm p seq (fun x => { x with sentReady := true }) s)

/-- One outgoing entry sent to its destination member; poison in its source aborts. -/
def permSend (p : Nat) (x : PermOp) (i : Nat) (s : State) : State :=
  let e := permEntry s x.table i
  if poisoned s e.from_ e.bytes then
    modPerm p x.seq (fun x => { x with failed := true }) (noteOfflineRange e.from_ e.bytes 0 true s)
  else
    let s := modPerm p x.seq (fun x => { x with bytesSent := x.bytesSent + e.bytes }) s
    requestColl p 4 x.seq e.dst
      { ptype := ptPermute, dst := memberDev s x.axis e.dst, tag := x.tag, generation := x.b0 % 65536
        aux := [0, i, x.axis, e.stage], data := readBytes s e.from_ e.bytes } s

/-- A piece arrives: written to its place in the staging area, and acknowledged. -/
def permStage (p : Nat) (x : PermOp) (m : Packet) (s : State) : State :=
  let s := scatter (payloadPieces (x.base + nth 0 m.aux 3) 0 m.poison m.data) s
  let s := modPerm p x.seq (fun x =>
    { x with staged := SMap.insert x.staged (nth 0 m.aux 1) true, bytesStaged := x.bytesStaged + m.data.length
             failed := x.failed || m.poison ≠ 0 }) s
  permTry p x.seq (ackMessage m s)

def permMine (x : PermOp) (m : Packet) : Bool := x.tag = m.tag && x.b0 % 65536 = m.generation

/-- A PERMUTE issued (R316). -/
def permBody (p : Nat) (ws : List Nat) (o : UnitOp) (s : State) : State :=
  let w0 := nth 0 ws 0
  let axis := collAxis o.word
  let x : PermOp :=
    { seq := o.seq, tag := bitsOf w0 49 46, axis := axis, b0 := issueBreath s p, deadline := bitsOf w0 57 50
      table := nth 0 ws 1, entries := bitsOf w0 31 0, base := nth 0 ws 2, bytes := nth 0 ws 4, res := nth 0 ws 3 }
  let es := permEntries s x
  let invalid := es.any (fun e => !permSkip s x e && !e.ok p x (ringSizeOf s axis))
  let x := { x with failed := invalid }
  let s := modPair p (fun q => { q with perms := q.perms.filter (fun y => y.tag ≠ x.tag || y.outcome = 0) ++ [x] }) s
  if excluded s axis (memberOf s axis) then s
  else
    let s := if invalid then s else (permOut s x).foldl (fun t i => permSend p x i t) s
    let mine (m : Packet) : Bool := m.ptype = ptPermute && m.pair = p && permMine x m
    let early := s.collHeld.filter mine
    let s := { s with collHeld := s.collHeld.filter (fun m => !mine m) }
    let s := early.foldl (fun t m =>
      if nth 0 m.aux 0 = 0 then permStage p x m t
      else if nth 0 m.aux 0 = 1 then modPerm p x.seq (fun y => { y with ready := setBitN y.ready (coordOf m.src axis) }) t
      else { t with collHeld := t.collHeld ++ [m] }) s
    permTry p x.seq s

def permute (p : Nat) (s : State) : State := issueWith p (isColl p 5 none) (issueColl p (permFault p) (permBody p)) s

/-- A piece of a PERMUTE arrives. One whose primitive has closed is refused; one that comes early is held. -/
def permuteDataReceive (m : Packet) (s : State) : State :=
  match (pair s m.pair).perms.find? (fun x => permMine x m) with
  | some x => if x.outcome ≠ 0 then refuseMessage m 3 (staleMessage s) else permStage m.pair x m s
  | none => holdOrDrop m 0 s

/-- A READY arrives. -/
def permuteReadyReceive (m : Packet) (s : State) : State :=
  match (pair s m.pair).perms.find? (fun x => permMine x m) with
  | some x =>
    if x.outcome ≠ 0 then staleMessage s
    else modPerm m.pair x.seq (fun y => { y with ready := setBitN y.ready (coordOf m.src x.axis) }) s
  | none => holdOrDrop m 0 s

/-- One staged piece copied to its destination. -/
def permLand (x : PermOp) (e : PermEntry) (s : State) : State :=
  iter (e.bytes / 64) s (fun k t =>
    let a := x.base + e.stage + 64 * k
    memWrite (e.into + 64 * k) (readBytes t a 64) (poisoned t a 64) t)

/-- A member's outcome arrives: one that differs sets perm_split, the block's split bit, and an event; one
that comes before this member's own waits for it. -/
def permuteOutcomeReceive (m : Packet) (s : State) : State :=
  let p := m.pair
  match (pair s p).perms.find? (fun x => permMine x m) with
  | none => staleMessage s
  | some x =>
    if x.outcome = 0 then { s with collHeld := s.collHeld ++ [m] }
    else if x.outcome = nth 0 m.aux 1 then s
    else
      let a := combAddr p x.res
      let s := pokeByte a (byteAt s a ||| 4) s
      sendEventOpen 0x0A 8 p (raise F.LINK_EVENTS_perm_split 0 s)

/-- The boundary tick of the deadline: commit with READY from every member, or abort; then the outcome goes round. -/
def permuteCommit (p k : Nat) (s : State) : State :=
  match (pair s p).perms[k]? with
  | none => s
  | some x =>
    if x.outcome ≠ 0 || !tickReached s (x.b0 + x.deadline) then s
    else if excluded s x.axis (memberOf s x.axis) then
      finishColl p x.seq (modPair p (fun q => { q with perms := q.perms.eraseIdx k }) s)
    else
      let commit := (activeMembers s x.axis).all (bitAt x.ready)
      let s := if commit then
          let es := permEntries s x
          (permIn s x).foldl (fun t i => permLand x (nth {} es i) t) s
        else sendEventOpen 0x0A 0x41 p s
      let s := modPerm p x.seq (fun y => { y with outcome := if commit then 1 else 2 }) s
      let s := noteClosed p ptPermute 0 x.tag x.b0 s
      let s := writeBlock p x.res
        [b2n commit + 2 * b2n (!commit) + x.ready * 65536, x.bytesSent, x.bytesStaged, closeBreath s true % 2 ^ 48] s
      let s := permTell p x 2 (if commit then 1 else 2) (finishColl p x.seq s)
      let mine (m : Packet) : Bool := m.ptype = ptPermute && m.pair = p && permMine x m
      let early := s.collHeld.filter mine
      early.foldl (fun t m => permuteOutcomeReceive m t) { s with collHeld := s.collHeld.filter (fun m => !mine m) }

/-- A transfer was acknowledged. -/
def permAcked (r : Request) (s : State) : State :=
  permTry r.pair r.ref (modPerm r.pair r.ref (fun x => { x with acked := x.acked + 1 }) s)

/-- A transfer was refused, or timed out: the PERMUTE cannot commit. -/
def permRefused (r : Request) (s : State) : State := modPerm r.pair r.ref (fun x => { x with failed := true }) s

end Sys2Proof.Machine
end

