-- ==== Sys2Proof/Machine/Alltoall.lean ====
section
/-! DEFINITION. The all-to-all (R235–R246, R249): POST, DISPATCH, RETURN and CANCEL, rows and counts, receive close, batches
and their close. -/

namespace Sys2Proof.Machine

/-! ## Descriptors (R236, R237) -/

/-- A local address of an all-to-all: near, or far, of the pair's hive. -/
def a2aNear (p a n : Nat) : Bool :=
  inOneMemory a n && (match tierOf a with
    | .near h => h = hiveOf p
    | _ => false)
def a2aFar (p a n : Nat) : Bool :=
  inOneMemory a n && (match tierOf a with
    | .far h => h = hiveOf p
    | _ => false)

/-- Near or far memory of the pair's hive: what a word that R236 does not call near may name (R237). -/
def a2aOwn (p a n : Nat) : Bool := a2aNear p a n || a2aFar p a n

/-- The row bytes of a form. -/
def rowBytesOk (n : Nat) : Bool := n % 64 = 0 && 64 ≤ n && n ≤ 65536

/-- Fields of word 0 that a form uses, with the form. -/
def a2aBits (form : Nat) : List (Nat × Nat) :=
  match form with
  | 0 => [(63, 62), (61, 58), (57, 50), (49, 46), (42, 42), (27, 16), (15, 0)]
  | 1 => [(63, 62), (61, 58), (57, 50), (45, 43), (41, 36), (27, 16), (15, 0)]
  | 2 => [(63, 62)]
  | _ => [(63, 62), (61, 58)]

/-- A word that holds a local address: no global form, nothing above. -/
def addrWord (s : State) (v : Nat) : Bool := localWord s v

def a2aPostFault (p : Nat) (s : State) (ws : List Nat) (axis : Nat) : Option Nat :=
  let w0 := nth 0 ws 0
  let m := ringSizeOf s axis
  let epp := bitsOf w0 27 16 + 1
  let c := bitsOf w0 15 0
  let n := bitsOf (nth 0 ws 7) 31 0
  let rb := bitsOf (nth 0 ws 3) 31 0
  collChecks
    (!onlyBits w0 (a2aBits 0) || !onlyBits (nth 0 ws 3) [(31, 0)] || !onlyBits (nth 0 ws 7) [(31, 0)] || !combWord (nth 0 ws 8)
      || !zeroWords ws [9, 10, 11, 12, 13, 14, 15] || !([1, 2, 4, 5, 6].all (fun i => addrWord s (nth 0 ws i)))
      || c = 0 || bitsOf w0 57 50 = 0 || m * epp > 4096 || n > m * c
      || (pair s p).a2a.any (fun e => e.1 = bitsOf w0 61 58 && !e.2.closed))
    (!rowBytesOk rb || nth 0 ws 8 % 64 ≠ 0)
    (!a2aNear p (nth 0 ws 1) (epp * n * rb) || !a2aFar p (nth 0 ws 2) (epp * (m * c - n) * rb)
      || !a2aOwn p (nth 0 ws 4) (16 * epp * m * c) || !a2aOwn p (nth 0 ws 5) (192 + 4 * epp * m)
      || !a2aOwn p (nth 0 ws 6) (4 * epp * m * c) || !inComb (nth 0 ws 8) 64)

def a2aDispatchFault (p : Nat) (s : State) (ws : List Nat) (axis : Nat) : Option Nat :=
  let w0 := nth 0 ws 0
  let m := ringSizeOf s axis
  let epp := bitsOf w0 27 16 + 1
  let d := m * epp
  collChecks
    (!onlyBits w0 (a2aBits 1) || !combWord (nth 0 ws 8) || !zeroWords ws [9, 10, 11, 12, 13, 14, 15]
      || !([1, 2, 4, 5, 6, 7].all (fun i => addrWord s (nth 0 ws i))) || bitsOf w0 15 0 = 0 || bitsOf w0 57 50 = 0 || d > 4096)
    (!rowBytesOk (bitsOf (nth 0 ws 3) 31 0) || !rowBytesOk (bitsOf (nth 0 ws 3) 63 32) || nth 0 ws 8 % 64 ≠ 0)
    (!([1, 2].all (fun i => a2aNear p (nth 0 ws i) 1)) || !([4, 6, 7].all (fun i => a2aOwn p (nth 0 ws i) 1))
      || !a2aOwn p (nth 0 ws 5) (roundUp (4 * d) 64 + 4 * d)
      || !inComb (nth 0 ws 8) 64)

def a2aReturnFault (p : Nat) (s : State) (ws : List Nat) (_axis : Nat) : Option Nat :=
  collChecks
    (!onlyBits (nth 0 ws 0) (a2aBits 2) || !onlyBits (nth 0 ws 3) [(31, 0)] || !combWord (nth 0 ws 8)
      || !zeroWords ws [6, 7, 9, 10, 11, 12, 13, 14, 15] || !([1, 2, 4, 5].all (fun i => addrWord s (nth 0 ws i))))
    (!rowBytesOk (bitsOf (nth 0 ws 3) 31 0) || nth 0 ws 8 % 64 ≠ 0)
    (!a2aNear p (nth 0 ws 1) 1 || !a2aFar p (nth 0 ws 2) 1 || !a2aOwn p (nth 0 ws 4) 1 || !a2aOwn p (nth 0 ws 5) 192
      || !inComb (nth 0 ws 8) 64)

def a2aCancelFault (_s : State) (ws : List Nat) (_axis : Nat) : Option Nat :=
  collChecks (!onlyBits (nth 0 ws 0) (a2aBits 3) || !zeroWords ws ((List.range 15).map (· + 1))) false false

/-! ## POST (R238–R240) -/

def setA2a (p tag : Nat) (x : A2aPost) (s : State) : State :=
  modPair p (fun q => { q with a2a := SMap.insert q.a2a tag x }) s

def findA2a (s : State) (p tag : Nat) : Option A2aPost := ((pair s p).a2a.find? (fun e => e.1 = tag)).map (fun e => e.2)

def A2aPost.gen (x : A2aPost) : Nat := (x.b0 + x.ahead) % 65536
def A2aPost.due (x : A2aPost) : Nat := x.b0 + x.ahead + x.deadline

/-- Slots per expert: M × C. -/
def a2aSlots (s : State) (x : A2aPost) : Nat := ringSizeOf s x.axis * x.c

/-- Where the row, header and gate of slot t of expert e lie (R238). -/
def rowPlace (near far n rows rowBytes e t : Nat) : Nat :=
  if t < n then near + (e * n + t) * rowBytes else far + (e * (rows - n) + t - n) * rowBytes

/-- A header word pair (R238). -/
def headerBytes (pos rank : Nat) (valid : Bool) (member slot : Nat) : List Nat :=
  natLe 8 (pos + rank * 2 ^ 32 + b2n valid * 2 ^ 35 + member * 2 ^ 36) ++ natLe 8 (slot * 2 ^ 32)

/-- The generations of a tag's posts that have closed, not reduced. -/
def pastGens (s : State) (p tag : Nat) : List Nat :=
  match findA2a s p tag with
  | some x => (x.b0 + x.ahead) :: x.past
  | none => []

def a2aPostBody (p : Nat) (ws : List Nat) (o : UnitOp) (s : State) : State :=
  let w0 := nth 0 ws 0
  let x : A2aPost :=
    { seq := o.seq, tag := bitsOf w0 61 58, axis := collAxis o.word, b0 := issueBreath s p, ahead := bitsOf w0 49 46
      deadline := bitsOf w0 57 50, zeroFill := bitAt w0 42, epp := bitsOf w0 27 16 + 1, c := bitsOf w0 15 0
      near := nth 0 ws 1, far := nth 0 ws 2, rowBytes := nth 0 ws 3, hdr := nth 0 ws 4, table := nth 0 ws 5
      gate := nth 0 ws 6, n := nth 0 ws 7, res := nth 0 ws 8, past := pastGens s p (bitsOf w0 61 58) }
  setA2a p x.tag x s

def alltoallPost (p : Nat) (s : State) : State :=
  issueWith p (isColl p 4 (some 0)) (issueColl p (a2aPostFault p) (a2aPostBody p)) s

/-- A row or count vector that no open post takes is refused: counted as stale where its post has closed, as unposted where a
count vector finds no post (R240). -/
def a2aRefuse (m : Packet) (closed : Bool) (s : State) : State :=
  let s := if closed then raise F.ROUTE_EVENTS_stale 0 (satAddFld F.ROUTE_COUNTS_stale 0 1 s)
    else if nth 0 m.aux 0 = 0 then satAddFld F.ROUTE_COUNTS_unposted 0 1 s
    else s
  refuseMessage m 3 s

/-- A message of a generation that one of the tag's earlier posts awaited (R240). -/
def ofPast (s : State) (x : A2aPost) (gen : Nat) : Bool := x.past.any (fun g => g % 65536 = gen && schedBreath s < g + 65536)

/-- A message refused after a post's close shows in word 3 of its result block (R245; DEDUCED, log 121). -/
def refusedLate (p tag : Nat) (x : A2aPost) (s : State) : State :=
  memWrite (combAddr p (x.res + 24)) (natLe 8 (x.refused + 1)) false (setA2a p tag { x with refused := x.refused + 1 } s)

/-- Rows a member has placed with an open post. -/
def rowsFrom (s : State) (x : A2aPost) (m : Nat) : Nat :=
  x.filled.countP (fun e => e.1 % 2 ^ 20 / x.c % ringSizeOf s x.axis = m)

def countsFrom (x : A2aPost) (m : Nat) : Nat := (x.counts.filter (fun e => e.1 % 16 = m)).foldl (fun a e => a + e.2) 0

/-- A member has arrived complete: its counts and all its rows. -/
def arrivedFrom (s : State) (x : A2aPost) (m : Nat) : Bool := bitAt x.counted m && rowsFrom s x m = countsFrom x m

/-- A count vector (aux: 0, axis, then a count per local expert) or a row (aux: 1, axis, local expert, index in its group,
position, rank, source slot, gate) arrives at a post. A hive under reset refuses it (R249). -/
def alltoallRowReceive (m : Packet) (s : State) : State :=
  let p := m.pair
  match findA2a s p m.tag with
  | none => a2aRefuse m false s
  | some x =>
    let k := coordOf m.src x.axis
    if underReset s (hiveOf p) then a2aRefuse m false s
    else if x.gen ≠ m.generation || nth 0 m.aux 1 ≠ x.axis || !onRing s x.axis m.src then
      a2aRefuse m (ofPast s x m.generation) s
    else if x.closed then a2aRefuse m true (refusedLate p m.tag x s)
    else if nth 0 m.aux 0 = 0 then
      let cs := (m.aux.drop 2).take x.epp
      let counts := (List.range cs.length).foldl (fun t e => SMap.set 0 t (e * 16 + k) (nth 0 cs e)) x.counts
      ackMessage m (setA2a p m.tag { x with counted := setBitN x.counted k, counts := counts } s)
    else
      let e := nth 0 m.aux 2
      let t := k * x.c + nth 0 m.aux 3
      if e ≥ x.epp || nth 0 m.aux 3 ≥ x.c || m.data.length ≠ x.rowBytes then
        a2aRefuse m true s
      else
        let rows := a2aSlots s x
        let s := scatter (payloadPieces (rowPlace x.near x.far x.n rows x.rowBytes e t) 0 m.poison m.data) s
        let s := memWrite (x.hdr + (e * rows + t) * 16)
          (headerBytes (nth 0 m.aux 4) (nth 0 m.aux 5) true k (nth 0 m.aux 6)) false s
        let s := memWrite (x.gate + (e * rows + t) * 4) (natLe 4 (nth 0 m.aux 7)) false s
        ackMessage m (setA2a p m.tag { x with filled := SMap.insert x.filled (e * 2 ^ 20 + t) true } s)

/-- The count table (R239). -/
def countTable (s : State) (x : A2aPost) (arrived : Nat) : List Nat :=
  let m := ringSizeOf s x.axis
  natLe 8 ((x.epp - 1) + (m - 1) * 2 ^ 12 + x.c * 2 ^ 16 + x.n * 2 ^ 32) ++ natLe 8 x.rowBytes ++ List.replicate 48 0
    ++ (List.range 16).flatMap (fun k =>
      natLe 8 (if k < m then x.gen + x.tag * 2 ^ 16 + (if bitAt arrived k then 2 ^ 20 else 0) else 0))
    ++ (List.range x.epp).flatMap (fun e => (List.range m).flatMap (fun k =>
      natLe 4 (if bitAt arrived k then SMap.get 0 x.counts (e * 16 + k) else 0)))

/-- A post closes: every member has arrived complete, or its deadline's tick has come (R240, R245). A slot that holds no row of
an arrived member is invalid, and reads +0 under zero_fill. -/
def alltoallReceiveClose (p tag : Nat) (s : State) : State :=
  match findA2a s p tag with
  | none => s
  | some x =>
    let ms := ringMembers s x.axis
    let full := ms.all (arrivedFrom s x)
    if x.closed || (!full && !tickReached s x.due) then s
    else
      let rows := a2aSlots s x
      let arrived := maskOf (ms.filter (arrivedFrom s x))
      let good (e t : Nat) : Bool := SMap.get false x.filled (e * 2 ^ 20 + t) && bitAt arrived (t / x.c)
      let s := iter x.epp s (fun e s => iter rows s (fun t s =>
        if good e t then s
        else
          let ha := x.hdr + (e * rows + t) * 16
          let s := if SMap.get false x.filled (e * 2 ^ 20 + t) then memWrite (ha + 4) [byteAt s (ha + 4) % 8 + byteAt s (ha + 4) / 16 * 16] false s
            else memWrite ha (List.replicate 16 0) false s
          if x.zeroFill then memWrite (rowPlace x.near x.far x.n rows x.rowBytes e t) (List.replicate x.rowBytes 0) false s else s))
      let s := memWrite x.table (countTable s x arrived) false s
      let kept := x.filled.filter (fun e => bitAt arrived (e.1 % 2 ^ 20 / x.c))
      let far := kept.countP (fun e => e.1 % 2 ^ 20 ≥ x.n)
      let s := writeBlock p x.res [arrived + (if full then 0 else 2 ^ 16), kept.length, far, 0] s
      finishColl p x.seq (setA2a p tag { x with closed := true, counts := [], filled := [] } s)

/-! ## DISPATCH (R241, R242) -/

def setBatch (p tag : Nat) (b : Batch) (s : State) : State :=
  modPair p (fun q => { q with batches := SMap.insert q.batches tag b }) s
def findBatch (s : State) (p tag : Nat) : Option Batch := ((pair s p).batches.find? (fun e => e.1 = tag)).map (fun e => e.2)
def dropBatch (p tag : Nat) (s : State) : State := modPair p (fun q => { q with batches := SMap.erase q.batches tag }) s

/-- The count vector of one member. -/
def sendCounts (p : Nat) (seq tag gen axis k : Nat) (cs : List Nat) (s : State) : State :=
  requestColl p 3 seq (k * 2 ^ 20)
    { ptype := ptAlltoall, dst := memberDev s axis k, tag := tag, generation := gen % 65536, aux := 0 :: axis :: cs
      data := List.replicate (roundUp (4 * cs.length) 64) 0 } s

/-- A row to be sent: expert, index in its group, position, rank. -/
structure RowOut where
  d : Nat := 0
  j : Nat := 0
  pos : Nat := 0
  rank : Nat := 0
  deriving DecidableEq, Repr

/-- A DISPATCH. A poisoned table, record or gate stops it: the members are sent empty count vectors (R249). -/
def a2aDispatchBody (p : Nat) (ws : List Nat) (o : UnitOp) (s : State) : State :=
  let w0 := nth 0 ws 0
  let axis := collAxis o.word
  let m := ringSizeOf s axis
  let epp := bitsOf w0 27 16 + 1
  let c := bitsOf w0 15 0
  let k := bitsOf w0 45 43 + 1
  let tag := bitsOf w0 61 58
  let nd := m * epp
  let rb := bitsOf (nth 0 ws 3) 31 0
  let tables := nth 0 ws 5
  let tstep := roundUp (4 * nd) 64
  let kept (d : Nat) : Nat := numAt s (tables + 4 * d) 4
  let offs (d : Nat) : Nat := numAt s (tables + tstep + 4 * d) 4
  let sortDrops := (List.range nd).foldl (fun a d => a + numAt s (tables + 2 * tstep + 4 * d) 4) 0
  let recAt (d j : Nat) : Nat := nth 0 ws 4 + 16 * (offs d + j)
  let all := (List.range nd).flatMap (fun d => (List.range (min (kept d) c)).map (fun j =>
    ({ d := d, j := j, pos := numAt s (recAt d j) 4, rank := bitsOf (numAt s (recAt d j + 4) 1) 2 0 } : RowOut)))
  let rows := all.take 65536
  let gateAt (r : RowOut) : Nat := nth 0 ws 6 + 4 * (r.pos * k + r.rank)
  let bad := poisoned s tables (tstep + 4 * nd)
    || rows.any (fun r => poisoned s (recAt r.d r.j) 16 || poisoned s (gateAt r) 4)
  let s := noteOfflineRange tables (2 * tstep + 4 * nd) 0 true s
  let s := rows.foldl (fun t r => noteOfflineRange (gateAt r) 4 0 true (noteOfflineRange (recAt r.d r.j) 16 0 true t)) s
  let rows := if bad then [] else rows
  let excess := if bad then 0 else (List.range nd).foldl (fun a d => a + (kept d - c)) 0
  let dropped := if bad then 0 else sortDrops + excess + (all.length - rows.length)
  let s := if bad then escalate (hiveOf p) 0x04 p s else s
  let s := if excess = 0 then s else raise F.ROUTE_EVENTS_cap_excess 0 (satAddFld F.ROUTE_DROPS_cap_excess 0 excess s)
  let s := satAddFld F.ROUTE_DROPS_dropped 0 dropped s
  let s := if (findBatch s p tag).isSome then satAddFld F.ROUTE_COUNTS_cancels 0 1 (dropBatch p tag s) else s
  let b0 := issueBreath s p
  let slots := (List.range rows.length).foldl (fun t i =>
    let r := nth {} rows i
    SMap.insert t i (r.d * 2 ^ 32 + r.pos)) []
  let b : Batch :=
    { tag := tag, generation := b0 % 65536, total := rows.length, ret := nth 0 ws 2, rowBytes := bitsOf (nth 0 ws 3) 63 32
      list := nth 0 ws 7, sem := bitsOf w0 41 36, close := b0 + bitsOf w0 57 50, res := nth 0 ws 8, slots := slots
      dropped := dropped, seq := o.seq }
  let s := setBatch p tag b s
  let s := (ringMembers s axis).foldl (fun t q =>
    sendCounts p o.seq tag b0 axis q ((List.range epp).map (fun e => rows.countP (fun r => r.d = q * epp + e))) t) s
  (List.range rows.length).foldl (fun t i =>
    let r := nth {} rows i
    let a := nth 0 ws 1 + r.pos * rb
    requestColl p 3 o.seq ((r.d / epp) * 2 ^ 20 + i + 1)
      { ptype := ptAlltoall, dst := memberDev s axis (r.d / epp), tag := tag, generation := b0 % 65536
        aux := [1, axis, r.d % epp, r.j, r.pos, r.rank, i, numAt s (gateAt r) 4]
        data := readBytes s a rb, poison := sectorPoison (badBytes s a rb) } (noteOfflineRange a rb 0 true t)) s

def alltoallDispatch (p : Nat) (s : State) : State :=
  issueWith p (isColl p 4 (some 1)) (issueColl p (a2aDispatchFault p) (a2aDispatchBody p)) s

/-- The messages of a dispatch not yet answered. -/
def dispatchOpen (s : State) (p seq : Nat) : Bool := s.requests.any (fun r => r.kind = 3 && r.pair = p && r.ref = seq)

/-- Every member has acknowledged or refused everything: the DISPATCH is complete and its semaphore incremented. -/
def dispatchDone (p seq : Nat) (s : State) : State :=
  let mine := (pair s p).colls.any (fun o => o.seq = seq && wOp o.word = 4 && bitsOf (nth 0 o.desc 0) 63 62 = 1)
  if mine && !dispatchOpen s p seq then finishColl p seq s else s

def modBatch (p seq : Nat) (f : Batch → Batch) (s : State) : State :=
  modPair p (fun q => { q with batches := q.batches.map (fun e => if e.2.seq = seq then (e.1, f e.2) else e) }) s

/-- A message of a dispatch was acknowledged: its slot waits for its return. -/
def a2aAcked (r : Request) (s : State) : State :=
  let i := r.member % 2 ^ 20
  if i = 0 then s else modBatch r.pair r.ref (fun b => { b with acked := SMap.insert b.acked (i - 1) true }) s

/-- A message of a dispatch was refused, or timed out. -/
def a2aRefused (r : Request) (s : State) : State :=
  modBatch r.pair r.ref (fun b => { b with refusing := setBitN b.refusing (r.member / 2 ^ 20) }) s

/-! ## RETURN (R243) -/

/-- What a RETURN has met so far: stopped by poison, rows returned, slots skipped. -/
structure RetS where
  stop : Bool := false
  sent : Nat := 0
  skipped : Nat := 0
  deriving DecidableEq, Repr

/-- One slot of a RETURN: its header, the count word of its run and what the count table recorded of its source are read. -/
def returnSlot (p : Nat) (ws : List Nat) (axis m c n e t : Nat) (acc : RetS × State) : RetS × State :=
  let (r, s) := acc
  if r.stop then acc
  else
    let rows := m * c
    let ha := nth 0 ws 4 + (e * rows + t) * 16
    let rb := bitsOf (nth 0 ws 3) 31 0
    if poisoned s ha 16 || poisoned s (nth 0 ws 5 + 192 + 4 * (e * m + t / c)) 4 then ({ r with stop := true }, s)
    else
      let h0 := numAt s ha 8
      if !bitAt h0 35 then acc
      else
        let q := bitsOf h0 39 36
        let ca := nth 0 ws 5 + 64 + 8 * q
        if poisoned s ca 8 then ({ r with stop := true }, s)
        else
          let cw := numAt s ca 8
          if !bitAt cw 20 then ({ r with skipped := r.skipped + 1 }, s)
          else
            let a := rowPlace (nth 0 ws 1) (nth 0 ws 2) n rows rb e t
            let s := sendColl p
              { ptype := ptAlltoall, dst := memberDev s axis q, tag := bitsOf cw 19 16, generation := bitsOf cw 15 0
                aux := [2, axis, bitsOf (numAt s (ha + 8) 8) 63 32], data := readBytes s a rb
                poison := sectorPoison (badBytes s a rb) } s
            ({ r with sent := r.sent + 1 }, noteOfflineRange a rb 0 true s)

/-- A RETURN walks the count table and the headers, sends every valid slot's row, and completes. -/
def a2aReturnBody (p : Nat) (ws : List Nat) (o : UnitOp) (s : State) : State :=
  let axis := collAxis o.word
  let tbl := nth 0 ws 5
  let w := numAt s tbl 8
  let m := bitsOf w 15 12 + 1
  let c := bitsOf w 31 16
  let n := bitsOf w 63 32
  let (r, s) := if poisoned s tbl 16 then (({ stop := true } : RetS), s)
    else (List.range (bitsOf w 11 0 + 1)).foldl (fun acc e =>
      (List.range (m * c)).foldl (fun acc t => returnSlot p ws axis m c n e t acc) acc) ({}, s)
  let s := if r.stop then escalate (hiveOf p) 0x04 p s else s
  finishColl p o.seq (writeBlock p (nth 0 ws 8) [b2n r.stop, r.sent, r.skipped] s)

def alltoallReturn (p : Nat) (s : State) : State :=
  issueWith p (isColl p 4 (some 2)) (issueColl p (a2aReturnFault p) (a2aReturnBody p)) s

/-- CANCEL closes an open batch at once. -/
def a2aCancelBody (p : Nat) (ws : List Nat) (o : UnitOp) (s : State) : State :=
  let tag := bitsOf (nth 0 ws 0) 61 58
  let s := if (findBatch s p tag).isSome then satAddFld F.ROUTE_COUNTS_cancels 0 1 (dropBatch p tag s) else s
  finishColl p o.seq s

def alltoallCancel (p : Nat) (s : State) : State :=
  issueWith p (isColl p 4 (some 3)) (issueColl p a2aCancelFault (a2aCancelBody p)) s

/-! ## Returns and the close of a batch (R243–R245) -/

/-- A returned row: written to its slot, or stale. -/
def returnRowReceive (m : Packet) (s : State) : State :=
  let p := m.pair
  let i := nth 0 m.aux 2
  let stale (s : State) : State := raise F.ROUTE_EVENTS_stale 0 (satAddFld F.ROUTE_COUNTS_stale 0 1 s)
  match findBatch s p m.tag with
  | none => stale s
  | some b =>
    if b.generation ≠ m.generation || b.total ≤ i || SMap.get false b.filled i || m.data.length ≠ b.rowBytes then
      stale (setBatch p m.tag { b with stale := b.stale + 1 } s)
    else
      let s := scatter (payloadPieces (b.ret + i * b.rowBytes) 0 m.poison m.data) s
      setBatch p m.tag { b with filled := SMap.insert b.filled i true } s

/-- A batch is full: its dispatch is complete and every acknowledged slot is filled. -/
def batchFull (s : State) (p : Nat) (b : Batch) : Bool :=
  !dispatchOpen s p b.seq && b.acked.all (fun e => SMap.get false b.filled e.1)

/-- A batch closes: full, or at its close breath's tick. The return list, the result block, then ret_sem. -/
def batchClose (p tag : Nat) (s : State) : State :=
  match findBatch s p tag with
  | none => s
  | some b =>
    let full := batchFull s p b
    if !full && !tickReached s b.close then s
    else
      let list := b.filled.flatMap (fun e =>
        let v := SMap.get 0 b.slots e.1
        natLe 4 (v / 2 ^ 32 % 65536) ++ natLe 4 (v % 2 ^ 32) ++ natLe 8 (b.ret + e.1 * b.rowBytes))
      let s := memWrite b.list list false s
      let got := b.filled.length
      let s := writeBlock p b.res
        [(if full then 0 else 1) + b.refusing * 65536, b.total, b.dropped, got, b.total - got, b.stale] s
      semInc p b.sem (dropBatch p tag s)

end Sys2Proof.Machine
end

