-- ==== Sys2Proof/Machine/Bias.lean ====
section
/-! DEFINITION. The bias loop (R229–R233, R249): window closes, the reduction over a scope, updates, host writes, and the
copies in comb. -/

namespace Sys2Proof.Machine

/-- Routers whose entries changed: their copies go to every selected pair, now where it runs no slice, else before its next. -/
def biasSpread (changed : List Nat) (s : State) : State :=
  (setBitsOf 64 (fld s F.ROUTE_DEST_pairs)).foldl (fun t p =>
    if hiveState t (hiveOf p) ≠ hsInService then t
    else
      let t := modPair p (fun x => { x with biasDue := changed.foldl setBitN x.biasDue }) t
      if (pair t p).inSlice then t else biasDeliver p t) s

/-- The routers that hold an entry of a list. -/
def routersOf (s : State) (es : List Nat) : List Nat :=
  (routers s).filter (fun r => es.any (fun e => routerBase s r ≤ e && e < routerBase s r + routerN s r))

/-! ## Windows (R231) -/

/-- Breaths of a window. -/
def windowLen (s : State) : Nat := fld s F.ROUTE_CTRL_period

/-- A slice of window j has not ended on this part. -/
def windowLate (s : State) (j : Nat) : Bool :=
  (List.range 64).any (fun p => (pair s p).inSlice && (pair s p).sliceBreath / windowLen s = j
    && hiveState s (hiveOf p) = hsInService)

/-- The other parts whose totals the window's sum takes. -/
def scopePeers (s : State) : List Nat :=
  (scopeParts s (fld s F.ROUTE_CTRL_scope_axes)).filter (fun d => d ≠ deviceId s)

/-- The totals of a window as (entry, total) pairs. -/
def windowTotals (s : State) (j : Nat) : List (Nat × Nat) :=
  (s.windowLoads.filter (fun e => e.1 / 4096 = j)).map (fun e => (e.1 % 4096, e.2))

/-- A window's totals sent to the other parts of the scope. -/
def sendTotals (j : Nat) (s : State) : State :=
  let ts := windowTotals s j
  let s := { s with winClosed := s.winClosed.map (fun w => if w.1 = j then (j, true) else w) }
  (scopePeers s).foldl (fun t d =>
    inject { ptype := ptColl, dst := d, cls := 3, aux := [16, j] ++ ts.flatMap (fun x => [x.1, x.2])
             data := List.replicate (roundUp (4 * 4096) 64) 0 } t) s

/-- The status bits of the loop. -/
def biasStatus (s : State) : State :=
  let s := setFld F.ROUTE_STATUS_pending 0 (b2n (!s.winClosed.isEmpty)) s
  setFld F.ROUTE_STATUS_reducing 0
    (b2n (s.winClosed.any (fun w => !(scopePeers s).all (fun d => s.winTotals.any (fun e => e.1 = w.1 * 65536 + d))))) s

/-- The boundary tick that begins breath (j + 1)K closes window j; its totals go out once its slices have ended (R231). -/
def biasWindowClose (s : State) : State :=
  if !fldB s F.ROUTE_CTRL_loop_en then s
  else
    let j := s.winNext
    let s := if tickReached s ((j + 1) * windowLen s) then
        { s with winNext := j + 1, winClosed := s.winClosed ++ [(j, false)] }
      else s
    let ready := s.winClosed.filter (fun w => !w.2 && !windowLate s w.1)
    biasStatus (ready.foldl (fun t w => sendTotals w.1 t) s)

/-- Another part's totals of a window arrive. -/
def windowTotalsReceive (m : Packet) (s : State) : State :=
  let j := nth 0 m.aux 1
  if j < s.winNext && !s.winClosed.any (fun w => w.1 = j) then staleMessage s
  else
    let ps := (List.range ((m.aux.length - 2) / 2)).map (fun i => (nth 0 m.aux (2 + 2 * i), nth 0 m.aux (3 + 2 * i)))
    biasStatus { s with winTotals := SMap.insert s.winTotals (j * 65536 + m.src) ps }

/-- The reduced total of an entry: exact 32-bit saturating addition. -/
def reducedLoad (s : State) (j e : Nat) : Nat :=
  let others := (s.winTotals.filter (fun t => t.1 / 65536 = j)).map (fun t =>
    (t.2.filter (fun x => x.1 = e)).foldl (fun a x => a + x.2) 0)
  others.foldl (satAdd 32) (SMap.get 0 s.windowLoads (j * 4096 + e))

/-- One expert's new bias (R232): none where it stays. -/
def newBias (s : State) (en total load bias : Nat) : Option Nat :=
  let d : Int := (en * load : Nat) - (total : Nat)
  if total = 0 || 256 * d.natAbs ≤ fld s F.ROUTE_CTRL_deadband * total then none
  else
    let g := v32 (fld s F.ROUTE_LOOP_gamma)
    let mx := v32 (fld s F.ROUTE_LOOP_bias_max)
    let v := rne32 ((v32 bias).sub (if d < 0 then g.negate else g))
    some (if mx.lt (v32 v) then fld s F.ROUTE_LOOP_bias_max
      else if (v32 v).lt mx.negate then fld s F.ROUTE_LOOP_bias_max + 0x80000000
      else v)

/-- The update of one router: the entries that change. -/
def routerUpdate (s : State) (j r : Nat) : List (Nat × Nat) :=
  let n := routerN s r
  let loads := (List.range n).map (fun i => reducedLoad s j (routerBase s r + i))
  let total := loads.foldl (· + ·) 0
  (List.range n).filterMap (fun i =>
    let e := routerBase s r + i
    if s.biasHost.contains e && s.biasHostBreath = schedBreath s then none
    else (newBias s n total (nth 0 loads i) (biasOf s e)).map (fun v => (e, v)))

/-- A window leaves the loop. -/
def dropWindow (j : Nat) (s : State) : State :=
  biasStatus { s with winClosed := s.winClosed.filter (fun w => w.1 ≠ j)
                      windowLoads := SMap.dropKeys s.windowLoads (fun k => k / 4096 = j)
                      winTotals := SMap.dropKeys s.winTotals (fun k => k / 65536 = j) }

/-- An update is lost: the bias stays (R231). -/
def updateLost (j : Nat) (s : State) : State :=
  let s := raise F.ROUTE_EVENTS_update_lost 0 (satAddFld F.ROUTE_DROPS_lost 0 1 s)
  sendEventOpen 0x08 3 255 (dropWindow j s)

/-- The update of the oldest closed window, at the tick that begins breath (j + 1)K + lag (R231–R233). -/
def biasUpdate (s : State) : State :=
  if !fldB s F.ROUTE_CTRL_loop_en then s
  else
    match s.winClosed with
    | [] => s
    | (j, _) :: _ =>
      if !tickReached s ((j + 1) * windowLen s + fld s F.ROUTE_CTRL_lag) then s
      else if windowLate s j || !(scopePeers s).all (fun d => s.winTotals.any (fun e => e.1 = j * 65536 + d)) then updateLost j s
      else
        let rs := routers s
        let changes := rs.flatMap (fun r => routerUpdate s j r)
        let nan := rs.any (fun r => (List.range (routerN s r)).any (fun i => (v32 (biasOf s (routerBase s r + i))).isNan))
        let loads := (List.range 4096).map (fun e => reducedLoad s j e)
        let s := raiseIf nan F.ROUTE_EVENTS_bias_nan 0 s
        let s := changes.foldl (fun t c => setBias c.1 c.2 t) s
        let s := iter 4096 s (fun e t => setLoad e (nth 0 loads e) t)
        let s := raise F.ROUTE_EVENTS_update 0 (addFld F.ROUTE_STATUS_epoch 0 1 s)
        biasSpread (routersOf s (changes.map (fun c => c.1))) (dropWindow j s)

/-- Host writes to ROUTE_BIAS take effect at the boundary tick (R233). -/
def biasShadowApply (s : State) : State :=
  if s.biasShadow.isEmpty then s
  else
    let es := s.biasShadow.map (fun e => e.1)
    let s := s.biasShadow.foldl (fun t e => setBias e.1 e.2 t) s
    biasSpread (routersOf s es) { s with biasShadow := [], biasHost := es, biasHostBreath := schedBreath s }

end Sys2Proof.Machine
end

