-- ==== Sys2Proof/Machine/Links.lean ====
section
/-! DEFINITION. The ports of the link hub (R292–R307, R318, R319): flits and their replay, lanes, training and retraining,
forwarding. -/

namespace Sys2Proof.Machine

/-! ## Ordered sets -/

/-- An ordered set dropped for its CRC or an undefined kind (R32, R293). -/
def badSet (n : Nat) (s : State) : State := raise F.PORT_EVENTS_oset_crc n (satAddFld F.PORT_OSET_bad n 1 s)

/-- An ordered set that passed its check. -/
def onGoodSet (n body : Nat) (k : State → State) (s : State) : State := if crc16Ok body then k s else badSet n s

/-! ## Replay (R300) -/

/-- A port starts to retrain: its traffic waits (R301). `named` says that a bit of PORT_EVENTS names the cause (R319). -/
def startRetrain (n : Nat) (named : Bool) (s : State) : State :=
  if portState s n = ptUp then
    setFld F.PORT_STATUS_state n ptRetrain (modPort n (fun x => { x with hopValid := false, named := named }) s)
  else s

/-- Sequence numbers a–b apart, modulo 4,096, count as not after when less than half way round. -/
def seqUpTo (a b : Nat) : Bool := (b + 4096 - a) % 4096 < 2048

/-- Flits up to `ack` leave the replay buffer. -/
def takeAck (n ack : Nat) (s : State) : State :=
  let x := portS s n
  let rest := x.unacked.filter (fun f => !seqUpTo f.1 ack)
  let s := if rest.length < x.unacked.length then modPort n (fun x => { x with unacked := rest, resends := 0 }) s else s
  releaseHeld n s

/-- Unacknowledged flits sent again in order. -/
def resendFlits (n : Nat) (s : State) : State :=
  (portS s n).unacked.foldl (fun t f => emit (.flit n (flitBytes t n 0 f.1 false f.2)) t) s

/-- The port gives up replaying: it retrains. -/
def replayFail (n : Nat) (s : State) : State := startRetrain n true (raise F.PORT_EVENTS_replay_fail n s)

/-- A nak: everything after `ack` is sent again; the same flit resent eight times in a row fails the port's replay. -/
def takeNak (n ack : Nat) (s : State) : State :=
  let s := takeAck n ack s
  if (portS s n).unacked.isEmpty then s
  else
    let s := satAddFld F.PORT_REPLAY_replays n 1 (raise F.LINK_EVENTS_replay 0 (raise F.PORT_EVENTS_replay n s))
    let s := modPort n (fun x => { x with resends := x.resends + 1 }) (resendFlits n s)
    if (portS s n).resends ≥ 8 then replayFail n s else s

def nakReceive (n ack : Nat) (s : State) : State := if portState s n = ptUp then takeNak n ack s else s

/-- No acknowledgement for 20 µs while flits are outstanding. -/
def replayTimeout (n : Nat) (s : State) : State :=
  if portState s n = ptUp && !(portS s n).unacked.isEmpty then replayFail n s else s

/-- A DATA flit is discarded: a nak goes out once, and flits are discarded until the next in order comes. -/
def discardFlit (n : Nat) (s : State) : State :=
  let s := satAddFld F.PORT_REPLAY_crc_fail n 1 s
  if (portS s n).discarding then s
  else sendIdle n true (modPort n (fun x => { x with discarding := true }) s)

/-- A DATA flit is accepted: the next number is expected, and an IDLE flit acknowledges it, which is within the 64 flits and
100 ns of R300 (DESIGN CHOICE, log 117). `rest` are the received bytes of a packet not complete. -/
def acceptFlit (n : Nat) (rest : List Nat) (s : State) : State :=
  sendIdle n false
    (modPort n (fun x => { x with rxNext := (x.rxNext + 1) % 4096, discarding := false, rxBuf := rest, accepted := true }) s)

/-- The packet types of R294. -/
def ptypeDefined (t : Nat) : Bool := [1, 2, 3, 4, 5, 6, 0x10, 0x11, 0x12, 0x13, 0x14, 0x15, 0x20].contains t

/-- A packet header is well formed: a defined ptype, reserved bits 0, a length of at most 64 sectors. -/
def headOk (h : Nat) : Bool :=
  ptypeDefined (bitsOf h 7 0) && bitsOf h 95 90 = 0 && bitsOf h 107 103 = 0 && bitsOf h 191 172 = 0 && bitsOf h 102 96 ≤ 64

/-- The packet at the front of received bytes, if its header is well formed (R294). -/
def decodePacket (bs : List Nat) : Option Packet :=
  let h := leNat (bs.take 32)
  if headOk h then some (packetFrom h ((bs.drop 32).take (64 * bitsOf h 102 96))) else none

/-- Whole packets at the front of a port's received bytes: their payload is counted, an ill-formed one discarded and counted.
Eight zero bytes where a packet could start are no packet. -/
def parsePackets : Nat → Nat → List Nat → State → List Nat × State
  | 0, _, bs, s => (bs, s)
  | k + 1, n, bs, s =>
    if bs.length ≥ 8 && (bs.take 8).all (fun b => b = 0) then parsePackets k n (bs.drop 8) s
    else if bs.length < 32 then (bs, s)
    else
      let len := 64 * min (bitsOf (leNat (bs.take 32)) 102 96) 64
      if bs.length < 32 + len then (bs, s)
      else
        let s := match decodePacket bs with
          | some m => countPort F.PORTCTR_RX_LO_count F.PORTCTR_RX_HI_count n (payloadOf m) s
          | none => staleMessage s
        parsePackets k n (bs.drop (32 + len)) s

/-- The kind of a flit's header (R292). -/
def flitKind (flit : List Nat) : Nat := bitsOf (leNat (flit.take 4)) 31 30

/-- The reserved bytes of a CONTROL flit are 0 (R293). -/
def controlClean (flit : List Nat) : Bool :=
  ((flit.drop 17).take 15).all (fun b => b = 0) && ((flit.drop 240).take 12).all (fun b => b = 0)

/-- The flit's CRC-32 agrees. -/
def flitCrcOk (flit : List Nat) : Bool := flit.length = 256 && crc32 (flit.take 252) = leNat (flit.drop 252)

/-- No reserved bit of the flit is set, and its kind is defined: one that fails this is discarded like a CRC failure. -/
def flitClean (flit : List Nat) : Bool :=
  flitKind flit ≠ 3 && bitsOf (leNat (flit.take 4)) 3 0 = 0 && (flitKind flit ≠ 1 || controlClean flit)

/-- The header, and the packets of a DATA flit, of a flit that arrives on a port (R292, R300), with the symbols its codeword's
FEC corrected, and whether it could not. -/
def dataFlitReceive (n : Nat) (flit : List Nat) (corrected : Nat) (uncorrected : Bool) (s : State) : State :=
  if portState s n ≠ ptUp then s
  else
    let s := satAddFld F.PORT_FEC_corrected n corrected s
    let s := if uncorrected then raise F.PORT_EVENTS_fec_uncorrected n (satAddFld F.PORT_FEC_uncorrected n 1 s) else s
    let h := leNat (flit.take 4)
    if !(flitCrcOk flit && flitClean flit) then discardFlit n (raise F.PORT_EVENTS_crc n s)
    else
      let s := if bitAt h 4 then takeNak n (bitsOf h 17 6) s else if bitAt h 5 then takeAck n (bitsOf h 17 6) s else s
      if flitKind flit ≠ 0 then s
      else if bitsOf h 29 18 ≠ (portS s n).rxNext then discardFlit n s
      else
        let (rest, s) := parsePackets 64 n ((portS s n).rxBuf ++ (flit.drop 4).take 248) s
        acceptFlit n rest s

/-! ## Lanes and retraining (R298–R303) -/

/-- The packets that wait for a port and the flits it has not had acknowledged are lost (R306, R318); the route to the spur's
partner is the torus again, until its ID is learned anew (R305; DEDUCED, log 118). -/
def losePort (n : Nat) (s : State) : State :=
  let s := if n = 8 then { s with spurRoute := 0 } else s
  modPort n (fun x => { fails := x.fails, fec := x.fec, keptX4 := x.keptX4, eqSteps := x.eqSteps, eqAt := x.eqAt })
    { s with hubHeld := s.hubHeld.filter (fun h => h.port ≠ n) }

/-- A port has become FAILED. After a retrain it tries again by itself until three in a row have failed (R301); after a
training it does not (R319). -/
def portFail (n : Nat) (retrained : Bool) (s : State) : State :=
  let w := fld s F.PORT_STATUS_width n
  let s := setFld F.PORT_STATUS_width n 0 (setFld F.PORT_STATUS_state n ptFailed s)
  raise F.LINK_EVENTS_port_failed 0 (losePort n (modPort n (fun x =>
    { x with fails := if retrained then x.fails + 1 else 3
             keptX4 := if w = 1 || w = 2 then w else x.keptX4 }) s))

/-- A port is UP at a width: replay resumes and its held packets go out. -/
def portUp (n width : Nat) (s : State) : State :=
  let s := setFld F.PORT_STATUS_width n width (setFld F.PORT_STATUS_state n ptUp s)
  releaseHeld n (resendFlits n (modPort n (fun x => { x with fails := 0, resends := 0, keptX4 := 0, named := false }) s))

/-- The width that a port keeps to by itself: its own x4 half, or the one it ran on before it failed (R301). -/
def keptWidth (s : State) (n : Nat) : Nat :=
  let w := fld s F.PORT_STATUS_width n
  if w = 0 then (portS s n).keptX4 else w

/-- The width that healthy lanes give (R301): none where a lane has failed in each half, or any has without allow_x4. With
`keepX4` a port at x4 does not return to x8. -/
def lanesWidth (s : State) (n healthy : Nat) (keepX4 : Bool) : Option Nat :=
  let lo := healthy % 16 = 15
  let hi := healthy / 16 % 16 = 15
  let w := keptWidth s n
  let x4 := keepX4 && (w = 1 || w = 2)
  if lo && hi then some (if x4 then w else 3)
  else if !fldB s F.PORT_CTRL_allow_x4 n then none
  else if x4 && w = 2 && hi then some 2
  else if lo then some 1
  else if hi then some 2
  else none

/-- A port comes up at a width, degraded if that is new. -/
def portUpAt (n width : Nat) (s : State) : State :=
  let old := keptWidth s n
  let s := portUp n width s
  if width ≠ 3 && old ≠ width then sendEventOpen 0x0A 1 255 (raise F.LINK_EVENTS_port_degraded 0 s) else s

/-- A retrain ends with a set of healthy lanes and the partner's FEC mode: a changed mode of this port is in use from here on
(R295, R318). A failed port tries again by itself until three in a row have failed. -/
def retrainEnd (n healthy fec : Nat) (s : State) : State :=
  let st := portState s n
  if st = ptRetrain || (st = ptFailed && 1 ≤ (portS s n).fails && (portS s n).fails < 3) then
    let s := setFld F.PORT_STATUS_lanes_ok n healthy s
    let s := modPort n (fun x => { x with fec := fld s F.PORT_CTRL_fec n }) s
    if fec ≠ (portS s n).fec then portFail n true (raise F.PORT_EVENTS_fec_mismatch n s)
    else
      match lanesWidth s n healthy true with
      | some w => portUpAt n w s
      | none => portFail n true (if (portS s n).named then s else raise F.PORT_EVENTS_train_fail n s)
  else s

/-- A lane's equalisers have adapted: its SNR, eye height and lock (R298, R299). Steps that it wants of the partner's transmitter go
out in an EQ set, at most one in 1 ms. -/
def eqAdapt (n k snr eye : Nat) (lock : Bool) (ask : Option Nat) (s : State) : State :=
  if k ≥ 8 then s
  else
    let i := 8 * n + k
    let s := setFld F.PORT_LANE_k_snr i snr (setFld F.PORT_LANE_k_eye_height i eye (setFld F.PORT_LANE_k_cdr_lock i (b2n lock) s))
    let last := (portS s n).eqAt
    match ask with
    | some v =>
      if portState s n = ptUp && (last = 0 || last + 999 ≤ s.us) then
        sendSet n 5 (withCrc16 (v % 2 ^ 112 * 65536)) (modPort n (fun x => { x with eqAt := s.us + 1 }) s)
      else s
    | none => s

/-- Equaliser step requests of the partner are applied to the transmitter at a flit boundary, and alter nothing else (R298). An
empty slot is ignored; one of an undefined kind counts as a failed ordered set (R293). -/
def eqReceive (n kind body : Nat) (s : State) : State :=
  if kind > 5 then badSet n s
  else if kind = 0 then s
  else onGoodSet n body (fun s =>
    if kind = 5 then modPort n (fun x => { x with eqSteps := body / 65536 :: x.eqSteps }) s else s) s

/-- A lane has failed: its SNR below the limit for 1 ms, or its lock lost for 10 µs (R299). -/
def laneFail (n k : Nat) (s : State) : State :=
  let i := 8 * n + k
  if k ≥ 8 || (fld s F.PORT_LANE_k_snr i ≥ fld s F.PORT_CTRL_snr_min n && fldB s F.PORT_LANE_k_cdr_lock i) then s
  else
    let s := setFld F.PORT_LANE_k_failed i 1 (raise F.PORT_EVENTS_lane_fail n s)
    startRetrain n true (setFld F.PORT_STATUS_lanes_ok n (clearBitN (fld s F.PORT_STATUS_lanes_ok n) k) s)

/-- The partner has been silent for hang_us (R302). -/
def portHang (n : Nat) (s : State) : State :=
  if portState s n = ptUp then startRetrain n true (raise F.PORT_EVENTS_hang n s) else s

/-- PORT_CMD.retrain: the port trains, trying x8 first. -/
def retrainPort (n : Nat) (s : State) : State :=
  if fld s F.PORT_CTRL_mode n = 1 then
    setFld F.PORT_STATUS_state n ptTrain
      (modPort n (fun x => { x with fails := 0, keptX4 := 0, fec := fld s F.PORT_CTRL_fec n }) s)
  else raise F.LINK_EVENTS_ignored_write 0 s

/-- PORT_CMD.down: the port goes OFF, with no lane in use. -/
def portDown (n : Nat) (s : State) : State :=
  losePort n (setFld F.PORT_STATUS_lanes_ok n 0 <| setFld F.PORT_STATUS_width n 0 (setFld F.PORT_STATUS_state n ptOff s))

/-- Training ends with the partner's device, port and FEC mode and the healthy lanes (R318, R319). -/
def portTrainingDone (n partner partnerPort fec healthy : Nat) (s : State) : State :=
  if portState s n ≠ ptTrain then s
  else
    let s := setFld F.PORT_STATUS_partner_port n partnerPort (setFld F.PORT_STATUS_lanes_ok n healthy s)
    let s := if n < 8 then setFld F.PORT_STATUS_partner_id n partner s else s
    let s := iter 8 s (fun k t => setFld F.PORT_LANE_k_failed (8 * n + k) (b2n (!bitAt healthy k)) t)
    if n < 8 && partnerPort ≠ n ^^^ 1 then portFail n false (raise F.PORT_EVENTS_wiring n s)
    else if fec ≠ (portS s n).fec then portFail n false (raise F.PORT_EVENTS_fec_mismatch n s)
    else
      match lanesWidth s n healthy false with
      | some w => portUpAt n w (modPort n (fun x => { fec := x.fec, eqAt := x.eqAt }) s)
      | none => portFail n false (raise F.PORT_EVENTS_train_fail n s)

/-- Training has found no partner, or has not completed in time (R319). -/
def trainFail (n : Nat) (s : State) : State :=
  if portState s n = ptTrain then portFail n false (raise F.PORT_EVENTS_train_fail n s) else s

/-! ## Forwarding (R304–R307) -/

/-- A packet for this part arrives, its age with the hop it arrived on; the message it makes whole is handed on. -/
def arrives (m : Packet) (f : Packet → State → State) (s : State) : State :=
  if outlived s m then lifetimeDrop s
  else
    match assemble m s with
    | (some w, t) => f w t
    | (none, t) => t

/-- A packet for this part arrives that is handed on by itself, be it one of several of its message. -/
def arrivesEach (m : Packet) (f : Packet → State → State) (s : State) : State :=
  if outlived s m then lifetimeDrop s else f m s

/-- A packet for another part arrives on a port; `spent` is the time, in ns, it has spent in this hub. -/
def packetForward (n spent : Nat) (m : Packet) (s : State) : State :=
  let age := satAdd 20 m.age (spent + fld s F.PORT_STATUS_hop_delay n / 4)
  let m := { m with age := age }
  if m.dst = deviceId s then s
  else if outlived s m then lifetimeDrop s
  else if n = 8 then
    let s := raise F.LINK_EVENTS_unreachable 0 (satAddFld F.LINK_COUNTS_unreachable 0 1 s)
    if m.ptype = 5 then s else inject (refusal s m 2) s
  else
    let s := countPort F.PORTCTR_FWD_LO_count F.PORTCTR_FWD_HI_count n (payloadOf m) s
    sendOn (some (n / 2)) n m (fun s => if m.ptype = 5 then s else inject (refusal s m 2) s) s

/-- One packet lifetime after the spur's partner was learned, packets for it go out on SP (R305). -/
def spurRouteSwitch (s : State) : State :=
  if s.spurRoute = 1 then releaseHeld 8 { s with spurRoute := 2 } else s

end Sys2Proof.Machine
end

