-- ==== Sys2Proof/Machine/Requests.lean ====
section
/-! DEFINITION. How requests end (R170, R308): acknowledgements, refusals and timeouts, by what each request was for. -/

namespace Sys2Proof.Machine

/-- A window or aperture access failed: a read completes with zeros and EP set; remote_fail is set (R332). -/
def hostFail (r : Request) (s : State) : State :=
  let s := raise F.HOST_EVENTS_remote_fail 0 s
  if r.member = 0 then s else emit (.completion r.ref (List.replicate r.member 0) true) s

/-- A request was acknowledged. -/
def requestAcked (r : Request) (s : State) : State :=
  match r.kind with
  | 0 => finishCopy r.pair r.ref s
  | 3 => a2aAcked r s
  | 4 => permAcked r s
  | _ => s

/-- A request was refused, or got no answer in time. -/
def requestFailed (r : Request) (s : State) : State :=
  match r.kind with
  | 0 => rejectCopy r s
  | 1 => rejectCopy r s
  | 2 => gexRefused r s
  | 3 => a2aRefused r s
  | 4 => permRefused r s
  | 5 => hostFail r s
  | _ => s

/-- An ACK arrives; one that answers no request still open is stale. -/
def ackReceive (m : Packet) (s : State) : State :=
  match findRequest s m.req with
  | some r => requestAcked r (dropRequest r.id s)
  | none => staleMessage s

/-- A REFUSE arrives. -/
def refuseReceive (m : Packet) (s : State) : State :=
  match findRequest s m.req with
  | some r => requestFailed r (dropRequest r.id s)
  | none => staleMessage s

/-- A request has waited req_us. -/
def requestTimeout (id : Nat) (s : State) : State :=
  match findRequest s id with
  | some r =>
    if r.sent + fld s F.LINK_TIMEOUT_req_us ≤ s.us then requestFailed r (dropRequest r.id s) else s
  | none => s

end Sys2Proof.Machine
end

