-- ==== Sys2Proof/Machine/Tick.lean ====
section
/-! DEFINITION. The breath unit before the local tick (R28–R34, R40–R50): the master's emission, flooding, stretch requests, the
lost tick, arm, resume, cease, echoes, and the start of scores. -/

namespace Sys2Proof.Machine

/-! ## States, flooding, FAULT_N -/

/-- States of BREATH_STATUS.state (R52). -/
abbrev bsIdle : Nat := 0
abbrev bsArmed : Nat := 1
abbrev bsRunning : Nat := 2
abbrev bsTickLost : Nat := 3
abbrev bsDesync : Nat := 4

def breathState (s : State) : Nat := fld s F.BREATH_STATUS_state

def setBreathState (v : Nat) (s : State) : State := setFld F.BREATH_STATUS_state 0 v s

def modBreath (f : BreathS → BreathS) (s : State) : State := { s with breath := f s.breath }

def breathIgnored (s : State) : State := raise F.BREATH_EVENTS_ignored_write 0 s

/-- An I3C in-band interrupt with its mandatory byte (R441). -/
def inBand (b : Nat) (s : State) : State := emit (.i3cInterrupt b) s

/-- What follows where a change has driven FAULT_N low: vector 3 on the queen (R336), an in-band interrupt (R441). -/
def noteFault (before s : State) : State :=
  if faultN s && !faultN before then
    let s := inBand 1 s
    if isQueen s then msix 3 s else s
  else s

/-- A change under which FAULT_N may be asserted. -/
def withFault (f : State → State) (s : State) : State := noteFault s (f s)

/-- An ordered set sent on every torus port that is UP, but one (R33). -/
def flood (except kind body : Nat) (s : State) : State :=
  (List.range 8).foldl (fun t n =>
    if n = except || portState t n ≠ ptUp then t else sendSet n kind body t) s

/-- The body of a tick ordered set (R32). -/
def Tick.body (t : Tick) : Nat :=
  withCrc16 (t.master % 2 ^ 16 * 2 ^ 112 + t.number % 2 ^ 48 * 2 ^ 64 + t.period % 2 ^ 18 * 2 ^ 46 + b2n t.lost * 2 ^ 45
    + b2n t.resync * 2 ^ 44 + b2n t.miss * 2 ^ 43 + b2n t.hold * 2 ^ 42 + t.delay % 2 ^ 24 * 2 ^ 18)

/-- The fields of a tick ordered set's body. -/
def tickOf (b : Nat) : Tick where
  master := bitsOf b 127 112
  number := bitsOf b 111 64
  period := bitsOf b 63 46
  lost := bitAt b 45
  resync := bitAt b 44
  miss := bitAt b 43
  hold := bitAt b 42
  delay := bitsOf b 41 18

/-- What tells one tick number from another: its master, its number, and whether it is a lost set or a resync tick. -/
def Tick.key (t : Tick) : Nat × Nat × Nat := (t.master, t.number, b2n t.lost + 2 * b2n t.resync)

/-! ## TICK_LOST and the end of a stream (R45–R47) -/

/-- Hold marks and their status bit. -/
def setHolds (hs : List Nat) (s : State) : State :=
  setFld F.BREATH_STATUS_hold_pending 0 (b2n (!hs.isEmpty)) (modBreath (fun b => { b with holds := hs }) s)

/-- The part enters TICK_LOST. -/
def enterLost (s : State) : State :=
  let s := setHolds [] (raise F.BREATH_EVENTS_tick_lost 0 s)
  let s := modBreath (fun b => { b with streaming := false, ending := false, pinRef := false, cands := [], due := [] }) s
  sendEventOpen 0x01 2 255 (setBreathState bsTickLost (setFld F.BREATH_STATUS_source_active 0 0 s))

/-- No valid tick has come within 1 % of a period after its time (R45). -/
def tickLost (s : State) : State :=
  if breathState s = bsRunning && !s.breath.streaming then enterLost s else s

/-- This part is tick master: its source is TIMER or PIN. -/
def isMaster (s : State) : Bool := fld s F.BREATH_CTRL_tick_source ≠ 0

/-- A tick of this master's, with the period of its BREATH_PERIOD. -/
def ownTick (s : State) (number : Nat) : Tick :=
  { master := deviceId s, number := number, period := fld s F.BREATH_PERIOD_period }

/-- The lost ordered set goes out, and the master enters TICK_LOST. -/
def finishStream (s : State) : State :=
  enterLost (flood 9 1 ({ ownTick s (s.breath.emitted + 1) with lost := true } : Tick).body s)

/-- The stream ends at the time of the master's next tick; at once on a PIN master that has accepted no edge yet (R30). -/
def endStream (s : State) : State :=
  if fld s F.BREATH_CTRL_tick_source = 2 && !s.breath.pinRef then finishStream s else modBreath (fun b => { b with ending := true }) s

/-- A master emits a tick: flooded, and fired by this part too one tick budget later (R34). -/
def emitTick (hold : Bool) (s : State) : State :=
  let n := s.breath.emitted + 1
  let t : Tick := { ownTick s n with resync := s.breath.resyncNext, miss := hold, hold := hold }
  flood 9 1 t.body (modBreath (fun b => { b with emitted := n, resyncNext := false, due := b.due ++ [t] }) s)

/-- The time of the master's next tick: a TIMER master emits it (R28, R50); either master ends its stream in its place (R47).
A master in DESYNC goes on emitting (DESIGN CHOICE, log 124). -/
def masterTickEmit (s : State) : State :=
  if s.breath.streaming && s.breath.ending then finishStream s
  else if s.breath.streaming && fld s F.BREATH_CTRL_tick_source = 1 then emitTick false s else s

/-- A TICK_IN edge that passed the filter; `inWindow` says it came within 1 % of a period of its reference time (R30). One that comes
as the stream ends, or with no stream, is counted nowhere (DESIGN CHOICE, log 124). -/
def tickInEdge (inWindow : Bool) (s : State) : State :=
  if !(s.breath.streaming && !s.breath.ending && fld s F.BREATH_CTRL_tick_source = 2) then s
  else if s.breath.pinRef && !inWindow then
    raise F.BREATH_EVENTS_tick_in_reject 0 (satAddFld F.BREATH_TICKIN_reject_count 0 1 s)
  else
    emitTick false (setFld F.BREATH_TICKIN_consec_miss 0 0 (modBreath (fun b => { b with pinRef := true }) s))

/-- A hold tick fires: it starts nothing (R36). -/
def holdTick (t : Tick) (s : State) : State :=
  let marked := s.breath.holds.contains t.number
  let s := if marked then
      raise F.BREATH_EVENTS_stretch 0 (satAddFld F.BREATH_COUNTS_stretch_count 0 1 s)
    else s
  modBreath (fun b => { b with heldTicks := t.number :: b.heldTicks }) s

/-- Hold marks on ticks up to this number are spent. -/
def spendHolds (number : Nat) (s : State) : State :=
  if s.breath.holds.any (fun x => x ≤ number) then setHolds (s.breath.holds.filter (fun x => number < x)) s else s

/-- What every local tick does first: the pulse, the tick register, the period (R31, R36, R52). -/
def tickFired (t : Tick) (s : State) : State :=
  let s := setBreathState bsRunning (modBreath (fun b => { b with period := t.period, resumed := false }) s)
  let s := if fldB s F.BREATH_CTRL_tickout_en then emit .tickOut s else s
  let mism := t.period ≠ fld s F.BREATH_PERIOD_period
  let s := setFld F.BREATH_STATUS_period_mismatch 0 (b2n mism) s
  let s := if mism then raise F.BREATH_EVENTS_period_mismatch 0 s else s
  setFld F.BREATH_TICK_master_id 0 t.master (setFld F.BREATH_TICK_tick_number 0 t.number s)

/-- The window of a PIN master closed with no accepted edge: a hold tick, and after three misses the stream ends at the time of
the next tick (R30, R47). -/
def tickInMiss (s : State) : State :=
  if !(s.breath.streaming && !s.breath.ending && fld s F.BREATH_CTRL_tick_source = 2 && s.breath.pinRef) then s
  else
    let n := fld s F.BREATH_TICKIN_consec_miss + 1
    let s := emitTick true (setFld F.BREATH_TICKIN_consec_miss 0 n s)
    if n < 3 then s else endStream s

/-! ## Arm, resume, cease, the tick source (R28, R47, R49, R50) -/

/-- A master's emission starts: its first tick is one more than the number given. -/
def startStream (emitted : Nat) (resync : Bool) (s : State) : State :=
  let src := fld s F.BREATH_CTRL_tick_source
  let s := setFld F.BREATH_TICKIN_consec_miss 0 0 (setFld F.BREATH_STATUS_source_active 0 src s)
  modBreath (fun b =>
    { b with streaming := true, emitted := emitted, resyncNext := resync, ending := false, pinRef := false
             follows := some (deviceId s), due := [] }) s

/-- A master that is ARMED starts its emission: with tick 1, or after a resume with the resync tick. -/
def startMaster (s : State) : State :=
  if s.breath.resumed then startStream (tickNumber s) true s else startStream 0 false s

/-- BREATH_CMD.arm; in RECOVERY the breath unit stays IDLE (R410). -/
def breathArm (s : State) : State :=
  if fld s F.BOOT_STATUS_state = 3 then breathIgnored s
  else if breathState s = bsIdle then
    let s := setBreathState bsArmed s
    if isMaster s then startMaster s else s
  else breathIgnored s

def breathResume (s : State) : State :=
  if breathState s = bsTickLost || breathState s = bsDesync then
    let s := setHolds [] (setBreathState bsArmed s)
    let s := modBreath (fun b => { b with follows := none, resumed := true, heldTicks := [], cands := [], due := [] }) s
    if isMaster s then startMaster s else s
  else breathIgnored s

/-- BREATH_CMD.cease ends the stream (R47). On a master that does not stream, or is ending already, it is ignored like one on
another part (DESIGN CHOICE, log 124). -/
def breathCease (s : State) : State :=
  if s.breath.streaming && !s.breath.ending then endStream s else breathIgnored s

/-- A write of tick_source (R28). -/
def tickSourceWrite (v : Nat) (s : State) : State :=
  let st := breathState s
  if v % 4 = fld s F.BREATH_CTRL_tick_source then s
  else if v % 4 = 3 || (v % 4 ≠ 0 && !isQueen s) || st = bsRunning then breathIgnored s
  else
    let s := setFld F.BREATH_CTRL_tick_source 0 (v % 4) s
    let s := setFld F.BREATH_STATUS_source_active 0 0 (setFld F.BREATH_STATUS_is_master 0 (b2n (v % 4 ≠ 0)) s)
    let s := modBreath (fun b =>
      { b with streaming := false, ending := false, follows := if b.streaming then none else b.follows
               due := if b.streaming then [] else b.due }) s
    if v % 4 ≠ 0 && st = bsArmed then startMaster s else s

/-! ## Flooding (R33, R34, R48) -/

/-- The parent port for a master and the hops to it: the first port in order on a shortest path (R33). -/
def parentPort (s : State) (master : Nat) : Nat × Nat :=
  let step (acc : Nat × Nat) (a : Nat) : Nat × Nat :=
    let r := ringOf s a
    let d := (coordOf master a + r - coordOf (deviceId s) a % r) % r
    if d = 0 then acc
    else (if acc.1 < 8 then acc.1 else if d ≤ r - d then 2 * a else 2 * a + 1, acc.2 + min d (r - d))
  (List.range 4).foldl step (0xF, 0)

/-- The parent port derived for a master, in BREATH_COMP. -/
def deriveParent (master : Nat) (s : State) : State :=
  let x := parentPort s master
  setFld F.BREATH_COMP_parent_port 0 x.1 (setFld F.BREATH_COMP_hop_count 0 x.2 s)

/-- A copy is forwarded once, its delay grown by its hop and by the time `inside` this part (R33). -/
def forwardTick (n inside : Nat) (t : Tick) (s : State) : State :=
  let d := min (t.delay + fld s F.PORT_STATUS_hop_delay n + inside) (2 ^ 24 - 1)
  flood n 1 { t with delay := d }.body (modBreath (fun b => { b with seen := t.key :: b.seen }) s)

/-- The part acts on a copy: it adopts its master if it follows none, forwards it, and will fire its tick (R33, R34). -/
def actOn (n inside : Nat) (t : Tick) (reroute : Bool) (s : State) : State :=
  let late := t.delay + fld s F.PORT_STATUS_hop_delay n > fld s F.BREATH_COMP_tick_budget
  let s := if late then raise F.BREATH_EVENTS_late_arrival 0 s else s
  let s := setFld F.BREATH_STATUS_reroute_active 0 (b2n reroute) s
  let s := if s.breath.follows = some t.master then s
    else deriveParent t.master (modBreath (fun b => { b with follows := some t.master }) s)
  forwardTick n inside t
    (modBreath (fun b => { b with cands := b.cands.filter (fun c => c.2.key ≠ t.key), due := b.due ++ [t] }) s)

/-- A valid copy at a part that follows ticks. -/
def followTick (n inside : Nat) (t : Tick) (s : State) : State :=
  let st := breathState s
  let b := s.breath
  if b.follows.isSome && b.follows ≠ some t.master then raise F.BREATH_EVENTS_master_conflict 0 s
  else if b.seen.contains t.key then s
  else
    let adopts := st = bsArmed && b.follows.isNone && (t.resync || !b.resumed) && !t.lost
    let acts := (st = bsRunning || st = bsArmed) && b.follows = some t.master
    if adopts then actOn n inside t false s
    else if !acts then forwardTick n inside t s
    else if t.lost then enterLost (forwardTick n inside t s)
    else if fld s F.BREATH_COMP_parent_port = n then actOn n inside t false s
    else modBreath (fun b => { b with cands := b.cands ++ [(n, t)] }) s

/-- A master meets another master's tick: a lower ID ends its stream, a higher is dropped (R48). -/
def masterMeets (t : Tick) (s : State) : State :=
  if t.master < deviceId s then
    let s := raise F.BREATH_EVENTS_master_conflict 0 s
    if s.breath.streaming && !s.breath.ending then endStream s else s
  else s

/-- A tick ordered set arrives on a torus port; `inside` is the time the part takes to forward it, in 0.25 ns. -/
def tickReceive (n body inside : Nat) (s : State) : State :=
  onGoodSet n body (fun s =>
    if n = 8 then s
    else if isMaster s then masterMeets (tickOf body) s
    else if !(portS s n).hopValid then s
    else followTick n inside (tickOf body) s) s

/-- No copy came on the parent port by the due time: the part acts on the copy with the smallest delay, on the lowest of
equal ports (R33). -/
def tickReroute (inside : Nat) (s : State) : State :=
  match s.breath.cands with
  | [] => s
  | c :: cs =>
    let better (a b : Nat × Tick) : Nat × Tick :=
      if b.2.key ≠ c.2.key then a
      else if b.2.delay < a.2.delay || (b.2.delay = a.2.delay && b.1 < a.1) then b else a
    let best := cs.foldl better c
    actOn best.1 inside best.2 true (modBreath (fun b => { b with reroutes := b.reroutes + 1 }) s)

/-! ## Stretches (R40–R42) -/

/-- The body of a STRETCH (R293). -/
def stretchBody (requester target : Nat) : Nat :=
  withCrc16 (requester % 2 ^ 16 * 2 ^ 112 + target % 2 ^ 48 * 2 ^ 64)

/-- A hold mark for a target tick that has not fired; one that fired as a boundary brings DESYNC (R40, R42). A part in TICK_LOST
or DESYNC, which acts on no tick, marks none; DESYNC clears the marks it finds (DESIGN CHOICE, log 124). -/
def markHold (target : Nat) (s : State) : State :=
  let st := breathState s
  let b := s.breath
  if st = bsTickLost || st = bsDesync || b.holds.contains target || b.heldTicks.contains target then s
  else if target ≤ tickNumber s then
    if st = bsRunning then
      withFault (fun s => sendEventOpen 0x01 5 255
        (setBreathState bsDesync (setHolds [] (raise F.BREATH_EVENTS_stretch_late 0 s)))) s
    else s
  else setHolds (target :: b.holds) s

/-- A STRETCH arrives on a torus port: forwarded once, and its target marked. -/
def stretchReceive (n body : Nat) (s : State) : State :=
  onGoodSet n body (fun s =>
    let k := (bitsOf body 127 112, bitsOf body 111 64)
    if n = 8 || s.breath.stretches.contains k then s
    else markHold k.2 (flood n 2 body (modBreath (fun b => { b with stretches := k :: b.stretches }) s))) s

/-! ## Slack and echoes (R34, R51) -/

/-- At the end of a block of 256 schedule breaths: the smallest margin measured, in ns, and its pair. -/
def slackRecord (margin p : Nat) (s : State) : State :=
  if schedBreath s ≠ 0 && schedBreath s % 256 = 0 then
    setFld F.BREATH_SLACK_min_slack 0 margin (setFld F.BREATH_SLACK_min_pair 0 p s)
  else s

/-- A port runs Triras and may echo: a torus port, or the spur once the part is CONFIRMED (R305). -/
def echoes (s : State) (n : Nat) : Bool :=
  portState s n = ptUp && (n < 8 || fld s F.GROUP_STATUS_state = 3 || fld s F.GROUP_STATUS_state = 5)

/-- An ECHO goes out on a port, with its send time in 0.25 ns (R293). -/
def echoSend (n now : Nat) (s : State) : State :=
  if echoes s n then
    sendSet n 3 (withCrc16 (deviceId s * 2 ^ 112 + n * 2 ^ 108 + now % 2 ^ 40 * 2 ^ 56)) s
  else s

/-- An ECHO arrives: it is answered with the turnaround time, or a reply gives the hop delay: half the round trip. On the
spur the first gives the partner's ID (R305). -/
def echoReceive (n body now turnaround : Nat) (s : State) : State :=
  onGoodSet n body (fun s =>
    let sent := bitsOf body 95 56
    let s := if n = 8 && s.spurRoute = 0 && echoes s 8 then
        setFld F.PORT_STATUS_partner_id 8 (bitsOf body 127 112) { s with spurRoute := 1 }
      else s
    if bitAt body 107 then
      let round := (now % 2 ^ 40 + 2 ^ 40 - sent) % 2 ^ 40 - bitsOf body 55 32
      setFld F.PORT_STATUS_hop_delay n (round / 2) (modPort n (fun x => { x with hopValid := true }) s)
    else
      sendSet n 3 (withCrc16 (deviceId s * 2 ^ 112 + n * 2 ^ 108 + 2 ^ 107 + sent * 2 ^ 56
        + turnaround % 2 ^ 24 * 2 ^ 32)) s) s

/-! ## The start of scores (R50, R158) -/

/-- The pair's score is running in the sense of R13. -/
def scoreRuns (s : State) (p : Nat) : Bool :=
  let st := seqState s p
  st = sqPending || st = sqRunning || st = sqWaiting || st = sqPaused

/-- The pair may be started: its hive is in service, it is IDLE or DONE, and its entry lies below its length. -/
def startable (s : State) (p : Nat) : Bool :=
  hiveState s (hiveOf p) = hsInService && (seqState s p = sqIdle || seqState s p = sqDone)
    && fld s F.SEQ_ENTRY_entry p < scoreLength s p

/-- A pair accepts a start. -/
def acceptStart (isNew : Bool) (p : Nat) (s : State) : State :=
  let s := iter 32 s (fun i t => setScalar p i 0 t)
  let s := iter 64 s (fun i t => setFld F.SEQ_SEM_i_count (64 * p + i) 0 t)
  let e := fld s F.SEQ_ENTRY_entry p
  let s := setFld F.SEQ_STATUS_state p sqPending (setFld F.SEQ_STATUS_pc p e s)
  let seed := (reg s .NUM_SEED 0).toNat
  let at_ := fld s F.BREATH_START_start_tick
  modPair p (fun x =>
    { x with seed := seed, refillAt := e / 4 * 4, ibuf := [], past := false, blocked := .none, pauseReq := false, inSlice := false
             owed := none, startAt := at_, startNew := isNew, startDue := false }) s

/-- The result of a start command, with no other effect. -/
def startResult (r : Nat) (s : State) : State := setFld F.SCORE_STATUS_result 0 r s

/-- A start command in the order of R158's checks. -/
def startCmd (isNew isJoin : Bool) (s : State) : State :=
  let ps := setBitsOf 64 (fld s F.SCORE_MASK_pairs)
  let tick := fld s F.BREATH_START_start_tick
  if isNew == isJoin then startResult 2 s
  else if ps.isEmpty then startResult 3 s
  else if !fldB s F.BOOT_STATUS_boot_lock then startResult 8 s
  else
    match ps.find? (fun p => !startable s p) with
    | some p => setFld F.SCORE_STATUS_first_pair 0 p (startResult 4 s)
    | none =>
      if isNew && (List.range 64).any (scoreRuns s) then startResult 5 s
      else if isJoin && !s.breath.newAccepted then startResult 6 s
      else if tick ≠ 0 && tick ≤ tickNumber s then breathIgnored (startResult 7 s)
      else
        let s := ps.foldl (fun t p => acceptStart isNew p t) (startResult 1 s)
        modBreath (fun b => { b with newAccepted := b.newAccepted || isNew }) s

def startNew (s : State) : State := startCmd true false s
def startJoin (s : State) : State := startCmd false true s

/-- PENDING pairs whose start tick a boundary tick of this number is: the boundary itself, or the first after it (R50). -/
def startsAt (s : State) (number : Nat) : List Nat :=
  (List.range 64).filter (fun p => seqState s p = sqPending && (pair s p).startAt ≤ number
    && hiveState s (hiveOf p) = hsInService)

/-- The start tick has come: the pairs enter RUNNING, the bias copies going out first (R158, R233). -/
def scoreStart (s : State) : State :=
  let ps := (List.range 64).filter (fun p => seqState s p = sqPending && (pair s p).startDue)
  if ps.isEmpty then s
  else
    let n := schedBreath s
    ps.foldl (fun t p => beginSlice p n t) (biasSpread (routers s) s)

end Sys2Proof.Machine
end

