-- ==== Sys2Proof/Machine/Clocks.lean ====
section
/-! DEFINITION. The pair clocks (R346, R347, R366), what follows from the loops' state, and the throttle reasons (R363). -/

namespace Sys2Proof.Machine

def modPower (f : PowerS → PowerS) (s : State) : State := { s with power := f s.power }

/-! ## What follows from the loops' state -/

/-- The host's ceiling, none where it is 0; below f_floor it counts as f_floor (R347). -/
def hostCap (s : State) : Option Nat :=
  let c := fld s F.PCC_CLOCK_host_cap
  if c = 0 then none else some (max c (fld s F.PCC_CLOCK_f_floor))

/-- F_ceil, which is the voltage loop's f_target too (R346–R348), in 10 MHz. -/
def ceiling (s : State) : Nat :=
  let c := min (fld s F.PCC_CLOCK_f_max) (min s.power.ceilTherm s.power.ceilPwr)
  let c := match hostCap s with
    | some h => min c h
    | none => c
  max c (fld s F.PCC_CLOCK_f_floor)

/-- The duty in eighths: the current limit's, or the brake's if lower (R346). -/
def dutyNow (s : State) : Nat := min s.power.clDuty s.power.brakeDuty

/-- A pair's clock runs: until its hive's reset, and unless the part has tripped (R361, R366). -/
def pairClocked (s : State) (p : Nat) : Bool :=
  let st := hiveState s (hiveOf p)
  (st = hsInService || st = hsQuiesce || st = hsDump || st = hsFaultHold) && !s.thermTrip

/-- A running pair of R348 and R363: its hive is enabled and not under reset, its clock runs. -/
def pairRuns (s : State) (p : Nat) : Bool := hiveState s (hiveOf p) = hsInService && !s.thermTrip

/-- The clock margin of a pair in an active window (R356). -/
def marginOf (s : State) (p : Nat) : Nat :=
  if s.power.clockOn && bitAt (fld s F.PCC_MARGIN_PAIRS_pairs) p then fld s F.PCC_MARGIN_clk_offset else 0

/-- A pair's clock before duty, in MHz / 128 (R346). A ramp's ceiling is no lower than f_floor (R347). -/
def clock128 (s : State) (p : Nat) : Nat :=
  let cap := match SMap.get none s.power.ramps (hiveOf p) with
    | some r => max (min r (ceiling s)) (fld s F.PCC_CLOCK_f_floor)
    | none => ceiling s
  min (fld s F.PCC_PAIR_p_f_rep p * (128 + marginOf s p - fld s F.PCC_PAIR_p_trim p)) (cap * 10 * 128)

/-- f_p in MHz, duty included. -/
def clockOf (s : State) (p : Nat) : Nat := if pairClocked s p then clock128 s p * dutyNow s / (8 * 128) else 0

/-- The throttle reasons active now (R363), as a mask. Replica frequencies are known once the voltage loop has run. -/
def reasonsNow (s : State) : Nat :=
  let x := s.power
  let fmax := fld s F.PCC_CLOCK_f_max
  let fl := fld s F.PCC_CLOCK_f_floor
  let asks := x.ceilTherm < fl || (x.ceilTherm = fl && x.hot ≥ 4 * fld s F.PCC_THERM_t_throttle)
    || x.ceilPwr < fl || (x.ceilPwr = fl && x.overCap)
  let slow := x.started && (List.range 64).any (fun p => pairRuns s p && clock128 s p < fl * 10 * 128)
  b2n (x.overCap || x.ceilPwr < fmax) + 2 * b2n (decide (x.ceilTherm < fmax)) + 4 * b2n (decide (x.clDuty < 8))
    + 8 * b2n ((ceiling s = fl && asks) || slow) + 16 * b2n (hostCap s = some (ceiling s) && ceiling s < fmax)
    + 32 * b2n (x.braked || x.ramping) + 64 * b2n x.window.isSome

/-- The status follows the loops; the start of a reason sets throttle, sends an event and an in-band interrupt (R363, R441). -/
def powerStatus (s : State) : State :=
  let was := fld s F.PCC_STATUS_reasons
  let s := setFld F.PCC_STATUS_f_ceil 0 (ceiling s) (setFld F.PCC_STATUS_duty 0 (dutyNow s) s)
  let s := setFld F.PCC_STATUS_window 0 (b2n s.power.window.isSome) s
  let now := reasonsNow s
  let s := setFld F.PCC_STATUS_reasons 0 now s
  if (List.range 7).any (fun i => bitAt now i && !bitAt was i) then
    inBand 3 (sendEventOpen 0x0B 0 255 (raise F.PCC_EVENTS_throttle 0 s))
  else s

/-- Reasons follow a change of a hive, once the loops run. -/
def clockStatus (s : State) : State := if s.power.started then powerStatus s else s

/-- A hive's pairs start with the ceiling at f_floor (R366). -/
def rampStart (h : Nat) (s : State) : State :=
  let f := fld s F.PCC_CLOCK_f_floor
  clockStatus (modPower (fun x => { x with ramps := SMap.set none x.ramps h (some f) }) s)

end Sys2Proof.Machine
end

