-- ==== Sys2Proof/Machine/Memory.lean ====
section
/-! DEFINITION. The memory tiers (R206–R225): errors and their reports, channels, tracking and retraining, fills and scrubs,
start-up and what a hive reset does to memory. -/

namespace Sys2Proof.Machine

/-! ## Errors (R217–R223) -/

def chanS (s : State) (c : Nat) : ChanS := SMap.get {} s.chans c

def modChan (c : Nat) (f : ChanS → ChanS) (s : State) : State :=
  { s with chans := SMap.set {} s.chans c (f (chanS s c)) }

/-- The far channel of an address, numbered through the part. -/
def farChannel (a : Nat) : Nat := 8 * (a / hiveBytes) + channelOf a

/-- A far channel fails: reads of it answer poison, its hive is escalated (R222). -/
def failChannel (c : Nat) (s : State) : State :=
  let h := c / 8
  if bitAt (fld s F.MEM_STATUS_chan_failed h) (c % 8) then s
  else
    let s := setFld F.MEM_STATUS_chan_failed h (setBitN (fld s F.MEM_STATUS_chan_failed h) (c % 8)) s
    escalate h 0x06 255 (raise F.MEM_EVENTS_chan_fail h s)

/-- An uncorrectable error or failed transfer, at its detection: counted, logged, escalated if poison_fault says (R220, R221). -/
def noteUncorrectable (a requester : Nat) (s : State) : State :=
  let note (h item : Nat) (s : State) : State :=
    let s := logEvent { block := 0x07, item := item, severity := 2, hive := h, requester := requester, addr := a } s
    if fldB s F.MEM_CTRL_poison_fault h then escalate h 0x06 255 s else s
  match tierOf a with
  | .far h =>
    note h 4 (satAddFld F.MEM_POISON_REC_far 0 1 (satAddFld F.MEM_ECC_FAR_uncorrected h 1 (raise F.MEM_EVENTS_far_ue h s)))
  | .near h =>
    note h 2 (satAddFld F.MEM_POISON_REC_near 0 1 (satAddFld F.MEM_ECC_NEAR_uncorrected h 1 (raise F.MEM_EVENTS_near_ue h s)))
  | .comb p => note (hiveOf p) 0x40 (satAddFld F.MEM_POISON_REC_comb 0 1 (satAddFld F.COMB_ECC_uncorrected p 1 s))
  | _ => s

/-- A corrected error: the data is delivered and written back (R220). -/
def noteCorrected (a : Nat) (s : State) : State :=
  match tierOf a with
  | .far h => satAddFld F.MEM_ECC_FAR_corrected h 1 (raise F.MEM_EVENTS_far_ce h s)
  | .near h => satAddFld F.MEM_ECC_NEAR_corrected h 1 (raise F.MEM_EVENTS_near_ce h s)
  | .comb p => satAddFld F.COMB_ECC_corrected p 1 s
  | _ => s

/-- A sector marked poisoned: a far one enters its channel's directory, which may be full (R219, R220). -/
def poisonSector (a : Nat) (s : State) : State :=
  if !marked s (a / 64) && dirFull s a then
    match ownerHive a with
    | some h => escalate h 0x06 255 (raise F.MEM_EVENTS_poison_dir_full h s)
    | none => s
  else setMark (a / 64) true s

/-- A transfer failed on a far channel: more than 16 in 1 ms fail the channel (R222). -/
def noteFailed (a : Nat) (s : State) : State :=
  let c := farChannel a
  let s := modChan c (fun x => { x with fails := s.us :: x.fails.filter (fun t => s.us < t + 1000) }) s
  if (chanS s c).fails.length > 16 then failChannel c s else s

/-- Retries of a far transfer counted (R219). -/
def noteRetries (a n : Nat) (s : State) : State :=
  if n = 0 then s
  else satAddFld F.MEM_CHAN_j_crc_retries (farChannel a) n (raise F.MEM_EVENTS_crc_retry (farChannel a / 8) s)

/-- Granules lost: their bits clear, so they read as clean zeros until filled again (R223). -/
def clearGranules (gs : List Nat) (s : State) : State :=
  { s with
    filled := SMap.dropKeys s.filled (fun g => gs.contains g)
    mem := SMap.dropKeys s.mem (fun a => a < combBase && gs.contains (granuleOf a))
    poison := SMap.dropKeys s.poison (fun x => x * 64 < combBase && gs.contains (granuleOf (x * 64))) }

/-- An uncorrectable zero-map word (R223). -/
def zeroMapError (a requester : Nat) (gs : List Nat) (s : State) : State :=
  match ownerHive a with
  | some h =>
    let s := raise F.MEM_EVENTS_zmap_error h (clearGranules gs s)
    escalate h 0x06 255
      (logEvent { block := 0x07, item := 8, severity := 2, hive := h, requester := requester, addr := a } s)
  | none => s

/-- The read of an address touches cells: those of a comb, or of a granule that has been filled (R223). -/
def hasCells (s : State) (a : Nat) : Bool :=
  match tierOf a with
  | .comb _ => true
  | .far _ | .near _ => SMap.get false s.filled (granuleOf a)
  | _ => false

/-- A device fault of a kind: FAULT_N held, logged, sent to the queen (R369, R450). -/
def deviceFault (data : Nat) (s : State) : State :=
  withFault (fun s =>
    let s := logEvent { block := 0x0C, item := 0x43, severity := 4, data := data } (setFld F.RL_STATUS_device_fault 0 1 s)
    sendEvent 0x0C 0x43 255 data s) s

/-- What one read of an address meets. A sector already marked reports nothing more (R220); an unfilled granule is not read
at all, only its bit of the zero map is (R223). A far read that its devices report uncorrectable is a failed transfer (R219). A
near flag whose copies disagree is reported like any uncorrectable error (DEDUCED, log 114). -/
def readMeets (a requester : Nat) (e : MemErr) (s : State) : State :=
  let bad (s : State) : State :=
    if marked s (a / 64) then s else noteUncorrectable a requester (poisonSector a s)
  match e, tierOf a with
  | .none, _ => s
  | .zeroMap gs, _ => zeroMapError a requester gs s
  | .alwaysOn off, _ => deviceFault (2 + 256 * off) s
  | e, t =>
    if !hasCells s a then s
    else
      match e, t with
      | .corrected, _ => noteCorrected a s
      | .uncorrectable, .far _ => noteFailed a (bad s)
      | .uncorrectable, _ => bad s
      | .flagSplit, .near _ => bad s
      | .retried n, .far _ => if n ≤ 4 then noteRetries a n s else noteFailed a (bad (noteRetries a 4 s))
      | _, _ => s

/-- The address lies in a far channel that has failed. -/
def channelLost (s : State) (a : Nat) : Bool :=
  match tierOf a with
  | .far _ => channelFailed s a
  | _ => false

/-- A scrub read of one word or sector (R220): none while the hive's memory refreshes itself (R225). -/
def patrolScrub (a : Nat) (e : MemErr) (s : State) : State :=
  match ownerHive a with
  | some h =>
    if fldB s F.MEM_CTRL_scrub_en h && !fldB s F.MEM_STATUS_self_refresh h && !channelLost s a then readMeets a (deviceId s) e s else s
  | none => s

def poisonRecClear (s : State) : State := setReg .MEM_POISON_REC 0 0#64 s

/-! ## The channels (R213–R216, R222) -/

/-- The channel runs: its hive's memory is in service and it has not failed. -/
def chanRuns (s : State) (c : Nat) : Bool :=
  fldB s F.MEM_STATUS_far_ready (c / 8) && !fldB s F.MEM_STATUS_self_refresh (c / 8)
    && !bitAt (fld s F.MEM_STATUS_chan_failed (c / 8)) (c % 8)

/-- The clock lock was lost and not regained within 10 µs. -/
def channelLockLoss (c : Nat) (s : State) : State := if chanRuns s c then failChannel c s else s

/-- The shadow samplers move the thresholds and phase of the channel's pins. -/
def eyeTrack (c : Nat) (vals : List Nat) (s : State) : State :=
  if chanRuns s c then modChan c (fun x => { x with track := vals }) s else s

/-- The address at channel offset 0 (R208). -/
def channelFirst (c : Nat) : Nat := c / 8 * hiveBytes + c % 8 * 2048

/-- A read of channel offset 0 that answers no requester. -/
def channelIdleRead (c : Nat) (e : MemErr) (s : State) : State :=
  if chanRuns s c then readMeets (channelFirst c) (deviceId s) e s else s

/-- A due retrain begins: one channel of a hive at a time. If retrain_guard says, it begins at a guard point, and at once only
in IDLE, TICK_LOST and DESYNC (R215). -/
def channelRetrain (c : Nat) (s : State) : State :=
  let h := c / 8
  if chanRuns s c && fld s F.MEM_STATUS_chan_retraining h = 0
      && (!fldB s F.MEM_CTRL_retrain_guard h || [bsIdle, bsTickLost, bsDesync].contains (breathState s) || (breathState s = bsRunning && s.breath.guarded)) then
    setFld F.MEM_STATUS_chan_retraining h (2 ^ (c % 8)) s
  else s

/-- A retrain ends. -/
def retrainEnds (c : Nat) (s : State) : State :=
  let h := c / 8
  if bitAt (fld s F.MEM_STATUS_chan_retraining h) (c % 8) then
    satAddFld F.MEM_CHAN_j_retrains c 1
      (setFld F.MEM_STATUS_chan_retraining h (clearBitN (fld s F.MEM_STATUS_chan_retraining h) (c % 8)) s)
  else s

/-- A retrain ends, with the narrowest read eye it found. -/
def channelRetrainDone (c eye : Nat) (s : State) : State :=
  if bitAt (fld s F.MEM_STATUS_chan_retraining (c / 8)) (c % 8) then
    setFld F.MEM_CHAN_j_eye_width c eye (retrainEnds c s)
  else s

/-- The temperatures of a channel's two devices, in °C. -/
def deviceTempRead (c t0 t1 : Nat) (s : State) : State :=
  let h := c / 8
  let hot := fld s F.MEM_STATUS_chan_hot h
  let t := max t0 t1
  setFld F.MEM_CHAN_j_temp c t
    (setFld F.MEM_STATUS_chan_hot h (if t > 85 then setBitN hot (c % 8) else clearBitN hot (c % 8)) s)

/-- A per-bank refresh keeps the bank's data (R216). -/
def refreshBank (_c : Nat) (s : State) : State := s

/-! ## The background fill (R223) -/

/-- The first granule from k on, of n, that is not filled. -/
def firstUnfilled (s : State) (base : Nat) : Nat → Nat → Option Nat
  | 0, _ => none
  | n + 1, k => if SMap.get false s.filled (base + k) then firstUnfilled s base n (k + 1) else some (base + k)

/-- Filled granules of a range of the zero maps. -/
def filledIn (s : State) (base n : Nat) : Nat := s.filled.countP (fun e => base ≤ e.1 && e.1 < base + n)

/-- The filled bits of a hive. -/
def noteFilled (h : Nat) (s : State) : State :=
  let s := setFld F.MEM_STATUS_near_filled h (b2n (filledIn s (2 ^ 24 + h * 2 ^ 21) (2 ^ 21) = 2 ^ 21)) s
  setFld F.MEM_STATUS_far_filled h (b2n (filledIn s (h * 2 ^ 21) (2 ^ 21) = 2 ^ 21)) s

/-- The fill of one far channel (some j) or of the stack (none) of a hive takes its next unfilled granule, or finds its
zero-map word uncorrectable. It runs while the hive's memory is in service, also before the hive is (R225). -/
def backgroundFill (h : Nat) (j : Option Nat) (e : MemErr) (s : State) : State :=
  if fldB s F.MEM_STATUS_self_refresh h || !fldB s F.MEM_STATUS_near_ready h then s
  else
    let base := match j with
      | some j => (8 * h + j % 8) * 2 ^ 18
      | none => 2 ^ 24 + h * 2 ^ 21
    match e with
    | .zeroMap gs => zeroMapError (h * hiveBytes) (deviceId s) gs s
    | _ =>
      match firstUnfilled s base (if j.isSome then 2 ^ 18 else 2 ^ 21) 0 with
      | some g => noteFilled h { s with filled := SMap.set false s.filled g true }
      | none => noteFilled h s

/-! ## Hives: what reset and start-up do (R10, R76, R148, R174, R224, R225) -/

def hiveS (s : State) (h : Nat) : HiveS := SMap.get {} s.hives h

def modHive (h : Nat) (f : HiveS → HiveS) (s : State) : State :=
  { s with hives := SMap.set {} s.hives h (f (hiveS s h)) }

/-- A register instance stands in the window of a hive, or of a pair of it. -/
def inHiveWindow (h : Nat) (key : Nat) : Bool :=
  regPlaces.any (fun r => r.reg.code = key % 256 && match r.space with
    | .hive => key / 256 / r.count = h
    | .pair => key / 256 / r.count / 16 = h
    | _ => false)

/-- A hive's pairs, foragers and hive-window registers reset (R10, R174). -/
def resetUnits (h : Nat) (s : State) : State :=
  { s with
    regs := SMap.dropKeys s.regs (inHiveWindow h)
    pairs := SMap.dropKeys s.pairs (fun p => p / 16 = h) }

/-- A hive's combs are written with zeros and clear marks (R225). -/
def clearCombs (h : Nat) (s : State) : State :=
  let mine (a : Nat) : Bool := combBase ≤ a && (a - combBase) / combBytes / 16 = h && a < combBase + 64 * combBytes
  { s with
    mem := SMap.dropKeys s.mem mine
    poison := SMap.dropKeys s.poison (fun x => mine (x * 64)) }

/-- A hive's near and far memory reads as zero: its zero maps are cleared, its poison entries removed. The keep window
stays where `keep` says (R224, R225). -/
def clearTiers (h : Nat) (keep : Bool) (s : State) : State :=
  let mine (a : Nat) : Bool := (match tierOf a with
    | .far g => g = h && !(keep && inKeep a)
    | .near g => g = h
    | _ => false)
  let granule (g : Nat) : Bool :=
    if g < 2 ^ 24 then g / 2 ^ 21 = h && !(keep && g % 2 ^ 18 ≥ 0x3F800) else (g - 2 ^ 24) / 2 ^ 21 = h
  { s with
    mem := SMap.dropKeys s.mem mine
    poison := SMap.dropKeys s.poison (fun x => mine (x * 64))
    filled := SMap.dropKeys s.filled granule }

/-- The stop enables a hive (R407). -/
def hiveEnabled (s : State) (h : Nat) : Bool := bitAt (fld s F.BOOT_STOP_hive_en) h

/-- Driore starts the stacks' self-test and the channels' training (R224). -/
def memoryBringup (s : State) : State :=
  if fld s F.BOOT_STATUS_state = 1 && !s.memTraining && !s.memUp then
    { s with memTraining := true }
  else s

/-- The trained values of a hive's channels saved in the always-on domain, those of the failed ones apart (R224). -/
def saveTrained (failed : Nat) (vals : List (List Nat)) (cs : List Nat) (s : State) : State :=
  cs.foldl (fun t c =>
    if bitAt failed c then t else modChan c (fun x => { x with saved := nth [] vals c, track := nth [] vals c }) t) s

/-- The channels of a hive. -/
def channelsOf (h : Nat) : List Nat := (List.range 8).map (fun j => 8 * h + j)

/-- Start-up training of a hive has ended; `failed` has the channels that failed: they are marked and the hive is held,
else its memory is in service, and its pairs start at f_floor (R21, R224, R366). -/
def startHive (failed : Nat) (vals : List (List Nat)) (s : State) (h : Nat) : State :=
  let f := bitsOf failed (8 * h + 7) (8 * h)
  let s := saveTrained failed vals (channelsOf h) s
  let s := clearCombs h (clearTiers h false (resetUnits h s))
  let s := setFld F.MEM_STATUS_chan_failed h f s
  if f ≠ 0 then setFld F.RL_HIVE_h_state h hsHeldHw s
  else
    let s := setFld F.MEM_STATUS_near_ready h 1 (setFld F.MEM_STATUS_far_ready h 1 s)
    if hiveEnabled s h then rampStart h (setFld F.RL_HIVE_h_state h hsInService s) else setFld F.RL_HIVE_h_state h hsDisabled s

/-- Training after a release has ended for a hive with failed channels (R222). -/
def retrainHive (failed : Nat) (vals : List (List Nat)) (s : State) (h : Nat) : State :=
  let t := (hiveS s h).training
  if t = 0 then s
  else
    let f := bitsOf failed (8 * h + 7) (8 * h) &&& t
    let s := saveTrained failed vals ((channelsOf h).filter (fun c => bitAt t (c % 8))) s
    let s := setFld F.MEM_STATUS_chan_failed h f (modHive h (fun x => { x with training := 0 }) s)
    if f ≠ 0 then setFld F.RL_HIVE_h_state h hsHeldHw (modHive h (fun x => { x with released := false }) s) else s

/-- Training ends, at start-up or after a release; bit c of `failed` is set for a channel that failed it, and `vals` has what
each channel's training found. -/
def memoryTrainDone (failed : Nat) (vals : List (List Nat)) (s : State) : State :=
  if s.memTraining then (List.range 4).foldl (startHive failed vals) { s with memTraining := false, memUp := true }
  else (List.range 4).foldl (retrainHive failed vals) s

end Sys2Proof.Machine
end

