-- ==== Sys2Proof/Machine/Power.lean ====
section
/-! DEFINITION. Power and heat (R343–R367), test windows (R356, R392), the reference clocks (R436). -/

namespace Sys2Proof.Machine

/-! ## The voltage loop (R344, R348, R349, R367) -/

/-- The code requested: the loop's, with the rail and margin offsets. -/
def requestCode (s : State) : Nat :=
  let off := if s.power.window.isSome then fld s F.PCC_MARGIN_v_offset else 0
  min (s.power.v + fld s F.PCC_VOLT_rail_offset - off) 100

/-- The request written: the regulator accepts it, or the request freezes at its last accepted value. None is made before the
loop starts (R366). -/
def requestVoltage (accepted : Bool) (s : State) : State :=
  if !s.power.started then s
  else if s.power.frozen.isSome then modPower (fun x => { x with frozen := some (requestCode s) }) s
  else if accepted then setFld F.PCC_VOLT_v_request 0 (requestCode s) s
  else if requestCode s = fld s F.PCC_VOLT_v_request then s
  else
    sendEventOpen 0x0B 4 255 (raise F.PCC_EVENTS_avs_fail 0 (modPower (fun x => { x with frozen := some (requestCode s) }) s))

/-- The write is tried again every 10 ms. -/
def avsRetry (accepted : Bool) (s : State) : State :=
  match s.power.frozen with
  | some v => if accepted then setFld F.PCC_VOLT_v_request 0 v (modPower (fun x => { x with frozen := none }) s) else s
  | none => s

/-- The least trimmed replica frequency of the running pairs, in MHz / 128. -/
def fmin128 (s : State) : Option Nat :=
  ((List.range 64).filter (pairRuns s)).foldl (fun (m : Option Nat) p =>
    let f := fld s F.PCC_PAIR_p_f_rep p * (128 - fld s F.PCC_PAIR_p_trim p)
    match m with
    | some x => some (min x f)
    | none => some f) none

/-- The loop's code before its first update: the power-up default as read, or v_fixed under FIXED (R366). -/
def startVoltage (s : State) : State :=
  if s.power.started then s
  else
    let v := if fldB s F.PCC_CTRL_v_policy then fld s F.PCC_VOLT_v_fixed else s.power.tele
    modPower (fun x => { x with v := v, started := true }) s

/-- One step of R349 on the loop's code and ceil_pwr. -/
def voltageStep (p : Nat) (s : State) : State :=
  let x := s.power
  let cap := fld s F.PCC_CAP_cap
  let fmax := fld s F.PCC_CLOCK_f_max
  let setV (v : Nat) : State := modPower (fun x => { x with v := v }) s
  if p > cap then
    if x.v > fld s F.PCC_VOLT_v_min && x.frozen.isNone then setV (x.v - 1)
    else if x.ceilPwr ≤ fld s F.PCC_CLOCK_f_floor then
      sendEventOpen 0x0B 3 255 (raise F.PCC_EVENTS_cap_unmet 0
        (modPower (fun x => { x with ceilPwr := fld s F.PCC_CLOCK_f_floor }) s))
    else modPower (fun x => { x with ceilPwr := max (x.ceilPwr - 1) (fld s F.PCC_CLOCK_f_floor) }) s
  else if p + fld s F.PCC_LOOP_hyst_w < cap && x.ceilPwr < fmax then
    modPower (fun x => { x with ceilPwr := min (x.ceilPwr + 1) fmax }) s
  else if x.frozen.isSome then s
  else if fldB s F.PCC_CTRL_v_policy then setV (min (x.v + 1) (fld s F.PCC_VOLT_v_fixed))
  else
    match fmin128 s with
    | none => s
    | some f =>
      if f < ceiling s * 10 * 128 && x.v < fld s F.PCC_VOLT_v_max then setV (x.v + 1)
      else if f > ceiling s * 10 * (128 + fld s F.PCC_LOOP_headroom) && x.v > fld s F.PCC_VOLT_v_min then setV (x.v - 1)
      else s

/-- A stop has been selected: its fields are loaded (R366, R406). -/
def stopLoaded (s : State) : Bool := s.inService && fld s F.BOOT_STATUS_state ≠ 0 && fld s F.BOOT_STATUS_state ≠ 3

/-- A pair's replica frequency: its ring's, with age_p / 256 of its delay added (R352, R354). -/
def showReplica (p : Nat) (s : State) : State :=
  setFld F.PCC_PAIR_p_f_rep p (SMap.get 0 s.power.rings p * 256 / (256 + fld s F.PCC_PAIR_p_age p)) s

/-- One update of the voltage loop: package power over the last t_v in W, the frequencies in MHz at which the pairs' replica
rings run without their ageing delay, whether the regulator accepted the request. -/
def voltageLoop (p : Nat) (rings : List Nat) (accepted : Bool) (s : State) : State :=
  if !stopLoaded s then s
  else
  let s := setFld F.PCC_STATUS_power_w 0 p s
  let s := modPower (fun x => { x with rings := (List.range 64).foldl (fun m i => SMap.set 0 m i (nth 0 rings i)) x.rings }) s
  let s := iter 64 s showReplica
  let s := modPower (fun x => { x with overCap := p > fld s F.PCC_CAP_cap }) (startVoltage s)
  powerStatus (requestVoltage accepted (voltageStep p s))

/-- Telemetry of the regulator: voltage code, current in A, a fault in its status; none where it does not answer. -/
def telemetryRead (r : Option (Nat × Nat × Bool)) (s : State) : State :=
  match r with
  | none => raise F.PCC_EVENTS_tele_lost 0 s
  | some (v, i, bad) =>
    let s := setFld F.PCC_STATUS_i_core 0 i (modPower (fun x => { x with tele := v }) s)
    if bad then
      sendEventOpen 0x0B 0x41 255 (logEvent { block := 0x0B, item := 0x41, severity := openSeverity 0x0B 0x41 } s)
    else s

/-! ## Current, heat, ageing, the brake (R350–R353, R359–R362) -/

/-- A sample of core current, in A. -/
def currentSample (i : Nat) (s : State) : State :=
  let lim := fld s F.PCC_CAP_i_limit
  powerStatus (modPower (fun x =>
    if i > lim then { x with clDuty := max (x.clDuty - 1) (fld s F.PCC_LOOP_cl_min_duty), below := 0 }
    else if 16 * i < 15 * lim then
      if x.below + 1 ≥ 20 then { x with clDuty := min (x.clDuty + 1) 8, below := 0 } else { x with below := x.below + 1 }
    else { x with below := 0 }) s)

/-- A ceiling one step lower, down to f_floor, and one step higher, up to f_max; one that stands beyond them stays. -/
def stepDown (s : State) (c : Nat) : Nat := if fld s F.PCC_CLOCK_f_floor < c then c - 1 else c
def stepUp (s : State) (c : Nat) : Nat := if c < fld s F.PCC_CLOCK_f_max then c + 1 else c

/-- One update of the thermal loop, every 100 µs, in quarters of a degree: down at once, up every tenth. -/
def thermalLoop (s : State) : State :=
  let thr := 4 * fld s F.PCC_THERM_t_throttle
  powerStatus (modPower (fun x =>
    if x.hot ≥ thr then { x with ceilTherm := stepDown s x.ceilTherm, cool := 0 }
    else if x.hot + 8 ≤ thr then
      if x.cool + 1 ≥ 10 then { x with ceilTherm := stepUp s x.ceilTherm, cool := 0 } else { x with cool := x.cool + 1 }
    else { x with cool := 0 }) s)

def sensorS (s : State) (k : Nat) : SensorS := SMap.get {} s.power.sensors k

/-- A sensor is invalid: out of range or unchanging for 1 ms, which is 100 samples. -/
def SensorS.invalid (x : SensorS) : Bool := x.stale ≥ 100

/-- One sample of one sensor; none is out of range. -/
def sampleOne (k : Nat) (v : Option Nat) (s : State) : State :=
  let x := sensorS s k
  let y : SensorS := match v with
    | none => { x with off := true, stale := if x.off then x.stale + 1 else 0, hot := 0 }
    | some c =>
      { code := c, off := false, stale := if !x.off && c = x.code then x.stale + 1 else 0
        hot := if c ≥ 420 then x.hot + 1 else 0 }
  let s := modPower (fun p => { p with sensors := SMap.set {} p.sensors k y }) s
  if y.invalid then raise F.PCC_EVENTS_sensor_fail 0 s else s

/-- The sensors of a compute die: its hives' pairs and its PHY region. -/
def dieSensors (d : Nat) : List Nat := (List.range 32).map (fun i => 32 * d + i) ++ [68 + d]

/-- A die with no valid sensor, or a stack whose sensor is invalid, counts as at 105 °C (R359). -/
def blindSpot (s : State) : Bool :=
  (List.range 2).any (fun d => (dieSensors d).all (fun k => (sensorS s k).invalid))
    || (List.range 4).any (fun h => (sensorS s (64 + h)).invalid)

/-- T_hot in quarters of a degree. -/
def hottest (s : State) : Nat :=
  let m := (List.range 70).foldl (fun m k =>
    let x := sensorS s k
    if x.invalid then m else max m x.code) 0
  if blindSpot s then max m 420 else m

/-- THERM_TRIP_N asserts: every pair clock stops until a full device reset (R361). -/
def thermalTrip (sensor temp : Nat) (s : State) : State :=
  if s.thermTrip then s
  else
    let before := s
    let s := raise F.PCC_EVENTS_therm_trip 0 { s with thermTrip := true }
    let s := noteFault before (deviceFault 1 s)
    inBand 2 (logEvent { block := 0x0B, item := 6, severity := openSeverity 0x0B 6, data := sensor + 256 * temp } s)

/-- Every 10 µs: pairs 0–63, stack base dies 64–67, the PHY regions 68 and 69, in 0.25 °C. -/
def sensorSample (vals : List (Option Nat)) (s : State) : State :=
  let s := iter 70 s (fun k t => sampleOne k (nth none vals k) t)
  let s := iter 64 s (fun p t => setFld F.PCC_PAIR_p_temp p ((sensorS t p).code / 4) t)
  let stackTemps := (List.range 4).foldl (fun w h => w + (sensorS s (64 + h)).code / 4 % 256 * 256 ^ h) 0
  let t := hottest s
  let s := setFld F.PCC_STATUS_t_hot 0 (t / 4) (setFld F.PCC_STACK_TEMP_temp 0 stackTemps (modPower (fun x => { x with hot := t }) s))
  match (List.range 70).find? (fun k => (sensorS s k).hot ≥ 2 && !(sensorS s k).invalid) with
  | some k => thermalTrip k ((sensorS s k).code / 4) s
  | none => if blindSpot s then thermalTrip 255 105 s else s

/-- An age code rises by one (R353), and the pair's replica slows (R354). -/
def ageStep (p : Nat) (s : State) : State :=
  let a := min (fld s F.PCC_PAIR_p_age p + 1) 31
  let s := raise F.PCC_EVENTS_age_step 0 (showReplica p (setFld F.PCC_PAIR_p_age p a s))
  let s := modPower (fun x => { x with ageTimes := SMap.insert x.ageTimes p s.us }) s
  if a = 24 then sendEventOpen 0x0B 9 p (raise F.PCC_EVENTS_age_limit 0 s) else s

/-- Steps that fell due are taken at a boundary tick, none while a window is active (R353, R367). -/
def ageApply (s : State) : State :=
  if s.power.window.isSome then s
  else s.power.ageDue.foldl (fun t p => ageStep p t) (modPower (fun x => { x with ageDue := [] }) s)

/-- The ageing monitors' codes, once a stop is selected: taken afresh at start-up, then at most one step up per 24 h. -/
def ageingMeasure (codes : List Nat) (s : State) : State :=
  if !stopLoaded s then s
  else if !s.power.aged then
    iter 64 (modPower (fun x => { x with aged := true }) s) (fun p t =>
      showReplica p (setFld F.PCC_PAIR_p_age p (min (nth 0 codes p) 31) t))
  else
    let due := (List.range 64).filter (fun p => nth 0 codes p > fld s F.PCC_PAIR_p_age p && fld s F.PCC_PAIR_p_age p < 31
      && (match s.power.ageTimes.find? (fun e => e.1 = p) with
        | some e => e.2 + 86400000000 ≤ s.us
        | none => true))
    modPower (fun x => { x with ageDue := due }) s

/-- PWR_BRAKE_N is asserted: duty falls, hum stops (R362). -/
def brakeAsserted (s : State) : State :=
  if s.power.braked then s
  else
    let n := schedBreath s + 1
    let first := s.power.brakeBreath ≠ n
    let d := fld s F.PCC_BRAKE_duty
    let s := modPower (fun x =>
      { x with braked := true, ramping := false, brakeDuty := d, brakeSince := s.us, brakeBreath := n, humDuty := 0 }) s
    let s := raise F.PCC_EVENTS_brake 0 (logEvent { block := 0x0B, item := 1, severity := 0 } s)
    powerStatus (if first then sendEvent 0x0B 1 255 0 s else satAddFld F.PCC_BRAKE_excess 0 1 s)

/-- The filtered release: the duty rises step by step. -/
def brakeRelease (s : State) : State :=
  if !s.power.braked then s
  else
    let s := logEvent { block := 0x0B, item := 0x40, severity := 0, data := s.us - s.power.brakeSince } s
    powerStatus (modPower (fun x => { x with braked := false, ramping := true }) s)

def brakeReleaseStep (s : State) : State :=
  if !s.power.ramping then s
  else
    powerStatus (modPower (fun x =>
      if x.brakeDuty + 1 ≥ x.clDuty then { x with brakeDuty := 8, ramping := false } else { x with brakeDuty := x.brakeDuty + 1 }) s)

/-! ## Hum (R357, R358) -/

/-- A pair that hum may use: waiting in HUM, or WAITING with hum_slice_end. -/
def humEligible (s : State) (p : Nat) : Bool :=
  pairRuns s p && ((match (pair s p).blocked with
    | .hum _ _ _ => true
    | _ => false) || (seqState s p = sqWaiting && fldB s F.PCC_CTRL_hum_slice_end))

/-- Every 1 µs: the current without hum, and what one sixteenth of hum in the eligible pairs adds, in mA. From TICK_LOST to the
next boundary there is no floor, and hum that has fallen to zero stays off (R367). -/
def humAdjust (bare gain : Nat) (s : State) : State :=
  let x := s.power
  let r := max bare (x.humRamp - 1000 * fld s F.PCC_HUM_hum_ramp)
  let stop := if breathState s = bsTickLost && x.humStop = 0 then 1 else x.humStop
  let t := if stop = 0 then max x.humFloor r else r
  let on := (fld s F.PCC_CTRL_hum_mode ≠ 0 || x.window.isSome) && !x.braked && !x.ramping && stop ≠ 2 && (List.range 64).any (humEligible s)
  let d := if on && gain ≠ 0 && bare < t then min ((t - bare + gain - 1) / gain) 16 else 0
  let s := modPower (fun x =>
    { x with humRamp := r, humDuty := d, humStop := if stop ≠ 0 && d = 0 then 2 else stop, humSum := x.humSum + bare + d * gain, humCount := x.humCount + 1 }) s
  if on && bare + 16 * gain < t then raise F.PCC_EVENTS_hum_short 0 s else s

/-- At a boundary the floor is a share of the average of the breath that ended. -/
def humFloorUpdate (s : State) : State :=
  let f := fld s F.PCC_HUM_hum_floor
  modPower (fun x =>
    { x with humFloor := if x.humCount = 0 then 0 else x.humSum * f / (16 * x.humCount), humSum := 0, humCount := 0, humStop := 0 }) s

/-! ## Energy and jobs (R363–R365) -/

/-- Every 1 µs: the energy of the microsecond in µJ; the throttle reasons' durations and the part's own time advance. With it come
the cycles of the microsecond that the counters count (R418): (pair, event, cycles). -/
def energyIntegrate (e : Nat) (work : List (Nat × Nat × Nat)) (s : State) : State :=
  if !s.inService then { s with us := s.us + 1 } else
  let s := work.foldl (fun t w => count w.1 w.2.1 w.2.2 t) s
  let x := s.power
  let counts := x.energyMode = 0 || x.jobTag ≠ 0
  let s := if counts then addFld F.PCC_ENERGY_energy_uj 0 e s else s
  let r := fld s F.PCC_STATUS_reasons
  let s := (setBitsOf 7 r).foldl (fun t i => satAddFld F.PCC_THR_DUR_i_dur_us i 1 t) s
  { s with us := s.us + 1 }

/-- The counter and the tag are copied, and the counter cleared. -/
def closeJob (s : State) : State :=
  let e := fld s F.PCC_ENERGY_energy_uj
  let s := setFld F.PCC_JOB_LAST_energy_uj 0 e (setFld F.PCC_JOB_last_tag 0 s.power.jobTag s)
  setFld F.PCC_ENERGY_energy_uj 0 0 s

/-- A tag write takes effect at the boundary tick. -/
def jobTagApply (s : State) : State :=
  match s.power.tagDue with
  | none => s
  | some t =>
    let s := if s.power.energyMode = 1 then closeJob s else s
    modPower (fun x => { x with jobTag := t, tagDue := none }) s

/-- A tag write and a change of mode that take effect together close one job (R365). The host's write of the mode goes over a stop
that was loaded at the same boundary (R12). -/
def energyApply (s : State) : State :=
  let x := s.power
  let s := match x.modeDue with
    | some m => setFld F.PCC_CTRL_energy_mode 0 m s
    | none => s
  let m := fld s F.PCC_CTRL_energy_mode
  let s := if m ≠ x.energyMode || (x.tagDue.isSome && x.energyMode = 1) then closeJob s else s
  modPower (fun x => { x with energyMode := m, jobTag := x.tagDue.getD x.jobTag, tagDue := none, modeDue := none }) s

/-- The energy mode in effect follows PCC_CTRL.energy_mode at a boundary; a change closes the job (R365, R366). -/
def energyModeApply (s : State) : State :=
  let m := fld s F.PCC_CTRL_energy_mode
  if m = s.power.energyMode then s else modPower (fun x => { x with energyMode := m }) (closeJob s)

/-! ## Clock ramps and test windows (R356, R366, R392) -/

/-- The ceiling of a hive that left reset rises by 10 MHz every 100 µs to f_target. -/
def clockRamp (h : Nat) (s : State) : State :=
  match SMap.get none s.power.ramps h with
  | none => s
  | some r =>
    let t := ceiling s
    powerStatus (modPower (fun x => { x with ramps := SMap.set none x.ramps h (if r + 1 ≥ t then none else some (r + 1)) }) s)

/-- The schedule breath that the coming boundary tick begins (R37). -/
def comingBreath (s : State) : Nat := if s.breath.counting then schedBreath s + 1 else schedBreath s

/-- A window falls due at a schedule breath. -/
def windowDue (s : State) (b : Nat) : Bool :=
  let st := fld s F.RL_TWIN_start
  let per := fld s F.RL_TWIN_REP_period
  fld s F.RL_TWIN_length ≠ 0 && (b = st || (per ≠ 0 && st < b && (b - st) % per = 0))

/-- A window due at the coming boundary begins, unless one is active: the voltage offset applies. -/
def testWindowBegin (s : State) : State :=
  let b := comingBreath s
  if s.power.window.isSome || !windowDue s b then s
  else
    let s := setFld F.RL_STATUS_window 0 1 (modPower (fun x => { x with window := some b, clockOn := false }) s)
    powerStatus (requestVoltage true s)

/-- The lower voltage is reached, or 20 µs have passed: the clock offsets apply. -/
def marginClockApply (s : State) : State :=
  if s.power.window.isSome then powerStatus (modPower (fun x => { x with clockOn := true }) s) else s

/-- A window ends at the coming boundary: the clock offsets go first, then the voltage offset. -/
def testWindowEnd (s : State) : State :=
  match s.power.window with
  | none => s
  | some b =>
    if comingBreath s < b + fld s F.RL_TWIN_length then s
    else
      let s := setFld F.RL_STATUS_window 0 0 (modPower (fun x => { x with window := none, clockOn := false }) s)
      powerStatus (requestVoltage true s)

/-! ## The reference clocks (R436) -/

/-- The core reference is lost: a device fault. -/
def refclkCoreLoss (s : State) : State := deviceFault 4 s

/-- The link reference is lost: every Triras port loses lock on all its lanes, and fails. -/
def refclkLinkLoss (s : State) : State :=
  (List.range 9).foldl (fun t n =>
    let st := portState t n
    if st = ptTrain || st = ptUp || st = ptRetrain then
      let t := iter 8 t (fun k u => setFld F.PORT_LANE_k_cdr_lock (8 * n + k) 0 (setFld F.PORT_LANE_k_failed (8 * n + k) 1 u))
      portFail n true (setFld F.PORT_STATUS_lanes_ok n 0 (raise F.PORT_EVENTS_lane_fail n t))
    else t) s

end Sys2Proof.Machine
end

