-- ==== Sys2Proof/Machine/Counters.lean ====
section
/-! DEFINITION. The performance counters' commands (R418–R426): freezes, windows, clears and selects. -/

namespace Sys2Proof.Machine

def ctrIgnored (s : State) : State := raise F.CTR_EVENTS_ignored_write 0 s

/-- The freeze scheduled, if any, is shown pending. -/
def freezePending (s : State) : State :=
  setFld F.CTR_FREEZE_STATUS_pending 0 (b2n (s.counters.freezeNext || fld s F.CTR_FREEZE_at ≠ 0)) s

/-- CTR_CMD.freeze_now: the copy is made at the next boundary tick, in place of any pending one. -/
def freezeNow (s : State) : State :=
  freezePending (setFld F.CTR_FREEZE_at 0 0 { s with counters := { s.counters with freezeNext := true } })

/-- A write of CTR_FREEZE.at: a breath not later than the current one is ignored (R421). -/
def freezeAt (at_ : Nat) (s : State) : State :=
  if at_ ≠ 0 && at_ ≤ schedBreath s then ctrIgnored s
  else freezePending (setFld F.CTR_FREEZE_at 0 at_ { s with counters := { s.counters with freezeNext := false } })

/-- Every live counter copied into its snapshot. -/
def copyCounters (s : State) : State :=
  let s := iter 64 s (fun p t =>
    let t := iter 8 t (fun j u => setFld F.CTR_P_SNAP_j_count (12 * p + j) (fld u F.CTR_P_n_count (8 * p + j)) u)
    iter 4 t (fun k u => setFld F.CTR_P_SNAP_j_count (12 * p + 8 + k) (fld u F.CTR_P_SLOT_k_count (4 * p + k)) u))
  iter 9 s (fun n t =>
    let t := setFld F.PORTCTR_SNAP_TX_LO_count n (fld t F.PORTCTR_TX_LO_count n) t
    let t := setFld F.PORTCTR_SNAP_TX_HI_count n (fld t F.PORTCTR_TX_HI_count n) t
    let t := setFld F.PORTCTR_SNAP_RX_LO_count n (fld t F.PORTCTR_RX_LO_count n) t
    let t := setFld F.PORTCTR_SNAP_RX_HI_count n (fld t F.PORTCTR_RX_HI_count n) t
    let t := setFld F.PORTCTR_SNAP_FWD_LO_count n (fld t F.PORTCTR_FWD_LO_count n) t
    setFld F.PORTCTR_SNAP_FWD_HI_count n (fld t F.PORTCTR_FWD_HI_count n) t)

/-- The scheduled freeze, at step 2 of the coming boundary tick (R38, R421). -/
def counterFreeze (s : State) : State :=
  let at_ := fld s F.CTR_FREEZE_at
  let b := comingBreath s
  if !s.counters.freezeNext && (at_ = 0 || b < at_) then s
  else
    let s := copyCounters s
    let s := setFld F.CTR_FREEZE_STATUS_last 0 b (setFld F.CTR_FREEZE_STATUS_valid 0 1 s)
    let every := fld s F.CTR_FREEZE_every
    let s := setFld F.CTR_FREEZE_at 0 (if every = 0 then 0 else b + every) s
    freezePending { s with counters := { s.counters with freezeNext := false } }

/-- Bytes a port has sent (0) or received (1) (R422). -/
def portBytes (s : State) (n k : Nat) : Nat :=
  if k = 0 then fld s F.PORTCTR_TX_HI_count n * 2 ^ 48 + fld s F.PORTCTR_TX_LO_count n
  else fld s F.PORTCTR_RX_HI_count n * 2 ^ 48 + fld s F.PORTCTR_RX_LO_count n

/-- KiB of a window on one port, truncated and saturating; the counters wrap at 96 bits. -/
def windowKib (s : State) (n k : Nat) : Nat :=
  min ((portBytes s n k + 2 ^ 96 - SMap.get 0 s.counters.bytes (2 * n + k)) % 2 ^ 96 / 1024) 0xFFFFFFFF

/-- The end of a bandwidth window, where the coming boundary begins a multiple of its length (R422). -/
def bwWindowEnd (s : State) : State :=
  if comingBreath s % max s.counters.length 1 ≠ 0 then s
  else
    let s := iter 9 s (fun n t =>
      setFld F.PORTCTR_BW_tx_kib n (windowKib s n 0) (setFld F.PORTCTR_BW_rx_kib n (windowKib s n 1) t))
    let s := setFld F.CTR_WINDOW_dur_us 0 (min (s.us - s.counters.start) 0xFFFFFFFF) s
    let bytes := (List.range 18).foldl (fun m i => SMap.set 0 m i (portBytes s (i / 2) (i % 2))) []
    { s with counters := { s.counters with length := fld s F.CTR_WINDOW_breaths, bytes := bytes, start := s.us } }

/-- One counter of a pair's bank cleared; a chained one with its upper half (R420). -/
def clearCounter (p j : Nat) (s : State) : State :=
  if j ≥ 8 then setFld F.CTR_P_SLOT_k_count (4 * p + (j - 8)) 0 s
  else
    let s := setFld F.CTR_P_n_count (8 * p + j) 0 s
    if j % 2 = 0 && isTraffic (ctrSel s p j) then setFld F.CTR_P_n_count (8 * p + j + 1) 0 s else s

/-- CTR_P_CTRL.clear. -/
def counterClear (p mask : Nat) (s : State) : State := (setBitsOf 12 mask).foldl (fun t j => clearCounter p j t) s

/-- CTR_CMD.clear_all. The windows go on from the cleared counts. -/
def clearAll (s : State) : State :=
  let s := iter 64 s (fun p t =>
    let t := iter 8 t (fun j u => setFld F.CTR_P_n_count (8 * p + j) 0 u)
    setFld F.CTR_P_OVF_ovf p 0 (iter 4 t (fun k u => setFld F.CTR_P_SLOT_k_count (4 * p + k) 0 u)))
  let s := iter 9 s (fun n t =>
    setFld F.PORTCTR_TX_LO_count n 0 (setFld F.PORTCTR_TX_HI_count n 0 (setFld F.PORTCTR_RX_LO_count n 0
      (setFld F.PORTCTR_RX_HI_count n 0 (setFld F.PORTCTR_FWD_LO_count n 0 (setFld F.PORTCTR_FWD_HI_count n 0 t))))))
  { s with counters := { s.counters with bytes := [] } }

/-- The event codes of R418. -/
def eventDefined (c : Nat) : Bool := c ≤ 0x0F && c ≠ 0x02 || isTraffic c

/-- A write of CTR_P_SEL: a reserved code, or a traffic code on an odd counter, leaves its field (R418, R419). -/
def selWrite (p v : Nat) (s : State) : State :=
  (List.range 8).foldl (fun t j =>
    let c := bitsOf v (8 * j + 7) (8 * j)
    if c = ctrSel t p j then t
    else if eventDefined c && !(j % 2 = 1 && isTraffic c) then
      setFld F.CTR_P_SEL_event p (putBits (fld t F.CTR_P_SEL_event p) (8 * j + 7) (8 * j) c) t
    else ctrIgnored t) s

/-- A write of 64 bits through the user alias of a pair, at an offset of its bank (R424). -/
def userAliasWrite (p off v : Nat) (s : State) : State :=
  if !fldB s F.CTR_USER_en then s
  else if off = 0x60 then selWrite p v s
  else if off = 0x68 then counterClear p (bitsOf v 27 16) (setFld F.CTR_P_CTRL_en p (bitsOf v 11 0) s)
  else if off = 0x70 then
    setFld F.CTR_P_OVF_ovf p ((setBitsOf 12 v).foldl clearBitN (fld s F.CTR_P_OVF_ovf p)) s
  else s

end Sys2Proof.Machine
end

