-- ==== Sys2Proof/Machine/RegRead.lean ====
section
/-! DEFINITION. Reading the register space (R5, R6, R9, R206, R424, R447): which register lies at an offset, the fields that
show what the units hold now, and the areas that are not registers. -/

namespace Sys2Proof.Machine

/-! ## What a register shows -/

/-- Resets of a hive in the last 60 minutes (R376, R399). -/
def hourResets (s : State) (h : Nat) : Nat := ((hiveS s h).resets.filter (fun t => s.us < t + 3600000000)).length

/-- Hives that are neither IN_SERVICE nor DISABLED (R399). -/
def faultedMask (s : State) : Nat :=
  (List.range 4).foldl (fun w h =>
    if hiveState s h = hsInService || hiveState s h = hsDisabled then w else setBitN w h) 0

/-- The entries in a pair's reed queues, seven bits per reed (R149). -/
def queueOcc (x : PairS) : Nat :=
  (List.range 4).foldl (fun w r => w + (SMap.get [] x.queues r).length % 128 * 2 ^ (7 * r)) 0

/-- The biases of a word of ROUTE_BIAS as last written: those in the shadow over those in effect (R6, R233). -/
def biasWritten (s : State) (i : Nat) (w : Word) : Word :=
  let pick (e v : Nat) : Nat := ((s.biasShadow.find? (fun x => x.1 = e)).map (fun x => x.2)).getD v
  BitVec.ofNat 64 (pick (2 * i) (bitsOf w.toNat 31 0) + pick (2 * i + 1) (bitsOf w.toNat 63 32) * 2 ^ 32)

/-- A register as a read finds it: the word held, its live fields showing the units' state. -/
def readReg (r : Reg) (i : Nat) (s : State) : Word :=
  let w := reg s r i
  let x := pair s i
  match r with
  | .SEQ_STATUS => putField F.SEQ_STATUS_copies (min x.copies.length 15) (putField F.SEQ_STATUS_quiet (b2n (pairQuiet s i)) w)
  | .ARRAY_STATUS => putField F.ARRAY_STATUS_busy (b2n x.array.busy) w
  | .FORAGER_STATUS =>
    putField F.FORAGER_STATUS_ring_occ (min x.ring.length 0xFFFFF)
      (putField F.FORAGER_STATUS_walks_queued (min x.walks.length 4)
        (putField F.FORAGER_STATUS_list_busy (b2n (!x.lists.isEmpty))
          (putField F.FORAGER_STATUS_feed_busy (b2n (!x.walks.isEmpty)) (putField F.FORAGER_STATUS_queue_occ (queueOcc x) w))))
  | .RL_STATUS => putField F.RL_STATUS_faulted (faultedMask s) (putField F.RL_STATUS_fault_n (b2n (faultN s)) w)
  | .RL_HIVE_h => putField F.RL_HIVE_h_hour_resets (min (hourResets s i) 15) w
  | .MEM_CHAN_j => putField F.MEM_CHAN_j_poison_entries (min (dirEntries s (i / 8) (i % 8)) 65535) w
  | .PCC_PAIR_p => putField F.PCC_PAIR_p_f_eff (clockOf s i) w
  | .GEX_EXCLUDE => s.exclPending.getD w
  | .ROUTE_BIAS_i => biasWritten s i w
  | _ => w

/-! ## Where registers lie -/

/-- The register of a space at an offset of unit u; the later row of the table where two overlap. -/
def placeIn (sp : Space) (off u : Nat) : Option (Reg × Nat) :=
  (regPlaces.reverse.find? (fun r => r.space = sp && r.off ≤ off && off < r.off + 8 * r.count)).map
    (fun r => (r.reg, u * r.count + (off - r.off) / 8))

/-- The register at an offset of the register space, none where none is assigned (R447). -/
def regAt (off : Nat) : Option (Reg × Nat) :=
  if off ≥ 0x2000000 then none
  else if off ≥ 0x1000000 then
    let h := (off - 0x1000000) / 0x400000
    let o := (off - 0x1000000) % 0x400000
    if o < 0x200000 then placeIn .pair (o % 0x20000) (16 * h + o / 0x20000) else placeIn .hive o h
  else if 0x31000 ≤ off && off < 0x31900 then placeIn .port (off % 0x100) ((off - 0x31000) / 0x100)
  else if 0x61000 ≤ off && off < 0x61900 then placeIn .ctrPort (off % 0x100) ((off - 0x61000) / 0x100)
  else if 0x68000 ≤ off && off < 0x6C000 then placeIn .ctrPair (off % 0x100) ((off - 0x68000) / 0x100)
  else placeIn .device off 0

/-- A byte of the error log: entry i at 64i (R383). -/
def logByte (s : State) (o : Nat) : Nat :=
  match s.log.find? (fun e => e.1 = o / 64) with
  | some e => nth 0 e.2.bytes (o % 64)
  | none => 0

/-- Driore does not run: before it starts, in RECOVERY, in a reset (R337). -/
def drioreDown (s : State) : Bool :=
  !s.inService || fld s F.BOOT_STATUS_state = 0 || fld s F.BOOT_STATUS_state = 3 || s.mp.down || s.mpHeldReset

/-- The mailbox status word (R337). -/
def mboxStatus (s : State) : Nat :=
  s.host.accepted % 65536 + s.host.completed % 65536 * 65536 + b2n s.host.busy * 2 ^ 32 + b2n (drioreDown s) * 2 ^ 33

/-- A byte of the mailbox at its relative offset (R337). -/
def mboxByte (s : State) (o : Nat) : Nat :=
  if o < 0x1000 then SMap.get 0 s.host.cmd o
  else if o < 0x2000 then SMap.get 0 s.host.rsp (o - 0x1000)
  else if 0x2008 ≤ o && o < 0x2010 then mboxStatus s / 256 ^ (o - 0x2008) % 256
  else 0

/-- The 64-bit word at an aligned offset of the register space (R9, R383, R415, R424). -/
def regWord (s : State) (off : Nat) : Nat :=
  if 0x41000 ≤ off && off < 0x43010 then leNat ((List.range 8).map (fun i => mboxByte s (off - 0x41000 + i)))
  else if 0x58000 ≤ off && off < 0x60000 then leNat ((List.range 8).map (fun i => logByte s (off - 0x58000 + i)))
  else if 0x6C000 ≤ off && off < 0x70000 then
    if fldB s F.CTR_USER_en then
      match regAt (off - 0x4000) with
      | some (r, i) => (readReg r i s).toNat
      | none => 0
    else 0
  else
    match regAt off with
    | some (r, i) => (readReg r i s).toNat
    | none => 0

/-! ## Accesses (R5, R450) -/

/-- Requesters of R450's data, and what they log. -/
abbrev rqHost : Nat := 0
abbrev rqDriore : Nat := 1
abbrev rqJtag : Nat := 2
abbrev rqI3c : Nat := 3

/-- The data of an access fault or an unmapped access (R450). -/
def accessData (size requester : Nat) (write : Bool) : Nat := size % 16 + b2n write * 16 + requester % 4 * 256

/-- The host behind another part's queen: its device is carried above the two bits that name the requester. -/
def hostOf (dev : Nat) : Nat := rqHost + 4 * (dev + 1)

/-- The device ID an access is logged against. -/
def requesterDev (s : State) (requester : Nat) : Nat := if requester < 4 then deviceId s else requester / 4 - 1

/-- An access of the wrong size or alignment, or a write refused through I3C: logged with its offset (R5, R450). -/
def accessFault (off size requester : Nat) (write : Bool) (s : State) : State :=
  logEvent { block := 0x0C, item := 0x41, severity := 0, requester := requesterDev s requester, addr := off
             data := accessData size requester write } s

/-- An unmapped access by the host, Driore or JTAG (R206); a read of one counts each sector that it answers with poison (R221). -/
def unmappedAccess (a size requester : Nat) (write : Bool) (s : State) : State :=
  logEvent { block := 0x0C, item := 0x42, severity := 0, requester := requesterDev s requester, addr := a, data := accessData size requester write }
    (if write then s else satAddFld F.MEM_POISON_REC_offline 0 (sectorsOf a size).length s)

/-! ## The memory path (R206, R211) -/

/-- The address is of far memory, near memory or a comb. -/
def isMemory (a : Nat) : Bool :=
  match tierOf a with
  | .far _ | .near _ | .comb _ => true
  | _ => false

/-- A read of a comb word, or a near or far sector (R211, R218–R223). A path of memory finds nothing elsewhere (R206). -/
def memoryRead (a requester : Nat) (e : MemErr) (s : State) : State :=
  if !isMemory a then unmappedAccess a 64 (hostOf requester) false s
  else if offline s a then noteOffline a requester true s
  else readMeets a requester e s

/-- A write of n bytes at an address reads what it merges with: a comb merges within an 8-byte lane alone, near and far memory
within the sector (R211). -/
def merges (a n : Nat) : Bool :=
  match tierOf a with
  | .comb _ => a % 8 ≠ 0 || n % 8 ≠ 0
  | _ => n ≠ 64

/-- A write of bytes within one sector: a partial one merges with a read, which meets what it meets; a far write that its
devices still reject after four retries leaves the sector in the directory (R211, R218, R219). -/
def memoryWrite (a requester : Nat) (bs : List Nat) (bad : Bool) (e : MemErr) (s : State) : State :=
  let bs := bs.take (64 - a % 64)
  if !isMemory a then unmappedAccess a bs.length (hostOf requester) true s
  else if offline s a then noteOffline a requester false s
  else
    match e, tierOf a with
    | .retried n, .far _ =>
      if n ≤ 4 then memWrite a bs bad (noteRetries a n s)
      else
        let s := noteRetries a 4 s
        noteFailed a (if marked s (a / 64) then s else noteUncorrectable a requester (poisonSector a s))
    | .zeroMap _, _ | .alwaysOn _, _ => memWrite a bs bad (readMeets a requester e s)
    | .none, _ => memWrite a bs bad s
    | _, _ =>
      if merges a bs.length then memWrite a bs bad (readMeets a requester e (fillGranule a s)) else memWrite a bs bad s

/-- The part accepts the size and alignment (R5). -/
def accessOk (off size : Nat) : Bool := (size = 8 && off % 8 = 0) || (size = 4 && off % 4 = 0)

/-- A read of the register space: its value, and the state after it. -/
def regRead (off size requester : Nat) (s : State) : Nat × State :=
  if off ≥ 0x2000000 then (0, unmappedAccess (regBase + off) size requester false s)
  else if !accessOk off size then (0, accessFault off size requester false s)
  else if size = 8 then (regWord s off, s)
  else (regWord s (off / 8 * 8) / 2 ^ (32 * (off / 4 % 2)) % 2 ^ 32, s)

end Sys2Proof.Machine
end

