-- ==== Sys2Proof/Machine/Relia.lean ====
section
/-! DEFINITION. Hive faults and their sequence, crash dumps, watchdogs, the management processor (R369–R385, R398). -/

namespace Sys2Proof.Machine

/-! ## A fault takes effect (R370, R372, R373) -/

/-- The first byte of a dump slot, and its bytes (R373). -/
def slotBase (g : Nat) : Nat := g * hiveBytes + 0x1FE0000000
abbrev slotSize : Nat := 0x20000000

/-- The hive's memory serves. -/
def hiveServes (s : State) (h : Nat) : Bool := hiveState s h = hsInService || hiveState s h = hsDisabled

/-- A slot that a dump may use: no channel of its hive failed, and it is free. -/
def slotUsable (s : State) (g : Nat) : Bool :=
  fld s F.MEM_STATUS_chan_failed g = 0 && !fldB s F.RL_DUMP_SLOT_g_occupied g

/-- The destination of hive h's dump (R373). -/
def dumpDest (s : State) (h : Nat) : Option Nat :=
  match [(h + 1) % 4, (h + 2) % 4, (h + 3) % 4].find? (fun g => hiveServes s g && slotUsable s g) with
  | some g => some g
  | none => if slotUsable s h then some h else none

/-- The pairs of a hive. -/
def pairsOf (h : Nat) : List Nat := (List.range 16).map (fun i => 16 * h + i)

/-- A hive leaves service: its RUNNING pairs enter FAULTED with their state kept. -/
def leaveService (h : Nat) (s : State) : State :=
  clockStatus ((pairsOf h).foldl (fun t p =>
    if seqState t p = sqRunning then setFld F.SEQ_STATUS_state p sqFaulted (modPair p PairS.faulted t) else t)
    (setFld F.RL_HIVE_h_state h hsQuiesce (modHive h (fun x => { x with on := hiveState s h = hsInService }) s)))

/-- The log entry of one cause. -/
def logCause (f : PendingFault) (s : State) : State :=
  logNew { block := 0x0C, item := 0, severity := 3, hive := f.hive, pair := f.pair, data := f.cause } s

/-- The entry that the next logged occurrence will write. -/
def lastEntry (s : State) (k : Nat) : LogEntry := SMap.get {} s.log k

/-- The destination of a dump is taken, or found missing (R373). -/
def chooseSlot (h : Nat) (wanted : Bool) (s : State) : State :=
  if !wanted then modHive h (fun x => { x with dumpTo := none }) s
  else
    match dumpDest s h with
    | some g =>
      let s := setFld F.RL_DUMP_SLOT_g_occupied g 1 (setFld F.RL_DUMP_SLOT_g_source g h s)
      let s := setFld F.RL_DUMP_SLOT_g_status g 0 (setFld F.RL_DUMP_SLOT_g_size_4k g 0 s)
      modHive h (fun x => { x with dumpTo := some g }) s
    | none =>
      let s := logEvent { block := 0x0C, item := 3, severity := openSeverity 0x0C 3, hive := h } (raise F.RL_EVENTS_dump_no_dest 0 s)
      modHive h (fun x => { x with dumpTo := none }) s

/-- The causes of one hive take effect together: the lowest code is recorded, each has its own entry. -/
def takeFault (breath tick h : Nat) (fs : List PendingFault) (s : State) : State :=
  match fs with
  | [] => s
  | f0 :: rest =>
    let f := rest.foldl (fun m x => if x.cause < m.cause then x else m) f0
    let k := fld s F.RL_LOG_PTR_ring_next
    let s := logCause f s
    let e := lastEntry s k
    let s := (fs.erase f).foldl (fun t x => logCause x t) s
    let s := setFld F.RL_HIVE_h_cause h f.cause (setFld F.RL_HIVE_h_fault_breath h breath s)
    let skip := (hiveS s h).skipDump && fs.all (fun x => x.cause = 0x0B)
    let s := modHive h (fun x =>
      { resets := x.resets, enable := x.enable, on := x.on, pair := f.pair, entry := e
        breath := breath, tick := tick, since := s.us }) s
    let s := chooseSlot h (fldB s F.RL_CTRL_dump_en && !skip) s
    sendEvent 0x0C 0 f.pair f.cause (raise F.RL_EVENTS_hive_fault 0 s)

/-- Every escalated fault takes effect, at a tick of this number that begins this breath. -/
def faultsTake (breath tick : Nat) (s : State) : State :=
  let fs := s.pendingFaults
  let s := { s with pendingFaults := [] }
  let s := (fs.filter (fun f => !hiveServes s f.hive)).foldl (fun t f => logCause f t) s
  let hs := (List.range 4).filter (fun h => hiveServes s h && fs.any (fun f => f.hive = h))
  withFault (fun s =>
    hs.foldl (fun t h => takeFault breath tick h (fs.filter (fun f => f.hive = h)) t) (hs.foldl (fun t h => leaveService h t) s)) s

/-- The number of the next local tick. -/
def comingTick (s : State) : Nat :=
  match s.breath.due with
  | t :: _ => t.number
  | [] => tickNumber s + 1

/-- Step 1 of the coming boundary tick: one comes only while the breath unit is RUNNING. -/
def hiveFault (s : State) : State :=
  if breathState s = bsRunning then faultsTake (comingBreath s) (comingTick s) s else s

/-! ## The dump's records (R378, R380, R381) -/

/-- A record of a dump: kind, pair or 0xFF, source, bytes requested. -/
structure DumpRec where
  kind : Nat
  pair : Nat := 255
  src : Nat
  len : Nat
  deriving DecidableEq, Repr

/-- A place put in ascending order of offset. -/
def insertPlace (r : RegPlace) : List RegPlace → List RegPlace
  | [] => [r]
  | x :: xs => if r.off < x.off then r :: x :: xs else x :: insertPlace r xs

/-- The register places of a space in ascending offset. -/
def spaceRegs (sp : Space) : List RegPlace :=
  (regPlaces.filter (fun r => r.space = sp)).foldl (fun l r => insertPlace r l) []

/-- The registers of unit u of a space. -/
def unitRegs (sp : Space) (u : Nat) : List (Reg × Nat) :=
  (spaceRegs sp).flatMap (fun r => (List.range r.count).map (fun i => (r.reg, u * r.count + i)))

/-- The registers of a hive's first record: its window outside the pair windows, then those indexed by it or its pairs. -/
def hiveRecRegs (h : Nat) : List (Reg × Nat) :=
  unitRegs .hive h ++ [(.RL_HIVE_h, h)]
    ++ (pairsOf h).flatMap (fun p => [(.PCC_PAIR_p, p), (.RL_PAIR_p, p)] ++ unitRegs .ctrPair p)

/-- The offset of the first register of a unit of a space. -/
def firstOff (sp : Space) : Nat :=
  match spaceRegs sp with
  | r :: _ => r.off
  | [] => 0

/-- The records of a hive's dump, in order. -/
def dumpPlan (s : State) (h : Nat) : List DumpRec :=
  let win := 0x1000000 + 0x400000 * h
  let ranges := (List.range 8).filterMap (fun i =>
    let base := fld s F.RL_DUMP_RANGE_i_base i * 65536
    let size := fld s F.RL_DUMP_RANGE_i_size i * 65536
    let inside := size ≠ 0 && (match tierOf base, tierOf (base + size - 1) with
      | .far a, .far b => a = h && b = h
      | .near a, .near b => a = h && b = h
      | _, _ => false)
    if fldB s F.RL_DUMP_RANGE_i_valid i && inside then some ({ kind := 7, src := base, len := size } : DumpRec) else none)
  [{ kind := 1, src := win + firstOff .hive, len := 8 * (hiveRecRegs h).length }]
    ++ (pairsOf h).map (fun p => { kind := 2, pair := p, src := win + 0x20000 * (p % 16) + firstOff .pair, len := 8 * (unitRegs .pair p).length })
    ++ (pairsOf h).flatMap (fun p =>
        [{ kind := 3, pair := p, src := 0, len := 524288 }, { kind := 4, pair := p, src := 0, len := 131072 }, { kind := 5, pair := p, src := 0, len := 133120 }])
    ++ (pairsOf h).map (fun p => { kind := 6, pair := p, src := combAddr p 0, len := combBytes })
    ++ ranges

/-- What a record holds: its bytes that are not 0, by offset, and the 64-byte groups that carry poison. -/
structure DumpData where
  bytes : List (Nat × Nat) := []
  bad : List Nat := []
  deriving DecidableEq, Repr

/-- Bytes from an offset up. -/
def placed (off : Nat) (bs : List Nat) : List (Nat × Nat) := (List.range bs.length).map (fun i => (off + i, nth 0 bs i))

def dumpRegs (rs : List (Reg × Nat)) (s : State) : DumpData :=
  { bytes := placed 0 (rs.flatMap (fun r => natLe 8 (readReg r.1 r.2 s).toNat)) }

/-- The accumulators of a pair, B0 to B3, each row by row. -/
def dumpAcc (p : Nat) (s : State) : DumpData :=
  let a := (pair s p).array
  let rows := a.rowBad.map (fun e => ((e.1 / 512 / 4 * 512 + e.1 % 512) * 64 + e.1 / 512 % 4 * 16) * 4)
  let cols := a.colBad.flatMap (fun e =>
    (List.range 512).map (fun i => ((e.1 / 16 / 4 * 512 + i) * 64 + e.1 / 16 % 4 * 16) * 4))
  { bytes := a.acc.flatMap (fun e => placed (4 * e.1) (natLe 4 e.2)), bad := rows ++ cols }

/-- The staging buffers of a pair: the spec gives their bytes no layout. -/
def dumpStaging (p : Nat) (s : State) : DumpData :=
  let bad := (pair s p).array.tiles.any (fun t => t.2.valid && !t.2.bad.isEmpty)
  { bytes := (List.range 131072).map (fun i => (i, Config.stagingByte (s.freshCount + p) i % 256))
    bad := if bad then (List.range 2048).map (fun i => 64 * i) else [] }

/-- The reed queues of a pair, 520 bytes an entry, reed 0 first. -/
def dumpQueues (p : Nat) (s : State) : DumpData :=
  let es := (List.range 4).flatMap (fun r =>
    let q := (SMap.get [] (pair s p).queues r).take 64
    (List.range q.length).map (fun i => (520 * (64 * r + i), nth {} q i)))
  { bytes := es.flatMap (fun e => placed e.1 (natLe 8 e.2.header ++ e.2.block))
    bad := (es.filter (fun e => e.2.poison)).flatMap (fun e => (List.range 9).map (fun i => e.1 + 64 * i)) }

/-- A memory range. -/
def dumpMem (src len : Nat) (s : State) : DumpData :=
  { bytes := (s.mem.filter (fun e => src ≤ e.1 && e.1 < src + len)).map (fun e => (e.1 - src, e.2.toNat))
    bad := (s.poison.filter (fun e => src ≤ e.1 * 64 && e.1 * 64 < src + len)).map (fun e => e.1 * 64 - src) }

/-- The data of a record. -/
def DumpRec.data (r : DumpRec) (h : Nat) (s : State) : DumpData :=
  match r.kind with
  | 1 => dumpRegs (hiveRecRegs h) s
  | 2 => dumpRegs (unitRegs .pair r.pair) s
  | 3 => dumpAcc r.pair s
  | 4 => dumpStaging r.pair s
  | 5 => dumpQueues r.pair s
  | _ => dumpMem r.src r.len s

/-- The bytes of a range before its first failed channel; the interleave repeats every 16 KiB (R208). -/
def readable (r : DumpRec) (s : State) : Nat :=
  match tierOf r.src with
  | .far _ =>
    if r.kind ≠ 7 then r.len
    else
      match (List.range (min (r.len / 2048) 1024)).find? (fun i => channelFailed s (r.src + 2048 * i)) with
      | some i => 2048 * i
      | none => r.len
  | _ => r.len

/-- The header of a record. -/
def recHeader (kind p code src req got : Nat) : List Nat :=
  natLe 8 (kind + p * 2 ^ 8 + code * 2 ^ 16) ++ natLe 8 (src % 2 ^ 44) ++ natLe 8 req ++ natLe 8 got

/-- A dump as far as it is laid out: its length, its records, a TIMEOUT or OFFLINE among them, stopped, its bytes and poison. -/
structure DumpOut where
  pos : Nat := 256
  recs : Nat := 0
  marker : Bool := false
  stopped : Bool := false
  cells : List (Nat × Nat) := []
  bad : List Nat := []
  deriving DecidableEq, Repr

/-- One more record, cut where a read timed out or a channel had failed, stopped at the budget or the slot's end. -/
def dumpStep (h : Nat) (x : HiveS) (s : State) (o : DumpOut) (r : DumpRec) : DumpOut :=
  if o.stopped then o
  else if slotSize < o.pos + 64 then { o with stopped := true }
  else
    let (n, code) :=
      match x.cuts.find? (fun c => c.1 = o.recs) with
      | some c => (min c.2 r.len, 1)
      | none => if readable r s < r.len then (readable r s, 2) else (r.len, 0)
    let room := (slotSize - 64 - o.pos) / 64 * 64
    let (n, stop) :=
      match x.stopped with
      | some (k, m) => if k = o.recs then (min (min n m) room, true) else (min n room, decide (room < n))
      | none => (min n room, decide (room < n))
    let d := r.data h s
    let at_ := o.pos + 32
    { pos := at_ + (n + 63) / 64 * 64, recs := o.recs + 1, marker := o.marker || code ≠ 0, stopped := stop
      cells := o.cells ++ placed o.pos (recHeader r.kind r.pair code r.src r.len n)
        ++ (d.bytes.filter (fun e => e.1 < n)).map (fun e => (at_ + e.1, e.2))
      bad := o.bad ++ (d.bad.filter (fun b => b < n)).map (fun b => at_ + b) }

/-- The whole dump; a stopped one ends with its TRUNCATED record. -/
def dumpLayout (h : Nat) (s : State) : DumpOut :=
  let x := hiveS s h
  let o := (dumpPlan s h).foldl (dumpStep h x s) {}
  if o.stopped then
    { o with pos := o.pos + 32, recs := o.recs + 1, cells := o.cells ++ placed o.pos (recHeader 7 255 3 0 0 0) }
  else o

/-- The header of a dump (R379). -/
def dumpHeader (h g status bytes recs : Nat) (s : State) : List Nat :=
  let x := hiveS s h
  let b := natLe 4 0x504D5544 ++ natLe 4 (1 + h * 2 ^ 16 + g * 2 ^ 18 + status * 2 ^ 20) ++ natLe 8 (fld s F.BOOT_SERIAL_serial)
    ++ natLe 8 (deviceId s + fld s F.GROUP_CFG_group_id * 65536) ++ natLe 8 (x.breath % 2 ^ 48) ++ natLe 8 (x.tick % 2 ^ 48)
    ++ natLe 8 (fld s F.RL_HIVE_h_cause h + x.pair % 256 * 256) ++ natLe 8 bytes ++ natLe 8 recs ++ x.entry.bytes
    ++ [(Reg.BREATH_STATUS, 0), (.BREATH_SCHED, 0), (.PCC_STATUS, 0), (.RL_STATUS, 0), (.MEM_STATUS, h)].flatMap
        (fun r => natLe 8 (readReg r.1 r.2 s).toNat)
    ++ List.replicate 84 0
  b ++ natLe 4 (crc32 b)

/-- A write of hive h's dump into the slot of hive g is dropped: that hive is under reset (R227), or the channel has failed
(R222). The dump engine alone reaches its own hive's memory (R372). -/
def slotLost (s : State) (h g a : Nat) : Bool := channelFailed s a || (g ≠ h && underReset s g)

/-- Bytes and poison written by hive h's dump into the slot of hive g from its base up, over everything its first n bytes held.
A sector for whose mark the directory has no room keeps what it held (R219). A dump written to a hive under reset is dropped,
and recorded once for the whole of it (DESIGN CHOICE, log 113). -/
def slotWrite (h g n : Nat) (cells : List (Nat × Nat)) (bad : List Nat) (s : State) : State :=
  let base := slotBase g
  let s := if g ≠ h && underReset s g then noteOffline base (deviceId s) false s else s
  let secs := (bad.flatMap (fun b => [(base + b) / 64, (base + b + 63) / 64])).eraseDups.filter (fun x => !slotLost s h g (x * 64))
  let inside (a : Nat) : Bool := base ≤ a && a < base + (n + 63) / 64 * 64 && !slotLost s h g a
  let s := { s with poison := SMap.dropKeys s.poison (fun x => inside (x * 64)) }
  let s := secs.foldl (fun t x => poisonSector (x * 64) t) s
  let lost (a : Nat) : Bool := secs.contains (a / 64) && !marked s (a / 64)
  let s := { s with mem := SMap.dropKeys s.mem (fun a => inside a && !lost a) }
  let s := (cells.filter (fun c => !lost (base + c.1) && !slotLost s h g (base + c.1))).foldl (fun t c => pokeByte (base + c.1) c.2 t) s
  iter ((n + 2047) / 2048) s (fun i t => if slotLost t h g (base + 2048 * i) then t else fillGranule (base + 2048 * i) t)

/-- The header alone, written over the one there. -/
def writeHeader (h g status bytes recs : Nat) (s : State) : State :=
  let base := slotBase g
  let hdr := dumpHeader h g status bytes recs s
  (List.range 256).foldl (fun t i => if slotLost t h g (base + i) then t else pokeByte (base + i) (nth 0 hdr i) t) s

/-- The records of the dump of a hive, and its header with the status it ends with. -/
def writeDump (h : Nat) (s : State) : State :=
  match (hiveS s h).dumpTo with
  | none => s
  | some g =>
    let o := dumpLayout h s
    let st := if o.stopped then 3 else if o.marker then 2 else 1
    let hdr := dumpHeader h g st o.pos o.recs s
    let s := slotWrite h g o.pos (placed 0 hdr ++ o.cells) o.bad { s with freshCount := s.freshCount + 64 }
    let s := setFld F.RL_DUMP_SLOT_g_status g st (setFld F.RL_DUMP_SLOT_g_size_4k g ((o.pos + 4095) / 4096) s)
    modHive h (fun x => { x with records := o.recs, bytes := o.pos, marker := o.marker }) s

/-! ## The phases (R374, R376, R398) -/

/-- A dump of this hive is in progress. -/
def dumping (s : State) (h : Nat) : Bool :=
  hiveState s h = hsDump && !(hiveS s h).waitReset && !(hiveS s h).aborted

/-- A dump is in progress or waits whose slot lies in hive g. -/
def dumpComing (s : State) (g : Nat) : Bool :=
  (List.range 4).any (fun x => x ≠ g && (hiveS s x).dumpTo = some g && (dumping s x || hiveState s x = hsQuiesce))

/-- A hive's requests of other parts and its NORM64 reports are waited for no longer. -/
def dropOutstanding (h : Nat) (s : State) : State :=
  { s with
    requests := s.requests.filter (fun r => r.kind = 5 || hiveOf r.pair ≠ h)
    norms := s.norms.map (fun n => { n with outs := n.outs.filter (fun x => hiveOf x.1 ≠ h) }) }

/-- The RESET phase begins (R374, R376). -/
def enterReset (h : Nat) (s : State) : State :=
  let failed := fld s F.MEM_STATUS_chan_failed h
  let s := resetUnits h s
  let s := setFld F.MEM_STATUS_chan_failed h failed (setFld F.MEM_STATUS_self_refresh h 1 s)
  let s := { s with
    pendingFaults := s.pendingFaults.filter (fun f => f.hive ≠ h) }
  let s := dropOutstanding h s
  let s := satAddFld F.RL_HIVE_h_resets h 1 (setFld F.RL_HIVE_h_state h hsReset s)
  let times := s.us :: (hiveS s h).resets.filter (fun t => s.us < t + 3600000000)
  modHive h (fun x => { resets := times, enable := x.enable, on := x.on, resetAt := s.us
                        storm := decide (times.length > fld s F.RL_CTRL_storm_limit) }) s

/-- The dump phase is over, or there was none: FAULT_HOLD, or RESET once no dump comes into the hive's own slot. -/
def afterDump (h : Nat) (s : State) : State :=
  if !bitAt (fld s F.RL_CTRL_auto_reset) h then setFld F.RL_HIVE_h_state h hsFaultHold s
  else if dumpComing s h then modHive h (fun x => { x with waitReset := true }) s
  else enterReset h s

/-- A dump begins: the header goes first, with status 0. -/
def startDump (h g : Nat) (s : State) : State :=
  let s := setFld F.RL_HIVE_h_state h hsDump (modHive h (fun x => { x with dumpAt := s.us }) s)
  writeHeader h g 0 256 0 (slotWrite h g 256 [] [] s)

/-- A hive whose quiesce has ended goes on, if the engine is free and Driore runs. Where dump_en has been cleared since T
there is no dump, and its slot is free again (DESIGN CHOICE, log 115). -/
def nextPhase (s : State) (h : Nat) : State :=
  let x := hiveS s h
  if !(hiveState s h = hsQuiesce && x.quiesced && !x.waitReset) then s
  else
    match x.dumpTo with
    | none => afterDump h s
    | some g =>
      if !fldB s F.RL_CTRL_dump_en then
        afterDump h (setFld F.RL_DUMP_SLOT_g_occupied g 0 (modHive h (fun x => { x with dumpTo := none }) s))
      else if drioreDown s || s.thermTrip || (List.range 4).any (dumping s) then s else startDump h g s

/-- A hive that waited for the dump into its slot. -/
def lateReset (s : State) (h : Nat) : State :=
  if (hiveS s h).waitReset && !dumpComing s h then enterReset h s else s

/-- Dumps go one at a time in ascending h. -/
def dumpsGoOn (s : State) : State := (List.range 4).foldl nextPhase ((List.range 4).foldl lateReset s)

/-- What is abandoned at the end of the quiesce (R374). -/
def PairS.abandoned (x : PairS) : PairS :=
  { x with
    copies := [], vec := [], lists := [], walks := [], walk := {}, colls := [], posts := [], sends := [], a2a := []
    batches := [], rings := [], perms := [], digs := [], blocked := .none
    array := { x.array with queue := [], drains := [] } }

/-- Two ms after T: the hive's operations still outstanding are abandoned (R374). -/
def quiesceEnd (h : Nat) (s : State) : State :=
  if hiveState s h = hsQuiesce && !(hiveS s h).quiesced && (hiveS s h).since + 2000 ≤ s.us then
    let s := dropOutstanding h ((pairsOf h).foldl (fun t p => modPair p PairS.abandoned t) s)
    dumpsGoOn (modHive h (fun x => { x with quiesced := true }) s)
  else s

/-- Record k's read exceeded 10 µs after n bytes. -/
def dumpReadTimeout (h k n : Nat) (s : State) : State :=
  if dumping s h && (hiveS s h).records = 0 then modHive h (fun x => { x with cuts := SMap.insert x.cuts k n }) s else s

/-- The budget has elapsed with record k at its byte n, or the slot has no room left: the records reached are written, then the
TRUNCATED one. -/
def dumpBudgetExpire (h k n : Nat) (s : State) : State :=
  if !dumping s h || (hiveS s h).records ≠ 0 then s
  else if (hiveS s h).dumpAt + 1000 * fld s F.RL_DUMP_CFG_budget_ms ≤ s.us then
    writeDump h (modHive h (fun x => { x with stopped := some (k, n) }) s)
  else if (dumpLayout h s).stopped then writeDump h s
  else s

/-- A dump has ended: the hive goes on, and the next dump begins. -/
def dumpEnded (h : Nat) (s : State) : State :=
  let s := raise F.RL_EVENTS_dump_done 0 (modHive h (fun x => { x with aborted := false }) s)
  dumpsGoOn (afterDump h s)

/-- The dump of a hive ends complete, or ends where it was stopped. -/
def dumpComplete (h : Nat) (s : State) : State :=
  if !dumping s h then s
  else
    let s := if (hiveS s h).records = 0 then writeDump h s else s
    dumpEnded h (if (hiveS s h).marker then raise F.RL_EVENTS_dump_marker 0 s else s)

/-- A dump is cut off with status 4. -/
def abortDump (h : Nat) (s : State) : State :=
  match (hiveS s h).dumpTo with
  | some g =>
    if !dumping s h then s
    else
      let s := setFld F.RL_DUMP_SLOT_g_status g 4 (writeHeader h g 4 (max (hiveS s h).bytes 256) (hiveS s h).records s)
      modHive h (fun x => { x with aborted := true }) s
  | none => s

def abortDumps (s : State) : State := (List.range 4).foldl (fun t h => abortDump h t) s

/-- A sample of the sensors; a thermal trip stops a dump in progress (R398). -/
def sensorsSampled (vals : List (Option Nat)) (s : State) : State :=
  let t := sensorSample vals s
  if t.thermTrip && !s.thermTrip then abortDumps t else t

/-- Memory and units as the release of a hive reset leaves them: the saved training values are restored, and each channel
that has not failed retrains briefly (R76, R148, R222, R225). -/
def releaseHive (h : Nat) (s : State) : State :=
  let s := clearCombs h (clearTiers h true s)
  let s := setFld F.MEM_STATUS_self_refresh h 0 (setFld F.MEM_STATUS_near_ready h 1 (setFld F.MEM_STATUS_far_ready h 1 s))
  let failed := fld s F.MEM_STATUS_chan_failed h
  let s := (channelsOf h).foldl (fun t c => modChan c (fun x => { x with track := x.saved }) t) s
  let s := setFld F.MEM_STATUS_chan_retraining h (255 - failed) s
  setFld F.RL_HIVE_h_state h hsReset (modHive h (fun x => { x with released := true, training := failed }) s)

/-- One ms after the assertion: release, or HELD under the storm limit (R376). -/
def hiveRelease (h : Nat) (s : State) : State :=
  let x := hiveS s h
  if !(hiveState s h = hsReset && s.inService && !x.released && fldB s F.MEM_STATUS_self_refresh h && x.resetAt + 1000 ≤ s.us) then s
  else if x.storm then
    raise F.RL_EVENTS_hive_held 0 (setFld F.RL_HIVE_h_state h hsHeld (modHive h (fun x => { x with storm := false }) s))
  else releaseHive h s

/-- The hive is READY: in service, or DISABLED if it was (R374). -/
def hiveReady (h : Nat) (s : State) : State :=
  if !(hiveState s h = hsReset && (hiveS s h).released && (hiveS s h).training = 0) then s
  else
    let on := (hiveS s h).on
    let s := (channelsOf h).foldl (fun t c => retrainEnds c t) s
    let s := setFld F.RL_HIVE_h_state h (if on then hsInService else hsDisabled)
      (modHive h (fun x => { resets := x.resets, enable := x.enable }) s)
    let s := { s with pendingFaults := s.pendingFaults.filter (fun f => f.hive ≠ h) }
    sendEvent 0x0C 0x40 255 h (if on then rampStart h s else s)

/-- HIVE_RESET's effect and the status it answers (R377). While the breath unit is not RUNNING the command alone takes effect at
once; faults that wait for a boundary tick go on waiting (R372). -/
def hiveResetCmd (h : Nat) (dump release : Bool) (s : State) : Nat × State :=
  let st := hiveState s h
  if st = hsInService then
    let x := hiveS s h
    let had := s.pendingFaults.any (fun f => f.hive = h && f.cause = 0x0B)
    let waiting := s.pendingFaults
    let s := modHive h (fun x' => { x' with skipDump := !dump && (!had || x.skipDump) }) s
    if breathState s = bsRunning then
      (0, { s with pendingFaults := waiting ++ [{ hive := h, cause := 0x0B, pair := 255 }] })
    else
      let t := faultsTake (schedBreath s) (tickNumber s)
        { s with pendingFaults := [{ hive := h, cause := 0x0B, pair := 255 }] }
      (0, { t with pendingFaults := waiting ++ t.pendingFaults })
  else if st = hsFaultHold then
    (0, if dumpComing s h then modHive h (fun x => { x with waitReset := true }) s else enterReset h s)
  else if st = hsHeld && release then
    (0, releaseHive h (modHive h (fun x => { x with resets := [] }) s))
  else (4, s)

/-- RL_DUMP_SLOT_g.release. -/
def dumpSlotRelease (g : Nat) (s : State) : State := setFld F.RL_DUMP_SLOT_g_occupied g 0 s

/-! ## Watchdogs and the management processor (R384, R385) -/

/-- The pair has work that its watchdog times. -/
def watched (s : State) (p : Nat) : Bool :=
  let x := pair s p
  hiveState s (hiveOf p) = hsInService && breathState s ≠ bsTickLost && seqState s p ≠ sqIdle && seqState s p ≠ sqPaused
    && (x.inSlice || !x.copies.isEmpty || !x.vec.isEmpty || !x.lists.isEmpty || !x.array.drains.isEmpty)

/-- The watchdog of a pair has expired. -/
def watchdogExpire (p : Nat) (s : State) : State :=
  if watched s p then
    let s := raise F.RL_EVENTS_watchdog 0 s
    let s := logEvent { block := 0x0C, item := 5, severity := openSeverity 0x0C 5, hive := hiveOf p, pair := p, data := seqPc s p } s
    escalate (hiveOf p) 0x0A p s
  else s

def modMp (f : MpS → MpS) (s : State) : State := { s with mp := f s.mp }

/-- The management processor is held in reset until a full device reset. -/
def mpHold (s : State) : State :=
  withFault (fun s => deviceFault 3 (setFld F.RL_STATUS_mp_held 0 1 { s with mpHeldReset := true })) s

/-- The management processor alone is reset: a dump in progress stops; a fourth reset within 60 minutes holds it. -/
def mpReset (s : State) : State :=
  if drioreDown s then s
  else
    let times := s.us :: s.mp.resets.filter (fun t => s.us < t + 3600000000)
    let s := raise F.RL_EVENTS_mp_reset 0 (satAddFld F.RL_STATUS_mp_resets 0 1 s)
    let s := abortDumps (modMp (fun m => { m with down := true, resets := times }) s)
    if times.length ≥ 4 then mpHold s else s

def heartbeat (s : State) : State := if drioreDown s then s else modMp (fun m => { m with beat := s.us }) s

def heartbeatTimeout (s : State) : State :=
  if s.mp.beat + 1000 * fld s F.RL_CTRL_hb_timeout_ms ≤ s.us then mpReset s else s

def lockstepMismatch (s : State) : State := mpReset s

/-- Hives whose dump a reset of the management processor cut off go on. -/
def resumeDumps (s : State) : State :=
  dumpsGoOn ((List.range 4).foldl (fun t h => if (hiveS t h).aborted && !t.thermTrip then dumpEnded h t else t) s)

/-- Driore is running again if its copy hashes to the boot measurement; else the management processor is held. -/
def mpRestarted (hashOk : Bool) (s : State) : State :=
  if !s.mp.down || s.mpHeldReset then s
  else if hashOk then resumeDumps (modMp (fun m => { m with down := false, beat := s.us }) s)
  else mpHold s

end Sys2Proof.Machine
end

