-- ==== Sys2Proof/Machine/Sha.lean ====
section
/-! DEFINITION. SHA-256, which R390 and R401–R404 name: the function of FIPS 180-4. -/

namespace Sys2Proof.Machine

/-- The largest number below 2^36 whose k-th power is at most n. -/
def rootBits (k n : Nat) : Nat :=
  (List.range 36).foldl (fun r i =>
    let t := r + 2 ^ (35 - i)
    if t ^ k ≤ n then t else r) 0

/-- The first 64 primes. -/
def shaPrimes : List Nat :=
  (List.range 312).filter (fun n => 2 ≤ n && (List.range n).all (fun d => d < 2 || n % d ≠ 0))

/-- The round constants: the first 32 fraction bits of the cube roots of the first 64 primes. -/
def shaRoundConst : List Nat := shaPrimes.map (fun q => rootBits 3 (q * 2 ^ 96) % 2 ^ 32)

/-- The starting hash: the first 32 fraction bits of the square roots of the first 8 primes. -/
def shaStart : List Nat := (shaPrimes.take 8).map (fun q => rootBits 2 (q * 2 ^ 64) % 2 ^ 32)

/-- A 32-bit rotation to the right. -/
def rotr32 (x n : Nat) : Nat := x / 2 ^ n + x % 2 ^ n * 2 ^ (32 - n)

/-- Bytes, highest first, as a number. -/
def beNat (bs : List Nat) : Nat := bs.foldl (fun a b => a * 256 + b % 256) 0

/-- The n low bytes of a number, highest first. -/
def natBe (n v : Nat) : List Nat := (natLe n v).reverse

/-- The message schedule's next word, from the last sixteen, newest first. -/
def shaNext (w : List Nat) : Nat :=
  let a := nth 0 w 14
  let b := nth 0 w 1
  let s0 := (rotr32 a 7 ^^^ rotr32 a 18) ^^^ a / 8
  let s1 := (rotr32 b 17 ^^^ rotr32 b 19) ^^^ b / 1024
  (nth 0 w 15 + s0 + nth 0 w 6 + s1) % 2 ^ 32

/-- One round: the eight working values and the window of the schedule, newest word first. -/
def shaRound (vw : List Nat × List Nat) (i : Nat) : List Nat × List Nat :=
  let win := if i < 16 then vw.2 else (shaNext vw.2 :: vw.2).take 16
  let w := if i < 16 then nth 0 vw.2 (15 - i) else nth 0 win 0
  let x (k : Nat) : Nat := nth 0 vw.1 k
  let s1 := (rotr32 (x 4) 6 ^^^ rotr32 (x 4) 11) ^^^ rotr32 (x 4) 25
  let ch := (x 4 &&& x 5) ^^^ ((2 ^ 32 - 1 - x 4) &&& x 6)
  let t1 := (x 7 + s1 + ch + nth 0 shaRoundConst i + w) % 2 ^ 32
  let s0 := (rotr32 (x 0) 2 ^^^ rotr32 (x 0) 13) ^^^ rotr32 (x 0) 22
  let mj := ((x 0 &&& x 1) ^^^ (x 0 &&& x 2)) ^^^ (x 1 &&& x 2)
  ([(t1 + s0 + mj) % 2 ^ 32, x 0, x 1, x 2, (x 3 + t1) % 2 ^ 32, x 4, x 5, x 6], win)

/-- One 64-byte block. -/
def shaBlock (h : List Nat) (block : List Nat) : List Nat :=
  let ws := (chunks 4 16 block).map beNat
  let out := ((List.range 64).foldl shaRound (h, ws.reverse)).1
  (List.range 8).map (fun k => (nth 0 h k + nth 0 out k) % 2 ^ 32)

/-- The message padded to whole blocks. -/
def shaPad (bs : List Nat) : List Nat :=
  let n := bs.length
  bs ++ [0x80] ++ List.replicate ((119 - n % 64) % 64) 0 ++ natBe 8 (8 * n)

/-- The 32 bytes of the hash. -/
def sha256 (bs : List Nat) : List Nat :=
  let m := shaPad bs
  ((chunks 64 (m.length / 64) m).foldl shaBlock shaStart).flatMap (natBe 4)

end Sys2Proof.Machine
end

