-- ==== Sys2Proof/Machine/Boot.lean ====
section
/-! DEFINITION. Boot, the configuration image, stops and fuses (R400–R411, R414), and the full device reset (R433, R434). -/

namespace Sys2Proof.Machine

def modBoot (f : BootS → BootS) (s : State) : State := { s with boot := f s.boot }

/-! ## The image (R401, R402) -/

/-- n bytes of the flash from an offset; erased flash reads 0xFF. -/
def flashBytes (s : State) (off n : Nat) : List Nat := (List.range n).map (fun i => SMap.get 0xFF s.boot.flash (off + i))

/-- A little-endian number of n bytes in the flash. -/
def flashNum (s : State) (off n : Nat) : Nat := leNat (flashBytes s off n)

def flashZero (s : State) (off n : Nat) : Bool := (flashBytes s off n).all (fun b => b = 0)

/-- Offset, length and hash of section k: firmware, stops, link plan, pattern library. -/
def sectionOff (s : State) (k : Nat) : Nat := flashNum s (64 + 48 * k) 4
def sectionLen (s : State) (k : Nat) : Nat := flashNum s (68 + 48 * k) 4
def sectionHash (s : State) (k : Nat) : List Nat := flashBytes s (80 + 48 * k) 32
def sectionBytes (s : State) (k : Nat) : List Nat := flashBytes s (sectionOff s k) (sectionLen s k)

def imageFlags (s : State) : Nat := flashNum s 6 2
def imageSv (s : State) : Nat := flashNum s 12 1
def imageKey (s : State) : Nat := flashNum s 13 1
def imageTotal (s : State) : Nat := flashNum s 16 4
def vendorPub (s : State) : List Nat := flashBytes s 256 64
def ownerPub (s : State) : List Nat := flashBytes s 320 64

/-- The signed bytes of the header. -/
def signedHeader (s : State) : List Nat := flashBytes s 0 3968

/-- A section has a length that R402 allows. -/
def sectionLenOk (s : State) (k : Nat) : Bool :=
  let n := sectionLen s k
  match k with
  | 0 => 65536 ≤ n && n ≤ 8388608
  | 1 => n = 1024
  | 2 => n = 64
  | _ => 64 ≤ n && (n - 64) % 64 = 0 && (n - 64) / 64 ≤ 4096

/-- The header and section table satisfy R401 and R402; the flags' unused bits and the range of security_version are tested with
them, the range of vendor_key by the next check (DEDUCED, log 80). -/
def headerOk (s : State) : Bool :=
  flashNum s 0 4 = 0x4D495648 && flashNum s 4 2 = 1 && imageFlags s < 4 && imageSv s ≤ 64
    && flashZero s 14 2 && imageTotal s % 4096 = 0 && imageTotal s ≤ 16777216 && flashZero s 20 44 && flashZero s 384 3584
    && (List.range 4).all (fun k =>
        flashZero s (72 + 48 * k) 8 && sectionOff s k % 4096 = 0 && 4096 ≤ sectionOff s k && sectionLenOk s k
          && sectionOff s k + sectionLen s k ≤ imageTotal s
          && (k = 0 || sectionOff s (k - 1) + sectionLen s (k - 1) ≤ sectionOff s k))

/-! ## Stops (R405) -/

/-- A number in a stop record. -/
def stopNum (r : List Nat) (off n : Nat) : Nat := leNat ((r.drop off).take n)

/-- A record is valid: every field in its range, every reserved bit and byte 0. -/
def stopValid (r : List Nat) : Bool :=
  let b (i : Nat) : Nat := nth 0 r i
  let inR (v lo hi : Nat) : Bool := lo ≤ v && v ≤ hi
  inR (stopNum r 0 4) 2000 200000 && inR (b 4) 4 100 && 1 ≤ b 5 && bitsOf (b 6) 5 4 ≤ 2 && b 6 < 128
    && inR (b 7) 1 15 && inR (stopNum r 8 2) 200 1600 && inR (stopNum r 10 2) 1000 2400 && inR (b 12) 40 80
    && inR (b 13) 30 (min 70 (b 12)) && b 14 ≤ 100 && inR (b 15) (b 14) 100 && inR (b 16) (b 14) (b 15) && b 17 ≤ 15
    && 1 ≤ b 18 && bitsOf (b 19) 2 0 ≤ 4 && bitsOf (b 19) 5 4 ≤ 2 && !bitAt (b 19) 3 && b 19 < 64 && stopNum r 20 2 < 512
    && ((r.drop 22).take 10).all (fun x => x = 0) && ((r.drop 64).take 192).all (fun x => x = 0)

/-- Stop i of four records. -/
def stopRecord (stops : List Nat) (i : Nat) : List Nat := (stops.drop (256 * i)).take 256

/-! ## The link plan (R323, R402) -/

/-- The group fields of a queen describe a box (R323). -/
def boxOk (base ext ring queen : Nat) : Bool :=
  let nib (w a : Nat) : Nat := bitsOf w (4 * a + 3) (4 * a)
  (List.range 4).all (fun a => 1 ≤ nib ring a && nib ext a ≤ nib ring a
      && (nib queen a + 16 * (nib ring a + 1) - nib base a) % (nib ring a + 1) ≤ nib ext a)
    && (List.range 4).foldl (fun m a => m * (nib ext a + 1)) 1 ≤ 256

/-- The link plan is valid; a worker's group fields are ignored. -/
def planValid (plan : List Nat) (queen : Bool) : Bool :=
  let modes := stopNum plan 0 4
  let win := stopNum plan 14 2
  (List.range 9).all (fun n => bitsOf modes (2 * n + 1) (2 * n) ≤ 1 || (queen && n = 8)) && bitsOf modes 31 18 = 0
    && (plan.drop 16).all (fun b => b = 0)
    && (!queen || (boxOk (stopNum plan 8 2) (stopNum plan 10 2) (stopNum plan 12 2) (stopNum plan 6 2) && 10 ≤ win && win ≤ 10000))

/-! ## Keys and acceptance (R403, R404) -/

/-- The owner rules of R404. -/
def ownerOk (s : State) : Bool :=
  let verifies := Config.ecdsaVerify (ownerPub s) (signedHeader s) (flashBytes s 4032 64)
  if s.boot.owner = 0 then !bitAt (imageFlags s) 0 || verifies
  else beNat (sha256 (ownerPub s)) = s.boot.owner && verifies

/-- Checks 3 to 9 of R403 in order: 0, or the code of the first that fails (R410). -/
def imageCode (queen readOk : Bool) (s : State) : Nat :=
  if !readOk then 2
  else if !headerOk s then 3
  else if imageKey s > 3 || bitAt s.boot.revoked (imageKey s) || beNat (sha256 (vendorPub s)) ≠ Config.vendorKeyHash (imageKey s) then 5
  else if !Config.ecdsaVerify (vendorPub s) (signedHeader s) (flashBytes s 3968 64) then 6
  else if !ownerOk s then 7
  else if imageSv s < s.boot.rollback then 8
  else if !(List.range 4).all (fun k => sha256 (sectionBytes s k) = sectionHash s k) then 4
  else if !(List.range 4).all (fun i => stopValid (stopRecord (sectionBytes s 1) i)) then 9
  else if !planValid (sectionBytes s 2) queen then 10
  else 0

/-! ## Loading a stop (R405–R407) -/

/-- Every field of R405 but the ports' FEC modes. -/
def loadStop (i : Nat) (r : List Nat) (s : State) : State :=
  let b (k : Nat) : Nat := nth 0 r k
  let set (f : Fld) (v : Nat) (s : State) : State := setFld f 0 v s
  let s := set F.BREATH_PERIOD_period (stopNum r 0 4) (set F.BREATH_PERIOD_guard_q (b 4) s)
  let s := set F.BREATH_STRETCH_stretch_limit (b 5) (set F.BREATH_CTRL_overrun_policy (bitsOf (b 6) 0 0) s)
  let s := set F.PCC_CTRL_v_policy (bitsOf (b 6) 1 1) (set F.PCC_CTRL_energy_mode (bitsOf (b 6) 2 2) s)
  let s := set F.PCC_CTRL_hum_slice_end (bitsOf (b 6) 3 3) (set F.PCC_CTRL_hum_mode (bitsOf (b 6) 5 4) s)
  let s := set F.CTR_USER_en (bitsOf (b 6) 6 6) (set F.BOOT_STOP_hive_en (bitsOf (b 7) 3 0) s)
  let s := set F.PCC_CAP_cap (stopNum r 8 2) (set F.PCC_CAP_i_limit (stopNum r 10 2) s)
  let s := set F.PCC_CLOCK_f_max (b 12) (set F.PCC_CLOCK_f_floor (b 13) s)
  let s := set F.PCC_VOLT_v_min (b 14) (set F.PCC_VOLT_v_max (b 15) (set F.PCC_VOLT_v_fixed (b 16) s))
  let s := set F.PCC_HUM_hum_floor (b 17) (set F.PCC_HUM_hum_ramp (b 18) s)
  let s := set F.BOOT_STOP_rnd_default (bitsOf (b 19) 2 0) (set F.BOOT_STOP_sr_bits (bitsOf (b 19) 5 4) s)
  set F.BOOT_STOP_active i s

/-- The FEC modes of a stop load; at a switch a port whose mode in use changes retrains, and one that retrains ends in the new
mode (R295, R318). -/
def loadFec (r : List Nat) (switch : Bool) (s : State) : State :=
  iter 9 s (fun n t =>
    let v := b2n (bitAt (stopNum r 20 2) n)
    let t := if v = fld t F.PORT_CTRL_fec n then t else setFld F.PORT_CTRL_fec n v t
    if switch && v ≠ (portS t n).fec then startRetrain n false t else t)

/-- A hive's pairs and foragers are reset, and nothing of theirs is waited for; its memory and its hive-window registers stay (R21, R407). -/
def resetPairs (h : Nat) (s : State) : State :=
  let mine (key : Nat) : Bool :=
    regPlaces.any (fun r => r.reg.code = key % 256 && r.space = .pair && key / 256 / r.count / 16 = h)
  dropOutstanding h { s with regs := SMap.dropKeys s.regs mine, pairs := SMap.dropKeys s.pairs (fun p => p / 16 = h) }

/-- The latched enable changes, as BOOT_STOP shows them. -/
def showPending (s : State) : State :=
  setFld F.BOOT_STOP_hive_pending 0
    ((List.range 4).foldl (fun w h => if (hiveS s h).enable.isSome then setBitN w h else w) 0) s

/-- An enable change of one hive (R407): taken now, latched, or ignored. -/
def enableHive (h : Nat) (on : Bool) (s : State) : State :=
  let st := hiveState s h
  if st = hsHeldHw then s
  else if st = hsInService then
    if on then s else clockStatus (setFld F.RL_HIVE_h_state h hsDisabled (resetPairs h s))
  else if st = hsDisabled then
    if on then rampStart h (setFld F.RL_HIVE_h_state h hsInService (resetPairs h s)) else s
  else showPending (modHive h (fun x => { x with enable := some on }) s)

/-- A latched change applies once the hive is IN_SERVICE or DISABLED. -/
def hiveEnablePending (h : Nat) (s : State) : State :=
  match (hiveS s h).enable with
  | none => s
  | some on =>
    if hiveServes s h then enableHive h on (showPending (modHive h (fun x => { x with enable := none }) s)) else s

/-- A hive is quiesced: every pair of it IDLE, PAUSED, DONE or FAULTED, and quiet; a disabled one always (R160). -/
def hiveQuiesced (s : State) (h : Nat) : Bool :=
  hiveState s h = hsDisabled || (pairsOf h).all (fun p =>
    let st := seqState s p
    (st = sqIdle || st = sqPaused || st = sqDone || st = sqFaulted) && pairQuiet s p)

/-- The pending switch, as BOOT_STOP shows it. -/
def setSwitch (w : Option (Nat × Nat)) (s : State) : State :=
  let x := w.getD (0, 0)
  let s := setFld F.BOOT_STOP_pending 0 (b2n w.isSome) (modBoot (fun b => { b with switch := w }) s)
  setFld F.BOOT_STOP_pending_stop 0 x.1 (setFld F.BOOT_STOP_pending_breath 0 x.2 s)

/-- A switch applies, at a boundary that begins a breath or at once. -/
def applySwitch (i breath : Nat) (s : State) : State :=
  let was := fld s F.BOOT_STOP_hive_en
  let r := stopRecord s.boot.stops i
  let s := loadFec r true (loadStop i r (setSwitch none s))
  let now := fld s F.BOOT_STOP_hive_en
  let s := (List.range 4).foldl (fun t h => if bitAt was h == bitAt now h then t else enableHive h (bitAt now h) t) s
  let s := raise F.BOOT_EVENTS_stop_applied 0 (powerStatus s)
  sendEvent 0x0D 0x40 255 (i + breath % 2 ^ 48 * 65536) s

/-- Step 4 of a boundary tick that begins a breath: the pending switch, if every hive is quiesced (R38, R406). -/
def switchAt (breath : Nat) (s : State) : State :=
  match s.boot.switch with
  | none => s
  | some (i, a) => if a ≤ breath && (List.range 4).all (hiveQuiesced s) then applySwitch i breath s else s

/-- The pending switch falls due: at the coming boundary, or at once while the breath unit is IDLE. -/
def stopSwitchApply (s : State) : State :=
  match s.boot.switch with
  | none => s
  | some (i, _) =>
    if breathState s = bsIdle then
      if (List.range 4).all (hiveQuiesced s) then
        energyModeApply (applySwitch i (schedBreath s) (modPower (fun x => { x with modeDue := none }) s))
      else s
    else if breathState s = bsRunning || breathState s = bsArmed then switchAt (comingBreath s) s
    else s

/-! ## Boot (R403, R408–R410) -/

/-- Until memory is in service a hive that the mask of enables names is under RESET, and any other DISABLED (R224). -/
def hivesStart (en : Nat) (s : State) : State :=
  iter 4 s (fun h t => setFld F.RL_HIVE_h_state h (if bitAt en h then hsReset else hsDisabled) t)

/-- A failed check: RECOVERY, where every hive shows RESET (R224, R410). -/
def enterRecovery (code : Nat) (s : State) : State :=
  withFault (fun s => setFld F.BOOT_STATUS_state 0 3 (setFld F.BOOT_STATUS_fail_code 0 code (hivesStart 0xF s))) s

/-- A pattern of the library's layout (R390). -/
def patternOf (bs : List Nat) : Pattern where
  id := stopNum bs 0 2
  fmt := bitsOf (stopNum bs 2 2) 3 0
  steps := bitsOf (stopNum bs 2 2) 15 4
  seed := stopNum bs 8 8
  expected := stopNum bs 32 32

/-- The patterns after a library header. -/
def patternsOf (bs : List Nat) : List Pattern := (chunks 64 ((bs.length - 64) / 64) (bs.drop 64)).map patternOf

/-- What BOOT_FUSE shows of the fuses. -/
def showFuses (s : State) : State :=
  setFld F.BOOT_FUSE_owner_enrolled 0 (b2n (s.boot.owner ≠ 0))
    (setFld F.BOOT_FUSE_revoked 0 s.boot.revoked (setFld F.BOOT_FUSE_rollback 0 s.boot.rollback s))

/-- Thirty-two bytes in four registers. -/
def setHash (f : Fld) (bs : List Nat) (s : State) : State := iter 4 s (fun i t => setFld f i (stopNum bs (8 * i) 8) t)

/-- The image is accepted: the measurements, the stop, the plan and the library load, and Driore starts. -/
def drioreStart (s : State) : State :=
  let i := fld s F.BOOT_STATUS_stop_sel
  let stops := sectionBytes s 1
  let plan := sectionBytes s 2
  let lib := sectionBytes s 3
  let enrol := if s.boot.owner = 0 && bitAt (imageFlags s) 0 then some (beNat (sha256 (ownerPub s))) else none
  let commit := if bitAt (imageFlags s) 1 && imageSv s > s.boot.rollback then some (imageSv s) else none
  let version := flashNum s 8 4
  let vp := vendorPub s
  let s := setHash F.BOOT_MEAS_i_bytes (sha256 (signedHeader s)) (setHash F.BOOT_FW_MEAS_i_bytes (sectionHash s 0) s)
  let s := showFuses (setFld F.BOOT_FUSE_vendor_key 0 (imageKey s) (setFld F.BOOT_FUSE_image_sv 0 (imageSv s) s))
  let s := modBoot (fun b => { b with stops := stops, plan := plan, version := version, vendorPub := vp, enrol := enrol, commit := commit }) s
  let s := loadFec (stopRecord stops i) false (loadStop i (stopRecord stops i) s)
  let fmax := fld s F.PCC_CLOCK_f_max
  let s := modPower (fun x => { x with ceilPwr := fmax, ceilTherm := fmax }) s
  let s := if isQueen s then
      let s := setFld F.GROUP_CFG_group_id 0 (stopNum plan 4 2) (setFld F.GROUP_CFG_queen_coord 0 (stopNum plan 6 2) s)
      let s := setFld F.GROUP_CFG_box_base 0 (stopNum plan 8 2) (setFld F.GROUP_CFG_box_ext_m1 0 (stopNum plan 10 2) s)
      setFld F.GROUP_RINGS_ring_m1 0 (stopNum plan 12 2) (setFld F.GROUP_RINGS_window_ms 0 (stopNum plan 14 2) s)
    else s
  let s := { s with libVersion := stopNum lib 4 4, library := patternsOf lib, libNext := 0 }
  let s := hivesStart (fld s F.BOOT_STOP_hive_en) s
  let s := setFld F.BOOT_STATUS_time_ms 0 ((s.us - s.boot.released) / 1000) (setFld F.BOOT_STATUS_state 0 1 s)
  powerStatus (modMp (fun m => { m with beat := s.us }) s)

/-- The image read ends: the fuses read well, the flash identified, every read completed (R403). -/
def bootVerify (fuseOk flashId readOk : Bool) (s : State) : State :=
  if !(s.inService && fld s F.BOOT_STATUS_state = 0) then s
  else
    let s := modBoot (fun b => { b with identified := flashId }) s
    let code := if !fuseOk then 12 else if !flashId then 1 else imageCode (isQueen s) readOk s
    if code ≠ 0 then enterRecovery code s
    else if s.boot.released + 1500000 < s.us then enterRecovery 11 s
    else drioreStart s

/-- The checks have not ended 1.5 s after the release. -/
def bootTimeLimit (s : State) : State :=
  if s.inService && fld s F.BOOT_STATUS_state = 0 && s.boot.released + 1500000 ≤ s.us then enterRecovery 11 s else s

/-- A fuse write has failed twice (R404). -/
def fuseFail (s : State) : State :=
  sendEventOpen 0x0D 1 255
    (logEvent { block := 0x0D, item := 1, severity := openSeverity 0x0D 1 } (raise F.BOOT_EVENTS_fuse_fail 0 s))

/-- The owner enrolment of R404. -/
def enrolOwner (ok : Bool) (s : State) : State :=
  match s.boot.enrol with
  | none => s
  | some v =>
    let s := modBoot (fun b => { b with enrol := none }) s
    if ok then raise F.BOOT_EVENTS_owner_enrolled 0 (modBoot (fun b => { b with owner := v }) s) else fuseFail s

/-- The anti-rollback commit: `blown` of the bits it needs blow. -/
def commitRollback (blown : Nat) (s : State) : State :=
  match s.boot.commit with
  | none => s
  | some v =>
    let old := s.boot.rollback
    let new := min (old + blown) v
    let s := modBoot (fun b => { b with commit := none, rollback := new }) s
    let s := if new > old then raise F.BOOT_EVENTS_rollback_committed 0 s else s
    if new < v then fuseFail s else s

/-- A write of BOOT_CMD.boot_complete by the management processor: the boot lock is set, once (R7, R409). -/
def bootCommand (s : State) : State :=
  if fldB s F.BOOT_STATUS_boot_lock then s
  else setFld F.BOOT_STATUS_state 0 2 (setFld F.BOOT_STATUS_boot_lock 0 1 s)

/-- The hives that the stop enables. -/
def enabledHives (s : State) : List Nat := (List.range 4).filter (hiveEnabled s)

/-- Driore reports boot complete once the part is CONFIRMED and an enabled hive is in service, its fuse writes first; with every
enabled hive held under R224 the part enters NO_HIVE. -/
def bootComplete (ownerWrites : Bool) (blown : Nat) (s : State) : State :=
  if fld s F.BOOT_STATUS_state ≠ 1 || drioreDown s || fld s F.GROUP_STATUS_state ≠ 3 then s
  else if (enabledHives s).any (fun h => hiveState s h = hsInService) then
    bootCommand (showFuses (commitRollback blown (enrolOwner ownerWrites s)))
  else if (enabledHives s).all (fun h => hiveState s h = hsHeldHw) then
    withFault (fun s => setFld F.BOOT_STATUS_state 0 4 s) s
  else s

/-! ## Full device reset and release (R406, R408, R433–R435) -/

/-- Bytes of the flash replaced from an offset. -/
def flashPut (off : Nat) (bs : List Nat) (m : SMap Nat) : SMap Nat :=
  m.filter (fun e => e.1 < off)
    ++ ((List.range bs.length).map (fun i => (off + i, nth 0xFF bs i))).filter (fun e => e.2 ≠ 0xFF)
    ++ m.filter (fun e => off + bs.length ≤ e.1)

/-- Free bytes, where an erase or program has failed. -/
def freeBytes (n : Nat) (s : State) : List Nat := (List.range n).map (fun i => Config.freeWord (s.freshCount + i) % 256)

/-- A full device reset leaves what an erase or program in progress was to change open. -/
def flashCut (s : State) : SMap Nat :=
  match s.boot.flashOp with
  | none => s.boot.flash
  | some x =>
    let n := if x.op = 0 then 65536 else x.bytes.length
    if x.op = 3 then s.boot.flash else flashPut x.off (freeBytes n s) s.boot.flash

/-- A full device reset: the fuses, the flash and the TAP keep what they hold, and time goes on. -/
def fullReset (s : State) : State :=
  { State.reset with
    us := s.us
    freshCount := s.freshCount + 65536
    out := s.out
    pending := s.pending
    boot :=
      { flash := flashCut s, serial := s.boot.serial, owner := s.boot.owner, rollback := s.boot.rollback
        revoked := s.boot.revoked, pwrOk := s.boot.pwrOk, resetLow := s.boot.resetLow, lowSince := s.boot.lowSince }
    pins := { s.pins with i3cAddr := none, i3cResult := [] } }

def pwrOkFall (s : State) : State := modBoot (fun b => { b with pwrOk := false }) (fullReset s)

/-- A filtered rise of PWR_OK; with RESET_N already high the release falls due 1 ms later. -/
def pwrOkRise (s : State) : State :=
  if s.boot.pwrOk then s
  else modBoot (fun b => { b with pwrOk := true, due := if b.resetLow then none else some (s.us + 1000) }) s

def resetNAssert (s : State) : State :=
  modBoot (fun b => { b with resetLow := true, lowSince := s.us, due := none }) (fullReset s)

/-- The part takes its release: ROLE and STOP_SEL are sampled, the boot ROM starts, a level on PWR_BRAKE_N is acted on. -/
def release (queen : Bool) (stopSel : Nat) (braked : Bool) (s : State) : State :=
  let s := setFld F.GROUP_STATUS_role 0 (b2n queen) (setFld F.BOOT_STATUS_stop_sel 0 stopSel { s with inService := true })
  let s := setFld F.BOOT_SERIAL_serial 0 s.boot.serial (modBoot (fun b => { b with due := none, released := s.us }) s)
  let s := if headerOk s then hivesStart (bitsOf (nth 0 (stopRecord (sectionBytes s 1) stopSel) 7) 3 0) s else s
  if braked then brakeAsserted s else s

/-- RESET_N rises: the release is now, or at the end of the 10 µs a full device reset lasts. -/
def resetNRelease (queen : Bool) (stopSel : Nat) (braked : Bool) (s : State) : State :=
  if !s.boot.resetLow then s
  else
    let s := modBoot (fun b => { b with resetLow := false }) s
    if !s.boot.pwrOk then s
    else if s.boot.lowSince + 10 ≤ s.us then release queen stopSel braked s
    else modBoot (fun b => { b with due := some (b.lowSince + 10) }) s

/-- The self-timed end of a full device reset. -/
def releaseAfterPwrOk (queen : Bool) (stopSel : Nat) (braked : Bool) (s : State) : State :=
  match s.boot.due with
  | some t => if t ≤ s.us && s.boot.pwrOk && !s.boot.resetLow then release queen stopSel braked s else s
  | none => s

end Sys2Proof.Machine
end

