-- ==== Sys2Proof/Machine/Groups.lean ====
section
/-! DEFINITION. Groups: link bring-up (R319), ADDRESS tokens, enumeration, conflicts, epochs and takeover (R321–R329), and the
receipt of event records (R335). -/

namespace Sys2Proof.Machine

/-! ## Link bring-up (R319) -/

/-- Driore sets the ports' modes from the link plan, and the listed ports start training; on a queen the spur is an endpoint. -/
def linkBringup (s : State) : State :=
  if drioreDown s || fld s F.BOOT_STATUS_state ≠ 1 || !s.memUp then s
  else
    let modes := stopNum s.boot.plan 0 4
    iter 9 s (fun n t =>
      let pcie := n = 8 && fld t F.GROUP_STATUS_role ≠ 0
      let mode := if pcie then 2 else bitsOf modes (2 * n + 1) (2 * n)
      let t := setFld F.PORT_CTRL_mode n mode t
      if pcie then setFld F.PORT_STATUS_state n ptPcie t
      else if mode = 1 && portState t n = ptOff then retrainPort n t
      else t)

/-! ## Tokens (R323–R325) -/

/-- An ADDRESS token (R324). -/
structure Token where
  origin : Nat := 0
  group : Nat := 0
  sender : Nat := 0
  base : Nat := 0
  ext : Nat := 0
  ring : Nat := 0
  epoch : Nat := 0
  port : Nat := 0
  confirm : Bool := false
  takeover : Bool := false
  deriving DecidableEq, Repr

/-- The body of a token. -/
def Token.body (t : Token) : Nat :=
  withCrc16 (t.origin % 2 ^ 16 * 2 ^ 112 + t.group % 2 ^ 16 * 2 ^ 96 + t.sender % 2 ^ 16 * 2 ^ 80 + t.base % 2 ^ 16 * 2 ^ 64
    + t.ext % 2 ^ 16 * 2 ^ 48 + t.ring % 2 ^ 16 * 2 ^ 32 + t.epoch % 2 ^ 8 * 2 ^ 24 + t.port % 2 ^ 4 * 2 ^ 20
    + b2n t.confirm * 2 ^ 19 + b2n t.takeover * 2 ^ 18)

/-- The fields of a token's body. -/
def tokenOf (b : Nat) : Token where
  origin := bitsOf b 127 112
  group := bitsOf b 111 96
  sender := bitsOf b 95 80
  base := bitsOf b 79 64
  ext := bitsOf b 63 48
  ring := bitsOf b 47 32
  epoch := bitsOf b 31 24
  port := bitsOf b 23 20
  confirm := bitAt b 19
  takeover := bitAt b 18

/-- The coordinate reached from c through port n: +1 on the axis for P, −1 for N. -/
def stepThrough (c n ring : Nat) : Nat :=
  let a := n / 2
  let r := coordOf ring a + 1
  let v := if n % 2 = 0 then (coordOf c a + 1) % r else (coordOf c a + r - 1) % r
  putBits c (4 * a + 3) (4 * a) v

/-- A coordinate belongs to a box (R323). -/
def inBox (c base ext ring : Nat) : Bool :=
  (List.range 4).all (fun a =>
    let r := coordOf ring a + 1
    (coordOf c a + r - coordOf base a % r) % r ≤ coordOf ext a)

/-- The coordinate a copy that arrives on port n implies (R325). -/
def impliedCoord (n : Nat) (t : Token) : Nat := stepThrough t.sender (n ^^^ 1) t.ring

/-- Copies sent from coordinate c on every UP torus port but one whose neighbour lies in the box. -/
def sendCopies (except c : Nat) (t : Token) (s : State) : State :=
  (List.range 8).foldl (fun u n =>
    if n ≠ except && portState u n = ptUp && inBox (stepThrough c n t.ring) t.base t.ext t.ring then
      sendSet n 4 { t with sender := c, port := n }.body u
    else u) s

/-! ## Conflicts (R328, R335) -/

abbrev cfTwoQueens : Nat := 1
abbrev cfWrap : Nat := 2
abbrev cfMissing : Nat := 3
abbrev cfCollision : Nat := 4
abbrev cfWiring : Nat := 5

/-- The data of a conflict report. -/
def conflictData (code axis other where_ : Nat) : Nat := code + axis * 2 ^ 8 + other * 2 ^ 16 + where_ * 2 ^ 32

/-- The queen records a conflict: the first in ENUM_CONFLICT, each in ENUM_EVENTS. -/
def recordConflict (d : Nat) (s : State) : State :=
  let code := bitsOf d 7 0
  let s := { s with groups := { s.groups with conflict := true } }
  let s := if fld s F.ENUM_CONFLICT_code = 0 then
      let s := setFld F.ENUM_CONFLICT_code 0 code (setFld F.ENUM_CONFLICT_axis 0 (bitsOf d 9 8) s)
      setFld F.ENUM_CONFLICT_other 0 (bitsOf d 31 16) (setFld F.ENUM_CONFLICT_where 0 (bitsOf d 47 32) s)
    else s
  match code with
  | 1 => raise F.ENUM_EVENTS_two_queens 0 s
  | 2 => raise F.ENUM_EVENTS_wrap_mismatch 0 s
  | 3 => raise F.ENUM_EVENTS_missing 0 s
  | 4 => raise F.ENUM_EVENTS_collision 0 s
  | 5 => raise F.ENUM_EVENTS_wiring 0 s
  | _ => s

/-- A conflict report to one origin. A part that has adopted no queen sends it back out of the arrival port, with the coordinate
derived from the copy as its source. -/
def reportTo (dst n d : Nat) (s : State) : State :=
  if isQueen s && dst = deviceId s then
    recordConflict d (sendRec (some dst) dst 0x0E 0x42 255 d s)
  else if s.adopted || isQueen s then sendRec (some dst) (deviceId s) 0x0E 0x42 255 d s
  else
    let src := bitsOf d 47 32
    if (recentSends s).length ≥ 64 then { s with eventDrops := satAdd 16 s.eventDrops 1 }
    else
      let e : EventRec := { device := src, block := 0x0E, item := 0x42, dropped := s.eventDrops, breath := schedBreath s, tick := tickNumber s, data := d }
      transmit n 9 { ptype := 6, dst := dst, src := src, data := e.bytes ++ List.replicate 32 0 }
        { s with eventTimes := s.us :: recentSends s, eventDrops := 0 }

/-! ## The receipt of a token (R325, R327–R329) -/

/-- States of GROUP_STATUS.state. -/
abbrev gsIdle : Nat := 0
abbrev gsFlooding : Nat := 1
abbrev gsJoined : Nat := 2
abbrev gsConfirmed : Nat := 3
abbrev gsConflict : Nat := 4
abbrev gsOrphan : Nat := 5

def groupState (s : State) : Nat := fld s F.GROUP_STATUS_state

def modGroup (f : GroupS → GroupS) (s : State) : State := { s with groups := f s.groups }

/-- The part sends its JOIN, or it waits for the management processor (R326, R341). -/
def sendJoin (s : State) : State :=
  if drioreDown s then modGroup (fun g => { g with joins := [(deviceId s, s.boot.serial)] }) s
  else sendEvent 0x0E 0x41 255 s.boot.serial s

/-- The part is CONFIRMED: the parent port is derived for the master it follows, the queen in its place (R327). -/
def enterConfirmed (s : State) : State :=
  let s := setFld F.GROUP_STATUS_state 0 gsConfirmed (modGroup (fun g => { g with confirmed := true, kept := s.us }) s)
  let s := raise F.ENUM_EVENTS_confirmed 0 s
  deriveParent (s.breath.follows.getD (fld s F.GROUP_STATUS_queen_id)) s

/-- A copy is adopted: coordinate, group, box and rings come from it, it is forwarded, and the part is JOINED. -/
def adoptToken (n c : Nat) (t : Token) (s : State) : State :=
  if s.groups.confirmed && (c ≠ deviceId s || t.group ≠ fld s F.GROUP_CFG_group_id) then
    reportTo t.origin n (conflictData cfWrap (n / 2) c (deviceId s)) s
  else
    let s := setFld F.GROUP_CFG_group_id 0 t.group (setFld F.GROUP_CFG_queen_coord 0 t.origin s)
    let s := setFld F.GROUP_CFG_box_base 0 t.base (setFld F.GROUP_CFG_box_ext_m1 0 t.ext s)
    let s := setFld F.GROUP_RINGS_ring_m1 0 t.ring (setFld F.GROUP_STATUS_device_id 0 c s)
    let s := setFld F.GROUP_STATUS_queen_id 0 t.origin (setFld F.GROUP_STATUS_epoch 0 t.epoch s)
    let s := setFld F.GROUP_STATUS_state 0 gsJoined { s with adopted := true }
    sendJoin (sendCopies n c t s)

/-- A confirm copy of the epoch held: the part is CONFIRMED; it is passed on unless one was within the last 500 µs. -/
def confirmToken (n : Nat) (t : Token) (s : State) : State :=
  let s := if groupState s = gsJoined || s.groups.passed + 500 ≤ s.us then
      modGroup (fun g => { g with passed := s.us }) (sendCopies n (deviceId s) t s)
    else s
  let s := modGroup (fun g => { g with kept := s.us }) s
  if groupState s = gsJoined then enterConfirmed s
  else if groupState s = gsOrphan then setFld F.GROUP_STATUS_state 0 gsConfirmed s
  else s

/-- The epoch is newer than the one held, under serial-number arithmetic modulo 256 (R329). -/
def newerEpoch (e held : Nat) : Bool :=
  let d := (e + 256 - held) % 256
  1 ≤ d && d < 128

/-- A valid copy whose implied coordinate lies in its box. TWO_QUEENS is reported by a part that is JOINED or CONFIRMED (R328). -/
def takeToken (n c : Nat) (t : Token) (s : State) : State :=
  let st := groupState s
  let own := t.origin = fld s F.GROUP_STATUS_queen_id && st ≠ gsIdle
  let held := fld s F.GROUP_STATUS_epoch
  let wrap (s : State) : State := reportTo t.origin n (conflictData cfWrap (n / 2) c (deviceId s)) s
  let two (s : State) : State :=
    let d := conflictData cfTwoQueens (n / 2) t.origin (deviceId s)
    reportTo t.origin n d (reportTo (fld s F.GROUP_STATUS_queen_id) n d s)
  if isQueen s then
    if st = gsIdle then s
    else if t.origin ≠ deviceId s then (if st = gsConfirmed then two s else s)
    else if t.epoch = held && c ≠ deviceId s then wrap s
    else s
  else if st = gsIdle then adoptToken n c t s
  else if own then
    if t.epoch = held then
      if c ≠ deviceId s then wrap s
      else if t.confirm then confirmToken n t s
      else s
    else if newerEpoch t.epoch held then adoptToken n c t s
    else s
  else if st = gsOrphan then
    if t.takeover then adoptToken n c t s else s
  else two s

/-- An ADDRESS token arrives on a torus port. -/
def addressReceive (n body : Nat) (s : State) : State :=
  onGoodSet n body (fun s =>
    if n = 8 then s
    else
      let t := tokenOf body
      let c := impliedCoord n t
      let me := if s.adopted || (isQueen s && groupState s ≠ gsIdle) then deviceId s else c
      if t.port ≠ n ^^^ 1 then reportTo t.origin n (conflictData cfWiring (n / 2) c me) s
      else if !inBox c t.base t.ext t.ring then reportTo t.origin n (conflictData cfWrap (n / 2) c me) s
      else takeToken n c t s) s

/-! ## The queen (R326, R327, R329) -/

/-- A token of this queen's. -/
def queenToken (s : State) (confirm : Bool) : Token where
  origin := deviceId s
  group := fld s F.GROUP_CFG_group_id
  sender := deviceId s
  base := fld s F.GROUP_CFG_box_base
  ext := fld s F.GROUP_CFG_box_ext_m1
  ring := fld s F.GROUP_RINGS_ring_m1
  epoch := fld s F.GROUP_STATUS_epoch
  confirm := confirm
  takeover := s.groups.takeover && !confirm

def enumIgnored (s : State) : State := raise F.ENUM_EVENTS_ignored_write 0 s

/-- A new epoch begins from a queen at coordinate qc; its own position counts as joined. GROUP_CFG stays as it is (R8). -/
def beginEpoch (qc : Nat) (s : State) : State :=
  let s := setFld F.GROUP_STATUS_epoch 0 ((fld s F.GROUP_STATUS_epoch + 1) % 256) (setReg .ENUM_CONFLICT 0 0#64 s)
  let s := setFld F.GROUP_STATUS_device_id 0 qc (setFld F.GROUP_STATUS_queen_id 0 qc s)
  let s := modGroup (fun g =>
    { g with roster := [(qc, s.boot.serial + 1)], joins := [], conflict := false, started := s.us }) s
  let s := setFld F.GROUP_STATUS_members 0 1 (setFld F.GROUP_STATUS_state 0 gsFlooding s)
  sendCopies 9 qc (queenToken s false) s

/-- ENUM_CMD.start. A part that has been CONFIRMED keeps its device ID (R322). -/
def enumStart (s : State) : State :=
  if isQueen s && groupState s ≠ gsFlooding then
    beginEpoch (if s.groups.takeover || s.groups.confirmed then deviceId s else fld s F.GROUP_CFG_queen_coord) s
  else enumIgnored s

/-- ENUM_CMD.demote. -/
def enumDemote (s : State) : State :=
  if isQueen s && (groupState s = gsIdle || groupState s = gsConflict) then
    setFld F.GROUP_STATUS_role 0 2 (setFld F.GROUP_STATUS_state 0 gsIdle (modGroup (fun g => { g with takeover := false, copy := none }) s))
  else enumIgnored s

/-- ENUM_CMD.promote: the queen floods from the coordinate it holds, or from its plan's where it holds none. -/
def enumPromote (s : State) : State :=
  if fld s F.GROUP_STATUS_role = 2 then
    let qc := if s.adopted || s.groups.confirmed then deviceId s else fld s F.GROUP_CFG_queen_coord
    beginEpoch qc (setFld F.GROUP_STATUS_role 0 1 (modGroup (fun g => { g with takeover := true }) s))
  else enumIgnored s

/-- A serial enters the roster; another at the same position is a COLLISION, and the position no longer holds exactly one. One
that comes after the close is held to the same roster (R328). -/
def enterJoin (c serial : Nat) (s : State) : State :=
  let inside := inBox c (fld s F.GROUP_CFG_box_base) (fld s F.GROUP_CFG_box_ext_m1) (fld s F.GROUP_RINGS_ring_m1)
  if !isQueen s || groupState s = gsIdle || !inside then s
  else
    let held := SMap.get 0 s.groups.roster c
    if held = 0 then
      let s := modGroup (fun g => { g with roster := SMap.insert g.roster c (serial + 1) }) s
      setFld F.GROUP_STATUS_members 0 s.groups.roster.length s
    else if held % 2 ^ 65 = serial + 1 then s
    else
      let s := modGroup (fun g => { g with roster := SMap.insert g.roster c (held % 2 ^ 65 + 2 ^ 65) }) s
      reportTo (deviceId s) 9 (conflictData cfCollision 0 c c) s

/-- The block and item of a record in an EVENT packet, its source and its data. -/
def recItem (m : Packet) : Nat := stopNum m.data 2 2
def recData (m : Packet) : Nat := stopNum m.data 24 8

/-- The record in an EVENT packet. -/
def recOf (m : Packet) : EventRec where
  device := stopNum m.data 0 2
  block := stopNum m.data 3 1
  item := stopNum m.data 2 1
  dropped := stopNum m.data 4 2
  pair := stopNum m.data 6 1
  breath := stopNum m.data 8 8
  tick := stopNum m.data 16 8
  data := recData m

/-- A JOIN reaches the queen: it goes to the event ring, and into the roster once the management processor runs. -/
def joinReceive (m : Packet) (s : State) : State :=
  if !(isQueen s && m.ptype = 6 && recItem m = 0x0E41) then s
  else
    let s := queenTake (recOf m) s
    if drioreDown s then modGroup (fun g => { g with joins := g.joins ++ [(m.src, recData m)] }) s
    else enterJoin m.src (recData m) s

/-- A conflict report reaches the queen. -/
def conflictReceive (m : Packet) (s : State) : State :=
  if isQueen s && m.ptype = 6 && recItem m = 0x0E42 then recordConflict (recData m) (queenTake (recOf m) s) else s

/-- Any other record reaches the queen. -/
def eventReceive (m : Packet) (s : State) : State :=
  if isQueen s && m.ptype = 6 && recItem m ≠ 0x0E41 && recItem m ≠ 0x0E42 then queenTake (recOf m) s else s

/-- The positions of the box, ascending. -/
def boxPositions (s : State) : List Nat :=
  (List.range 65536).filter (fun c =>
    (List.range 4).all (fun a => coordOf c a ≤ coordOf (fld s F.GROUP_RINGS_ring_m1) a)
      && inBox c (fld s F.GROUP_CFG_box_base) (fld s F.GROUP_CFG_box_ext_m1) (fld s F.GROUP_RINGS_ring_m1))

/-- A confirm copy goes out: it is the keepalive too. -/
def sendConfirm (t : Token) (s : State) : State :=
  modGroup (fun g => { g with kept := s.us, copy := some t.body }) (sendCopies 9 (deviceId s) t s)

/-- The epoch closes when every position holds exactly one JOIN, or at the end of its window (R327). -/
def epochClose (s : State) : State :=
  if !isQueen s || groupState s ≠ gsFlooding || drioreDown s then s
  else
    let missing := (boxPositions s).filter (fun c => SMap.get 0 s.groups.roster c = 0)
    let full := missing.isEmpty && s.groups.roster.all (fun e => e.2 < 2 ^ 65)
    if !full && s.us < s.groups.started + 1000 * fld s F.GROUP_RINGS_window_ms then s
    else
      let s := match missing with
        | c :: _ => reportTo (deviceId s) 9 (conflictData cfMissing 0 0 c) s
        | [] => s
      let s := msix 2 s
      if s.groups.conflict then setFld F.GROUP_STATUS_state 0 gsConflict s
      else enterConfirmed (sendConfirm (queenToken s true) s)

/-- Every 1 ms the queen repeats its last confirm copy, for as long as it remains queen (R327). -/
def keepalive (s : State) : State :=
  match s.groups.copy with
  | some b => if isQueen s && s.groups.kept + 1000 ≤ s.us then sendConfirm (tokenOf b) s else s
  | none => s

/-- No keepalive for 10 ms. -/
def orphan (s : State) : State :=
  if !isQueen s && groupState s = gsConfirmed && s.groups.kept + 10000 ≤ s.us then
    raise F.ENUM_EVENTS_orphan 0 (setFld F.GROUP_STATUS_state 0 gsOrphan s)
  else s

/-- JOINs that waited for the management processor. -/
def joinsResume (s : State) : State :=
  let js := s.groups.joins
  let s := modGroup (fun g => { g with joins := [] }) s
  if isQueen s then js.foldl (fun t j => enterJoin j.1 j.2 t) s
  else if js.isEmpty then s
  else sendJoin s

/-! ## The ordered sets of a CONTROL flit (R293) -/

/-- The kind byte and body of a slot of a CONTROL flit (R293). -/
def slotOf (flit : List Nat) (i : Nat) : Nat × Nat :=
  (nth 0 flit (4 + i), leNat ((flit.drop (32 + 16 * i)).take 16))

/-- One ordered set acted on as its own row acts on it. `inside`, `now` and `turnaround` are the times of R33 and R293. -/
def actOnSet (n inside now turnaround : Nat) (x : Nat × Nat) (s : State) : State :=
  match x.1 with
  | 1 => tickReceive n x.2 inside s
  | 2 => stretchReceive n x.2 s
  | 3 => echoReceive n x.2 now turnaround s
  | 4 => addressReceive n x.2 s
  | k => eqReceive n k x.2 s

/-- A flit arrives on a port: its header and packets, and the ordered sets of a CONTROL flit, whose bodies are checked one by
one even where the flit's CRC-32 has failed (R292, R293). -/
def flitReceive (n : Nat) (flit : List Nat) (corrected : Nat) (uncorrected : Bool) (inside now turnaround : Nat) (s : State) :
    State :=
  let t := dataFlitReceive n flit corrected uncorrected s
  if portState s n = ptUp && flit.length = 256 && flitKind flit = 1 && (flitClean flit || !flitCrcOk flit) then
    (List.range 13).foldl (fun u i => actOnSet n inside now turnaround (slotOf flit i) u) t
  else t

end Sys2Proof.Machine
end

