-- ==== Sys2Proof/Machine/Boundary.lean ====
section
/-! DEFINITION. The local tick: the boundary actions in their order, and the slices that begin (R34, R36–R38, R158, R339). -/

namespace Sys2Proof.Machine

/-! ## Step 3: deadlines (R38, R279, R287) -/

/-- Every pair of a hive in service, ascending. -/
def livePairs (s : State) : List Nat := (List.range 64).filter (fun p => hiveState s (hiveOf p) = hsInService)

/-- Every item of a pair's list closes if it is due, the last first. -/
def closeItems (len : State → Nat) (f : Nat → State → State) (s : State) : State :=
  ((List.range (len s)).reverse).foldl (fun t k => f k t) s

/-- Everything keyed by tag and pair: ascending tag, then ascending pair. -/
def closeTags (f : Nat → Nat → State → State) (s : State) : State :=
  iter 16 s (fun tag t => (livePairs t).foldl (fun u p => f p tag u) t)

/-- The deadlines that fall due; a change of GEX_EXCLUDE goes first. -/
def closeDeadlines (s : State) : State :=
  let s := excludeApply s
  let s := closeTags gexPostClose s
  let s := closeTags maskTimeout s
  let s := closeTags alltoallReceiveClose s
  let s := closeTags batchClose s
  let s := (livePairs s).foldl (fun t p => closeItems (fun u => (pair u p).rings.length) (fun k u => collClose p k u) t) s
  let s := (livePairs s).foldl (fun t p => closeItems (fun u => (pair u p).perms.length) (fun k u => permuteCommit p k u) t) s
  let s := (livePairs s).foldl (fun t p => closeItems (fun u => (pair u p).digs.length) (fun k u => digcmpClose p k u) t) s
  closeItems (fun u => u.norms.length) normTimeout s

/-! ## The pattern library (R390) -/

/-- An accepted package replaces the library; units already started finish under the old one. -/
def patternLibraryReplace (s : State) : State :=
  match s.libPending with
  | none => s
  | some (v, ps) =>
    let s := iter 64 s unitKept
    raise F.RL_EVENTS_pattern_push 0 { s with libVersion := v, library := ps, libNext := 0, libPending := none }

/-! ## Notices (R339) -/

/-- The record put to a pair, with its rsig. -/
def noticePut (x : Notice) (p : Nat) (s : State) : State :=
  let s := memWrite (combAddr p x.off) x.bytes false s
  if hiveState s (hiveOf p) ≠ hsInService then logOffline (hiveOf p) p s else semInc p x.sem s

/-- A notice whose writes were made is delivered, and its event sent. -/
def noticeDeliver (x : Notice) (s : State) : State :=
  let s := if x.deliver then (setBitsOf 64 x.pairs).foldl (fun t p => noticePut x p t) s else s
  sendEvent 0x0E 0x40 255 (x.breath + b2n x.late * 2 ^ 63) s

/-- The notices applied at the last guard point are delivered at the boundary that follows. -/
def notifyDeliver (s : State) : State :=
  let xs := s.host.notices.filter (fun x => x.applied)
  let s := { s with host := { s.host with notices := s.host.notices.filter (fun x => !x.applied) } }
  xs.foldl (fun t x => noticeDeliver x t) s

/-! ## Steps 7 and 8 -/

/-- A new run counts its windows from 0: what the last run's windows hold is dropped (DESIGN CHOICE, log 122). -/
def windowsRestart (s : State) : State :=
  biasStatus { s with winNext := 0, winClosed := [], windowLoads := [], winTotals := [] }

/-- The schedule breath number: 0 at the score start of a new run, else one more once a run counts (R37). -/
def advanceNumber (starts : List Nat) (s : State) : State :=
  if starts.any (fun p => (pair s p).startNew) then
    windowsRestart (setFld F.BREATH_SCHED_sched_breath 0 0 (modBreath (fun b => { b with counting := true }) s))
  else setFld F.BREATH_SCHED_sched_breath 0 (comingBreath s) s

/-- Slices begin: WAITING pairs start theirs, a pair whose slice runs late is owed one, and the pairs whose start tick this is
are marked to start. -/
def beginSlices (starts : List Nat) (s : State) : State :=
  let n := schedBreath s
  let s := starts.foldl (fun t p => modPair p (fun x => { x with startDue := true }) t) s
  (livePairs s).foldl (fun t p =>
    if seqState t p = sqWaiting then beginSlice p n t
    else if seqState t p = sqRunning && (pair t p).inSlice then modPair p (fun x => { x with owed := some n }) t
    else t) s

/-- A boundary tick, in the order of R38. -/
def boundaryTick (number : Nat) (s : State) : State :=
  let s := faultsTake (comingBreath s) number s
  let s := bwWindowEnd (counterFreeze s)
  let s := closeDeadlines s
  let s := switchAt (comingBreath s) s
  let s := biasUpdate (biasShadowApply (biasWindowClose s))
  let s := humFloorUpdate (energyApply (patternLibraryReplace s))
  let s := testWindowBegin (ageApply (testWindowEnd s))
  let starts := startsAt s number
  let s := notifyDeliver (advanceNumber starts s)
  modBreath (fun b => { b with guarded := false }) (beginSlices starts s)

/-- One tick budget after its emission the oldest tick acted on fires: a hold, or a boundary (R34, R36). -/
def localTickFire (s : State) : State :=
  match s.breath.due with
  | [] => s
  | t :: rest =>
    if !(breathState s = bsArmed || breathState s = bsRunning) then s
    else
      let hold := (t.hold || s.breath.holds.contains t.number) && !t.resync
      let s := tickFired t (modBreath (fun b => { b with due := rest }) s)
      spendHolds t.number (if hold then holdTick t s else boundaryTick t.number s)

end Sys2Proof.Machine
end

