-- ==== Sys2Proof/Machine/Mailbox.lean ====
section
/-! DEFINITION. The mailbox (R337, R338, R410, R415): the doorbell, the queue of commands that Driore or the ROM works through,
responses, and commands relayed to other parts. -/

namespace Sys2Proof.Machine

def modHost (f : HostS → HostS) (s : State) : State := { s with host := f s.host }

/-- The part is in RECOVERY, where the ROM answers (R410). -/
def inRecovery (s : State) : Bool := s.inService && fld s F.BOOT_STATUS_state = 3

/-- Someone serves the mailbox: Driore, or the ROM. -/
def mboxServed (s : State) : Bool := inRecovery s || !drioreDown s

/-- A little-endian number of n bytes in the command buffer. -/
def cmdNum (s : State) (off n : Nat) : Nat := leNat ((List.range n).map (fun i => SMap.get 0 s.host.cmd (off + i)))

/-- The command in the buffer; bytes past the buffer's end read 0. -/
def bufferCmd (s : State) : MboxCmd :=
  let w := cmdNum s 0 8
  { opcode := bitsOf w 15 0
    seq := bitsOf w 31 16
    payload := (List.range (bitsOf w 47 32)).map (fun i => if i < 4064 then SMap.get 0 s.host.cmd (32 + i) else 0)
    remote := if bitAt w 48 then some (cmdNum s 8 2) else none }

/-- A response: its header and payload. -/
def responseBytes (c : MboxCmd) (status : Nat) (poison : Bool) (data : List Nat) : List Nat :=
  natLe 8 (c.opcode + c.seq * 2 ^ 16 + data.length * 2 ^ 32 + status * 2 ^ 48 + b2n poison * 2 ^ 56)
    ++ List.replicate 24 0 ++ data

/-- Bytes put in a buffer from its start. -/
def putBuffer (m : SMap Nat) (bs : List Nat) : SMap Nat :=
  (List.range bs.length).foldl (fun m i => SMap.set 0 m i (nth 0 bs i)) m

/-- A response reaches the response buffer: last completed is updated and vector 0 raised. -/
def respond (bytes : List Nat) (s : State) : State :=
  msix 0 (modHost (fun x => { x with rsp := putBuffer x.rsp bytes, completed := x.accepted, busy := false }) s)

/-- A packet of the relay or of a window access, of ptype HOST; its fields are the model's own (R294 gives them no bits). -/
def hostPacket (dst cls req : Nat) (aux data : List Nat) : Packet where
  ptype := 0x20
  dst := dst
  cls := cls
  req := req
  aux := aux
  data := data

/-- A command's response goes where it came from; after an FLR it is discarded. -/
def answer (c : MboxCmd) (status : Nat) (poison : Bool) (data : List Nat) (s : State) : State :=
  match c.relay with
  | some (part, num) =>
    let bs := responseBytes c status poison data
    inject (hostPacket part 2 num [4, bs.length] bs) s
  | none => if c.gone then s else respond (responseBytes c status poison data) s

/-- A confirmed member of the group this queen leads. -/
def confirmedMember (s : State) (t : Nat) : Bool :=
  isQueen s && groupState s = 3 && SMap.get 0 s.groups.roster t ≠ 0

/-- The queen's Driore relays a remote command. -/
def relayCmd (t : Nat) (c : MboxCmd) (s : State) : State :=
  if confirmedMember s t then
    let num := s.host.relayNext
    let s := modHost (fun x => { x with relayed := x.relayed ++ [(c, num, s.us, t)], relayNext := num + 1 }) s
    inject (hostPacket t 1 num [2, c.opcode, c.seq, c.payload.length] c.payload) s
  else answer c 4 false [] s

/-- The opcodes of R338. -/
def opcodeKnown (op : Nat) : Bool := [0x0001, 0x0010, 0x0011, 0x0012, 0x0020, 0x0021, 0x0022, 0x0030].contains op

/-- A little-endian number in a payload. -/
def payNum (c : MboxCmd) (off n : Nat) : Nat := leNat ((c.payload.drop off).take n)

/-- The op of an ATTEST or FLASH_WRITE. -/
def attestOp (c : MboxCmd) : Nat := payNum c 0 1
def flashOpOf (c : MboxCmd) : Nat := payNum c 0 8 % 8

/-- The flash's refusals that come before any op's own (R411). -/
def flashBusy (s : State) (op : Nat) : Option Nat :=
  if !s.boot.identified then some 4 else if s.boot.flashOp.isSome && op ≠ 4 then some 7 else none

/-- The status of a command that reaches no row of its own: an opcode that is unknown or not served here, a payload too long, an op
the opcode does not have. -/
def turnedAway (s : State) (c : MboxCmd) : Option Nat :=
  if inRecovery s && (c.remote.isSome || !(c.opcode = 0x0001 || c.opcode = 0x0012)) then some 4
  else if c.payload.length > 4064 then some 2
  else if c.remote.isSome then none
  else if !opcodeKnown c.opcode then some 1
  else if c.opcode = 0x0011 && (c.payload.length < 8 || attestOp c > 1) then some 2
  else if c.opcode = 0x0012 && (c.payload.length < 16 || flashOpOf c > 4) then
    some ((flashBusy s (flashOpOf c)).getD 2)
  else none

/-- The queue goes on: commands that are turned away or relayed leave it, until one waits for its own row. -/
def mboxRun : Nat → State → State
  | 0, s => s
  | n + 1, s =>
    match s.host.queue with
    | [] => s
    | c :: rest =>
      if !mboxServed s then s
      else
        let t := modHost (fun x => { x with queue := rest }) s
        match turnedAway s c, c.remote with
        | some st, _ => mboxRun n (answer c st false [] t)
        | none, some dev => mboxRun n (relayCmd dev c t)
        | none, none => s

/-- The queue goes on as far as it can. -/
def mboxGo (s : State) : State := mboxRun (s.host.queue.length + 1) s

/-- The doorbell: the command in the buffer is accepted, or the bell is ignored while one is in progress. -/
def doorbell (seq : Nat) (s : State) : State :=
  if s.host.busy then raise F.HOST_EVENTS_mbox_busy 0 s
  else mboxGo (modHost (fun x => { x with accepted := seq % 65536, busy := true, queue := x.queue ++ [bufferCmd s] }) s)

/-- The command at the front of the queue is worked through by its own row: `f` gives status, poison bit, data and the state. -/
def onCommand (op : Nat) (test : MboxCmd → Bool) (f : MboxCmd → State → Nat × Bool × List Nat × State) (s : State) : State :=
  match s.host.queue with
  | [] => s
  | c :: rest =>
    if mboxServed s && c.opcode = op && c.remote.isNone && (turnedAway s c).isNone && test c then
      let r := f c (modHost (fun x => { x with queue := rest }) s)
      mboxGo (answer c r.1 r.2.1 r.2.2.1 r.2.2.2)
    else s

/-- A write into the mailbox area at its relative offset: the command buffer, or the doorbell (R337, R415). -/
def mboxWrite (o size v : Nat) (s : State) : State :=
  if o < 0x1000 then
    modHost (fun x => { x with cmd := (List.range size).foldl (fun m i => SMap.set 0 m (o + i) (v / 256 ^ i % 256)) x.cmd }) s
  else if o = 0x2000 then doorbell v s
  else s

end Sys2Proof.Machine
end

