-- ==== Sys2Proof/Machine/RegAccess.lean ====
section
/-! DEFINITION. Writing the register space: access codes and write rules field by field (R5–R9, R12, R13), what a write sets off,
and the guard point, where notices make their register writes (R39–R44, R339). -/

namespace Sys2Proof.Machine

/-! ## Conditions the chapters put on writes -/

def inR (v lo hi : Nat) : Bool := lo ≤ v && v ≤ hi

/-- A test window is active (R356, R392). -/
def windowActive (s : State) : Bool := s.power.window.isSome

/-- The array of a pair is idle with nothing spilled (R78). -/
def arrayFree (s : State) (p : Nat) : Bool := !(pair s p).array.busy && fld s F.ARRAY_STATUS_spilled p = 0

/-- The forager of a pair is idle, its ring empty (R147). -/
def foragerFree (s : State) (p : Nat) : Bool :=
  (pair s p).walks.isEmpty && (pair s p).lists.isEmpty && (pair s p).ring.isEmpty

/-- The pair's sequencer is IDLE, DONE or FAULTED (R176). -/
def seqParked (s : State) (p : Nat) : Bool :=
  seqState s p = sqIdle || seqState s p = sqDone || seqState s p = sqFaulted

/-- The group fields of a queen in IDLE or CONFLICT (R342). -/
def groupOpen (s : State) : Bool := isQueen s && (groupState s = gsIdle || groupState s = gsConflict)

/-- A positive finite FP32 pattern. -/
def posFinite (v : Nat) : Bool := 0 < v && v < 0x7F800000

/-- The present state and the stated range let a field, named by its low bit, take a value that differs from the one it holds. -/
def fieldOk (r : Reg) (i lo v requester : Nat) (s : State) : Bool :=
  match r with
  | .BREATH_PERIOD => breathState s = bsIdle && (if lo = 32 then inR v 4 100 else inR v 2000 200000)
  | .BREATH_COMP => breathState s = bsIdle || breathState s = bsTickLost || breathState s = bsDesync
  | .BREATH_STRETCH => v ≠ 0
  | .ARRAY_CTRL => if lo = 20 then true else if lo = 8 then v ≤ 32 else arrayFree s i && (lo ≠ 24 || v ≠ 0)
  | .ARRAY_SPILL => arrayFree s i
  | .NUM_CTRL => lo = 32 || (!scoreRuns s i && (v ≤ 67 || 130 ≤ v))
  | .QUANT_CTRL => lo ≠ 8 || (!scoreRuns s i && inR v 4 30)
  | .FORAGER_CTRL => lo ≠ 4 || foragerFree s i
  | .FORAGER_RING => foragerFree s i && (lo ≠ 32 || inR v 1 256)
  | .SEQ_SCORE => seqParked s i
  | .SEQ_ENTRY => seqParked s i
  | .SEQ_CTRL => lo = 7 || (pairQuiet s i && inR v 1 4)
  | .MEM_CTRL =>
    lo ≤ 1 || (!fldB s F.MEM_STATUS_self_refresh i && (lo ≠ 32 || 10 ≤ v) && ((lo ≠ 22 && lo ≠ 16) || 1 ≤ v))
  | .ROUTE_CTRL => lo = 0 || (!fldB s F.ROUTE_CTRL_loop_en && ((lo ≠ 10 && lo ≠ 26) || 1 ≤ v))
  | .ROUTE_LOOP => !fldB s F.ROUTE_CTRL_loop_en && posFinite v
  | .ROUTE_DEST => !fldB s F.ROUTE_CTRL_loop_en
  | .ROUTER_r => !fldB s F.ROUTE_CTRL_loop_en
  | .LINK_CTRL => lo ≠ 8 || inR v 33 63
  | .LINK_TIMEOUT => if lo = 32 then inR v 1 1000 else 2100 ≤ v
  | .PORT_CTRL => lo ≠ 6 || v ≤ 1 || (v = 2 && i = 8 && fld s F.GROUP_STATUS_role ≠ 0)
  | .GROUP_CFG => groupOpen s && (lo ≤ 16 || !s.groups.confirmed)
  | .GROUP_RINGS =>
    groupOpen s && (if lo = 16 then inR v 10 10000 else (List.range 4).all (fun a => 1 ≤ bitsOf v (4 * a + 3) (4 * a)))
  | .HOST_EVQ_BASE => !fldB s F.HOST_CTRL_evq_en && (lo ≠ 0 || v ≤ 10)
  | .PCC_CTRL => lo ≠ 4 || v ≠ 3
  | .PCC_VOLT => if lo = 24 then v ≤ 16 else v ≤ 100
  | .PCC_CLOCK => if lo = 16 then v = 0 || inR v 30 80 else if lo = 8 then inR v 30 70 else inR v 40 80
  | .PCC_CAP => if lo = 32 then inR v 1000 2400 else inR v 200 1600
  | .PCC_LOOP => if lo = 24 then 1 ≤ v else if lo = 16 then v ≤ 32 else if lo = 8 then inR v 2 8 else inR v 1 100
  | .PCC_HUM => lo ≠ 16 || 1 ≤ v
  | .PCC_THERM => inR v 70 90
  | .PCC_BRAKE => if lo = 16 then inR v 1 1000 else inR v 1 7
  | .PCC_MARGIN => !windowActive s && (if lo = 8 then v ≤ 8 else v ≤ 16)
  | .PCC_MARGIN_PAIRS => !windowActive s
  | .PCC_PAIR_p => v ≤ 16
  | .RL_CTRL => if lo = 40 then 2 ≤ v else if lo = 26 then inR v 10 10000 else lo ≠ 12 || 1 ≤ v
  | .RL_CHECK => if lo = 20 then 1 ≤ v else if lo = 12 then inR v 1 7 else lo ≠ 0 || 63 ≤ v
  | .RL_TWIN => !windowActive s && (lo ≠ 56 || fld s F.RL_TWIN_REP_period = 0 || v < fld s F.RL_TWIN_REP_period)
  | .RL_TWIN_REP => !windowActive s && (v = 0 || fld s F.RL_TWIN_length < v)
  | .RL_DUMP_CFG => !(List.range 4).any (dumping s) && inR v 10 54
  | .RL_DUMP_RANGE_i => !(List.range 4).any (dumping s) && (lo ≠ 44 || 1 ≤ v)
  | .BOOT_CMD => requester = rqDriore && !fldB s F.BOOT_STATUS_boot_lock
  | .CTR_WINDOW => 1 ≤ v
  | .CTR_P_SAMPLE => lo ≠ 8 || inR v 10 47
  | _ => true

/-- Router r as a word would set it stands beside the other enabled routers (R251). -/
def routerFits (s : State) (r : Nat) (w : Word) : Bool :=
  let n := getField F.ROUTER_r_experts w
  let b := getField F.ROUTER_r_base w
  let c := getField F.ROUTER_r_comb_off w
  n = 0 || (b + n ≤ 4096 && 64 * c + 4 * n ≤ combBytes && (List.range 16).all (fun q =>
    let m := fld s F.ROUTER_r_experts q
    let a := fld s F.ROUTER_r_base q
    q = r || m = 0 || ((b + n ≤ a || a + m ≤ b) && c ≠ fld s F.ROUTER_r_comb_off q)))

/-- A register whose chapter checks several of its fields together would pass with this word (R13). -/
def jointOk (r : Reg) (i : Nat) (w : Word) (s : State) : Bool :=
  match r with
  | .ARRAY_CTRL => fld s F.ARRAY_SPILL_spill_base i + getField F.ARRAY_CTRL_spill_slots w ≤ 256
  | .ARRAY_SPILL => getField F.ARRAY_SPILL_spill_base w + fld s F.ARRAY_CTRL_spill_slots i ≤ 256
  | .FORAGER_RING => getField F.FORAGER_RING_ring_base w * 2 ^ 20 + getField F.FORAGER_RING_ring_size w * 65536 ≤ hiveBytes
  | .SEQ_SCORE =>
    let a := getField F.SEQ_SCORE_base w * 4096
    let lo := nearBase + hiveOf i * hiveBytes
    lo ≤ a && a + 16 * (getField F.SEQ_SCORE_length_m1 w + 1) ≤ lo + hiveBytes
  | .ROUTE_CTRL => getField F.ROUTE_CTRL_lag w ≤ getField F.ROUTE_CTRL_period w
  | .ROUTER_r => routerFits s i w
  | .GROUP_CFG =>
    boxOk (getField F.GROUP_CFG_box_base w) (getField F.GROUP_CFG_box_ext_m1 w) (fld s F.GROUP_RINGS_ring_m1)
      (getField F.GROUP_CFG_queen_coord w)
  | .GROUP_RINGS =>
    boxOk (fld s F.GROUP_CFG_box_base) (fld s F.GROUP_CFG_box_ext_m1) (getField F.GROUP_RINGS_ring_m1 w)
      (fld s F.GROUP_CFG_queen_coord)
  | .PCC_VOLT => getField F.PCC_VOLT_v_min w ≤ getField F.PCC_VOLT_v_max w
  | .PCC_CLOCK => getField F.PCC_CLOCK_f_floor w ≤ getField F.PCC_CLOCK_f_max w
  | _ => true

/-- The ignored_write bit of a register's block. -/
def ignoredBit (r : Reg) (i : Nat) : Option (Fld × Nat) :=
  match r with
  | .BREATH_CTRL | .BREATH_PERIOD | .BREATH_COMP | .BREATH_STRETCH | .BREATH_CMD => some (F.BREATH_EVENTS_ignored_write, 0)
  | .ARRAY_CTRL | .ARRAY_SPILL => some (F.ARRAY_EVENTS_ignored_write, i)
  | .NUM_CTRL => some (F.NUM_EVENTS_ignored_write, i)
  | .QUANT_CTRL => some (F.QUANT_EVENTS_ignored_write, i)
  | .FORAGER_CTRL | .FORAGER_RING => some (F.FORAGER_EVENTS_ignored_write, i)
  | .SEQ_SCORE | .SEQ_ENTRY | .SEQ_CTRL | .SEQ_CMD => some (F.SEQ_EVENTS_ignored_write, i)
  | .MEM_CTRL => some (F.MEM_EVENTS_ignored_write, i)
  | .ROUTE_CTRL | .ROUTE_LOOP | .ROUTE_DEST | .ROUTER_r => some (F.ROUTE_EVENTS_ignored_write, 0)
  | .LINK_CTRL | .LINK_TIMEOUT | .PORT_CTRL | .PORT_CMD => some (F.LINK_EVENTS_ignored_write, 0)
  | .GROUP_CFG | .GROUP_RINGS | .ENUM_CMD => some (F.ENUM_EVENTS_ignored_write, 0)
  | .HOST_EVQ_BASE | .HOST_APT_n => some (F.HOST_EVENTS_ignored_write, 0)
  | .PCC_CTRL | .PCC_VOLT | .PCC_CLOCK | .PCC_CAP | .PCC_LOOP | .PCC_HUM | .PCC_THERM | .PCC_BRAKE | .PCC_MARGIN
  | .PCC_MARGIN_PAIRS | .PCC_PAIR_p => some (F.PCC_EVENTS_ignored_write, 0)
  | .RL_CTRL | .RL_CHECK | .RL_TWIN | .RL_TWIN_REP | .RL_DUMP_CFG | .RL_DUMP_RANGE_i => some (F.RL_EVENTS_ignored_write, 0)
  | .BOOT_CMD => some (F.BOOT_EVENTS_ignored_write, 0)
  | .CTR_WINDOW | .CTR_P_SAMPLE => some (F.CTR_EVENTS_ignored_write, 0)
  | _ => none

/-- A write to the block was ignored (R13). -/
def noteIgnored (r : Reg) (i : Nat) (s : State) : State :=
  match ignoredBit r i with
  | some (f, j) => raise f j s
  | none => s

/-! ## A write field by field (R6, R8, R13) -/

/-- A field whose write its own operation takes. -/
def ownWrite (r : Reg) (lo : Nat) : Bool :=
  match r with
  | .BREATH_CTRL => lo = 5
  | .ROUTE_BIAS_i => true
  | .GEX_EXCLUDE => true
  | .CTR_FREEZE => lo = 0
  | .CTR_P_SEL => true
  | _ => false

/-- The field of a register at some bits. -/
def fieldAt (r : Reg) (f : FieldInfo) : Fld := { reg := r, hi := f.hi, lo := f.lo }

/-- The word a field's write makes of a register: `w` is the word so far, `new` the word written, `bits` its written bits alone;
and whether the write of the field was ignored. -/
def fieldWrite (r : Reg) (i : Nat) (w new bits : Word) (requester : Nat) (s : State) (f : FieldInfo) : Word × Bool :=
  let g := fieldAt r f
  match f.acc with
  | .ro => (w, false)
  | .w1c => (w &&& ~~~(bits &&& maskW f.hi f.lo), false)
  | .wo => (w, getField g bits ≠ 0 && !fieldOk r i f.lo (getField g bits) requester s)
  | .rw =>
    if ownWrite r f.lo || getField g new = getField g w then (w, false)
    else if fieldOk r i f.lo (getField g new) requester s then (putField g (getField g new) w, false)
    else (w, true)
  | .rwl =>
    if getField g new = getField g w then (w, false)
    else if !fldB s F.BOOT_STATUS_boot_lock && fieldOk r i f.lo (getField g new) requester s then
      (putField g (getField g new) w, false)
    else (w, true)

/-- Every field of a write, high to low. -/
def fieldsWrite (r : Reg) (i : Nat) (old new bits : Word) (requester : Nat) (s : State) : Word × Bool :=
  r.fields.foldl (fun x f =>
    let y := fieldWrite r i x.1 new bits requester s f
    (y.1, x.2 || y.2)) (old, false)

/-! ## What a write sets off -/

/-- The commands of BREATH_CMD, in the order resume, arm, cease. -/
def breathCmd (b : Nat) (s : State) : State :=
  let s := if bitAt b 2 then breathResume s else s
  let s := if bitAt b 1 then breathArm s else s
  if bitAt b 0 then breathCease s else s

/-- SEQ_CMD takes one command at a time. -/
def seqCmd (p b : Nat) (s : State) : State :=
  match b % 8 with
  | 0 => s
  | 1 => seqPause p s
  | 2 => seqResume p s
  | 4 => seqClear p s
  | _ => seqIgnored p s

def portCmd (n b : Nat) (s : State) : State :=
  let s := if bitAt b 1 then portDown n s else s
  if bitAt b 0 then retrainPort n s else s

def enumCmd (b : Nat) (s : State) : State :=
  let s := if bitAt b 2 then enumPromote s else s
  let s := if bitAt b 1 then enumDemote s else s
  if bitAt b 0 then enumStart s else s

def ctrCmd (b : Nat) (s : State) : State :=
  let s := if bitAt b 1 then freezeNow s else s
  if bitAt b 0 then clearAll s else s

/-- Host writes of biases go to the shadow (R233). -/
def biasWrite (i new mask : Nat) (s : State) : State :=
  let put (e v : Nat) (s : State) : State := { s with biasShadow := SMap.insert s.biasShadow e v }
  let s := if bitAt mask 0 then put (2 * i) (bitsOf new 31 0) s else s
  if bitAt mask 32 then put (2 * i + 1) (bitsOf new 63 32) s else s

/-- Starting the bias loop begins its count of windows at the current one. -/
def loopStarted (was : Bool) (s : State) : State :=
  if !was && fldB s F.ROUTE_CTRL_loop_en then { s with winNext := schedBreath s / fld s F.ROUTE_CTRL_period } else s

/-- Clearing a sparse condition's event bit returns its count to 0 (R149). -/
def sparseClear (p b : Nat) (s : State) : State :=
  let s := if bitAt b 0 then setFld F.FORAGER_SPARSE_excess_count p 0 s else s
  let s := if bitAt b 1 then setFld F.FORAGER_SPARSE_range_count p 0 s else s
  if bitAt b 2 then setFld F.FORAGER_SPARSE_order_count p 0 s else s

/-- What the write of a register sets off beside its fields: `new` is the word written, `bits` its written bits, `mask` which
bits were written, `old` the state before. -/
def writeActs (r : Reg) (i new bits mask : Nat) (old s : State) : State :=
  let low := bitAt mask 0
  match r with
  | .BREATH_CTRL => if low then tickSourceWrite (bitsOf new 6 5) s else s
  | .BREATH_CMD => breathCmd bits s
  | .SCORE_CMD => if low then startCmd (bitAt bits 0) (bitAt bits 1) s else s
  | .SEQ_CMD => seqCmd i bits s
  | .FORAGER_EVENTS => sparseClear i bits s
  | .MEM_POISON_REC => if bitAt bits 0 then poisonRecClear s else s
  | .ROUTE_CTRL => loopStarted (fldB old F.ROUTE_CTRL_loop_en) s
  | .ROUTE_BIAS_i => biasWrite i new mask s
  | .GEX_EXCLUDE =>
    let was := (s.exclPending.getD (reg s .GEX_EXCLUDE 0)).toNat
    { s with exclPending := some (BitVec.ofNat 64 (if low then (if bitAt mask 32 then new else putBits was 31 0 new)
        else putBits was 63 32 (new / 2 ^ 32))) }
  | .PORT_CMD => portCmd i bits s
  | .ENUM_CMD => enumCmd bits s
  | .HOST_CTRL | .HOST_EVQ_BASE | .HOST_EVQ_PTR => drainHeld 4096 s
  | .PCC_JOB => if low then modPower (fun x => { x with tagDue := some (bitsOf new 31 0) }) s else s
  | .PCC_CTRL =>
    powerStatus (if low then modPower (fun x => { x with modeDue := some (bitsOf new 7 7) }) s else s)
  | .PCC_VOLT =>
    powerStatus (if fld s F.PCC_VOLT_rail_offset = fld old F.PCC_VOLT_rail_offset then s else requestVoltage true s)
  | .PCC_CLOCK | .PCC_CAP | .PCC_LOOP | .PCC_HUM | .PCC_THERM | .PCC_BRAKE | .PCC_PAIR_p => powerStatus s
  | .RL_HEARTBEAT => if bitAt bits 0 then heartbeat s else s
  | .RL_DUMP_SLOT_g => if bitAt bits 62 then dumpSlotRelease i s else s
  | .BOOT_CMD => if bitAt bits 0 then bootCommand s else s
  | .CTR_CMD => ctrCmd bits s
  | .CTR_FREEZE => if bitsOf new 47 0 = fld s F.CTR_FREEZE_at then s else freezeAt (bitsOf new 47 0) s
  | .CTR_P_SEL => selWrite i new s
  | .CTR_P_CTRL => counterClear i (bitsOf bits 27 16) s
  | _ => s

/-- BOOT_CMD acts for the management processor alone. -/
def actAllowed (r : Reg) (requester : Nat) (s : State) : Bool :=
  match r with
  | .BOOT_CMD => fieldOk .BOOT_CMD 0 0 1 requester s
  | _ => true

/-- A write that the register refuses as a whole: a joint check, or an aperture that is not 4 GiB aligned. -/
def wholeRefused (r : Reg) (i : Nat) (w bits : Word) (s : State) : Bool :=
  (w ≠ reg s r i && !jointOk r i w s) || (r = .HOST_APT_n && bits.toNat % 2 ^ 32 ≠ 0)

/-- A write of the masked bits of a register. One to the pair window of a hive that is DISABLED or under reset is stored until its
next enable or reset (DESIGN CHOICE, log 125). -/
def writeReg (r : Reg) (i : Nat) (v mask : Word) (requester : Nat) (s : State) : State :=
  let old := reg s r i
  let bits := v &&& mask
  let new := (old &&& ~~~mask) ||| bits
  let x := fieldsWrite r i old new bits requester s
  if wholeRefused r i x.1 bits s then noteIgnored r i s
  else
    let t := setReg r i x.1 s
    let t := if x.2 then noteIgnored r i t else t
    if actAllowed r requester s then writeActs r i new.toNat bits.toNat mask.toNat s t else t

/-- The bits of its word that a write of 4 or 8 bytes at an offset covers. -/
def writeMask (off size : Nat) : Word :=
  if size = 8 then maskW 63 0 else if off % 8 = 4 then maskW 63 32 else maskW 31 0

/-- The value in its place in the word. -/
def writeValue (off size v : Nat) : Word :=
  if size = 8 then BitVec.ofNat 64 v else if off % 8 = 4 then BitVec.ofNat 64 (v % 2 ^ 32 * 2 ^ 32) else BitVec.ofNat 64 (v % 2 ^ 32)

/-- The offsets within a bank that the user alias opens (R424). -/
def aliasOpen (o : Nat) : Bool := o = 0x60 || o = 0x68 || o = 0x70

/-- An aligned write of 4 or 8 bytes at an offset of the register space: the mailbox mirror, the user alias, a register. -/
def writeAt (off size v requester : Nat) (s : State) : State :=
  let word := off / 8 * 8
  if 0x41000 ≤ off && off < 0x43010 then mboxWrite (off - 0x41000) size v s
  else if 0x6C000 ≤ off && off < 0x70000 then
    if fldB s F.CTR_USER_en && aliasOpen (word % 0x100) then
      match regAt (word - 0x4000) with
      | some (r, i) => writeReg r i (writeValue off size v) (writeMask off size) requester s
      | none => s
    else s
  else
    match regAt word with
    | some (r, i) => writeReg r i (writeValue off size v) (writeMask off size) requester s
    | none => s

/-- A write to the register space by a register path (R5, R206, R207). -/
def regWrite (off size v requester : Nat) (s : State) : State :=
  if off ≥ 0x2000000 then unmappedAccess (regBase + off) size requester true s
  else if !accessOk off size then accessFault off size requester true s
  else writeAt off size v requester s

/-- The BARs answer: the link is up, the function in D0 (R330). -/
def barsOpen (s : State) : Bool := s.inService && s.pcieUp && !s.pcieD3

/-- A write by BAR0 above the register space: the MSI-X table, the PBA, which ignores it, the mailbox (R331). They take aligned accesses of 4 and 8 bytes only. -/
def bar0Upper (off size v : Nat) (s : State) : State :=
  if !accessOk off size then s
  else if off < 0x2000100 then
    let put (m : SMap Nat) : SMap Nat :=
      (List.range size).foldl (fun m i =>
        let o := off - 0x2000000 + i
        SMap.set 0 m o ((v / 256 ^ i % 256) ^^^ b2n (o % 16 = 12))) m
    msixUnmask (modHost (fun x => { x with msixArea := put x.msixArea }) s)
  else if 0x2010000 ≤ off && off < 0x2012010 then mboxWrite (off - 0x2010000) size v s
  else s

/-- REGISTER_WRITE: a write of the low bytes of a value by the host through BAR0, by Driore or through JTAG. -/
def registerWrite (off size v requester : Nat) (s : State) : State :=
  if !s.inService then s
  else if requester = rqHost then
    if !barsOpen s then s else if off ≥ 0x2000000 then bar0Upper off size v s else regWrite off size v requester s
  else if requester = rqDriore then (if drioreDown s then s else regWrite off size v requester s)
  else if requester = rqJtag then regWrite off size v requester s
  else if requester = rqI3c then accessFault off size requester true s
  else s

/-! ## The guard point (R39, R40, R43, R44) -/

/-- Pairs whose slice has not ended. -/
def latePairs (s : State) : List Nat :=
  (livePairs s).filter (fun p => seqState s p = sqRunning && (pair s p).inSlice)

/-- A hive fault at breath end in each hive that holds a late pair. -/
def escalateLate (ps : List Nat) (s : State) : State :=
  (List.range 4).foldl (fun t h =>
    match ps.find? (fun p => hiveOf p = h) with
    | some p => escalate h 2 p t
    | none => t) s

/-- OVERRUN: recorded, and by policy a stretch is requested or hives are faulted; in TICK_LOST the request is
discarded (R46). -/
def overrun (ps : List Nat) (s : State) : State :=
  let s := raise F.BREATH_EVENTS_overrun 0 (satAddFld F.BREATH_COUNTS_overrun_count 0 1 s)
  let s := setFld F.BREATH_OVERRUN_PAIRS_pairs 0 (ps.foldl setBitN 0) s
  if fldB s F.BREATH_CTRL_overrun_policy then escalateLate ps s
  else if breathState s = bsTickLost then s
  else
    let k := fld s F.BREATH_STRETCH_consecutive + 1
    if k > fld s F.BREATH_STRETCH_stretch_limit then escalateLate ps (raise F.BREATH_EVENTS_stretch_limit 0 s)
    else
      let target := tickNumber s + 2
      markHold target (flood 9 2 (stretchBody (deviceId s) target) (setFld F.BREATH_STRETCH_consecutive 0 k s))

/-! ## Notices at the guard point (R339) -/

/-- The register writes of a notice, in the order listed. -/
def noticeWrites (x : Notice) (s : State) : State :=
  x.writes.foldl (fun t w => regWrite (w.1 - regBase) 8 w.2 rqHost t) s

/-- The notices due by the coming breath make their writes; those past their breath are late. -/
def noticesApply (s : State) : State :=
  let coming := comingBreath s
  let due (x : Notice) : Bool := !x.applied && x.breath ≤ coming
  let xs := s.host.notices.filter due
  let mark (x : Notice) : Notice := if due x then { x with applied := true, late := decide (x.breath < coming) } else x
  let s := modHost (fun h => { h with notices := h.notices.map mark }) s
  xs.foldl (fun t x => noticeWrites x t) s

/-- A guard point may pass now: the part runs, this breath's has not passed, the tick that follows is no hold (R43). -/
def guardOpen (s : State) : Bool :=
  breathState s = bsRunning && !s.breath.guarded && !s.breath.holds.contains (tickNumber s + 1)

def notifyApply (s : State) : State := if guardOpen s then noticesApply s else s

/-- The guard point: the running pairs are judged, then notices that fall due make their writes. In TICK_LOST late slices are judged
alone (R46, R339); in DESYNC and ARMED no slice is judged (DESIGN CHOICE, log 124). -/
def guardPoint (s : State) : State :=
  if breathState s = bsTickLost && !s.breath.guarded then
    let s := if (latePairs s).isEmpty then s else overrun (latePairs s) s
    modBreath (fun b => { b with guarded := true }) s
  else if !guardOpen s then s
  else
    let ps := latePairs s
    let s := if ps.isEmpty then setFld F.BREATH_STRETCH_consecutive 0 0 s else overrun ps s
    noticesApply (modBreath (fun b => { b with guarded := true }) s)

end Sys2Proof.Machine
end

