-- ==== Sys2Proof/Machine/Host.lean ====
section
/-! DEFINITION. The host side (R330–R339): the endpoint's resets and power states, windows and apertures, the mailbox commands, relayed
commands, and the restart of the management processor (R385). -/

namespace Sys2Proof.Machine

/-! ## The endpoint (R330, R333, R336) -/

/-- The registers of the host unit. -/
def hostRegs : List Reg := [.HOST_CTRL, .HOST_EVENTS, .HOST_EVQ_BASE, .HOST_EVQ_PTR, .HOST_WIN_n, .HOST_APT_n]

/-- An FLR: the host registers, the MSI-X table and the mailbox area return to their After reset values; the responses of commands in
progress are discarded. -/
def flr (s : State) : State :=
  let s := { s with regs := SMap.dropKeys s.regs (fun k => hostRegs.any (fun r => r.code = k % 256)), pcieD3 := false }
  modHost (fun x =>
    { x with cmd := [], rsp := [], msixArea := [], pba := 0, accepted := 0, completed := 0, busy := false
             queue := x.queue.map (fun c => { c with gone := true })
             relayed := x.relayed.map (fun e => ({ e.1 with gone := true }, e.2)) }) s

/-- The endpoint is one physical function of type 0 and of this class code (R330). -/
abbrev endpointType : Nat := 0
abbrev endpointClass : Nat := 0x120000

/-- A hot reset or link down acts as FLR. -/
def pcieLinkDown (s : State) : State := if s.pcieUp then { flr s with pcieUp := false } else s

/-- The part has an endpoint: its spur is PCIe, in RECOVERY by the ROM (R330, R410). -/
def hasEndpoint (s : State) : Bool :=
  s.inService && fld s F.GROUP_STATUS_role ≠ 0 && (portState s 8 = ptPcie || inRecovery s)

/-- The endpoint's link comes up: records held go to the ring if it is enabled. -/
def pcieLinkUp (s : State) : State :=
  if s.pcieUp || !hasEndpoint s then s else drainHeld 4096 { s with pcieUp := true }

/-- The host moves the function between D0 and D3hot. A configuration write that sets the ECRC enables comes by the same row:
the pair is generation and checking (PRESUMED, log 120). -/
def pciePowerState (d3 : Bool) (ecrc : Option (Bool × Bool)) (s : State) : State :=
  if !s.pcieUp then s
  else
    let s := { s with pcieD3 := d3 }
    match ecrc with
    | some e => modHost (fun x => { x with aer := { x.aer with ecrcGen := e.1, ecrcCheck := e.2 } }) s
    | none => s

/-- A TLP of the host is taken: an EP bit shows in the AER status; one whose ECRC is checked and wrong shows there and goes no
further (R330; what becomes of it is PRESUMED, log 120). -/
def takeTlp (x : Tlp) (f : State → State) (s : State) : State :=
  let s := if x.ep then modHost (fun h => { h with aer := { h.aer with poisoned := true } }) s else s
  if x.ecrcBad && s.host.aer.ecrcCheck then modHost (fun h => { h with aer := { h.aer with ecrc := true } }) s else f s

/-- Vector 1: new records, at most once per coalesce_us. -/
def eventInterrupt (s : State) : State :=
  let wait := match s.host.coalesced with
    | some t => decide (s.us < t + fld s F.HOST_CTRL_coalesce_us)
    | none => false
  if !s.newRecords || wait || s.pcieD3 || !s.pcieUp then s
  else msix 1 (modHost (fun x => { x with coalesced := some s.us }) { s with newRecords := false })

/-! ## Windows and apertures (R331, R332) -/

/-- A read's answer to the host: its bytes and its EP bit; a write has none. -/
def hostReply (tag : Nat) (write : Bool) (bytes : List Nat) (ep : Bool) (s : State) : State :=
  if write then s else emit (.completion tag bytes ep) s

/-- An access to BAR2 or BAR4 of a standby part, or in RECOVERY. -/
def standbyAccess (tag size : Nat) (write : Bool) (s : State) : State :=
  hostReply tag write (List.replicate size 0) true (raise F.HOST_EVENTS_standby_access 0 s)

/-- BAR2 and BAR4 reach the group only on a queen that runs (R331, R410). -/
def standsBy (s : State) : Bool := !isQueen s || inRecovery s

/-- A register access by a window at the part named: the bytes a read returns. -/
def windowAt (off size : Nat) (write : Bool) (v requester : Nat) (s : State) : List Nat × Bool × State :=
  if write then ([], false, regWrite off size v requester s)
  else
    let r := regRead off size requester s
    (natLe size r.1, decide (off ≥ 0x2000000), r.2)

/-- A memory access by an aperture at the part named: a read's bytes and poison. Register space and unmapped addresses lie outside
every memory (R206). -/
def apertureAt (a size : Nat) (write : Bool) (bytes : List Nat) (bad : Bool) (requester : Nat) (s : State) : List Nat × Bool × State :=
  let n := if write then bytes.length else size
  if !inOneMemory a n then (List.replicate size 0, true, unmappedAccess a size requester write s)
  else if write then ([], false, countWrite none a n (memWrite a bytes bad s))
  else (readBytes s a n, poisoned s a n, countRead none a n (noteOfflineRange a n (requesterDev s requester) true s))

/-- A byte of BAR0 above the register space (R331). -/
def bar0Byte (s : State) (o : Nat) : Nat :=
  if o < 0x2000100 then msixByte s (o - 0x2000000)
  else if 0x2001000 ≤ o && o < 0x2001008 then s.host.pba / 256 ^ (o - 0x2001000) % 256
  else if 0x2010000 ≤ o && o < 0x2012010 then mboxByte s (o - 0x2010000)
  else 0

/-- A read by BAR0 (R331). The MSI-X areas and the mailbox answer aligned reads of 4 and 8 bytes only. -/
def bar0Read (off size : Nat) (s : State) : List Nat × State :=
  if off < 0x2000000 then
    let r := regRead off size rqHost s
    (natLe size r.1, r.2)
  else if accessOk off size then ((List.range size).map (fun i => bar0Byte s (off + i)), s)
  else (List.replicate size 0, s)

/-- An access of the host by BAR0. -/
def bar0Access (off size : Nat) (write : Bool) (v tag : Nat) (s : State) : State :=
  if write then registerWrite off size v rqHost s
  else
    let r := bar0Read off size s
    hostReply tag false r.1 false r.2

/-- An access by window n. -/
def windowAccess (n off size : Nat) (write : Bool) (v tag : Nat) (s : State) : State :=
  if standsBy s then standbyAccess tag size write s
  else
    let dev := fld s F.HOST_WIN_n_device n
    if !fldB s F.HOST_WIN_n_valid n || off ≥ 0x2000000 then
      hostReply tag write (List.replicate size 0) true (unmappedAccess (regBase + off) size rqHost write s)
    else if dev = deviceId s then
      let r := windowAt off size write v rqHost s
      hostReply tag write r.1 r.2.1 r.2.2
    else
      sendRequest 5 0 tag (if write then 0 else size)
        { hostPacket dev 1 0 [0, size, b2n write, v] [] with addr := regBase + off } s

/-- HOST_WINDOW_ACCESS: window n, or BAR0, at an offset, for a read the host's number of it. A register holds no poison: a poisoned
write of one is dropped (PRESUMED, log 120). -/
def hostWindowAccess (n off size : Nat) (write : Bool) (v tag : Nat) (x : Tlp) (s : State) : State :=
  if !barsOpen s then s
  else
    takeTlp x (fun s =>
      if write && x.ep then s
      else if x.bar0 then bar0Access off size write v tag s
      else windowAccess n off size write v tag s) s

/-- An access by aperture n; a write carries its bytes and their EP bit. -/
def apertureAccess (n off size : Nat) (write : Bool) (bytes : List Nat) (bad : Bool) (tag : Nat) (s : State) : State :=
  if standsBy s then standbyAccess tag size write s
  else
    let dev := fld s F.HOST_APT_n_device n
    let a := fld s F.HOST_APT_n_base n * 2 ^ 32 + off % 2 ^ 32
    if !fldB s F.HOST_APT_n_valid n then
      hostReply tag write (List.replicate size 0) true (unmappedAccess a size rqHost write s)
    else if dev = deviceId s then
      let r := apertureAt a size write bytes bad rqHost s
      hostReply tag write r.1 r.2.1 r.2.2
    else
      sendRequest 5 0 tag (if write then 0 else size)
        { hostPacket dev 1 0 [1, size, b2n write, b2n bad, bytes.length] bytes with addr := a } s

/-- HOST_APERTURE_ACCESS: aperture n at an offset. -/
def hostApertureAccess (n off size : Nat) (write : Bool) (bytes : List Nat) (tag : Nat) (x : Tlp) (s : State) : State :=
  if barsOpen s then takeTlp x (apertureAccess n off size write bytes x.ep tag) s else s

/-- What a HOST packet asks is done here, and its sender answered (R332, R337). -/
def hostPacketReceive (m : Packet) (s : State) : State :=
  if m.ptype ≠ 0x20 || m.dst ≠ deviceId s || m.cls ≠ 1 then s
  else
    let x (i : Nat) : Nat := nth 0 m.aux i
    let back (write : Bool) (r : List Nat × Bool × State) : State :=
      if write then inject { ptype := 4, dst := m.src, cls := 2, req := m.req } r.2.2
      else inject (hostPacket m.src 2 m.req [3, b2n r.2.1, r.1.length] r.1) r.2.2
    match x 0 with
    | 0 => back (x 2 = 1) (windowAt (m.addr - regBase) (x 1) (x 2 = 1) (x 3) (hostOf m.src) s)
    | 1 => back (x 2 = 1) (apertureAt m.addr (x 1) (x 2 = 1) (m.data.take (x 4)) (x 3 = 1) (hostOf m.src) s)
    | 2 =>
      let c : MboxCmd := { opcode := x 1, seq := x 2, payload := m.data.take (x 3), relay := some (m.src, m.req) }
      mboxGo (modHost (fun h => { h with queue := h.queue ++ [c] }) s)
    | _ => s

/-- Data returning for a window or aperture read completes the host's read. -/
def hostReadCompletion (m : Packet) (s : State) : State :=
  if m.ptype ≠ 0x20 || nth 0 m.aux 0 ≠ 3 then s
  else
    match findRequest s m.req with
    | some r =>
      if r.kind = 5 then
        emit (.completion r.ref (m.data.take (nth 0 m.aux 2)) (nth 0 m.aux 1 = 1)) (dropRequest r.id s)
      else s
    | none => staleMessage s

/-! ## Relayed commands (R337) -/

/-- A relayed command ends. -/
def relayEnd (num : Nat) (f : MboxCmd → State → State) (s : State) : State :=
  match s.host.relayed.find? (fun e => e.2.1 = num) with
  | some e => f e.1 (modHost (fun x => { x with relayed := x.relayed.filter (fun e => e.2.1 ≠ num) }) s)
  | none => s

/-- The target's response reaches the queen. -/
def relayResponseReceive (m : Packet) (s : State) : State :=
  if m.ptype ≠ 0x20 || nth 0 m.aux 0 ≠ 4 || drioreDown s then s
  else relayEnd m.req (fun c t => if c.gone then t else respond (m.data.take (nth 0 m.aux 1)) t) s

/-- A relayed command has had no answer for 100 ms. -/
def mailboxRelayTimeout (num : Nat) (s : State) : State :=
  if drioreDown s then s
  else if s.host.relayed.any (fun e => e.2.1 = num && e.2.2.1 + 100000 ≤ s.us) then relayEnd num (fun c => answer c 5 false []) s
  else s

/-- A REFUSE arrives: of a relayed command, which is then UNREACHABLE, or of another request. -/
def refuseArrives (m : Packet) (s : State) : State :=
  if nth 0 m.aux 0 = 0x20 && nth 0 m.aux 1 = 2 then relayEnd m.req (fun c => answer c 3 false []) s
  else if nth 0 m.aux 0 = 0x20 && nth 0 m.aux 1 ≤ 1 && nth 0 m.aux 3 = 1 && (findRequest s m.req).isSome then
    modHost (fun x => { x with writeFails := x.writeFails + 1 }) (refuseReceive m s)
  else refuseReceive m s

/-- A request has waited req_us; a posted host write among them is counted. -/
def requestExpires (id : Nat) (s : State) : State :=
  match findRequest s id with
  | some r =>
    if r.kind = 5 && r.member = 0 && r.sent + fld s F.LINK_TIMEOUT_req_us ≤ s.us then
      modHost (fun x => { x with writeFails := x.writeFails + 1 }) (requestTimeout id s)
    else requestTimeout id s
  | none => s

/-! ## Commands of the mailbox (R338) -/

/-- A command that answers a status alone. -/
def plain (st : Nat) (s : State) : Nat × Bool × List Nat × State := (st, false, [], s)

/-- IDENTIFY: one word each for the serial, role, device ID, group ID, queen ID, enumeration state and boot lock. -/
def identify (s : State) : State :=
  onCommand 0x0001 (fun _ => true) (fun c s =>
    if c.payload.length ≠ 0 then plain 2 s
    else
      (0, false, natLe 8 (fld s F.BOOT_SERIAL_serial) ++ natLe 8 (fld s F.GROUP_STATUS_role) ++ natLe 8 (deviceId s)
        ++ natLe 8 (fld s F.GROUP_CFG_group_id) ++ natLe 8 (fld s F.GROUP_STATUS_queen_id)
        ++ natLe 8 (groupState s) ++ natLe 8 (fld s F.BOOT_STATUS_boot_lock), s)) s

/-- STOP_SWITCH (R406). -/
def stopSwitch (s : State) : State :=
  onCommand 0x0010 (fun _ => true) (fun c s =>
    if c.payload.length ≠ 16 then plain 2 s
    else if bitAt (payNum c 0 8) 2 then plain 0 (setSwitch none s)
    else
      let s := setSwitch (some (payNum c 0 8 % 4, payNum c 8 8 % 2 ^ 48)) s
      plain 0 (if breathState s = bsIdle then stopSwitchApply s else s)) s

/-- The report of ATTEST, its first 256 bytes (R413). -/
def reportBytes (nonce : List Nat) (s : State) : List Nat :=
  let hash (f : Fld) : List Nat := (List.range 4).flatMap (fun i => natLe 8 (fld s f i))
  let stop := fld s F.BOOT_STOP_active
  natLe 4 0x54535441 ++ natLe 2 1
    ++ natLe 2 (fld s F.BOOT_STATUS_boot_lock + 2 * b2n (s.boot.owner ≠ 0) + 4 * fld s F.GROUP_STATUS_role)
    ++ natLe 8 (fld s F.BOOT_SERIAL_serial) ++ nonce ++ hash F.BOOT_MEAS_i_bytes ++ hash F.BOOT_FW_MEAS_i_bytes
    ++ sha256 (stopRecord s.boot.stops stop) ++ natBe 32 s.boot.owner
    ++ [stop, fld s F.BOOT_FUSE_vendor_key, s.boot.rollback, fld s F.BOOT_FUSE_image_sv, s.boot.revoked % 16, 0, 0, 0]
    ++ natLe 4 s.boot.version ++ natLe 2 (deviceId s) ++ natLe 2 (fld s F.GROUP_CFG_group_id)
    ++ natLe 8 (schedBreath s) ++ natLe 4 s.libVersion ++ List.replicate 52 0

/-- ATTEST REPORT: the report and its signature by the device key. -/
def attestReport (s : State) : State :=
  onCommand 0x0011 (fun c => attestOp c = 0) (fun c s =>
    if c.payload.length ≠ 40 then plain 2 s
    else
      let r := reportBytes (c.payload.drop 8) s
      (0, false, r ++ (List.range 64).map (fun i => nth 0 (Config.deviceSign r) i % 256), s)) s

/-- ATTEST CHAIN: bytes of the certificate chain, which has at most 4,096 (R412). -/
def attestChain (s : State) : State :=
  onCommand 0x0011 (fun c => attestOp c = 1) (fun c s =>
    let off := payNum c 8 4
    let n := payNum c 12 2
    let chain := Config.certChain.take 4096
    if c.payload.length < 14 || 16 < c.payload.length || !inR n 1 4064 || off + n > chain.length then plain 2 s
    else (0, false, ((chain.drop off).take n).map (· % 256), s)) s

/-- A FLASH_WRITE op past the refusals that come before any op's own. -/
def onFlash (op : Nat) (f : MboxCmd → Nat → Nat → State → Nat × Bool × List Nat × State) (s : State) : State :=
  onCommand 0x0012 (fun c => flashOpOf c = op) (fun c s =>
    match flashBusy s op with
    | some st => plain st s
    | none => f c (bitsOf (payNum c 0 8) 63 32) (payNum c 8 8 % 2 ^ 32) s) s

/-- An op starts on the flash. -/
def flashStart (op off : Nat) (bytes : List Nat) (s : State) : Nat × Bool × List Nat × State :=
  plain 0 (modBoot (fun b => { b with flashOp := some { op := op, off := off, bytes := bytes } }) s)

def flashErase (s : State) : State :=
  onFlash 0 (fun c n off s =>
    if c.payload.length ≠ 16 || off % 65536 ≠ 0 || n ≠ 65536 then plain 2 s else flashStart 0 off [] s) s

def flashProgram (s : State) : State :=
  onFlash 1 (fun c n off s =>
    if c.payload.length ≠ 16 + n || off % 256 ≠ 0 || n % 256 ≠ 0 || !inR n 256 3840 then plain 2 s
    else flashStart 1 off (c.payload.drop 16) s) s

def flashRead (s : State) : State :=
  onFlash 2 (fun c n off s =>
    if c.payload.length ≠ 16 || !inR n 1 4064 then plain 2 s else (0, false, flashBytes s off n, s)) s

def flashVerify (s : State) : State :=
  onFlash 3 (fun c _ _ s => if c.payload.length ≠ 16 then plain 2 s else flashStart 3 0 [] s) s

/-- FLASH_WRITE STATUS: busy, the last failure, the last VERIFY result. -/
def flashStatus (s : State) : State :=
  onFlash 4 (fun c _ _ s =>
    if c.payload.length ≠ 16 then plain 2 s
    else (0, false, natLe 8 (b2n s.boot.flashOp.isSome + 2 * b2n s.boot.progFailed + 256 * s.boot.verified), s)) s

/-- The op on the flash finishes: `ok` tells whether the flash took it, for a VERIFY whether every read completed (R411). -/
def flashOpDone (ok : Bool) (s : State) : State :=
  match s.boot.flashOp with
  | none => s
  | some x =>
    let s := modBoot (fun b => { b with flashOp := none }) s
    if x.op = 3 then
      let code := imageCode (fld s F.GROUP_STATUS_role ≠ 0) ok s
      modBoot (fun b => { b with verified := code }) s
    else
      let n := if x.op = 0 then 65536 else x.bytes.length
      let bs := if !ok then freeBytes n s else if x.op = 0 then List.replicate n 0xFF else x.bytes
      let s := if ok then s else { s with freshCount := s.freshCount + n }
      modBoot (fun b => { b with flash := flashPut x.off bs b.flash, progFailed := !ok }) s

/-- PATTERN_PUSH: a signed package (R390). -/
def patternPush (s : State) : State :=
  onCommand 0x0020 (fun _ => true) (fun c s =>
    let n := payNum c 8 2
    let body := c.payload.take (64 + 64 * n)
    if c.payload.length ≠ 128 + 64 * n || payNum c 0 4 ≠ 0x4E525450 || !inR n 1 4096 then plain 2 s
    else if !Config.ecdsaVerify s.boot.vendorPub body (c.payload.drop (64 + 64 * n)) then plain 6 s
    else if payNum c 4 4 ≤ s.libVersion then plain 4 s
    else plain 0 { s with libPending := some (payNum c 4 4, patternsOf body) }) s

/-- DUMP_READ: bytes of a dump slot, with the poison bit of their sectors (R382). -/
def dumpRead (s : State) : State :=
  onCommand 0x0021 (fun _ => true) (fun c s =>
    let g := payNum c 0 8 % 4
    let off := payNum c 8 8
    let n := payNum c 16 8
    if c.payload.length ≠ 24 || n > 4064 || off + n > slotSize then plain 2 s
    else
      let a := slotBase g + off
      (0, poisoned s a n, readBytes s a n, noteOfflineRange a n (deviceId s) true s)) s

/-- HIVE_RESET (R377). -/
def hiveReset (s : State) : State :=
  onCommand 0x0022 (fun _ => true) (fun c s =>
    if c.payload.length ≠ 8 then plain 2 s
    else
      let w := payNum c 0 8
      let r := hiveResetCmd (w % 4) (bitAt w 8) (bitAt w 9) s
      plain r.1 r.2) s

/-- The notice that a payload describes (R339). -/
def noticeOf (c : MboxCmd) : Notice :=
  let w0 := payNum c 0 8
  let w2 := payNum c 16 8
  { breath := bitsOf w0 47 0
    writes := (List.range (bitsOf w0 50 48)).map (fun i => (payNum c (56 + 16 * i) 8, payNum c (64 + 16 * i) 8))
    pairs := payNum c 8 8
    off := bitsOf w2 22 0
    sem := bitsOf w2 29 24
    deliver := bitAt w2 32
    bytes := (c.payload.drop 24).take 32 }

/-- A field of a notice is out of range. -/
def noticeBad (x : Notice) : Bool :=
  x.writes.length > 4 || x.off % 64 ≠ 0 || x.writes.any (fun w => w.1 < regBase || regBase + 0x1000000 ≤ w.1)

/-- NOTIFY: at most four notices wait. -/
def notify (s : State) : State :=
  onCommand 0x0030 (fun _ => true) (fun c s =>
    if c.payload.length ≠ 120 || noticeBad (noticeOf c) then plain 2 s
    else if s.host.notices.length ≥ 4 then plain 7 s
    else plain 0 (modHost (fun x => { x with notices := x.notices ++ [noticeOf c] }) s)) s

/-! ## When Driore or the ROM begins to serve -/

/-- Driore is running again: JOINs and mailbox commands that waited go on (R337, R341, R385). -/
def mpRestart (hashOk : Bool) (s : State) : State :=
  if !s.mp.down || s.mpHeldReset then s
  else
    let s := mpRestarted hashOk s
    if drioreDown s then s else mboxGo (joinsResume s)

/-- The boot's checks end, and mailbox commands that waited go on. -/
def bootEnds (fuseOk flashId readOk : Bool) (s : State) : State := mboxGo (bootVerify fuseOk flashId readOk s)

def bootTimeUp (s : State) : State := mboxGo (bootTimeLimit s)

end Sys2Proof.Machine
end

