-- ==== Sys2Proof/Machine/Package.lean ====
section
/-! DEFINITION. The board interfaces: I3C (R441) and the JTAG TAP (R442). -/

namespace Sys2Proof.Machine

def modPins (f : PinS → PinS) (s : State) : State := { s with pins := f s.pins }

/-! ## When the part's logic runs -/

/-- Nothing but the board's pins, the TAP and time acts on a part in full device reset, and nothing but the pins takes it there
(R433, R434). -/
def whenReleased (f : State → State) (s : State) : State :=
  if s.inService then { f s with inService := true, pending := s.pending } else s

/-- Work of the pairs: none while a thermal trip has stopped their clocks (R361). -/
def whenClocked (f : State → State) (s : State) : State := if s.thermTrip then s else whenReleased f s

/-! ## I3C (R441) -/

/-- The part answers on the bus, from 1 ms after the release; before that its status is 3, not yet available. -/
def i3cAnswers (s : State) : Bool := s.inService && s.boot.released + 1000 ≤ s.us

/-- SETDASA or ENTDAA gives the part its dynamic address. -/
def i3cAddressAssign (a : Nat) (s : State) : State :=
  if i3cAnswers s then modPins (fun x => { x with i3cAddr := some (a % 128) }) s else s

/-- The bytes a private read returns. -/
def i3cReturn (bytes : List Nat) (s : State) : State := emit (.i3cData bytes) (modPins (fun x => { x with i3cResult := bytes }) s)

/-- An address lies in the register space (R206). -/
def inRegs (a : Nat) : Bool := regBase ≤ a && a < regBase + 0x2000000

/-- A private read of a register: status and 8 bytes. -/
def i3cRead (a : Nat) (s : State) : State :=
  if !i3cAnswers s then i3cReturn (3 :: List.replicate 8 0) s
  else if !inRegs a then i3cReturn (1 :: List.replicate 8 0) s
  else
    let r := regRead (a - regBase) 8 rqI3c s
    i3cReturn ((if a % 8 = 0 then 0 else 2) :: natLe 8 r.1) r.2

/-- The bits of a register that I3C may change. -/
def i3cMask (a : Nat) : Option (Reg × Word) :=
  if a = regBase + 0x20018 then some (.PCC_CAP, maskW 10 0)
  else if a = regBase + 0x20010 then some (.PCC_CLOCK, maskW 23 16)
  else none

/-- A private write: the cap or the host ceiling changes; any other register refuses, and the refusal is logged. -/
def i3cWrite (a v : Nat) (s : State) : State :=
  if !i3cAnswers s then i3cReturn [3] s
  else
    match i3cMask a with
    | some (r, m) => i3cReturn [0] (writeReg r 0 (BitVec.ofNat 64 v) m rqI3c s)
    | none =>
      let s := if inRegs a then accessFault (a - regBase) 8 rqI3c true s else s
      i3cReturn [if inRegs a && a % 8 ≠ 0 then 2 else 1] s

/-! ## JTAG (R442) -/

/-- EXTEST, CLAMP and HIGHZ act: RESET_N is low, or the part is in RECOVERY. -/
def boundaryAllowed (s : State) : Bool := s.boot.resetLow || inRecovery s

/-- What drives the control balls: 0 the part, 1 the boundary register, 2 nothing. -/
def ballDrive (s : State) : Nat := if boundaryAllowed s then s.pins.drive else 0

/-- An instruction of the TAP takes effect. -/
def tapSelect (ir drive : Nat) (s : State) : State := modPins (fun x => { x with tapIr := ir, drive := drive }) s

/-- The reset of the TAP: IDCODE is selected and the part drives its balls. -/
def tapReset (s : State) : State := tapSelect 1 0 s

/-- A scan of n bits through the one-bit bypass register. -/
def bypassScan (n v : Nat) (s : State) : State := emit (.tdo (2 * v % 2 ^ n)) s

def bypass (n v : Nat) (s : State) : State := bypassScan n v (tapSelect 0xFF 0 s)

/-- The levels of the balls are captured and shifted out while the boundary register loads. -/
def boundaryScan (v : Nat) (s : State) : State :=
  emit (.tdo (Config.ballLevels s.freshCount)) (modPins (fun x => { x with boundary := v }) { s with freshCount := s.freshCount + 1 })

/-- EXTEST with a scan of n bits. -/
def extest (n v : Nat) (s : State) : State :=
  if boundaryAllowed s then boundaryScan v (tapSelect 0 1 s) else bypassScan n v (tapSelect 0 0 s)

def samplePreload (v : Nat) (s : State) : State := boundaryScan v (tapSelect 2 0 s)

/-- The identity of the part: version 0, part 0x4800, manufacturer 0x635. -/
def idcode (s : State) : State := emit (.tdo 0x04800C6B) (tapSelect 1 0 s)

def clamp (n v : Nat) (s : State) : State := bypassScan n v (tapSelect 4 (b2n (boundaryAllowed s)) s)

def highz (n v : Nat) (s : State) : State := bypassScan n v (tapSelect 5 (2 * b2n (boundaryAllowed s)) s)

/-- What the next Capture-DR of REGACC loads: data, the address, a status. -/
def regaccResult (a data status : Nat) (s : State) : State :=
  let w := data % 2 ^ 64 + a % 2 ^ 44 * 2 ^ 64 + status * 2 ^ 108
  emit (.tdo w) (modPins (fun x => { x with regacc := w }) s)

/-- The part lets REGACC through: RESET_N is high and the part is released. -/
def regaccOpen (s : State) : Bool := s.inService && !s.boot.resetLow

/-- An address that JTAG does not reach: memory (R207). -/
def inMemory (a : Nat) : Bool :=
  match tierOf a with
  | .far _ | .near _ | .comb _ => true
  | _ => false

/-- A REGACC read. -/
def regaccRead (a : Nat) (s : State) : State :=
  let s := tapSelect 0x20 0 s
  if !regaccOpen s || inMemory a then regaccResult a 0 3 s
  else if !inRegs a then regaccResult a 0 0 (unmappedAccess a 8 rqJtag false s)
  else
    let r := regRead (a - regBase) 8 rqJtag s
    regaccResult a r.1 (if a % 8 = 0 then 0 else 2) r.2

/-- A REGACC write. -/
def regaccWrite (a v : Nat) (s : State) : State :=
  let s := tapSelect 0x20 0 s
  if !regaccOpen s || inMemory a then regaccResult a 0 3 s
  else if !inRegs a then regaccResult a 0 0 (unmappedAccess a 8 rqJtag true s)
  else regaccResult a 0 (if a % 8 = 0 then 0 else 2) (whenReleased (regWrite (a - regBase) 8 v rqJtag) s)

end Sys2Proof.Machine
end

