-- ==== Sys2Proof/Machine/Exec.lean ====
section
/-! DEFINITION. The meaning of each command on the state: every command of the part ends in a next state. -/

namespace Sys2Proof.Machine

open Sys2Proof

/-- REGISTER_WRITE (R13). -/
def execRegisterWrite (off : Nat) (size : Nat) (v : Nat) (requester : Nat) (s : State) : Host.Outcome State Fault Refusal := .next (whenReleased (registerWrite off size v requester) s)

/-- PWR_OK_FALL (R433). -/
def execPwrOkFall (s : State) : Host.Outcome State Fault Refusal := .next (pwrOkFall s)

/-- PWR_OK_RISE (R433). -/
def execPwrOkRise (s : State) : Host.Outcome State Fault Refusal := .next (pwrOkRise s)

/-- RESET_N_ASSERT (R434). -/
def execResetNAssert (s : State) : Host.Outcome State Fault Refusal := .next (resetNAssert s)

/-- RESET_N_RELEASE (R408). -/
def execResetNRelease (queen : Bool) (stopSel : Nat) (braked : Bool) (s : State) : Host.Outcome State Fault Refusal := .next (resetNRelease queen stopSel braked s)

/-- BRAKE_ASSERTED (R362). -/
def execBrakeAsserted (s : State) : Host.Outcome State Fault Refusal := .next (whenReleased brakeAsserted s)

/-- BRAKE_RELEASE (R362). -/
def execBrakeRelease (s : State) : Host.Outcome State Fault Refusal := .next (whenReleased brakeRelease s)

/-- BRAKE_RELEASE_STEP (R362). -/
def execBrakeReleaseStep (s : State) : Host.Outcome State Fault Refusal := .next (whenReleased brakeReleaseStep s)

/-- REFCLK_CORE_LOSS (R436). -/
def execRefclkCoreLoss (s : State) : Host.Outcome State Fault Refusal := .next (whenReleased refclkCoreLoss s)

/-- REFCLK_LINK_LOSS (R436). -/
def execRefclkLinkLoss (s : State) : Host.Outcome State Fault Refusal := .next (whenReleased refclkLinkLoss s)

/-- SENSOR_SAMPLE (R359). -/
def execSensorSample (vals : List (Option Nat)) (s : State) : Host.Outcome State Fault Refusal := .next (whenReleased (sensorsSampled vals) s)

/-- MASTER_TICK_EMIT (R50). -/
def execMasterTickEmit (s : State) : Host.Outcome State Fault Refusal := .next (whenReleased masterTickEmit s)

/-- TICK_IN_EDGE (R30). -/
def execTickInEdge (inWindow : Bool) (s : State) : Host.Outcome State Fault Refusal := .next (whenReleased (tickInEdge inWindow) s)

/-- TICK_IN_MISS (R30). -/
def execTickInMiss (s : State) : Host.Outcome State Fault Refusal := .next (whenReleased tickInMiss s)

/-- TICK_RECEIVE (R33). -/
def execTickReceive (n : Port) (body : Nat) (inside : Nat) (s : State) : Host.Outcome State Fault Refusal := .next (whenReleased (tickReceive n.val body inside) s)

/-- TICK_REROUTE (R33). -/
def execTickReroute (inside : Nat) (s : State) : Host.Outcome State Fault Refusal := .next (whenReleased (tickReroute inside) s)

/-- LOCAL_TICK_FIRE (R34). -/
def execLocalTickFire (s : State) : Host.Outcome State Fault Refusal := .next (whenReleased localTickFire s)

/-- GUARD_POINT (R39). -/
def execGuardPoint (s : State) : Host.Outcome State Fault Refusal := .next (whenReleased guardPoint s)

/-- STRETCH_RECEIVE (R40). -/
def execStretchReceive (n : Port) (body : Nat) (s : State) : Host.Outcome State Fault Refusal := .next (whenReleased (stretchReceive n.val body) s)

/-- TICK_LOST (R45). -/
def execTickLost (s : State) : Host.Outcome State Fault Refusal := .next (whenReleased tickLost s)

/-- BREATH_RESUME (R49). -/
def execBreathResume (s : State) : Host.Outcome State Fault Refusal := .next (whenReleased breathResume s)

/-- BREATH_ARM (R50). -/
def execBreathArm (s : State) : Host.Outcome State Fault Refusal := .next (whenReleased breathArm s)

/-- BREATH_CEASE (R47). -/
def execBreathCease (s : State) : Host.Outcome State Fault Refusal := .next (whenReleased breathCease s)

/-- TICK_SOURCE_WRITE (R28). -/
def execTickSourceWrite (v : Nat) (s : State) : Host.Outcome State Fault Refusal := .next (whenReleased (tickSourceWrite v) s)

/-- SLACK_RECORD (R51). -/
def execSlackRecord (margin : Nat) (p : Pair) (s : State) : Host.Outcome State Fault Refusal := .next (whenReleased (slackRecord margin p.val) s)

/-- ECHO_SEND (R34). -/
def execEchoSend (n : Port) (now : Nat) (s : State) : Host.Outcome State Fault Refusal := .next (whenReleased (echoSend n.val now) s)

/-- ECHO_RECEIVE (R293). -/
def execEchoReceive (n : Port) (body : Nat) (now : Nat) (turnaround : Nat) (s : State) : Host.Outcome State Fault Refusal := .next (whenReleased (echoReceive n.val body now turnaround) s)

/-- START_NEW (R158). -/
def execStartNew (s : State) : Host.Outcome State Fault Refusal := .next (whenReleased startNew s)

/-- START_JOIN (R158). -/
def execStartJoin (s : State) : Host.Outcome State Fault Refusal := .next (whenReleased startJoin s)

/-- SCORE_START (R158). -/
def execScoreStart (s : State) : Host.Outcome State Fault Refusal := .next (whenReleased scoreStart s)

/-- SEQ_PAUSE (R159). -/
def execSeqPause (p : Pair) (s : State) : Host.Outcome State Fault Refusal := .next (whenReleased (seqPause p.val) s)

/-- SEQ_RESUME (R159). -/
def execSeqResume (p : Pair) (s : State) : Host.Outcome State Fault Refusal := .next (whenReleased (seqResume p.val) s)

/-- SEQ_CLEAR (R159). -/
def execSeqClear (p : Pair) (s : State) : Host.Outcome State Fault Refusal := .next (whenReleased (seqClear p.val) s)

/-- SCORE_REFILL (R155). -/
def execScoreRefill (p : Pair) (s : State) : Host.Outcome State Fault Refusal := .next (whenClocked (scoreRefill p.val) s)

/-- COPY_SHAPE (R164). -/
def execCopyShape (p : Pair) (s : State) : Host.Outcome State Fault Refusal := .next (whenClocked (copyShape p.val) s)

/-- COPY_GATHER (R169). -/
def execCopyGather (p : Pair) (s : State) : Host.Outcome State Fault Refusal := .next (whenClocked (copyGather p.val) s)

/-- COPY_SCATTER (R169). -/
def execCopyScatter (p : Pair) (s : State) : Host.Outcome State Fault Refusal := .next (whenClocked (copyScatter p.val) s)

/-- COPY_START (R167). -/
def execCopyStart (p : Pair) (s : State) : Host.Outcome State Fault Refusal := .next (whenClocked (copyStart p.val) s)

/-- COPY_DONE (R166). -/
def execCopyDone (p : Pair) (k : Nat) (s : State) : Host.Outcome State Fault Refusal := .next (whenClocked (copyDone p.val k) s)

/-- ACC (R187). -/
def execAcc (p : Pair) (s : State) : Host.Outcome State Fault Refusal := .next (whenClocked (acc p.val) s)

/-- ACC_DONE (R60). -/
def execAccDone (p : Pair) (met : ArrayMet) (s : State) : Host.Outcome State Fault Refusal := .next (whenClocked (accDone p.val met) s)

/-- SPLIT (R188). -/
def execSplit (p : Pair) (s : State) : Host.Outcome State Fault Refusal := .next (whenClocked (split p.val) s)

/-- SPLIT_DONE (R188). -/
def execSplitDone (p : Pair) (met : ArrayMet) (s : State) : Host.Outcome State Fault Refusal := .next (whenClocked (splitDone p.val met) s)

/-- BPROD (R189). -/
def execBprod (p : Pair) (s : State) : Host.Outcome State Fault Refusal := .next (whenClocked (bprod p.val) s)

/-- BPROD_DONE (R189). -/
def execBprodDone (p : Pair) (met : ArrayMet) (s : State) : Host.Outcome State Fault Refusal := .next (whenClocked (bprodDone p.val met) s)

/-- DRAIN (R190). -/
def execDrain (p : Pair) (s : State) : Host.Outcome State Fault Refusal := .next (whenClocked (drain p.val) s)

/-- DRAIN_DONE (R63). -/
def execDrainDone (p : Pair) (met : ArrayMet) (s : State) : Host.Outcome State Fault Refusal := .next (whenClocked (drainDone p.val met) s)

/-- STAGE (R191). -/
def execStage (p : Pair) (s : State) : Host.Outcome State Fault Refusal := .next (whenClocked (stage p.val) s)

/-- STAGE_DONE (R191). -/
def execStageDone (p : Pair) (remote : List Nat) (remoteBad : Bool) (s : State) : Host.Outcome State Fault Refusal := .next (whenClocked (stageDone p.val remote remoteBad) s)

/-- MODE_CHANGE (R192). -/
def execModeChange (p : Pair) (met : ArrayMet) (s : State) : Host.Outcome State Fault Refusal := .next (whenClocked (modeChange p.val met) s)

/-- FOLD_DONE (R72). -/
def execFoldDone (p : Pair) (met : ArrayMet) (s : State) : Host.Outcome State Fault Refusal := .next (whenClocked (foldDone p.val met) s)

/-- REED_BLOCK (R67). -/
def execReedBlock (p : Pair) (r : Reed) (met : ArrayMet) (s : State) : Host.Outcome State Fault Refusal := .next (whenClocked (reedBlock p.val r.val met) s)

/-- REED_CLOSE (R130). -/
def execReedClose (p : Pair) (r : Reed) (met : ArrayMet) (s : State) : Host.Outcome State Fault Refusal := .next (whenClocked (reedClose p.val r.val met) s)

/-- REED_END (R130). -/
def execReedEnd (p : Pair) (r : Reed) (met : ArrayMet) (s : State) : Host.Outcome State Fault Refusal := .next (whenClocked (reedEnd p.val r.val met) s)

/-- REED_TASK (R71). -/
def execReedTask (p : Pair) (r : Reed) (remote : List Nat) (remoteBad : Bool) (met : ArrayMet) (s : State) : Host.Outcome State Fault Refusal := .next (whenClocked (reedTask p.val r.val remote remoteBad met) s)

/-- WALK (R126). -/
def execWalk (p : Pair) (s : State) : Host.Outcome State Fault Refusal := .next (whenClocked (walk p.val) s)

/-- FORAGER_ENTRY_SEND (R129). -/
def execForagerEntrySend (p : Pair) (stalled : Nat) (s : State) : Host.Outcome State Fault Refusal := .next (whenClocked (feedSend p.val stalled) s)

/-- RING_REFILL (R134). -/
def execRingRefill (p : Pair) (r : Reed) (errs : List EntryErr) (s : State) : Host.Outcome State Fault Refusal := .next (whenClocked (ringRefill p.val r.val errs) s)

/-- WALK_DONE (R183). -/
def execWalkDone (p : Pair) (s : State) : Host.Outcome State Fault Refusal := .next (whenClocked (walkDone p.val) s)

/-- MERGE (R140). -/
def execMerge (p : Pair) (s : State) : Host.Outcome State Fault Refusal := .next (whenClocked (merge p.val) s)

/-- PREFIX (R141). -/
def execPrefixSum (p : Pair) (s : State) : Host.Outcome State Fault Refusal := .next (whenClocked (prefixSum p.val) s)

/-- SORT (R142). -/
def execSort (p : Pair) (s : State) : Host.Outcome State Fault Refusal := .next (whenClocked (sort p.val) s)

/-- PACK (R143). -/
def execPack (p : Pair) (s : State) : Host.Outcome State Fault Refusal := .next (whenClocked (pack p.val) s)

/-- UNPACK (R143). -/
def execUnpack (p : Pair) (s : State) : Host.Outcome State Fault Refusal := .next (whenClocked (unpack p.val) s)

/-- COMBINE (R144). -/
def execCombine (p : Pair) (s : State) : Host.Outcome State Fault Refusal := .next (whenClocked (combine p.val) s)

/-- ENCODE (R145). -/
def execEncode (p : Pair) (s : State) : Host.Outcome State Fault Refusal := .next (whenClocked (encode p.val) s)

/-- LIST_FUNCTION_DONE (R137). -/
def execListFunctionDone (p : Pair) (s : State) : Host.Outcome State Fault Refusal := .next (whenClocked (listFunctionDone p.val) s)

/-- VEC_ADD (R195). -/
def execVecAdd (p : Pair) (s : State) : Host.Outcome State Fault Refusal := .next (whenClocked (vecAdd p.val) s)

/-- VEC_SUB (R195). -/
def execVecSub (p : Pair) (s : State) : Host.Outcome State Fault Refusal := .next (whenClocked (vecSub p.val) s)

/-- VEC_MUL (R195). -/
def execVecMul (p : Pair) (s : State) : Host.Outcome State Fault Refusal := .next (whenClocked (vecMul p.val) s)

/-- VEC_FMA (R195). -/
def execVecFma (p : Pair) (s : State) : Host.Outcome State Fault Refusal := .next (whenClocked (vecFma p.val) s)

/-- VEC_MIN (R195). -/
def execVecMin (p : Pair) (s : State) : Host.Outcome State Fault Refusal := .next (whenClocked (vecMin p.val) s)

/-- VEC_MAX (R195). -/
def execVecMax (p : Pair) (s : State) : Host.Outcome State Fault Refusal := .next (whenClocked (vecMax p.val) s)

/-- VEC_CVT (R89). -/
def execVecCvt (p : Pair) (s : State) : Host.Outcome State Fault Refusal := .next (whenClocked (vecCvt p.val) s)

/-- VEC_AXPY (R195). -/
def execVecAxpy (p : Pair) (s : State) : Host.Outcome State Fault Refusal := .next (whenClocked (vecAxpy p.val) s)

/-- VEC_EXP (R92). -/
def execVecExp (p : Pair) (s : State) : Host.Outcome State Fault Refusal := .next (whenClocked (vecExp p.val) s)

/-- VEC_RECIP (R92). -/
def execVecRecip (p : Pair) (s : State) : Host.Outcome State Fault Refusal := .next (whenClocked (vecRecip p.val) s)

/-- VEC_RSQRT (R92). -/
def execVecRsqrt (p : Pair) (s : State) : Host.Outcome State Fault Refusal := .next (whenClocked (vecRsqrt p.val) s)

/-- VEC_SUM (R93). -/
def execVecSum (p : Pair) (s : State) : Host.Outcome State Fault Refusal := .next (whenClocked (vecSum p.val) s)

/-- VEC_DOT (R93). -/
def execVecDot (p : Pair) (s : State) : Host.Outcome State Fault Refusal := .next (whenClocked (vecDot p.val) s)

/-- VEC_SUMSQ64 (R92). -/
def execVecSumsq64 (p : Pair) (s : State) : Host.Outcome State Fault Refusal := .next (whenClocked (vecSumsq64 p.val) s)

/-- VEC_RMAX (R195). -/
def execVecRmax (p : Pair) (s : State) : Host.Outcome State Fault Refusal := .next (whenClocked (vecRmax p.val) s)

/-- VEC_RSUM (R195). -/
def execVecRsum (p : Pair) (s : State) : Host.Outcome State Fault Refusal := .next (whenClocked (vecRsum p.val) s)

/-- VEC_SOFTMAX (R196). -/
def execVecSoftmax (p : Pair) (s : State) : Host.Outcome State Fault Refusal := .next (whenClocked (vecSoftmax p.val) s)

/-- VEC_SELECT (R197). -/
def execVecSelect (p : Pair) (s : State) : Host.Outcome State Fault Refusal := .next (whenClocked (vecSelect p.val) s)

/-- VEC_QUANT (R106). -/
def execVecQuant (p : Pair) (s : State) : Host.Outcome State Fault Refusal := .next (whenClocked (vecQuant p.val) s)

/-- VEC_DEQUANT (R112). -/
def execVecDequant (p : Pair) (s : State) : Host.Outcome State Fault Refusal := .next (whenClocked (vecDequant p.val) s)

/-- VEC_DQACC (R112). -/
def execVecDqacc (p : Pair) (s : State) : Host.Outcome State Fault Refusal := .next (whenClocked (vecDqacc p.val) s)

/-- VEC_HSTORE (R99). -/
def execVecHstore (p : Pair) (s : State) : Host.Outcome State Fault Refusal := .next (whenClocked (vecHstore p.val) s)

/-- VEC_GENC (R267). -/
def execVecGenc (p : Pair) (s : State) : Host.Outcome State Fault Refusal := .next (whenClocked (vecGenc p.val) s)

/-- VEC_GDEC (R199). -/
def execVecGdec (p : Pair) (s : State) : Host.Outcome State Fault Refusal := .next (whenClocked (vecGdec p.val) s)

/-- VEC_OPTW (R284). -/
def execVecOptw (p : Pair) (s : State) : Host.Outcome State Fault Refusal := .next (whenClocked (vecOptw p.val) s)

/-- VEC_DIGEST (R285). -/
def execVecDigest (p : Pair) (s : State) : Host.Outcome State Fault Refusal := .next (whenClocked (vecDigest p.val) s)

/-- VEC_DONE (R194). -/
def execVecDone (p : Pair) (s : State) : Host.Outcome State Fault Refusal := .next (whenClocked (vecNext p.val) s)

/-- WAIT (R200). -/
def execWait (p : Pair) (s : State) : Host.Outcome State Fault Refusal := .next (whenClocked (wait p.val) s)

/-- WAIT_RELEASE (R154). -/
def execWaitRelease (p : Pair) (s : State) : Host.Outcome State Fault Refusal := .next (whenClocked (waitRelease p.val) s)

/-- SIGNAL (R200). -/
def execSignal (p : Pair) (s : State) : Host.Outcome State Fault Refusal := .next (whenClocked (signal p.val) s)

/-- QUIET (R200). -/
def execQuiet (p : Pair) (s : State) : Host.Outcome State Fault Refusal := .next (whenClocked (quietOp p.val) s)

/-- QUIET_RELEASE (R156). -/
def execQuietRelease (p : Pair) (s : State) : Host.Outcome State Fault Refusal := .next (whenClocked (quietRelease p.val) s)

/-- CTL_NOP (R201). -/
def execCtlNop (p : Pair) (s : State) : Host.Outcome State Fault Refusal := .next (whenClocked (ctlNop p.val) s)

/-- LI (R201). -/
def execLi (p : Pair) (s : State) : Host.Outcome State Fault Refusal := .next (whenClocked (ctlLi p.val) s)

/-- CTL_ADD (R201). -/
def execCtlAdd (p : Pair) (s : State) : Host.Outcome State Fault Refusal := .next (whenClocked (ctlAdd p.val) s)

/-- ADDI (R201). -/
def execAddi (p : Pair) (s : State) : Host.Outcome State Fault Refusal := .next (whenClocked (ctlAddi p.val) s)

/-- CTL_SUB (R201). -/
def execCtlSub (p : Pair) (s : State) : Host.Outcome State Fault Refusal := .next (whenClocked (ctlSub p.val) s)

/-- MULI (R201). -/
def execMuli (p : Pair) (s : State) : Host.Outcome State Fault Refusal := .next (whenClocked (ctlMuli p.val) s)

/-- CTL_AND (R201). -/
def execCtlAnd (p : Pair) (s : State) : Host.Outcome State Fault Refusal := .next (whenClocked (ctlAnd p.val) s)

/-- CTL_OR (R201). -/
def execCtlOr (p : Pair) (s : State) : Host.Outcome State Fault Refusal := .next (whenClocked (ctlOr p.val) s)

/-- CTL_XOR (R201). -/
def execCtlXor (p : Pair) (s : State) : Host.Outcome State Fault Refusal := .next (whenClocked (ctlXor p.val) s)

/-- SHL (R201). -/
def execShl (p : Pair) (s : State) : Host.Outcome State Fault Refusal := .next (whenClocked (ctlShl p.val) s)

/-- SHR (R201). -/
def execShr (p : Pair) (s : State) : Host.Outcome State Fault Refusal := .next (whenClocked (ctlShr p.val) s)

/-- SAR (R201). -/
def execSar (p : Pair) (s : State) : Host.Outcome State Fault Refusal := .next (whenClocked (ctlSar p.val) s)

/-- BR (R201). -/
def execBr (p : Pair) (s : State) : Host.Outcome State Fault Refusal := .next (whenClocked (ctlBr p.val) s)

/-- LOOP (R201). -/
def execLoop (p : Pair) (s : State) : Host.Outcome State Fault Refusal := .next (whenClocked (ctlLoop p.val) s)

/-- GET (R202). -/
def execGet (p : Pair) (s : State) : Host.Outcome State Fault Refusal := .next (whenClocked (ctlGet p.val) s)

/-- SLICE (R156). -/
def execSlice (p : Pair) (s : State) : Host.Outcome State Fault Refusal := .next (whenClocked (ctlSlice p.val) s)

/-- END (R156). -/
def execScoreEnd (p : Pair) (s : State) : Host.Outcome State Fault Refusal := .next (whenClocked (ctlEnd p.val) s)

/-- HUM (R203). -/
def execHum (p : Pair) (s : State) : Host.Outcome State Fault Refusal := .next (whenClocked (hum p.val) s)

/-- CHKMUL (R203). -/
def execChkmul (p : Pair) (s : State) : Host.Outcome State Fault Refusal := .next (whenClocked (chkmul p.val) s)

/-- CHKMUL_DONE (R203). -/
def execChkmulDone (p : Pair) (met : ArrayMet) (s : State) : Host.Outcome State Fault Refusal := .next (whenClocked (chkmulDone p.val met) s)

/-- CHKCMP (R203). -/
def execChkcmp (p : Pair) (s : State) : Host.Outcome State Fault Refusal := .next (whenClocked (chkcmp p.val) s)

/-- CHECK_UNIT_DONE (R388). -/
def execCheckUnitDone (p : Pair) (err : Nat) (s : State) : Host.Outcome State Fault Refusal := .next (whenClocked (checkUnitDone p.val err) s)

/-- ALLREDUCE (R311). -/
def execAllreduce (p : Pair) (s : State) : Host.Outcome State Fault Refusal := .next (whenClocked (allreduce p.val) s)

/-- REDSCAT (R311). -/
def execRedscat (p : Pair) (s : State) : Host.Outcome State Fault Refusal := .next (whenClocked (redscat p.val) s)

/-- ALLGATHER (R312). -/
def execAllgather (p : Pair) (s : State) : Host.Outcome State Fault Refusal := .next (whenClocked (allgather p.val) s)

/-- BCAST (R312). -/
def execBcast (p : Pair) (s : State) : Host.Outcome State Fault Refusal := .next (whenClocked (bcast p.val) s)

/-- ALLTOALL_POST (R238). -/
def execAlltoallPost (p : Pair) (s : State) : Host.Outcome State Fault Refusal := .next (whenClocked (alltoallPost p.val) s)

/-- ALLTOALL_DISPATCH (R241). -/
def execAlltoallDispatch (p : Pair) (s : State) : Host.Outcome State Fault Refusal := .next (whenClocked (alltoallDispatch p.val) s)

/-- ALLTOALL_RETURN (R243). -/
def execAlltoallReturn (p : Pair) (s : State) : Host.Outcome State Fault Refusal := .next (whenClocked (alltoallReturn p.val) s)

/-- ALLTOALL_CANCEL (R242). -/
def execAlltoallCancel (p : Pair) (s : State) : Host.Outcome State Fault Refusal := .next (whenClocked (alltoallCancel p.val) s)

/-- PERMUTE (R316). -/
def execPermute (p : Pair) (s : State) : Host.Outcome State Fault Refusal := .next (whenClocked (permute p.val) s)

/-- GEXCH_POST (R273). -/
def execGexchPost (p : Pair) (s : State) : Host.Outcome State Fault Refusal := .next (whenClocked (gexchPost p.val) s)

/-- GEXCH_SEND (R278). -/
def execGexchSend (p : Pair) (s : State) : Host.Outcome State Fault Refusal := .next (whenClocked (gexchSend p.val) s)

/-- NORM64 (R280). -/
def execNorm64 (p : Pair) (s : State) : Host.Outcome State Fault Refusal := .next (whenClocked (norm64 p.val) s)

/-- DIGCMP (R393). -/
def execDigcmp (p : Pair) (s : State) : Host.Outcome State Fault Refusal := .next (whenClocked (digcmp p.val) s)

/-- MEMORY_READ (R211). -/
def execMemoryRead (a : Nat) (requester : Nat) (e : MemErr) (s : State) : Host.Outcome State Fault Refusal := .next (whenReleased (memoryRead a requester e) s)

/-- MEMORY_WRITE (R211). -/
def execMemoryWrite (a : Nat) (requester : Nat) (bs : List Nat) (bad : Bool) (e : MemErr) (s : State) : Host.Outcome State Fault Refusal := .next (whenReleased (memoryWrite a requester bs bad e) s)

/-- CHANNEL_LOCK_LOSS (R222). -/
def execChannelLockLoss (c : Chan) (s : State) : Host.Outcome State Fault Refusal := .next (whenReleased (channelLockLoss c.val) s)

/-- EYE_TRACK (R214). -/
def execEyeTrack (c : Chan) (vals : List Nat) (s : State) : Host.Outcome State Fault Refusal := .next (whenReleased (eyeTrack c.val vals) s)

/-- CHANNEL_IDLE_READ (R214). -/
def execChannelIdleRead (c : Chan) (e : MemErr) (s : State) : Host.Outcome State Fault Refusal := .next (whenReleased (channelIdleRead c.val e) s)

/-- CHANNEL_RETRAIN (R215). -/
def execChannelRetrain (c : Chan) (s : State) : Host.Outcome State Fault Refusal := .next (whenReleased (channelRetrain c.val) s)

/-- CHANNEL_RETRAIN_DONE (R215). -/
def execChannelRetrainDone (c : Chan) (eye : Nat) (s : State) : Host.Outcome State Fault Refusal := .next (whenReleased (channelRetrainDone c.val eye) s)

/-- DEVICE_TEMP_READ (R213). -/
def execDeviceTempRead (c : Chan) (t0 : Nat) (t1 : Nat) (s : State) : Host.Outcome State Fault Refusal := .next (whenReleased (deviceTempRead c.val t0 t1) s)

/-- REFRESH (R216). -/
def execRefresh (c : Chan) (s : State) : Host.Outcome State Fault Refusal := .next (whenReleased (refreshBank c.val) s)

/-- PATROL_SCRUB (R220). -/
def execPatrolScrub (a : Nat) (e : MemErr) (s : State) : Host.Outcome State Fault Refusal := .next (whenReleased (patrolScrub a e) s)

/-- BACKGROUND_FILL (R223). -/
def execBackgroundFill (h : Hive) (j : Option Nat) (e : MemErr) (s : State) : Host.Outcome State Fault Refusal := .next (whenReleased (backgroundFill h.val j e) s)

/-- MEMORY_BRINGUP (R224). -/
def execMemoryBringup (s : State) : Host.Outcome State Fault Refusal := .next (whenReleased memoryBringup s)

/-- MEMORY_TRAIN_DONE (R224). -/
def execMemoryTrainDone (failed : Nat) (vals : List (List Nat)) (s : State) : Host.Outcome State Fault Refusal := .next (whenReleased (memoryTrainDone failed vals) s)

/-- POISON_REC_CLEAR (R228). -/
def execPoisonRecClear (s : State) : Host.Outcome State Fault Refusal := .next (whenReleased poisonRecClear s)

/-- BIAS_WINDOW_CLOSE (R231). -/
def execBiasWindowClose (s : State) : Host.Outcome State Fault Refusal := .next (whenReleased biasWindowClose s)

/-- BIAS_UPDATE (R232). -/
def execBiasUpdate (s : State) : Host.Outcome State Fault Refusal := .next (whenReleased biasUpdate s)

/-- BIAS_SHADOW_APPLY (R233). -/
def execBiasShadowApply (s : State) : Host.Outcome State Fault Refusal := .next (whenReleased biasShadowApply s)

/-- ALLTOALL_ROW_RECEIVE (R240). -/
def execAlltoallRowReceive (m : Packet) (s : State) : Host.Outcome State Fault Refusal := .next (whenReleased (arrives m alltoallRowReceive) s)

/-- ALLTOALL_RECEIVE_CLOSE (R240). -/
def execAlltoallReceiveClose (p : Pair) (tag : Nat) (s : State) : Host.Outcome State Fault Refusal := .next (whenReleased (alltoallReceiveClose p.val tag) s)

/-- DISPATCH_DONE (R241). -/
def execDispatchDone (p : Pair) (seq : Nat) (s : State) : Host.Outcome State Fault Refusal := .next (whenClocked (dispatchDone p.val seq) s)

/-- RETURN_ROW_RECEIVE (R243). -/
def execReturnRowReceive (m : Packet) (s : State) : Host.Outcome State Fault Refusal := .next (whenReleased (arrives m returnRowReceive) s)

/-- BATCH_CLOSE (R244). -/
def execBatchClose (p : Pair) (tag : Nat) (s : State) : Host.Outcome State Fault Refusal := .next (whenReleased (batchClose p.val tag) s)

/-- GEX_MESSAGE_RECEIVE (R275). -/
def execGexMessageReceive (m : Packet) (s : State) : Host.Outcome State Fault Refusal := .next (whenReleased (arrives m gexMessageReceive) s)

/-- GEX_DECODE (R276). -/
def execGexDecode (p : Pair) (tag : Nat) (s : State) : Host.Outcome State Fault Refusal := .next (whenClocked (gexDecode p.val tag) s)

/-- GEX_POST_CLOSE (R277). -/
def execGexPostClose (p : Pair) (tag : Nat) (s : State) : Host.Outcome State Fault Refusal := .next (whenReleased (gexPostClose p.val tag) s)

/-- MASK_RECEIVE (R278). -/
def execMaskReceive (m : Packet) (s : State) : Host.Outcome State Fault Refusal := .next (whenReleased (arrives m maskReceive) s)

/-- MASK_TIMEOUT (R278). -/
def execMaskTimeout (p : Pair) (tag : Nat) (s : State) : Host.Outcome State Fault Refusal := .next (whenReleased (maskTimeout p.val tag) s)

/-- EXCLUDE_APPLY (R279). -/
def execExcludeApply (s : State) : Host.Outcome State Fault Refusal := .next (whenReleased excludeApply s)

/-- NORM_REPORT_RECEIVE (R281). -/
def execNormReportReceive (m : Packet) (s : State) : Host.Outcome State Fault Refusal := .next (whenReleased (arrives m normReportReceive) s)

/-- NORM_TOTAL (R281). -/
def execNormTotal (k : Nat) (guard : Bool) (s : State) : Host.Outcome State Fault Refusal := .next (whenReleased (normTotal k guard) s)

/-- NORM_TOTAL_RECEIVE (R282). -/
def execNormTotalReceive (m : Packet) (s : State) : Host.Outcome State Fault Refusal := .next (whenReleased (arrives m normTotalReceive) s)

/-- NORM_TIMEOUT (R281). -/
def execNormTimeout (k : Nat) (s : State) : Host.Outcome State Fault Refusal := .next (whenReleased (normTimeout k) s)

/-- DATA_FLIT_RECEIVE (R300). -/
def execDataFlitReceive (n : Port) (flit : List Nat) (corrected : Nat) (uncorrected : Bool) (inside : Nat) (now : Nat) (turnaround : Nat) (s : State) : Host.Outcome State Fault Refusal := .next (whenReleased (flitReceive n.val flit corrected uncorrected inside now turnaround) s)

/-- NAK_RECEIVE (R300). -/
def execNakReceive (n : Port) (ack : Nat) (s : State) : Host.Outcome State Fault Refusal := .next (whenReleased (nakReceive n.val ack) s)

/-- REPLAY_TIMEOUT (R300). -/
def execReplayTimeout (n : Port) (s : State) : Host.Outcome State Fault Refusal := .next (whenReleased (replayTimeout n.val) s)

/-- ADDRESS_RECEIVE (R325). -/
def execAddressReceive (n : Port) (body : Nat) (s : State) : Host.Outcome State Fault Refusal := .next (whenReleased (addressReceive n.val body) s)

/-- EQ_RECEIVE (R298). -/
def execEqReceive (n : Port) (kind : Nat) (body : Nat) (s : State) : Host.Outcome State Fault Refusal := .next (whenReleased (eqReceive n.val kind body) s)

/-- EQ_ADAPT (R298). -/
def execEqAdapt (n : Port) (k : Nat) (snr : Nat) (eye : Nat) (lock : Bool) (ask : Option Nat) (s : State) : Host.Outcome State Fault Refusal := .next (whenReleased (eqAdapt n.val k snr eye lock ask) s)

/-- LANE_FAIL (R299). -/
def execLaneFail (n : Port) (k : Nat) (s : State) : Host.Outcome State Fault Refusal := .next (whenReleased (laneFail n.val k) s)

/-- RETRAIN_END (R301). -/
def execRetrainEnd (n : Port) (healthy : Nat) (fec : Nat) (s : State) : Host.Outcome State Fault Refusal := .next (whenReleased (retrainEnd n.val healthy fec) s)

/-- PORT_HANG (R302). -/
def execPortHang (n : Port) (s : State) : Host.Outcome State Fault Refusal := .next (whenReleased (portHang n.val) s)

/-- RETRAIN (R301). -/
def execRetrain (n : Port) (s : State) : Host.Outcome State Fault Refusal := .next (whenReleased (retrainPort n.val) s)

/-- PORT_DOWN (R303). -/
def execPortDown (n : Port) (s : State) : Host.Outcome State Fault Refusal := .next (whenReleased (portDown n.val) s)

/-- PACKET_FORWARD (R304). -/
def execPacketForward (n : Port) (spent : Nat) (m : Packet) (s : State) : Host.Outcome State Fault Refusal := .next (whenReleased (packetForward n.val spent m) s)

/-- PUT_RECEIVE (R170). -/
def execPutReceive (m : Packet) (s : State) : Host.Outcome State Fault Refusal := .next (whenReleased (arrivesEach m putReceive) s)

/-- GET_REQ_RECEIVE (R170). -/
def execGetReqReceive (m : Packet) (s : State) : Host.Outcome State Fault Refusal := .next (whenReleased (arrives m getReqReceive) s)

/-- GET_DATA_RECEIVE (R170). -/
def execGetDataReceive (m : Packet) (s : State) : Host.Outcome State Fault Refusal := .next (whenReleased (arrivesEach m getDataReceive) s)

/-- ACK_RECEIVE (R170). -/
def execAckReceive (m : Packet) (s : State) : Host.Outcome State Fault Refusal := .next (whenReleased (arrives m ackReceive) s)

/-- REFUSE_RECEIVE (R294). -/
def execRefuseReceive (m : Packet) (s : State) : Host.Outcome State Fault Refusal := .next (whenReleased (arrives m refuseArrives) s)

/-- REQUEST_TIMEOUT (R308). -/
def execRequestTimeout (id : Nat) (s : State) : Host.Outcome State Fault Refusal := .next (whenReleased (requestExpires id) s)

/-- EVENT_RECEIVE (R335). -/
def execEventReceive (m : Packet) (s : State) : Host.Outcome State Fault Refusal := .next (whenReleased (arrives m eventReceive) s)

/-- HOST_PACKET_RECEIVE (R332). -/
def execHostPacketReceive (m : Packet) (s : State) : Host.Outcome State Fault Refusal := .next (whenReleased (arrives m hostPacketReceive) s)

/-- COLL_SEGMENT_RECEIVE (R311). -/
def execCollSegmentReceive (m : Packet) (s : State) : Host.Outcome State Fault Refusal := .next (whenReleased (arrives m collSegmentReceive) s)

/-- COLL_CLOSE (R313). -/
def execCollClose (p : Pair) (k : Nat) (s : State) : Host.Outcome State Fault Refusal := .next (whenReleased (collClose p.val k) s)

/-- PERMUTE_DATA_RECEIVE (R316). -/
def execPermuteDataReceive (m : Packet) (s : State) : Host.Outcome State Fault Refusal := .next (whenReleased (arrives m permuteDataReceive) s)

/-- PERMUTE_READY_RECEIVE (R316). -/
def execPermuteReadyReceive (m : Packet) (s : State) : Host.Outcome State Fault Refusal := .next (whenReleased (arrives m permuteReadyReceive) s)

/-- PERMUTE_COMMIT (R316). -/
def execPermuteCommit (p : Pair) (k : Nat) (s : State) : Host.Outcome State Fault Refusal := .next (whenReleased (permuteCommit p.val k) s)

/-- PERMUTE_OUTCOME_RECEIVE (R316). -/
def execPermuteOutcomeReceive (m : Packet) (s : State) : Host.Outcome State Fault Refusal := .next (whenReleased (arrives m permuteOutcomeReceive) s)

/-- DIGCMP_VECTOR_RECEIVE (R393). -/
def execDigcmpVectorReceive (m : Packet) (s : State) : Host.Outcome State Fault Refusal := .next (whenReleased (arrives m digcmpVectorReceive) s)

/-- DIGCMP_CLOSE (R393). -/
def execDigcmpClose (p : Pair) (k : Nat) (s : State) : Host.Outcome State Fault Refusal := .next (whenReleased (digcmpClose p.val k) s)

/-- LINK_BRINGUP (R319). -/
def execLinkBringup (s : State) : Host.Outcome State Fault Refusal := .next (whenReleased linkBringup s)

/-- TRAIN_FAIL (R319). -/
def execTrainFail (n : Port) (s : State) : Host.Outcome State Fault Refusal := .next (whenReleased (trainFail n.val) s)

/-- SPUR_ROUTE_SWITCH (R305). -/
def execSpurRouteSwitch (s : State) : Host.Outcome State Fault Refusal := .next (whenReleased spurRouteSwitch s)

/-- ENUM_START (R329). -/
def execEnumStart (s : State) : Host.Outcome State Fault Refusal := .next (whenReleased enumStart s)

/-- ENUM_DEMOTE (R321). -/
def execEnumDemote (s : State) : Host.Outcome State Fault Refusal := .next (whenReleased enumDemote s)

/-- ENUM_PROMOTE (R329). -/
def execEnumPromote (s : State) : Host.Outcome State Fault Refusal := .next (whenReleased enumPromote s)

/-- JOIN_RECEIVE (R326). -/
def execJoinReceive (m : Packet) (s : State) : Host.Outcome State Fault Refusal := .next (whenReleased (arrives m joinReceive) s)

/-- CONFLICT_RECEIVE (R328). -/
def execConflictReceive (m : Packet) (s : State) : Host.Outcome State Fault Refusal := .next (whenReleased (arrives m conflictReceive) s)

/-- EPOCH_CLOSE (R327). -/
def execEpochClose (s : State) : Host.Outcome State Fault Refusal := .next (whenReleased epochClose s)

/-- KEEPALIVE (R327). -/
def execKeepalive (s : State) : Host.Outcome State Fault Refusal := .next (whenReleased keepalive s)

/-- ORPHAN (R329). -/
def execOrphan (s : State) : Host.Outcome State Fault Refusal := .next (whenReleased orphan s)

/-- FLR (R333). -/
def execFlr (s : State) : Host.Outcome State Fault Refusal := .next (whenReleased flr s)

/-- PCIE_LINK_DOWN (R333). -/
def execPcieLinkDown (s : State) : Host.Outcome State Fault Refusal := .next (whenReleased pcieLinkDown s)

/-- HOST_WINDOW_ACCESS (R332). -/
def execHostWindowAccess (n : Fin 8) (off : Nat) (size : Nat) (write : Bool) (v : Nat) (tag : Nat) (x : Tlp) (s : State) : Host.Outcome State Fault Refusal := .next (whenReleased (hostWindowAccess n.val off size write v tag x) s)

/-- HOST_APERTURE_ACCESS (R332). -/
def execHostApertureAccess (n : Fin 16) (off : Nat) (size : Nat) (write : Bool) (bytes : List Nat) (tag : Nat) (x : Tlp) (s : State) : Host.Outcome State Fault Refusal := .next (whenReleased (hostApertureAccess n.val off size write bytes tag x) s)

/-- EVENT_INTERRUPT (R336). -/
def execEventInterrupt (s : State) : Host.Outcome State Fault Refusal := .next (whenReleased eventInterrupt s)

/-- IDENTIFY (R338). -/
def execIdentify (s : State) : Host.Outcome State Fault Refusal := .next (whenReleased identify s)

/-- STOP_SWITCH (R406). -/
def execStopSwitch (s : State) : Host.Outcome State Fault Refusal := .next (whenReleased stopSwitch s)

/-- ATTEST_REPORT (R413). -/
def execAttestReport (s : State) : Host.Outcome State Fault Refusal := .next (whenReleased attestReport s)

/-- ATTEST_CHAIN (R413). -/
def execAttestChain (s : State) : Host.Outcome State Fault Refusal := .next (whenReleased attestChain s)

/-- FLASH_ERASE (R411). -/
def execFlashErase (s : State) : Host.Outcome State Fault Refusal := .next (whenReleased flashErase s)

/-- FLASH_PROGRAM (R411). -/
def execFlashProgram (s : State) : Host.Outcome State Fault Refusal := .next (whenReleased flashProgram s)

/-- FLASH_READ (R411). -/
def execFlashRead (s : State) : Host.Outcome State Fault Refusal := .next (whenReleased flashRead s)

/-- FLASH_VERIFY (R411). -/
def execFlashVerify (s : State) : Host.Outcome State Fault Refusal := .next (whenReleased flashVerify s)

/-- FLASH_STATUS (R411). -/
def execFlashStatus (s : State) : Host.Outcome State Fault Refusal := .next (whenReleased flashStatus s)

/-- FLASH_OP_DONE (R411). -/
def execFlashOpDone (ok : Bool) (s : State) : Host.Outcome State Fault Refusal := .next (whenReleased (flashOpDone ok) s)

/-- PATTERN_PUSH (R390). -/
def execPatternPush (s : State) : Host.Outcome State Fault Refusal := .next (whenReleased patternPush s)

/-- PATTERN_LIBRARY_REPLACE (R390). -/
def execPatternLibraryReplace (s : State) : Host.Outcome State Fault Refusal := .next (whenReleased patternLibraryReplace s)

/-- DUMP_READ (R382). -/
def execDumpRead (s : State) : Host.Outcome State Fault Refusal := .next (whenReleased dumpRead s)

/-- HIVE_RESET (R377). -/
def execHiveReset (s : State) : Host.Outcome State Fault Refusal := .next (whenReleased hiveReset s)

/-- NOTIFY (R339). -/
def execNotify (s : State) : Host.Outcome State Fault Refusal := .next (whenReleased notify s)

/-- NOTIFY_APPLY (R339). -/
def execNotifyApply (s : State) : Host.Outcome State Fault Refusal := .next (whenReleased notifyApply s)

/-- NOTIFY_DELIVER (R339). -/
def execNotifyDeliver (s : State) : Host.Outcome State Fault Refusal := .next (whenReleased notifyDeliver s)

/-- MAILBOX_RELAY_TIMEOUT (R337). -/
def execMailboxRelayTimeout (num : Nat) (s : State) : Host.Outcome State Fault Refusal := .next (whenReleased (mailboxRelayTimeout num) s)

/-- VOLTAGE_LOOP (R349). -/
def execVoltageLoop (watts : Nat) (freps : List Nat) (accepted : Bool) (s : State) : Host.Outcome State Fault Refusal := .next (whenReleased (voltageLoop watts freps accepted) s)

/-- CURRENT_SAMPLE (R350). -/
def execCurrentSample (amps : Nat) (s : State) : Host.Outcome State Fault Refusal := .next (whenReleased (currentSample amps) s)

/-- THERMAL_LOOP (R351). -/
def execThermalLoop (s : State) : Host.Outcome State Fault Refusal := .next (whenReleased thermalLoop s)

/-- AGEING_MEASURE (R353). -/
def execAgeingMeasure (codes : List Nat) (s : State) : Host.Outcome State Fault Refusal := .next (whenReleased (ageingMeasure codes) s)

/-- HUM_ADJUST (R357). -/
def execHumAdjust (bare : Nat) (gain : Nat) (s : State) : Host.Outcome State Fault Refusal := .next (whenReleased (humAdjust bare gain) s)

/-- TELEMETRY_READ (R344). -/
def execTelemetryRead (r : Option (Nat × Nat × Bool)) (s : State) : Host.Outcome State Fault Refusal := .next (whenReleased (telemetryRead r) s)

/-- AVS_RETRY (R367). -/
def execAvsRetry (accepted : Bool) (s : State) : Host.Outcome State Fault Refusal := .next (whenReleased (avsRetry accepted) s)

/-- ENERGY_INTEGRATE (R364). -/
def execEnergyIntegrate (e : Nat) (work : List (Nat × Nat × Nat)) (s : State) : Host.Outcome State Fault Refusal := .next (energyIntegrate e work s)

/-- JOB_TAG_APPLY (R365). -/
def execJobTagApply (s : State) : Host.Outcome State Fault Refusal := .next (whenReleased jobTagApply s)

/-- TEST_WINDOW_BEGIN (R392). -/
def execTestWindowBegin (s : State) : Host.Outcome State Fault Refusal := .next (whenReleased testWindowBegin s)

/-- MARGIN_CLOCK_APPLY (R356). -/
def execMarginClockApply (s : State) : Host.Outcome State Fault Refusal := .next (whenReleased marginClockApply s)

/-- TEST_WINDOW_END (R392). -/
def execTestWindowEnd (s : State) : Host.Outcome State Fault Refusal := .next (whenReleased testWindowEnd s)

/-- CLOCK_RAMP (R366). -/
def execClockRamp (h : Hive) (s : State) : Host.Outcome State Fault Refusal := .next (whenReleased (clockRamp h.val) s)

/-- HIVE_FAULT (R372). -/
def execHiveFault (s : State) : Host.Outcome State Fault Refusal := .next (whenReleased hiveFault s)

/-- QUIESCE_END (R374). -/
def execQuiesceEnd (h : Hive) (s : State) : Host.Outcome State Fault Refusal := .next (whenReleased (quiesceEnd h.val) s)

/-- DUMP_READ_TIMEOUT (R381). -/
def execDumpReadTimeout (h : Hive) (k : Nat) (n : Nat) (s : State) : Host.Outcome State Fault Refusal := .next (whenReleased (dumpReadTimeout h.val k n) s)

/-- DUMP_BUDGET_EXPIRE (R381). -/
def execDumpBudgetExpire (h : Hive) (k : Nat) (n : Nat) (s : State) : Host.Outcome State Fault Refusal := .next (whenReleased (dumpBudgetExpire h.val k n) s)

/-- DUMP_COMPLETE (R379). -/
def execDumpComplete (h : Hive) (s : State) : Host.Outcome State Fault Refusal := .next (whenReleased (dumpComplete h.val) s)

/-- HIVE_RELEASE (R374). -/
def execHiveRelease (h : Hive) (s : State) : Host.Outcome State Fault Refusal := .next (whenReleased (hiveRelease h.val) s)

/-- HIVE_READY (R374). -/
def execHiveReady (h : Hive) (s : State) : Host.Outcome State Fault Refusal := .next (whenReleased (hiveReady h.val) s)

/-- WATCHDOG_EXPIRE (R384). -/
def execWatchdogExpire (p : Pair) (s : State) : Host.Outcome State Fault Refusal := .next (whenReleased (watchdogExpire p.val) s)

/-- HEARTBEAT (R385). -/
def execHeartbeat (s : State) : Host.Outcome State Fault Refusal := .next (whenReleased heartbeat s)

/-- HEARTBEAT_TIMEOUT (R385). -/
def execHeartbeatTimeout (s : State) : Host.Outcome State Fault Refusal := .next (whenReleased heartbeatTimeout s)

/-- LOCKSTEP_MISMATCH (R385). -/
def execLockstepMismatch (s : State) : Host.Outcome State Fault Refusal := .next (whenReleased lockstepMismatch s)

/-- MP_RESTART (R385). -/
def execMpRestart (hashOk : Bool) (s : State) : Host.Outcome State Fault Refusal := .next (whenReleased (mpRestart hashOk) s)

/-- DUMP_SLOT_RELEASE (R382). -/
def execDumpSlotRelease (g : Hive) (s : State) : Host.Outcome State Fault Refusal := .next (whenReleased (dumpSlotRelease g.val) s)

/-- BOOT_VERIFY (R403). -/
def execBootVerify (fuseOk : Bool) (flashId : Bool) (readOk : Bool) (s : State) : Host.Outcome State Fault Refusal := .next (whenReleased (bootEnds fuseOk flashId readOk) s)

/-- BOOT_COMPLETE (R409). -/
def execBootComplete (ownerWrites : Bool) (blown : Nat) (s : State) : Host.Outcome State Fault Refusal := .next (whenReleased (bootComplete ownerWrites blown) s)

/-- STOP_SWITCH_APPLY (R406). -/
def execStopSwitchApply (s : State) : Host.Outcome State Fault Refusal := .next (whenReleased stopSwitchApply s)

/-- HIVE_ENABLE_PENDING (R407). -/
def execHiveEnablePending (h : Hive) (s : State) : Host.Outcome State Fault Refusal := .next (whenReleased (hiveEnablePending h.val) s)

/-- FREEZE_NOW (R421). -/
def execFreezeNow (s : State) : Host.Outcome State Fault Refusal := .next (whenReleased freezeNow s)

/-- CLEAR_ALL (R426). -/
def execClearAll (s : State) : Host.Outcome State Fault Refusal := .next (whenReleased clearAll s)

/-- COUNTER_FREEZE (R421). -/
def execCounterFreeze (s : State) : Host.Outcome State Fault Refusal := .next (whenReleased counterFreeze s)

/-- BW_WINDOW_END (R422). -/
def execBwWindowEnd (s : State) : Host.Outcome State Fault Refusal := .next (whenReleased bwWindowEnd s)

/-- COUNTER_CLEAR (R420). -/
def execCounterClear (p : Pair) (mask : Nat) (s : State) : Host.Outcome State Fault Refusal := .next (whenReleased (counterClear p.val mask) s)

/-- USER_ALIAS_WRITE (R424). -/
def execUserAliasWrite (p : Pair) (off : Nat) (v : Nat) (s : State) : Host.Outcome State Fault Refusal := .next (whenReleased (userAliasWrite p.val off v) s)

/-- I3C_READ (R441). -/
def execI3cRead (a : Nat) (s : State) : Host.Outcome State Fault Refusal := .next (whenReleased (i3cRead a) s)

/-- I3C_WRITE (R441). -/
def execI3cWrite (a : Nat) (v : Nat) (s : State) : Host.Outcome State Fault Refusal := .next (whenReleased (i3cWrite a v) s)

/-- I3C_ADDRESS_ASSIGN (R441). -/
def execI3cAddressAssign (a : Nat) (s : State) : Host.Outcome State Fault Refusal := .next (whenReleased (i3cAddressAssign a) s)

/-- TAP_RESET (R442). -/
def execTapReset (s : State) : Host.Outcome State Fault Refusal := .next (tapReset s)

/-- EXTEST (R442). -/
def execExtest (n : Nat) (v : Nat) (s : State) : Host.Outcome State Fault Refusal := .next (extest n v s)

/-- IDCODE (R442). -/
def execIdcode (s : State) : Host.Outcome State Fault Refusal := .next (idcode s)

/-- SAMPLE_PRELOAD (R442). -/
def execSamplePreload (v : Nat) (s : State) : Host.Outcome State Fault Refusal := .next (samplePreload v s)

/-- CLAMP (R442). -/
def execClamp (n : Nat) (v : Nat) (s : State) : Host.Outcome State Fault Refusal := .next (clamp n v s)

/-- HIGHZ (R442). -/
def execHighz (n : Nat) (v : Nat) (s : State) : Host.Outcome State Fault Refusal := .next (highz n v s)

/-- BYPASS (R442). -/
def execBypass (n : Nat) (v : Nat) (s : State) : Host.Outcome State Fault Refusal := .next (bypass n v s)

/-- REGACC_READ (R442). -/
def execRegaccRead (a : Nat) (s : State) : Host.Outcome State Fault Refusal := .next (regaccRead a s)

/-- REGACC_WRITE (R442). -/
def execRegaccWrite (a : Nat) (v : Nat) (s : State) : Host.Outcome State Fault Refusal := .next (regaccWrite a v s)

/-- PORT_TRAINING_DONE (R319). -/
def execPortTrainingDone (n : Port) (partner : Nat) (partnerPort : Nat) (fec : Nat) (healthy : Nat) (s : State) : Host.Outcome State Fault Refusal := .next (whenReleased (portTrainingDone n.val partner partnerPort fec healthy) s)

/-- PCIE_LINK_UP (R333). -/
def execPcieLinkUp (s : State) : Host.Outcome State Fault Refusal := .next (whenReleased pcieLinkUp s)

/-- PCIE_POWER_STATE (R330). -/
def execPciePowerState (d3 : Bool) (ecrc : Option (Bool × Bool)) (s : State) : Host.Outcome State Fault Refusal := .next (whenReleased (pciePowerState d3 ecrc) s)

/-- HOST_READ_COMPLETION (R332). -/
def execHostReadCompletion (m : Packet) (s : State) : Host.Outcome State Fault Refusal := .next (whenReleased (arrives m hostReadCompletion) s)

/-- RELAY_RESPONSE_RECEIVE (R337). -/
def execRelayResponseReceive (m : Packet) (s : State) : Host.Outcome State Fault Refusal := .next (whenReleased (arrives m relayResponseReceive) s)

/-- WINDOW_TOTALS_RECEIVE (R231). -/
def execWindowTotalsReceive (m : Packet) (s : State) : Host.Outcome State Fault Refusal := .next (whenReleased (arrives m windowTotalsReceive) s)

/-- BOOT_TIME_LIMIT (R403). -/
def execBootTimeLimit (s : State) : Host.Outcome State Fault Refusal := .next (whenReleased bootTimeUp s)

/-- RELEASE_AFTER_PWR_OK (R433). -/
def execReleaseAfterPwrOk (queen : Bool) (stopSel : Nat) (braked : Bool) (s : State) : Host.Outcome State Fault Refusal := .next (releaseAfterPwrOk queen stopSel braked s)

end Sys2Proof.Machine
end

