-- ==== Sys2Proof/Machine/Dispatch.lean ====
section
/-! DEFINITION. The dispatch: one arm per command. -/

namespace Sys2Proof.Machine

def exec (i : Instr) (s : State) : Host.Outcome State Fault Refusal :=
  match i with
  | .registerWrite off size v requester => Sys2Proof.Machine.execRegisterWrite off size v requester s
  | .pwrOkFall => Sys2Proof.Machine.execPwrOkFall s
  | .pwrOkRise => Sys2Proof.Machine.execPwrOkRise s
  | .resetNAssert => Sys2Proof.Machine.execResetNAssert s
  | .resetNRelease queen stopSel braked => Sys2Proof.Machine.execResetNRelease queen stopSel braked s
  | .brakeAsserted => Sys2Proof.Machine.execBrakeAsserted s
  | .brakeRelease => Sys2Proof.Machine.execBrakeRelease s
  | .brakeReleaseStep => Sys2Proof.Machine.execBrakeReleaseStep s
  | .refclkCoreLoss => Sys2Proof.Machine.execRefclkCoreLoss s
  | .refclkLinkLoss => Sys2Proof.Machine.execRefclkLinkLoss s
  | .sensorSample vals => Sys2Proof.Machine.execSensorSample vals s
  | .masterTickEmit => Sys2Proof.Machine.execMasterTickEmit s
  | .tickInEdge inWindow => Sys2Proof.Machine.execTickInEdge inWindow s
  | .tickInMiss => Sys2Proof.Machine.execTickInMiss s
  | .tickReceive n body inside => Sys2Proof.Machine.execTickReceive n body inside s
  | .tickReroute inside => Sys2Proof.Machine.execTickReroute inside s
  | .localTickFire => Sys2Proof.Machine.execLocalTickFire s
  | .guardPoint => Sys2Proof.Machine.execGuardPoint s
  | .stretchReceive n body => Sys2Proof.Machine.execStretchReceive n body s
  | .tickLost => Sys2Proof.Machine.execTickLost s
  | .breathResume => Sys2Proof.Machine.execBreathResume s
  | .breathArm => Sys2Proof.Machine.execBreathArm s
  | .breathCease => Sys2Proof.Machine.execBreathCease s
  | .tickSourceWrite v => Sys2Proof.Machine.execTickSourceWrite v s
  | .slackRecord margin p => Sys2Proof.Machine.execSlackRecord margin p s
  | .echoSend n now => Sys2Proof.Machine.execEchoSend n now s
  | .echoReceive n body now turnaround => Sys2Proof.Machine.execEchoReceive n body now turnaround s
  | .startNew => Sys2Proof.Machine.execStartNew s
  | .startJoin => Sys2Proof.Machine.execStartJoin s
  | .scoreStart => Sys2Proof.Machine.execScoreStart s
  | .seqPause p => Sys2Proof.Machine.execSeqPause p s
  | .seqResume p => Sys2Proof.Machine.execSeqResume p s
  | .seqClear p => Sys2Proof.Machine.execSeqClear p s
  | .scoreRefill p => Sys2Proof.Machine.execScoreRefill p s
  | .copyShape p => Sys2Proof.Machine.execCopyShape p s
  | .copyGather p => Sys2Proof.Machine.execCopyGather p s
  | .copyScatter p => Sys2Proof.Machine.execCopyScatter p s
  | .copyStart p => Sys2Proof.Machine.execCopyStart p s
  | .copyDone p k => Sys2Proof.Machine.execCopyDone p k s
  | .acc p => Sys2Proof.Machine.execAcc p s
  | .accDone p met => Sys2Proof.Machine.execAccDone p met s
  | .split p => Sys2Proof.Machine.execSplit p s
  | .splitDone p met => Sys2Proof.Machine.execSplitDone p met s
  | .bprod p => Sys2Proof.Machine.execBprod p s
  | .bprodDone p met => Sys2Proof.Machine.execBprodDone p met s
  | .drain p => Sys2Proof.Machine.execDrain p s
  | .drainDone p met => Sys2Proof.Machine.execDrainDone p met s
  | .stage p => Sys2Proof.Machine.execStage p s
  | .stageDone p remote remoteBad => Sys2Proof.Machine.execStageDone p remote remoteBad s
  | .modeChange p met => Sys2Proof.Machine.execModeChange p met s
  | .foldDone p met => Sys2Proof.Machine.execFoldDone p met s
  | .reedBlock p r met => Sys2Proof.Machine.execReedBlock p r met s
  | .reedClose p r met => Sys2Proof.Machine.execReedClose p r met s
  | .reedEnd p r met => Sys2Proof.Machine.execReedEnd p r met s
  | .reedTask p r remote remoteBad met => Sys2Proof.Machine.execReedTask p r remote remoteBad met s
  | .walk p => Sys2Proof.Machine.execWalk p s
  | .foragerEntrySend p stalled => Sys2Proof.Machine.execForagerEntrySend p stalled s
  | .ringRefill p r errs => Sys2Proof.Machine.execRingRefill p r errs s
  | .walkDone p => Sys2Proof.Machine.execWalkDone p s
  | .merge p => Sys2Proof.Machine.execMerge p s
  | .prefixSum p => Sys2Proof.Machine.execPrefixSum p s
  | .sort p => Sys2Proof.Machine.execSort p s
  | .pack p => Sys2Proof.Machine.execPack p s
  | .unpack p => Sys2Proof.Machine.execUnpack p s
  | .combine p => Sys2Proof.Machine.execCombine p s
  | .encode p => Sys2Proof.Machine.execEncode p s
  | .listFunctionDone p => Sys2Proof.Machine.execListFunctionDone p s
  | .vecAdd p => Sys2Proof.Machine.execVecAdd p s
  | .vecSub p => Sys2Proof.Machine.execVecSub p s
  | .vecMul p => Sys2Proof.Machine.execVecMul p s
  | .vecFma p => Sys2Proof.Machine.execVecFma p s
  | .vecMin p => Sys2Proof.Machine.execVecMin p s
  | .vecMax p => Sys2Proof.Machine.execVecMax p s
  | .vecCvt p => Sys2Proof.Machine.execVecCvt p s
  | .vecAxpy p => Sys2Proof.Machine.execVecAxpy p s
  | .vecExp p => Sys2Proof.Machine.execVecExp p s
  | .vecRecip p => Sys2Proof.Machine.execVecRecip p s
  | .vecRsqrt p => Sys2Proof.Machine.execVecRsqrt p s
  | .vecSum p => Sys2Proof.Machine.execVecSum p s
  | .vecDot p => Sys2Proof.Machine.execVecDot p s
  | .vecSumsq64 p => Sys2Proof.Machine.execVecSumsq64 p s
  | .vecRmax p => Sys2Proof.Machine.execVecRmax p s
  | .vecRsum p => Sys2Proof.Machine.execVecRsum p s
  | .vecSoftmax p => Sys2Proof.Machine.execVecSoftmax p s
  | .vecSelect p => Sys2Proof.Machine.execVecSelect p s
  | .vecQuant p => Sys2Proof.Machine.execVecQuant p s
  | .vecDequant p => Sys2Proof.Machine.execVecDequant p s
  | .vecDqacc p => Sys2Proof.Machine.execVecDqacc p s
  | .vecHstore p => Sys2Proof.Machine.execVecHstore p s
  | .vecGenc p => Sys2Proof.Machine.execVecGenc p s
  | .vecGdec p => Sys2Proof.Machine.execVecGdec p s
  | .vecOptw p => Sys2Proof.Machine.execVecOptw p s
  | .vecDigest p => Sys2Proof.Machine.execVecDigest p s
  | .vecDone p => Sys2Proof.Machine.execVecDone p s
  | .wait p => Sys2Proof.Machine.execWait p s
  | .waitRelease p => Sys2Proof.Machine.execWaitRelease p s
  | .signal p => Sys2Proof.Machine.execSignal p s
  | .quiet p => Sys2Proof.Machine.execQuiet p s
  | .quietRelease p => Sys2Proof.Machine.execQuietRelease p s
  | .ctlNop p => Sys2Proof.Machine.execCtlNop p s
  | .li p => Sys2Proof.Machine.execLi p s
  | .ctlAdd p => Sys2Proof.Machine.execCtlAdd p s
  | .addi p => Sys2Proof.Machine.execAddi p s
  | .ctlSub p => Sys2Proof.Machine.execCtlSub p s
  | .muli p => Sys2Proof.Machine.execMuli p s
  | .ctlAnd p => Sys2Proof.Machine.execCtlAnd p s
  | .ctlOr p => Sys2Proof.Machine.execCtlOr p s
  | .ctlXor p => Sys2Proof.Machine.execCtlXor p s
  | .shl p => Sys2Proof.Machine.execShl p s
  | .shr p => Sys2Proof.Machine.execShr p s
  | .sar p => Sys2Proof.Machine.execSar p s
  | .br p => Sys2Proof.Machine.execBr p s
  | .loop p => Sys2Proof.Machine.execLoop p s
  | .get p => Sys2Proof.Machine.execGet p s
  | .slice p => Sys2Proof.Machine.execSlice p s
  | .scoreEnd p => Sys2Proof.Machine.execScoreEnd p s
  | .hum p => Sys2Proof.Machine.execHum p s
  | .chkmul p => Sys2Proof.Machine.execChkmul p s
  | .chkmulDone p met => Sys2Proof.Machine.execChkmulDone p met s
  | .chkcmp p => Sys2Proof.Machine.execChkcmp p s
  | .checkUnitDone p err => Sys2Proof.Machine.execCheckUnitDone p err s
  | .allreduce p => Sys2Proof.Machine.execAllreduce p s
  | .redscat p => Sys2Proof.Machine.execRedscat p s
  | .allgather p => Sys2Proof.Machine.execAllgather p s
  | .bcast p => Sys2Proof.Machine.execBcast p s
  | .alltoallPost p => Sys2Proof.Machine.execAlltoallPost p s
  | .alltoallDispatch p => Sys2Proof.Machine.execAlltoallDispatch p s
  | .alltoallReturn p => Sys2Proof.Machine.execAlltoallReturn p s
  | .alltoallCancel p => Sys2Proof.Machine.execAlltoallCancel p s
  | .permute p => Sys2Proof.Machine.execPermute p s
  | .gexchPost p => Sys2Proof.Machine.execGexchPost p s
  | .gexchSend p => Sys2Proof.Machine.execGexchSend p s
  | .norm64 p => Sys2Proof.Machine.execNorm64 p s
  | .digcmp p => Sys2Proof.Machine.execDigcmp p s
  | .memoryRead a requester e => Sys2Proof.Machine.execMemoryRead a requester e s
  | .memoryWrite a requester bs bad e => Sys2Proof.Machine.execMemoryWrite a requester bs bad e s
  | .channelLockLoss c => Sys2Proof.Machine.execChannelLockLoss c s
  | .eyeTrack c vals => Sys2Proof.Machine.execEyeTrack c vals s
  | .channelIdleRead c e => Sys2Proof.Machine.execChannelIdleRead c e s
  | .channelRetrain c => Sys2Proof.Machine.execChannelRetrain c s
  | .channelRetrainDone c eye => Sys2Proof.Machine.execChannelRetrainDone c eye s
  | .deviceTempRead c t0 t1 => Sys2Proof.Machine.execDeviceTempRead c t0 t1 s
  | .refresh c => Sys2Proof.Machine.execRefresh c s
  | .patrolScrub a e => Sys2Proof.Machine.execPatrolScrub a e s
  | .backgroundFill h j e => Sys2Proof.Machine.execBackgroundFill h j e s
  | .memoryBringup => Sys2Proof.Machine.execMemoryBringup s
  | .memoryTrainDone failed vals => Sys2Proof.Machine.execMemoryTrainDone failed vals s
  | .poisonRecClear => Sys2Proof.Machine.execPoisonRecClear s
  | .biasWindowClose => Sys2Proof.Machine.execBiasWindowClose s
  | .biasUpdate => Sys2Proof.Machine.execBiasUpdate s
  | .biasShadowApply => Sys2Proof.Machine.execBiasShadowApply s
  | .alltoallRowReceive m => Sys2Proof.Machine.execAlltoallRowReceive m s
  | .alltoallReceiveClose p tag => Sys2Proof.Machine.execAlltoallReceiveClose p tag s
  | .dispatchDone p seq => Sys2Proof.Machine.execDispatchDone p seq s
  | .returnRowReceive m => Sys2Proof.Machine.execReturnRowReceive m s
  | .batchClose p tag => Sys2Proof.Machine.execBatchClose p tag s
  | .gexMessageReceive m => Sys2Proof.Machine.execGexMessageReceive m s
  | .gexDecode p tag => Sys2Proof.Machine.execGexDecode p tag s
  | .gexPostClose p tag => Sys2Proof.Machine.execGexPostClose p tag s
  | .maskReceive m => Sys2Proof.Machine.execMaskReceive m s
  | .maskTimeout p tag => Sys2Proof.Machine.execMaskTimeout p tag s
  | .excludeApply => Sys2Proof.Machine.execExcludeApply s
  | .normReportReceive m => Sys2Proof.Machine.execNormReportReceive m s
  | .normTotal k guard => Sys2Proof.Machine.execNormTotal k guard s
  | .normTotalReceive m => Sys2Proof.Machine.execNormTotalReceive m s
  | .normTimeout k => Sys2Proof.Machine.execNormTimeout k s
  | .dataFlitReceive n flit corrected uncorrected inside now turnaround => Sys2Proof.Machine.execDataFlitReceive n flit corrected uncorrected inside now turnaround s
  | .nakReceive n ack => Sys2Proof.Machine.execNakReceive n ack s
  | .replayTimeout n => Sys2Proof.Machine.execReplayTimeout n s
  | .addressReceive n body => Sys2Proof.Machine.execAddressReceive n body s
  | .eqReceive n kind body => Sys2Proof.Machine.execEqReceive n kind body s
  | .eqAdapt n k snr eye lock ask => Sys2Proof.Machine.execEqAdapt n k snr eye lock ask s
  | .laneFail n k => Sys2Proof.Machine.execLaneFail n k s
  | .retrainEnd n healthy fec => Sys2Proof.Machine.execRetrainEnd n healthy fec s
  | .portHang n => Sys2Proof.Machine.execPortHang n s
  | .retrain n => Sys2Proof.Machine.execRetrain n s
  | .portDown n => Sys2Proof.Machine.execPortDown n s
  | .packetForward n spent m => Sys2Proof.Machine.execPacketForward n spent m s
  | .putReceive m => Sys2Proof.Machine.execPutReceive m s
  | .getReqReceive m => Sys2Proof.Machine.execGetReqReceive m s
  | .getDataReceive m => Sys2Proof.Machine.execGetDataReceive m s
  | .ackReceive m => Sys2Proof.Machine.execAckReceive m s
  | .refuseReceive m => Sys2Proof.Machine.execRefuseReceive m s
  | .requestTimeout id => Sys2Proof.Machine.execRequestTimeout id s
  | .eventReceive m => Sys2Proof.Machine.execEventReceive m s
  | .hostPacketReceive m => Sys2Proof.Machine.execHostPacketReceive m s
  | .collSegmentReceive m => Sys2Proof.Machine.execCollSegmentReceive m s
  | .collClose p k => Sys2Proof.Machine.execCollClose p k s
  | .permuteDataReceive m => Sys2Proof.Machine.execPermuteDataReceive m s
  | .permuteReadyReceive m => Sys2Proof.Machine.execPermuteReadyReceive m s
  | .permuteCommit p k => Sys2Proof.Machine.execPermuteCommit p k s
  | .permuteOutcomeReceive m => Sys2Proof.Machine.execPermuteOutcomeReceive m s
  | .digcmpVectorReceive m => Sys2Proof.Machine.execDigcmpVectorReceive m s
  | .digcmpClose p k => Sys2Proof.Machine.execDigcmpClose p k s
  | .linkBringup => Sys2Proof.Machine.execLinkBringup s
  | .trainFail n => Sys2Proof.Machine.execTrainFail n s
  | .spurRouteSwitch => Sys2Proof.Machine.execSpurRouteSwitch s
  | .enumStart => Sys2Proof.Machine.execEnumStart s
  | .enumDemote => Sys2Proof.Machine.execEnumDemote s
  | .enumPromote => Sys2Proof.Machine.execEnumPromote s
  | .joinReceive m => Sys2Proof.Machine.execJoinReceive m s
  | .conflictReceive m => Sys2Proof.Machine.execConflictReceive m s
  | .epochClose => Sys2Proof.Machine.execEpochClose s
  | .keepalive => Sys2Proof.Machine.execKeepalive s
  | .orphan => Sys2Proof.Machine.execOrphan s
  | .flr => Sys2Proof.Machine.execFlr s
  | .pcieLinkDown => Sys2Proof.Machine.execPcieLinkDown s
  | .hostWindowAccess n off size write v tag x => Sys2Proof.Machine.execHostWindowAccess n off size write v tag x s
  | .hostApertureAccess n off size write bytes tag x => Sys2Proof.Machine.execHostApertureAccess n off size write bytes tag x s
  | .eventInterrupt => Sys2Proof.Machine.execEventInterrupt s
  | .identify => Sys2Proof.Machine.execIdentify s
  | .stopSwitch => Sys2Proof.Machine.execStopSwitch s
  | .attestReport => Sys2Proof.Machine.execAttestReport s
  | .attestChain => Sys2Proof.Machine.execAttestChain s
  | .flashErase => Sys2Proof.Machine.execFlashErase s
  | .flashProgram => Sys2Proof.Machine.execFlashProgram s
  | .flashRead => Sys2Proof.Machine.execFlashRead s
  | .flashVerify => Sys2Proof.Machine.execFlashVerify s
  | .flashStatus => Sys2Proof.Machine.execFlashStatus s
  | .flashOpDone ok => Sys2Proof.Machine.execFlashOpDone ok s
  | .patternPush => Sys2Proof.Machine.execPatternPush s
  | .patternLibraryReplace => Sys2Proof.Machine.execPatternLibraryReplace s
  | .dumpRead => Sys2Proof.Machine.execDumpRead s
  | .hiveReset => Sys2Proof.Machine.execHiveReset s
  | .notify => Sys2Proof.Machine.execNotify s
  | .notifyApply => Sys2Proof.Machine.execNotifyApply s
  | .notifyDeliver => Sys2Proof.Machine.execNotifyDeliver s
  | .mailboxRelayTimeout num => Sys2Proof.Machine.execMailboxRelayTimeout num s
  | .voltageLoop watts freps accepted => Sys2Proof.Machine.execVoltageLoop watts freps accepted s
  | .currentSample amps => Sys2Proof.Machine.execCurrentSample amps s
  | .thermalLoop => Sys2Proof.Machine.execThermalLoop s
  | .ageingMeasure codes => Sys2Proof.Machine.execAgeingMeasure codes s
  | .humAdjust bare gain => Sys2Proof.Machine.execHumAdjust bare gain s
  | .telemetryRead r => Sys2Proof.Machine.execTelemetryRead r s
  | .avsRetry accepted => Sys2Proof.Machine.execAvsRetry accepted s
  | .energyIntegrate e work => Sys2Proof.Machine.execEnergyIntegrate e work s
  | .jobTagApply => Sys2Proof.Machine.execJobTagApply s
  | .testWindowBegin => Sys2Proof.Machine.execTestWindowBegin s
  | .marginClockApply => Sys2Proof.Machine.execMarginClockApply s
  | .testWindowEnd => Sys2Proof.Machine.execTestWindowEnd s
  | .clockRamp h => Sys2Proof.Machine.execClockRamp h s
  | .hiveFault => Sys2Proof.Machine.execHiveFault s
  | .quiesceEnd h => Sys2Proof.Machine.execQuiesceEnd h s
  | .dumpReadTimeout h k n => Sys2Proof.Machine.execDumpReadTimeout h k n s
  | .dumpBudgetExpire h k n => Sys2Proof.Machine.execDumpBudgetExpire h k n s
  | .dumpComplete h => Sys2Proof.Machine.execDumpComplete h s
  | .hiveRelease h => Sys2Proof.Machine.execHiveRelease h s
  | .hiveReady h => Sys2Proof.Machine.execHiveReady h s
  | .watchdogExpire p => Sys2Proof.Machine.execWatchdogExpire p s
  | .heartbeat => Sys2Proof.Machine.execHeartbeat s
  | .heartbeatTimeout => Sys2Proof.Machine.execHeartbeatTimeout s
  | .lockstepMismatch => Sys2Proof.Machine.execLockstepMismatch s
  | .mpRestart hashOk => Sys2Proof.Machine.execMpRestart hashOk s
  | .dumpSlotRelease g => Sys2Proof.Machine.execDumpSlotRelease g s
  | .bootVerify fuseOk flashId readOk => Sys2Proof.Machine.execBootVerify fuseOk flashId readOk s
  | .bootComplete ownerWrites blown => Sys2Proof.Machine.execBootComplete ownerWrites blown s
  | .stopSwitchApply => Sys2Proof.Machine.execStopSwitchApply s
  | .hiveEnablePending h => Sys2Proof.Machine.execHiveEnablePending h s
  | .freezeNow => Sys2Proof.Machine.execFreezeNow s
  | .clearAll => Sys2Proof.Machine.execClearAll s
  | .counterFreeze => Sys2Proof.Machine.execCounterFreeze s
  | .bwWindowEnd => Sys2Proof.Machine.execBwWindowEnd s
  | .counterClear p mask => Sys2Proof.Machine.execCounterClear p mask s
  | .userAliasWrite p off v => Sys2Proof.Machine.execUserAliasWrite p off v s
  | .i3cRead a => Sys2Proof.Machine.execI3cRead a s
  | .i3cWrite a v => Sys2Proof.Machine.execI3cWrite a v s
  | .i3cAddressAssign a => Sys2Proof.Machine.execI3cAddressAssign a s
  | .tapReset => Sys2Proof.Machine.execTapReset s
  | .extest n v => Sys2Proof.Machine.execExtest n v s
  | .idcode => Sys2Proof.Machine.execIdcode s
  | .samplePreload v => Sys2Proof.Machine.execSamplePreload v s
  | .clamp n v => Sys2Proof.Machine.execClamp n v s
  | .highz n v => Sys2Proof.Machine.execHighz n v s
  | .bypass n v => Sys2Proof.Machine.execBypass n v s
  | .regaccRead a => Sys2Proof.Machine.execRegaccRead a s
  | .regaccWrite a v => Sys2Proof.Machine.execRegaccWrite a v s
  | .portTrainingDone n partner partnerPort fec healthy => Sys2Proof.Machine.execPortTrainingDone n partner partnerPort fec healthy s
  | .pcieLinkUp => Sys2Proof.Machine.execPcieLinkUp s
  | .pciePowerState d3 ecrc => Sys2Proof.Machine.execPciePowerState d3 ecrc s
  | .hostReadCompletion m => Sys2Proof.Machine.execHostReadCompletion m s
  | .relayResponseReceive m => Sys2Proof.Machine.execRelayResponseReceive m s
  | .windowTotalsReceive m => Sys2Proof.Machine.execWindowTotalsReceive m s
  | .bootTimeLimit => Sys2Proof.Machine.execBootTimeLimit s
  | .releaseAfterPwrOk queen stopSel braked => Sys2Proof.Machine.execReleaseAfterPwrOk queen stopSel braked s

end Sys2Proof.Machine
end

