-- ==== Sys2Proof/Safety.lean ====
section
/-! DEFINITION. The terms the claims use: what a change leaves alone, when a pair issues a word, the canonical form of
memory, and what the part holds in full device reset. -/

namespace Sys2Proof.Machine

/-! ## Frames -/

/-- Registers keep their values: all but those of rs and the named (register, place) pairs of ks. -/
def Keeps (rs : List Reg) (ks : List (Reg × Nat)) (s u : State) : Prop :=
  ∀ r i, r ∉ rs → (r, i) ∉ ks → reg u r i = reg s r i

/-- The state without its registers and without what logging, event records, escalation and sending write. -/
def State.still (s : State) : State :=
  { s with
    regs := []
    log := []
    eventTimes := []
    eventDrops := 0
    heldEvents := []
    pendingFaults := []
    newRecords := false
    freshCount := 0
    hubHeld := []
    ports := []
    host := { s.host with pba := 0 }
    out := [] }

/-- The same without the pairs' units. -/
def State.apart (s : State) : State := { s.still with pairs := [] }

/-- From s to u only the registers of rs and ks, the error log, the event records, the escalated faults and what is sent
have changed: memory, its marks, every pair's units and queues, and every other unit are as before. -/
def Aside (rs : List Reg) (ks : List (Reg × Nat)) (s u : State) : Prop :=
  u.still = s.still ∧ Keeps rs ks s u

/-- The registers an entry of the error log may write (R383). -/
abbrev logRegs : List Reg := [.RL_LOG_PTR, .RL_EVENTS]

/-- The registers the sending of a packet may write (R304, R422). -/
abbrev sendRegs : List Reg := [.LINK_COUNTS, .LINK_EVENTS, .PORTCTR_TX_LO, .PORTCTR_TX_HI]

/-- The registers an event record may write (R335). -/
abbrev eventRegs : List Reg := .HOST_EVQ_PTR :: sendRegs

/-- The counter registers of a pair's bank (R416–R423). -/
def bankKeys (p : Nat) : List (Reg × Nat) :=
  (List.range 8).map (fun j => (.CTR_P_n, 8 * p + j)) ++ [(.CTR_P_OVF, p), (.CTR_P_SAMPLE_LAST, p)]

/-- No byte of memory and no poison mark has changed. -/
def MemSame (s u : State) : Prop := (∀ a, byteAt u a = byteAt s a) ∧ ∀ x, marked u x = marked s x

/-! ## Commands that act -/

/-- The part is out of full device reset (R433). -/
def Released (s : State) : Prop := s.inService = true

/-- The part is out of reset and its pair clocks run (R361). -/
def Clocked (s : State) : Prop := s.inService = true ∧ s.thermTrip = false

/-- The sequencer of pair p issues the word w next: it is RUNNING and waits for nothing, its index is within the score,
and the word is fetched without poison (R155, R157). -/
structure Issues (p w : Nat) (s : State) : Prop where
  clocked : Clocked s
  ready : canIssue s p = true
  within : seqPc s p < scoreLength s p
  notPast : (pair s p).past = false
  word : (fetchWord p (seqPc s p) s).1 = w
  clean : (fetchWord p (seqPc s p) s).2.1 = false

/-- A pair's units without what every fetch and issue touches: the buffer, the last index, the place in issue order. -/
def PairS.settled (x : PairS) : PairS := { x with ibuf := [], past := false, lastIssued := 0, seq := 0 }

/-- The command is executed, and the next state is as P says. -/
def Completes (c : Instr) (s : State) (P : State → Prop) : Prop := ∃ u, exec c s = .next u ∧ P u

/-- What an instruction of pair p leaves alone at its issue, beside its own registers ks: every register but its SEQ_STATUS,
its counter bank and what a record of a counter sample writes; the sequencer's state; the other pairs; memory; every other
unit of the part. -/
structure IssueFrame (p : Nat) (ks : List (Reg × Nat)) (s u : State) : Prop where
  regs : Keeps eventRegs ((.SEQ_STATUS, p) :: ks ++ bankKeys p) s u
  state : seqState u p = seqState s p
  others : ∀ q, q ≠ p → pair u q = pair s q
  memory : MemSame s u
  rest : u.apart = s.apart

/-- The instruction that issues is the next, and the index moves to n (R155). -/
def MovesTo (p n : Nat) (s u : State) : Prop :=
  seqPc u p = n % 2 ^ 20 ∧ (pair u p).lastIssued = seqPc s p ∧ (pair u p).seq = (pair s p).seq + 1

/-- The word w is operation op of class cls, with no bit set outside its fields (R177). -/
def IsWord (cls op : Nat) (fields : List (Nat × Nat)) (w : Nat) : Prop :=
  wbits w 3 0 = cls ∧ wbits w 9 4 = op ∧ onlyBits w fields = true

/-! ## Memory -/

/-- The canonical form of memory: addresses strictly rising, no cell equal to what an unlisted address reads as. -/
abbrev Memory.wf (m : List Host.Cell) : Bool := SMap.wf (0 : BitVec 8) m

end Sys2Proof.Machine
end

