-- ==== Sys2Proof/Certificates/Slice0/Obligations.lean ====
section
/-! DEFINITION. The statements for the provers. -/

open Sys2Proof Sys2Proof.Machine

/-! ## The sequencer -/

/-- A CTL instruction that writes xd: the value v gives of xa, xb and the immediate. -/
def CtlGives (i : Pair → Instr) (op : Nat) (v : Nat → Nat → Nat → Nat) : Prop :=
  ∀ (p : Pair) (w : Nat) (s : State), Issues p w s → IsWord 6 op [(9, 0), (38, 24), (127, 64)] w →
    Completes (i p) s fun u =>
      scalar u p (wbits w 28 24) = v (scalar s p (wbits w 33 29)) (scalar s p (wbits w 38 34)) (wbits w 127 64) % 2 ^ 64
        ∧ MovesTo p (seqPc s p + 1) s u ∧ (pair u p).settled = (pair s p).settled
        ∧ IssueFrame p [(.SEQ_SCALAR_i, 32 * p + wbits w 28 24)] s u

/-- R201, R202. Each CTL instruction that computes writes xd with its value modulo 2^64 and writes no other scalar. The model's
choices it rests on: log entry 10. -/
def Obligations.CtlValues : Prop :=
  CtlGives .li 1 (fun _ _ i => i) ∧ CtlGives .ctlAdd 2 (fun a b _ => a + b) ∧ CtlGives .addi 3 (fun a _ i => a + i)
    ∧ CtlGives .ctlSub 4 (fun a b _ => a + 2 ^ 64 - b) ∧ CtlGives .muli 5 (fun a _ i => a * i)
    ∧ CtlGives .ctlAnd 6 (fun a b _ => a &&& b) ∧ CtlGives .ctlOr 7 (fun a b _ => a ||| b)
    ∧ CtlGives .ctlXor 8 (fun a b _ => a ^^^ b) ∧ CtlGives .shl 0x0A (fun a _ i => a * 2 ^ (i % 64))
    ∧ CtlGives .shr 0x0B (fun a _ i => a / 2 ^ (i % 64))
    ∧ CtlGives .sar 0x0C (fun a _ i => ((BitVec.ofNat 64 a).sshiftRight (i % 64)).toNat)

/-- Pair p has stopped on a score or pair fault of a code and class at an index (R172): FAULTED, the fault recorded, the array work
not begun and the walks discarded; no scalar, no semaphore, no memory written. -/
def Faulted (p code cls pc : Nat) (s u : State) : Prop :=
  seqState u p = 6 ∧ fld u F.SEQ_FAULT_code p = code ∧ fld u F.SEQ_FAULT_cls p = cls ∧ fld u F.SEQ_FAULT_pc p = pc % 2 ^ 20
    ∧ fld u F.SEQ_EVENTS_fault p = 1 ∧ (pair u p).array.queue = [] ∧ (pair u p).walks = []
    ∧ (pair u p).copies = (pair s p).copies ∧ (pair u p).vec = (pair s p).vec
    ∧ (∀ i, scalar u p i = scalar s p i) ∧ (∀ q i, semCount u q i = semCount s q i) ∧ MemSame s u
    ∧ ∀ q, q ≠ p → pair u q = pair s q

/-- The values a GET may read, by its selector (R202). -/
def getSpec (s : State) (p sel : Nat) : Nat :=
  if sel = 0 then (pair s p).sliceBreath
  else if sel = 1 then p
  else if sel = 2 then p / 16
  else if sel = 3 ∨ sel = 4 then fld s F.GROUP_STATUS_device_id
  else if sel = 5 then fld s F.GROUP_CFG_group_id
  else if sel = 6 then seqPc s p
  else (pair s p).seed

/-- R202. GET writes xd with the value its selector names; a selector from 8 is ILLEGAL. NOP changes no scalar. -/
def Obligations.CtlNopGet : Prop :=
  (∀ (p : Pair) (w : Nat) (s : State), Issues p w s → IsWord 6 0 [(9, 0), (38, 24), (127, 64)] w →
    Completes (.ctlNop p) s fun u =>
      MovesTo p (seqPc s p + 1) s u ∧ (pair u p).settled = (pair s p).settled ∧ IssueFrame p [] s u)
  ∧ (∀ (p : Pair) (w : Nat) (s : State), Issues p w s → IsWord 6 0x12 [(9, 0), (38, 24), (127, 64)] w →
    wbits w 67 64 < 8 →
    Completes (.get p) s fun u =>
      scalar u p (wbits w 28 24) = getSpec s p (wbits w 67 64) % 2 ^ 64 ∧ MovesTo p (seqPc s p + 1) s u
        ∧ (pair u p).settled = (pair s p).settled ∧ IssueFrame p [(.SEQ_SCALAR_i, 32 * p + wbits w 28 24)] s u)
  ∧ ∀ (p : Pair) (w : Nat) (s : State), Issues p w s → wbits w 3 0 = 6 → wbits w 9 4 = 0x12 → 8 ≤ wbits w 67 64 →
    Completes (.get p) s fun u => Faulted p 0x01 6 (seqPc s p) s u

/-- The conditions of R182, on 64-bit words. -/
def condSpec (cc : Nat) (a b : Word) : Bool :=
  match cc with
  | 0 => true
  | 1 => a == b
  | 2 => a != b
  | 3 => a.slt b
  | 4 => b.sle a
  | 5 => a.ult b
  | 6 => b.ule a
  | 7 => b.slt a
  | 8 => a.sle b
  | 9 => b.ult a
  | 10 => a.ule b
  | _ => false

/-- The lowest index of pair p's buffer window where instruction i is the next to issue (R155). -/
def windowFrom (s : State) (p i : Nat) : Nat := max (pair s p).refillAt (i - 2048) / 4 * 4

/-- Pair p's units where the buffer refills at n and issue waits (R155). -/
def refilled (s : State) (p n : Nat) : PairS := { (pair s p).settled with refillAt := n / 4 * 4, blocked := .refill }

/-- Pair p's units after a taken branch to n (R155): as before where n is in the buffer's window, whether the branch or the
instruction after it counts as the next to issue; refilled where n is in neither window; and always one of the two. -/
def BranchUnits (p n : Nat) (s u : State) : Prop :=
  (windowFrom s p (seqPc s p + 1) ≤ n → n < windowFrom s p (seqPc s p) + 4096 → (pair u p).settled = (pair s p).settled)
    ∧ (n < windowFrom s p (seqPc s p) ∨ windowFrom s p (seqPc s p + 1) + 4096 ≤ n → (pair u p).settled = refilled s p n)
    ∧ ((pair u p).settled = (pair s p).settled ∨ (pair u p).settled = refilled s p n)

/-- R182. BR moves to its target if its condition holds on xa and xb, else to the next index. LOOP lowers xa by one modulo 2^64
and branches if that is not 0. A target outside the buffer waits for a refill, which SCORE_REFILL ends. A condition code from 11
is ILLEGAL. -/
def Obligations.Branches : Prop :=
  (∀ (p : Pair) (w : Nat) (s : State), Issues p w s → IsWord 6 0x10 [(13, 0), (38, 24), (83, 64)] w →
    wbits w 13 10 ≤ 10 → wbits w 127 64 < scoreLength s p →
    condSpec (wbits w 13 10) (reg s .SEQ_SCALAR_i (32 * p + wbits w 33 29)) (reg s .SEQ_SCALAR_i (32 * p + wbits w 38 34)) = true →
    Completes (.br p) s fun u =>
      MovesTo p (wbits w 127 64) s u ∧ BranchUnits p (wbits w 127 64) s u ∧ IssueFrame p [] s u)
  ∧ (∀ (p : Pair) (w : Nat) (s : State), Issues p w s → IsWord 6 0x10 [(13, 0), (38, 24), (83, 64)] w →
    wbits w 13 10 ≤ 10 → wbits w 127 64 < scoreLength s p →
    condSpec (wbits w 13 10) (reg s .SEQ_SCALAR_i (32 * p + wbits w 33 29)) (reg s .SEQ_SCALAR_i (32 * p + wbits w 38 34)) = false →
    Completes (.br p) s fun u =>
      MovesTo p (seqPc s p + 1) s u ∧ (pair u p).settled = (pair s p).settled ∧ IssueFrame p [] s u)
  ∧ (∀ (p : Pair) (w : Nat) (s : State), Issues p w s → IsWord 6 0x11 [(9, 0), (38, 24), (83, 64)] w →
    wbits w 127 64 < scoreLength s p →
    Completes (.loop p) s fun u =>
      scalar u p (wbits w 33 29) = (scalar s p (wbits w 33 29) + 2 ^ 64 - 1) % 2 ^ 64
        ∧ (scalar s p (wbits w 33 29) ≠ 1 → MovesTo p (wbits w 127 64) s u ∧ BranchUnits p (wbits w 127 64) s u)
        ∧ (scalar s p (wbits w 33 29) = 1 → MovesTo p (seqPc s p + 1) s u ∧ (pair u p).settled = (pair s p).settled)
        ∧ IssueFrame p [(.SEQ_SCALAR_i, 32 * p + wbits w 33 29)] s u)
  ∧ (∀ (p : Pair) (w : Nat) (s : State), Issues p w s → wbits w 3 0 = 6 → wbits w 9 4 = 0x10 → 11 ≤ wbits w 13 10 →
    Completes (.br p) s fun u => Faulted p 0x01 6 (seqPc s p) s u)
  ∧ ∀ (p : Pair) (s : State), Clocked s → (pair s p).blocked = .refill →
    Completes (.scoreRefill p) s fun u =>
      pair u p = { pair s p with blocked := .none } ∧ (∀ q, q ≠ p.val → pair u q = pair s q) ∧ u.apart = s.apart
        ∧ Keeps [] [] s u

/-- R157, R200, R201. SLICE ends the slice: the pair is WAITING, or PAUSED where a pause waited for it, unless a slice is owed,
which begins at once outside DESYNC. END ends the score: the pair is DONE. With their quiet flag set and the pair not quiet,
both wait. The model's choices it rests on: log entry 64. -/
def Obligations.SliceEnds : Prop :=
  (∀ (p : Pair) (w : Nat) (s : State), Issues p w s → IsWord 6 0x18 [(10, 0), (38, 24), (127, 64)] w →
    wbits w 10 10 = 0 ∨ pairQuiet s p = true → (pair s p).owed = none →
    Completes (.slice p) s fun u =>
      seqState u p = (if (pair s p).pauseReq then 4 else 3) ∧ MovesTo p (seqPc s p + 1) s u
        ∧ (pair u p).settled = { (pair s p).settled with blocked := .none, pauseReq := false, inSlice := false, loads := [] }
        ∧ (∀ i, scalar u p i = scalar s p i) ∧ MemSame s u)
  ∧ (∀ (p : Pair) (w n : Nat) (s : State), Issues p w s → IsWord 6 0x18 [(10, 0), (38, 24), (127, 64)] w →
    wbits w 10 10 = 0 ∨ pairQuiet s p = true → (pair s p).owed = some n → (pair s p).pauseReq = false →
    fld s F.BREATH_STATUS_state ≠ 4 →
    Completes (.slice p) s fun u =>
      seqState u p = 2 ∧ MovesTo p (seqPc s p + 1) s u ∧ (pair u p).sliceBreath = n ∧ (pair u p).inSlice = true
        ∧ (pair u p).owed = none ∧ (∀ i, scalar u p i = scalar s p i))
  ∧ (∀ (p : Pair) (w : Nat) (s : State), Issues p w s → IsWord 6 0x19 [(10, 0), (38, 24), (127, 64)] w →
    wbits w 10 10 = 0 ∨ pairQuiet s p = true →
    Completes (.scoreEnd p) s fun u =>
      seqState u p = 5 ∧ MovesTo p (seqPc s p + 1) s u
        ∧ (pair u p).settled
          = { (pair s p).settled with blocked := .none, pauseReq := false, inSlice := false, owed := none, loads := [] }
        ∧ (∀ i, scalar u p i = scalar s p i) ∧ MemSame s u)
  ∧ (∀ (p : Pair) (w : Nat) (s : State), Issues p w s → IsWord 6 0x18 [(10, 0), (38, 24), (127, 64)] w →
    wbits w 10 10 = 1 → pairQuiet s p = false →
    Completes (.slice p) s fun u =>
      MovesTo p (seqPc s p + 1) s u ∧ (pair u p).settled = { (pair s p).settled with blocked := .sliceQuiet } ∧ IssueFrame p [] s u)
  ∧ ∀ (p : Pair) (w : Nat) (s : State), Issues p w s → IsWord 6 0x19 [(10, 0), (38, 24), (127, 64)] w →
    wbits w 10 10 = 1 → pairQuiet s p = false →
    Completes (.scoreEnd p) s fun u =>
      MovesTo p (seqPc s p + 1) s u ∧ (pair u p).settled = { (pair s p).settled with blocked := .endQuiet } ∧ IssueFrame p [] s u

/-- A wait for n on a semaphore (R154, R200, R203): the count taken at once if it suffices, else the sequencer waits. -/
def WaitsOn (i : Pair → Instr) (cls : Nat) (fields : List (Nat × Nat)) (b : Nat → Nat → Nat → Blocked) : Prop :=
  ∀ (p : Pair) (w : Nat) (s : State), Issues p w s → IsWord cls 0 fields w → wbits w 39 24 ≠ 0 →
    Completes (i p) s fun u =>
      MovesTo p (seqPc s p + 1) s u ∧ IssueFrame p [(.SEQ_SEM_i, 64 * p + wbits w 21 16)] s u
        ∧ (wbits w 39 24 ≤ semCount s p (wbits w 21 16) →
            semCount u p (wbits w 21 16) = semCount s p (wbits w 21 16) - wbits w 39 24
              ∧ (pair u p).settled = (pair s p).settled)
        ∧ (semCount s p (wbits w 21 16) < wbits w 39 24 →
            semCount u p (wbits w 21 16) = semCount s p (wbits w 21 16)
              ∧ (pair u p).settled = { (pair s p).settled with blocked := b w (wbits w 21 16) (wbits w 39 24) })

/-- R154, R200, R203. WAIT and HUM take n from their semaphore, or wait for it, a HUM as the plain or the check HUM that its flag
names; WAIT_RELEASE takes n once the count has reached it and ends the wait. -/
def Obligations.SemaphoreWaits : Prop :=
  WaitsOn .wait 4 [(9, 0), (21, 16), (39, 24)] (fun _ k n => .sem k n)
  ∧ WaitsOn .hum 7 [(10, 0), (21, 16), (39, 24)] (fun w k n => .hum k n (bitAt w 10))
  ∧ ∀ (p : Pair) (k n : Nat) (s : State), Clocked s →
      ((pair s p).blocked = .sem k n ∨ ∃ check, (pair s p).blocked = .hum k n check) →
      n ≤ semCount s p k →
      Completes (.waitRelease p) s fun u =>
        semCount u p k = semCount s p k - n ∧ pair u p = { pair s p with blocked := .none }
          ∧ (∀ q, q ≠ p.val → pair u q = pair s q) ∧ Keeps [] [(.SEQ_SEM_i, 64 * p + k)] s u ∧ MemSame s u

/-- R154, R156, R200. SIGNAL raises the named semaphore of the pair it names by one; to a pair whose hive is not in service it
raises none and is logged. QUIET waits while the pair is not quiet, and QUIET_RELEASE ends what waits for it: a QUIET, a SLICE
or an END. -/
def Obligations.SignalQuiet : Prop :=
  (∀ (p : Pair) (w : Nat) (s : State), Issues p w s → IsWord 4 1 [(9, 0), (21, 16), (29, 24)] w →
    hiveState s (wbits w 29 24 / 16) = 0 → semCount s (wbits w 29 24) (wbits w 21 16) ≠ 0xFFFFFFFF →
    Completes (.signal p) s fun u =>
      semCount u (wbits w 29 24) (wbits w 21 16) = semCount s (wbits w 29 24) (wbits w 21 16) + 1
        ∧ MovesTo p (seqPc s p + 1) s u ∧ (pair u p).settled = (pair s p).settled
        ∧ IssueFrame p [(.SEQ_SEM_i, 64 * wbits w 29 24 + wbits w 21 16)] s u)
  ∧ (∀ (p : Pair) (w : Nat) (s : State), Issues p w s → IsWord 4 1 [(9, 0), (21, 16), (29, 24)] w →
    hiveState s (wbits w 29 24 / 16) ≠ 0 →
    Completes (.signal p) s fun u =>
      (∀ q k, semCount u q k = semCount s q k) ∧ MovesTo p (seqPc s p + 1) s u
        ∧ (pair u p).settled = (pair s p).settled ∧ u.log ≠ s.log ∧ MemSame s u)
  ∧ (∀ (p : Pair) (w : Nat) (s : State), Issues p w s → IsWord 4 2 [(9, 0)] w →
    Completes (.quiet p) s fun u =>
      MovesTo p (seqPc s p + 1) s u ∧ IssueFrame p [] s u
        ∧ (pairQuiet s p = true → (pair u p).settled = (pair s p).settled)
        ∧ (pairQuiet s p = false → (pair u p).settled = { (pair s p).settled with blocked := .quiet }))
  ∧ (∀ (p : Pair) (s : State), Clocked s → pairQuiet s p = true → (pair s p).blocked = .quiet →
    Completes (.quietRelease p) s fun u =>
      pair u p = { pair s p with blocked := .none } ∧ (∀ q, q ≠ p.val → pair u q = pair s q) ∧ Keeps [] [] s u ∧ MemSame s u)
  ∧ (∀ (p : Pair) (s : State), Clocked s → pairQuiet s p = true → (pair s p).blocked = .sliceQuiet → (pair s p).owed = none →
    Completes (.quietRelease p) s fun u =>
      seqState u p = (if (pair s p).pauseReq then 4 else 3) ∧ (pair u p).inSlice = false ∧ (pair u p).blocked = .none
        ∧ MemSame s u)
  ∧ ∀ (p : Pair) (s : State), Clocked s → pairQuiet s p = true → (pair s p).blocked = .endQuiet →
    Completes (.quietRelease p) s fun u =>
      seqState u p = 5 ∧ (pair u p).inSlice = false ∧ (pair u p).blocked = .none ∧ MemSame s u

/-! ## Pause, resume, clear, start -/

/-- R159. PAUSE of a RUNNING pair waits for its slice end, and of a WAITING pair is immediate; RESUME of a PAUSED pair makes it
WAITING; CLEAR of a quiet FAULTED pair that does not escalate makes it IDLE and empties SEQ_FAULT. In any other state each is
ignored and marked, and changes nothing else. -/
def Obligations.SequencerCommands : Prop :=
  (∀ (p : Pair) (s : State), Released s → seqState s p = 2 →
    Completes (.seqPause p) s fun u =>
      pair u p = { pair s p with pauseReq := true } ∧ Keeps [] [] s u ∧ u.apart = s.apart)
  ∧ (∀ (p : Pair) (s : State), Released s → seqState s p = 3 →
    Completes (.seqPause p) s fun u =>
      seqState u p = 4 ∧ seqPc u p = seqPc s p ∧ Keeps [] [(.SEQ_STATUS, p)] s u ∧ u.still = s.still)
  ∧ (∀ (p : Pair) (s : State), Released s → seqState s p = 4 →
    Completes (.seqResume p) s fun u =>
      seqState u p = 3 ∧ seqPc u p = seqPc s p ∧ Keeps [] [(.SEQ_STATUS, p)] s u ∧ u.still = s.still)
  ∧ (∀ (p : Pair) (s : State), Released s → seqState s p = 6 → fld s F.SEQ_CTRL_fault_escalate p = 0 → pairQuiet s p = true →
    Completes (.seqClear p) s fun u =>
      seqState u p = 0 ∧ seqPc u p = seqPc s p ∧ reg u .SEQ_FAULT p = 0#64
        ∧ Keeps [] [(.SEQ_STATUS, p), (.SEQ_FAULT, p)] s u ∧ u.still = s.still)
  ∧ ∀ (p : Pair) (c : Instr) (s : State), Released s →
      (c = .seqPause p ∧ seqState s p ≠ 2 ∧ seqState s p ≠ 3 ∨ c = .seqResume p ∧ seqState s p ≠ 4
        ∨ c = .seqClear p ∧ (seqState s p ≠ 6 ∨ fld s F.SEQ_CTRL_fault_escalate p = 1 ∨ pairQuiet s p = false)) →
      Completes c s fun u =>
        fld u F.SEQ_EVENTS_ignored_write p = 1 ∧ Keeps [] [(.SEQ_EVENTS, p)] s u ∧ u.still = s.still

/-- Pair p may be started (R158). -/
def Startable (s : State) (p : Nat) : Prop :=
  hiveState s (p / 16) = 0 ∧ (seqState s p = 0 ∨ seqState s p = 5) ∧ fld s F.SEQ_ENTRY_entry p < scoreLength s p

/-- A start command finds its mask, lock, pairs and start tick in order (R158). -/
def StartInOrder (s : State) : Prop :=
  fld s F.SCORE_MASK_pairs ≠ 0 ∧ fld s F.BOOT_STATUS_boot_lock = 1
    ∧ (∀ p < 64, bitAt (fld s F.SCORE_MASK_pairs) p = true → Startable s p)
    ∧ (fld s F.BREATH_START_start_tick = 0 ∨ tickNumber s < fld s F.BREATH_START_start_tick)

/-- The named pairs have accepted the start: PENDING at their entry, scalars and semaphores 0, the seed latched. -/
def StartsAccepted (new : Bool) (s u : State) : Prop :=
  fld u F.SCORE_STATUS_result = 1
    ∧ (∀ p < 64, bitAt (fld s F.SCORE_MASK_pairs) p = true →
        seqState u p = 1 ∧ seqPc u p = fld s F.SEQ_ENTRY_entry p ∧ (∀ i < 32, scalar u p i = 0) ∧ (∀ i < 64, semCount u p i = 0)
          ∧ (pair u p).seed = (reg s .NUM_SEED 0).toNat ∧ (pair u p).startNew = new
          ∧ (pair u p).startAt = fld s F.BREATH_START_start_tick)
    ∧ (∀ p < 64, bitAt (fld s F.SCORE_MASK_pairs) p = false → seqState u p = seqState s p ∧ pair u p = pair s p)
    ∧ MemSame s u

/-- R158. START_NEW is accepted where no pair runs a score, START_JOIN where a start_new was accepted before; the pairs of
SCORE_MASK become PENDING with their scalars, semaphores and index set. SCORE_START makes a PENDING pair whose start tick has
come RUNNING, in the slice of the present schedule breath. The model's choices it rests on: log entry 61. -/
def Obligations.Starts : Prop :=
  (∀ s : State, Released s → StartInOrder s →
    (∀ p < 64, seqState s p = 0 ∨ seqState s p = 5 ∨ seqState s p = 6) →
    Completes .startNew s fun u => StartsAccepted true s u ∧ u.breath.newAccepted = true)
  ∧ (∀ s : State, Released s → StartInOrder s → s.breath.newAccepted = true →
    Completes .startJoin s fun u => StartsAccepted false s u)
  ∧ (∀ s : State, Released s → fld s F.SCORE_MASK_pairs = 0 →
    Completes .startNew s fun u => fld u F.SCORE_STATUS_result = 3 ∧ Keeps [] [(.SCORE_STATUS, 0)] s u ∧ u.still = s.still)
  ∧ ∀ (p : Pair) (s : State), Released s → seqState s p = 1 → (pair s p).startDue = true →
    Completes .scoreStart s fun u =>
      seqState u p = 2 ∧ (pair u p).sliceBreath = schedBreath s ∧ (pair u p).inSlice = true
        ∧ ∀ l < 512, laneState (pair u p) p (schedBreath s) l = laneSeed (pair s p).seed p l (schedBreath s)

/-! ## Score faults -/

/-- The rows that issue a score instruction of pair p. -/
def scoreRows (p : Pair) : List Instr :=
  [.copyShape p, .copyGather p, .copyScatter p, .acc p, .split p, .bprod p, .drain p, .stage p, .walk p, .merge p, .prefixSum p,
   .sort p, .pack p, .unpack p, .combine p, .encode p, .vecAdd p, .vecSub p, .vecMul p, .vecFma p, .vecMin p, .vecMax p, .vecCvt p,
   .vecAxpy p, .vecExp p, .vecRecip p, .vecRsqrt p, .vecSum p, .vecDot p, .vecSumsq64 p, .vecRmax p, .vecRsum p, .vecSoftmax p,
   .vecSelect p, .vecQuant p, .vecDequant p, .vecDqacc p, .vecHstore p, .vecGenc p, .vecGdec p, .vecOptw p, .vecDigest p,
   .wait p, .signal p, .quiet p, .ctlNop p, .li p, .ctlAdd p, .addi p, .ctlSub p, .muli p, .ctlAnd p, .ctlOr p, .ctlXor p, .shl p,
   .shr p, .sar p, .br p, .loop p, .get p, .slice p, .scoreEnd p, .hum p, .chkmul p, .chkcmp p, .allreduce p, .redscat p,
   .allgather p, .bcast p, .alltoallPost p, .alltoallDispatch p, .alltoallReturn p, .alltoallCancel p, .permute p, .gexchPost p,
   .gexchSend p, .norm64 p, .digcmp p]

/-- R172, R178. Whatever row is asked, a fetched word that names no operation is the fault ILLEGAL, an index that has run off
the score is BRANCH_RANGE with class 0xF and the score length, and a poisoned word is FETCH: the sequencer is FAULTED and the
instruction has no other effect. The model's choices it rests on: log entries 9 and 103. -/
def Obligations.ScoreFaults : Prop :=
  (∀ (p : Pair) (w : Nat) (s : State) (c : Instr), c ∈ scoreRows p → Issues p w s → definedOp w = false →
    Completes c s fun u => Faulted p 0x01 (w % 16) (seqPc s p) s u)
  ∧ (∀ (p : Pair) (s : State) (c : Instr), c ∈ scoreRows p → Clocked s → canIssue s p = true → scoreLength s p ≤ seqPc s p →
    Completes c s fun u => Faulted p 0x07 0xF (scoreLength s p) s u)
  ∧ ∀ (p : Pair) (s : State) (c : Instr), c ∈ scoreRows p → Clocked s → canIssue s p = true → (pair s p).past = false →
    seqPc s p < scoreLength s p → (fetchWord p (seqPc s p) s).2.1 = true →
    Completes c s fun u => Faulted p 0x10 0xF (seqPc s p) s u

/-! ## The array -/

/-- What the checks and the issue of an instruction give is no fault. -/
def NoFault (r : Issue) : Prop :=
  match r with
  | .fault _ => False
  | .reject _ _ => False
  | _ => True

/-- The state in which the checks of pair p's next instruction are made. -/
def fetched (p : Nat) (s : State) : State := (fetchWord p (seqPc s p) s).2.2

/-- An array instruction whose checks pass is queued in its place, with the scalars it names as they are now (R153, R179); where the
queue is full nothing happens yet. -/
def ArrayQueues (i : Pair → Instr) (cls op : Nat) (issue : Nat → Nat → State → Issue) (vals : State → Nat → Nat → List Nat) : Prop :=
  (∀ (p : Pair) (w : Nat) (s : State), Issues p w s → wbits w 3 0 = cls → wbits w 9 4 = op → NoFault (issue p w (fetched p s)) →
    (pair s p).array.queue.length < 8 →
    Completes (i p) s fun u =>
      MovesTo p (seqPc s p + 1) s u ∧ IssueFrame p [] s u
        ∧ ∃ o : UnitOp, o.word = w ∧ o.index = seqPc s p ∧ o.seq = (pair s p).seq ∧ o.vals = vals s p w
            ∧ (pair u p).settled = { (pair s p).settled with array := { (pair s p).array with queue := (pair s p).array.queue ++ [o] } })
  ∧ ∀ (p : Pair) (w : Nat) (s : State), Issues p w s → wbits w 3 0 = cls → wbits w 9 4 = op → NoFault (issue p w (fetched p s)) →
    (pair s p).array.queue.length = 8 → Completes (i p) s fun u => u = s

/-- R153, R179, R187–R191, R203. ACC, SPLIT, BPROD, STAGE and CHKMUL that pass their checks are queued for the array; DRAIN
joins the drain queue with its base, its format, its slices and its semaphore. The model's choices it rests on: log entries 28
and 93. -/
def Obligations.ArrayIssue : Prop :=
  ArrayQueues .acc 1 0 issueAcc
    (fun s p w => [scalar s p (wbits w 73 69), scalar s p (wbits w 78 74), scalar s p (wbits w 107 103)])
  ∧ ArrayQueues .split 1 1 issueSplit
    (fun s p w => [scalar s p (wbits w 63 59), scalar s p (wbits w 80 76), scalar s p (wbits w 85 81)]
      ++ (List.range (if wbits w 13 13 = 1 then 4 else 1)).map (fun r => scalar s p ((wbits w 58 54 + r) % 32)))
  ∧ ArrayQueues .bprod 1 2 issueBprod
    (fun s p w => [scalar s p (wbits w 46 42), scalar s p (wbits w 51 47), scalar s p (wbits w 56 52)])
  ∧ ArrayQueues .stage 1 4 issueStage (fun s p w => [scalar s p (wbits w 50 46), scalar s p (wbits w 55 51)])
  ∧ ArrayQueues .chkmul 7 1 issueChkmul (fun s p w => [scalar s p (wbits w 54 50)])
  ∧ ∀ (p : Pair) (w : Nat) (s : State), Issues p w s → wbits w 3 0 = 1 → wbits w 9 4 = 3 → NoFault (issueDrain p w (fetched p s)) →
    (pair s p).array.drains.length < 5 →
    Completes (.drain p) s fun u =>
      MovesTo p (seqPc s p + 1) s u ∧ IssueFrame p [(.ARRAY_STATUS, p)] s u ∧ arrayMode u p = arrayMode s p
        ∧ ∃ d : DrainOp, d.seq = (pair s p).seq ∧ d.owner = 0 ∧ d.base = scalar s p (wbits w 46 42) ∧ d.fmt = wbits w 27 24
            ∧ d.bank = wbits w 29 28 ∧ d.smask = wbits w 33 30 ∧ d.blk = bitAt w 12 ∧ d.keep = bitAt w 11 ∧ d.sat = wbits w 60 59
            ∧ (d.rowStep, d.colStep)
              = (if wbits w 10 10 = 1 then (if d.fmt = 0 then 4 else 2, 64 * wbits w 58 47)
                else (64 * wbits w 58 47, if d.fmt = 0 then 4 else 2))
            ∧ d.sem = wbits w 21 16 ∧ d.sig = bitAt w 22
            ∧ (pair u p).settled = { (pair s p).settled with array := { (pair s p).array with drains := (pair s p).array.drains ++ [d] } }

/-- The oldest array instruction of pair p is o, an operation op of class cls; it stands in its mode m and no drain lies before it. -/
structure AtHead (p cls op m : Nat) (o : UnitOp) (rest : List UnitOp) (s : State) : Prop where
  clocked : Clocked s
  queue : (pair s p).array.queue = o :: rest
  cls : wbits o.word 3 0 = cls
  op : wbits o.word 9 4 = op
  mode : arrayMode s p = m
  drains : (pair s p).array.drains = []
  room : wbits o.word 22 22 = 1 → semCount s p (wbits o.word 21 16) ≠ 0xFFFFFFFF

/-- The array instruction o of pair p has left the queue, and its semaphore has its increment if it signals (R60). -/
def Retired (p : Nat) (o : UnitOp) (rest : List UnitOp) (s u : State) : Prop :=
  (pair u p).array.queue = rest
    ∧ semCount u p (wbits o.word 21 16) = semCount s p (wbits o.word 21 16) + (if wbits o.word 22 22 = 1 then 1 else 0)

/-- What the completion of an array instruction leaves alone: the scalars, the other semaphores, the sequencer, the other pairs. -/
def ArrayFrame (p sem : Nat) (s u : State) : Prop :=
  (∀ i, scalar u p i = scalar s p i) ∧ (∀ q i, (q, i) ≠ (p, sem) → semCount u q i = semCount s q i)
    ∧ reg u .SEQ_STATUS p = reg s .SEQ_STATUS p ∧ ∀ q, q ≠ p → pair u q = pair s q

/-- R60, R62, R73, R187–R192. An array instruction at the head of the queue completes: ACC adds its steps to the accumulators of
its bank and opens the bank's slices; SPLIT in staging mode opens its slices, and in queue mode or as a BPROD ends once every
reed has consumed its END; STAGE fills its buffer; a mode change sets the mode, and one to block-product clears every
accumulator and frees every slice. The model's choices it rests on: log entries 25 and 97. -/
def Obligations.ArrayCompletion : Prop :=
  (∀ (p : Pair) (o : UnitOp) (rest : List UnitOp) (met : ArrayMet) (s : State), AtHead p 1 0 0 o rest s →
    Completes (.accDone p met) s fun u =>
      Retired p o rest s u ∧ ArrayFrame p (wbits o.word 21 16) s u ∧ MemSame s u
        ∧ (∀ b < 4, ∀ i < 512, ∀ j < 64,
            SMap.get 0 (pair u p).array.acc ((b * 512 + i) * 64 + j) =
              if b = wbits o.word 33 32 ∧ i ≤ wbits o.word 62 54 ∧ j ≤ wbits o.word 68 63 then
                ((accRun s p o).cell s p (wbits o.word 53 34 + 1) i j (SMap.get 0 (pair s p).array.acc ((b * 512 + i) * 64 + j))).acc
              else SMap.get 0 (pair s p).array.acc ((b * 512 + i) * 64 + j))
        ∧ (∀ b < 4, ∀ r < 4, sliceState u p (4 * b + r) = if b = wbits o.word 33 32 then 1 else sliceState s p (4 * b + r)))
  ∧ (∀ (p : Pair) (o : UnitOp) (rest : List UnitOp) (met : ArrayMet) (s : State), AtHead p 1 1 1 o rest s → wbits o.word 10 10 = 1 →
    Completes (.splitDone p met) s fun u =>
      Retired p o rest s u ∧ ArrayFrame p (wbits o.word 21 16) s u ∧ MemSame s u
        ∧ ∀ r < 4, sliceState u p (4 * wbits o.word 33 32 + r) = 1)
  ∧ (∀ (p : Pair) (o : UnitOp) (rest : List UnitOp) (met : ArrayMet) (s : State), AtHead p 1 1 1 o rest s → wbits o.word 10 10 = 0 →
    (pair s p).array.ended = 15 →
    Completes (.splitDone p met) s fun u =>
      Retired p o rest s u ∧ ArrayFrame p (wbits o.word 21 16) s u ∧ MemSame s u ∧ (pair u p).array.ended = 0
        ∧ (pair u p).array.bind = [] ∧ (pair u p).array.acc = (pair s p).array.acc)
  ∧ (∀ (p : Pair) (o : UnitOp) (rest : List UnitOp) (met : ArrayMet) (s : State), AtHead p 1 2 2 o rest s →
    (pair s p).array.ended = 15 → (pair s p).array.folds = [] →
    Completes (.bprodDone p met) s fun u =>
      Retired p o rest s u ∧ ArrayFrame p (wbits o.word 21 16) s u ∧ MemSame s u ∧ (pair u p).array.ended = 0
        ∧ (pair u p).array.acc = (pair s p).array.acc)
  ∧ (∀ (p : Pair) (m : Nat) (o : UnitOp) (rest : List UnitOp) (remote : List Nat) (bad : Bool) (s : State), AtHead p 1 4 m o rest s →
    wbits o.word 12 11 ≠ 3 →
    Completes (.stageDone p remote bad) s fun u =>
      Retired p o rest s u ∧ ArrayFrame p (wbits o.word 21 16) s u ∧ MemSame s u
        ∧ SMap.get {} (pair u p).array.tiles (3 * wbits o.word 10 10 + wbits o.word 12 11) = (stageTile s o remote bad).1
        ∧ (wbits o.word 12 11 ≠ 0 → SMap.get {} (pair u p).array.tiles (3 * wbits o.word 10 10) = {})
        ∧ ∀ k, k / 3 ≠ wbits o.word 10 10 → SMap.get {} (pair u p).array.tiles k = SMap.get {} (pair s p).array.tiles k)
  ∧ ∀ (p : Pair) (o : UnitOp) (rest : List UnitOp) (met : ArrayMet) (s : State), Clocked s → (pair s p).array.queue = o :: rest →
    wbits o.word 3 0 = 1 → wbits o.word 9 4 ≤ 2 → (pair s p).array.drains = [] → (pair s p).array.folds = [] →
    arrayMode s p ≠ wbits o.word 9 4 →
    Completes (.modeChange p met) s fun u =>
      arrayMode u p = wbits o.word 9 4 ∧ (pair u p).array.queue = o :: rest ∧ MemSame s u
        ∧ ArrayFrame p 0 s u ∧ semCount u p 0 = semCount s p 0
        ∧ (wbits o.word 9 4 = 2 ∨ arrayMode s p = 2 →
            (∀ k, SMap.get 0 (pair u p).array.acc k = 0) ∧ (∀ k < 16, sliceState u p k = 0) ∧ (pair u p).array.held = [])
        ∧ (wbits o.word 9 4 ≠ 2 → arrayMode s p ≠ 2 →
            (pair u p).array.acc = (pair s p).array.acc ∧ (met.errs = [] → (pair u p).array = (pair s p).array))

/-- R62, R63, R190, R386. The drain in progress ends: it leaves the drain queue, its slices are FREE and their accumulators zero,
or, kept, as they were and OPEN, and its semaphore has its increment. CHKMUL writes the 32-byte signature of its product at its comb
address and frees its bank. The model's choices it rests on: log entry 25. -/
def Obligations.DrainAndCheckProduct : Prop :=
  (∀ (p : Pair) (d : DrainOp) (met : ArrayMet) (s : State), Clocked s → (pair s p).array.drains = [d] → (pair s p).array.queue = [] →
    d.owner = 0 →
    d.blk = false → d.bank < 4 → (d.sig = true → semCount s p d.sem ≠ 0xFFFFFFFF) →
    Completes (.drainDone p met) s fun u =>
      (pair u p).array.drains = []
        ∧ (∀ r < 4, bitAt d.smask r = true → d.keep = false → sliceState u p (4 * d.bank + r) = 0
            ∧ ∀ i < 512, ∀ j < 16, SMap.get 0 (pair u p).array.acc ((d.bank * 512 + i) * 64 + (16 * r + j)) = 0)
        ∧ (d.keep = true → (pair u p).array.acc = (pair s p).array.acc
            ∧ ∀ r < 4, bitAt d.smask r = true → sliceState u p (4 * d.bank + r) = 1)
        ∧ semCount u p d.sem = semCount s p d.sem + (if d.sig then 1 else 0)
        ∧ (∀ i, scalar u p i = scalar s p i) ∧ reg u .SEQ_STATUS p = reg s .SEQ_STATUS p ∧ ∀ q, q ≠ p.val → pair u q = pair s q)
  ∧ ∀ (p : Pair) (o : UnitOp) (rest : List UnitOp) (met : ArrayMet) (s : State), AtHead p 7 1 0 o rest s →
    nth 0 o.vals 0 + 32 ≤ combBytes →
    Completes (.chkmulDone p met) s fun u =>
      Retired p o rest s u ∧ ArrayFrame p (wbits o.word 21 16) s u
        ∧ bytesAt u (combAddr p (nth 0 o.vals 0)) 32
          = natLe 32 (checkSignature (fld s F.RL_CHECK_SEED_seed) (pair s p).check.units (wbits o.word 49 46) (wbits o.word 45 26 + 1))
        ∧ (∀ a, a < combAddr p (nth 0 o.vals 0) ∨ combAddr p (nth 0 o.vals 0) + 32 ≤ a → byteAt u a = byteAt s a)
        ∧ ∀ r < 4, sliceState u p (4 * wbits o.word 25 24 + r) = 0

/-- What reeds leave alone: memory, scalars, semaphores, the sequencer, the other pairs, the array queue. -/
def ReedFrame (p : Nat) (s u : State) : Prop :=
  MemSame s u ∧ (∀ i, scalar u p i = scalar s p i) ∧ (∀ q i, semCount u q i = semCount s q i)
    ∧ reg u .SEQ_STATUS p = reg s .SEQ_STATUS p ∧ (∀ q, q ≠ p → pair u q = pair s q)
    ∧ (pair u p).array.queue = (pair s p).array.queue

/-- Reed r of pair p has the entry q at the head of its queue, before qs. -/
def ReedAt (p r : Nat) (q : QEntry) (qs : List QEntry) (s : State) : Prop := SMap.get [] (pair s p).queues r = q :: qs

/-- R67, R68, R130. In a queue-mode SPLIT a reed takes a BLOCK of a new block-column into a FREE slice, which it binds and
opens, and changes accumulators of no other slice. A CLOSE of a bound block-column sends its slice to the drain queue; in a
BPROD it is only consumed. An END is consumed once the reed holds nothing open. The model's choices it rests on: log entries 33
and 34. -/
def Obligations.ReedEntries : Prop :=
  (∀ (p : Pair) (r : Reed) (b : Nat) (o : UnitOp) (rest : List UnitOp) (q : QEntry) (qs : List QEntry) (met : ArrayMet) (s : State),
    AtHead p 1 1 1 o rest s → wbits o.word 10 10 = 0 → bitAt (pair s p).array.ended r = false → ReedAt p r q qs s →
    q.kind = 0 → q.width = widthCode (wbits o.word 31 28) → q.last = false →
    (q.kb + 1) * (16 / slotElems (wbits o.word 31 28)) ≤ (splitPanel o r).2 →
    boundBank s p r q.nb = none → spillOf s p r q.nb = none → freeBank s p r = some b →
    Completes (.reedBlock p r met) s fun u =>
      SMap.get [] (pair u p).queues r = qs ∧ sliceState u p (4 * b + r) = 1
        ∧ SMap.get 0 (pair u p).array.bind (4 * b + r) = q.nb + 1 ∧ ReedFrame p s u
        ∧ ∀ c < 4, ∀ i < 512, ∀ j < 64, (c ≠ b ∨ j / 16 ≠ r.val) →
            SMap.get 0 (pair u p).array.acc ((c * 512 + i) * 64 + j) = SMap.get 0 (pair s p).array.acc ((c * 512 + i) * 64 + j))
  ∧ (∀ (p : Pair) (r : Reed) (b : Nat) (o : UnitOp) (rest : List UnitOp) (q : QEntry) (qs : List QEntry) (met : ArrayMet) (s : State),
    AtHead p 1 1 1 o rest s → wbits o.word 10 10 = 0 → bitAt (pair s p).array.ended r = false → ReedAt p r q qs s →
    q.kind = 1 → boundBank s p r q.nb = some b → closeEnd (closeDrain o b r q.nb) ≤ combBytes →
    Completes (.reedClose p r met) s fun u =>
      SMap.get [] (pair u p).queues r = qs ∧ SMap.get 0 (pair u p).array.bind (4 * b + r) = 0
        ∧ (∃ d : DrainOp, (pair u p).array.drains = [d] ∧ d.bank = b ∧ d.smask = 2 ^ r.val ∧ d.owner = o.seq
            ∧ d.fmt = wbits o.word 89 86)
        ∧ ReedFrame p s u ∧ (pair u p).array.acc = (pair s p).array.acc)
  ∧ (∀ (p : Pair) (r : Reed) (k : Nat) (o : UnitOp) (rest : List UnitOp) (q : QEntry) (qs : List QEntry) (met : ArrayMet) (s : State),
    AtHead p 1 2 2 o rest s → bitAt (pair s p).array.ended r = false → ReedAt p r q qs s → q.kind = k → (k = 1 ∨ k = 2) →
    Completes (if k = 1 then .reedClose p r met else .reedEnd p r met) s fun u =>
      SMap.get [] (pair u p).queues r = qs ∧ ReedFrame p s u ∧ (pair u p).array.acc = (pair s p).array.acc
        ∧ (pair u p).array.ended = if k = 2 then setBitN (pair s p).array.ended r else (pair s p).array.ended)
  ∧ (∀ (p : Pair) (r : Reed) (o : UnitOp) (rest : List UnitOp) (q : QEntry) (qs : List QEntry) (met : ArrayMet) (s : State),
    AtHead p 1 1 1 o rest s → wbits o.word 10 10 = 0 → bitAt (pair s p).array.ended r = false → ReedAt p r q qs s →
    q.kind = 2 → openColumns s p r = [] → seqState s p ≠ 6 →
    Completes (.reedEnd p r met) s fun u =>
      SMap.get [] (pair u p).queues r = qs ∧ (pair u p).array.ended = setBitN (pair s p).array.ended r ∧ ReedFrame p s u
        ∧ (pair u p).array.acc = (pair s p).array.acc)

/-- The sum, in order, of the 32 group partials of a task at row k and column n (R72). -/
def foldSum (m : SMap Nat) (id k n : Nat) : Nat :=
  (List.range 31).foldl (fun v g => add32 v (SMap.get 0 m (id * 8192 + (g + 1) * 256 + k * 16 + n))) (SMap.get 0 m (id * 8192 + k * 16 + n))

/-- R71, R72, R189. A reed takes a TASK of a BPROD: its entry is consumed, its fold begins in the next slot, and no accumulator
changes before it; the fold then writes the 256 sums of its group partials into the slot, in FP32 and in order, and marks the
slot full. The model's choices it rests on: log entries 25 and 34. -/
def Obligations.BlockProducts : Prop :=
  (∀ (p : Pair) (r : Reed) (o : UnitOp) (rest : List UnitOp) (q : QEntry) (qs : List QEntry) (remote : List Nat) (bad : Bool)
    (met : ArrayMet) (s : State), AtHead p 1 2 2 o rest s → bitAt (pair s p).array.ended r = false → ReedAt p r q qs s → q.kind = 3 →
    SMap.get false (pair s p).array.slotFull (r * 64 + (wbits o.word 41 36 + SMap.get 0 (pair s p).array.tasks r) % 64) = false →
    (pair s p).array.folds = [] →
    ((if fldB s F.ARRAY_CTRL_bp_hold p then q.nb else q.kb) + 1) * (16 / slotElems (wbits o.word 27 24))
      ≤ bitsOf (nth 0 o.vals 0) 45 32 →
    Completes (.reedTask p r remote bad met) s fun u =>
      SMap.get [] (pair u p).queues r = qs ∧ SMap.get 0 (pair u p).array.tasks r = SMap.get 0 (pair s p).array.tasks r + 1
        ∧ (pair u p).array.folds
          = [(r * 2 + SMap.get 0 (pair s p).array.tasks r % 2, (wbits o.word 41 36 + SMap.get 0 (pair s p).array.tasks r) % 64)]
        ∧ (pair u p).array.acc = (pair s p).array.acc ∧ ReedFrame p s u)
  ∧ ∀ (p : Pair) (id slot : Nat) (fs : List (Nat × Nat)) (met : ArrayMet) (s : State), Clocked s → (pair s p).array.folds = (id, slot) :: fs →
    id < 8 → slot < 64 →
    Completes (.foldDone p met) s fun u =>
      (pair u p).array.folds = fs ∧ SMap.get false (pair u p).array.slotFull (id / 2 * 64 + slot) = true ∧ ReedFrame p s u
        ∧ (∀ k < 16, ∀ n < 16, SMap.get 0 (pair u p).array.acc (((2 + slot / 32) * 512 + 16 * (slot % 32) + k) * 64 + (16 * (id / 2) + n))
            = foldSum (pair s p).array.partials id k n)
        ∧ ∀ b < 4, ∀ i < 512, ∀ j < 64, (b ≠ 2 + slot / 32 ∨ i / 16 ≠ slot % 32 ∨ j / 16 ≠ id / 2) →
            SMap.get 0 (pair u p).array.acc ((b * 512 + i) * 64 + j) = SMap.get 0 (pair s p).array.acc ((b * 512 + i) * 64 + j)

/-! ## The forager -/

/-- A FORAGE word of pair p names function fn by a clean descriptor (R116, R183). -/
structure Forages (p w fn : Nat) (s : State) : Prop where
  issues : Issues p w s
  word : IsWord 2 0 [(9, 0), (22, 16), (58, 24)] w
  sem : semOk w = true
  aligned : descOff w % 64 = 0
  inside : inComb (descOff w) 64 = true
  clean : poisoned s (combAddr p (descOff w)) 64 = false
  fn : bitsOf (numAt s (combAddr p (descOff w)) 8) 63 60 = fn

/-- A list function whose descriptor is valid and lies where it may is queued behind at most three others, its descriptor read and its
scalar sums applied (R137, R183). -/
def ListQueues (i : Pair → Instr) (fn : Nat) (valid : Nat → List Nat → Bool) : Prop :=
  ∀ (p : Pair) (w : Nat) (s : State), Forages p w fn s → valid p (descWords s p w 8) = true →
    resultOff (descWords s p w 8) % 64 = 0 → resultOff (descWords s p w 8) + 64 ≤ combBytes → (pair s p).lists.length < 4 →
    Completes (i p) s fun u =>
      MovesTo p (seqPc s p + 1) s u ∧ IssueFrame p [] s u
        ∧ (pair u p).settled = { (pair s p).settled with
            lists := (pair s p).lists ++ [{ word := w, index := seqPc s p, desc := descWords s p w 8, seq := (pair s p).seq }] }

/-- R116, R126, R137, R140–R145, R183. A WALK or a list function with a valid descriptor, its lists and blocks in its hive's
near memory, is accepted by the forager in issue order. The model's choices it rests on: log entry 36. -/
def Obligations.ForageIssue : Prop :=
  (∀ (p : Pair) (w : Nat) (s : State), Forages p w 1 s → walkValid (descWords s p w 8) = true →
    walkRange p (descWords s p w 8) = true → (pair s p).walks.length < 4 →
    Completes (.walk p) s fun u =>
      MovesTo p (seqPc s p + 1) s u ∧ IssueFrame p [] s u
        ∧ (pair u p).walks = (pair s p).walks
            ++ [{ word := w, index := seqPc s p, desc := descWords s p w 8, seq := (pair s p).seq }]
        ∧ ((pair s p).walks ≠ [] → (pair u p).walk = (pair s p).walk)
        ∧ ((pair s p).walks = [] → (pair u p).walk = { body := nth 0 (descWords s p w 8) 2 }))
  ∧ ListQueues .merge 2 (fun p ws =>
      onlyFields ws [[(63, 60), (57, 56), (31, 0)], [(43, 0)], [(43, 0)], [(43, 0)], [(31, 0)], [], [], [(22, 0)]] && mergeOp ws ≠ 3
        && inHiveNear p (nth 0 ws 1) (4 * mergeA ws) && inHiveNear p (nth 0 ws 2) (4 * mergeB ws)
        && inHiveNear p (nth 0 ws 3) (4 * mergeMax ws))
  ∧ ListQueues .prefixSum 3 (fun p ws =>
      onlyFields ws [[(63, 60), (31, 0)], [(43, 0)], [(43, 0)], [], [], [], [], [(22, 0)]]
        && inHiveNear p (nth 0 ws 1) (4 * prefixN ws) && inHiveNear p (nth 0 ws 2) (4 * (prefixN ws + 1)))
  ∧ ListQueues .sort 4 (fun p ws =>
      onlyFields ws [[(63, 60), (31, 0)], [(43, 0)], [(43, 0)], [(43, 0)], [(11, 0), (28, 16), (63, 32)], [(43, 0)], [(43, 0)], [(22, 0)]]
        && nth 0 ws 6 % 64 = 0 && inHiveNear p (nth 0 ws 1) (sortN ws * sortR ws) && inHiveNear p (nth 0 ws 2) (sortN ws * sortR ws)
        && inHiveNear p (nth 0 ws 3) (2 * sortN ws) && (!sortCapVec ws || inHiveNear p (nth 0 ws 5) (4 * sortD ws))
        && inHiveNear p (nth 0 ws 6) (3 * sortTable ws + 4 * sortN ws))
  ∧ ListQueues .pack 5 (fun p ws => packValid ws && packRange p ws)
  ∧ ListQueues .unpack 6 (fun p ws => packValid ws && packRange p ws)
  ∧ ListQueues .combine 7 (fun p ws =>
      onlyFields ws [[(63, 60), (31, 0)], [(43, 0)], [(43, 0)], [(63, 0)], [], [], [], [(22, 0)]] && combineRow ws % 4 = 0
        && inHiveNear p (nth 0 ws 1) (16 * combineN ws) && inHiveNear p (nth 0 ws 2) (combineRow ws * combineTokens ws))
  ∧ ListQueues .encode 8 (fun p ws =>
      onlyFields ws [[(63, 60), (56, 55), (31, 0)], [(43, 0)], [(43, 0)], [(43, 0)], [(39, 0)], [(13, 0), (29, 16), (45, 40), (53, 48)], [],
          [(22, 0)]]
        && (encodeD ws).width ≠ 3 && (encodeD ws).kb ≤ 16383 && (encodeD ws).stride ≠ 0 && (encodeD ws).stride % 16 = 0
        && inHiveNear p (encodeD ws).list (4 * (encodeD ws).n)
        && inHiveNear p (encodeD ws).matrix (matrixBytes (encodeD ws).kb (encodeD ws).nb (encodeD ws).stride (encodeD ws).width)
        && inHiveNear p (encodeD ws).base (roundUp (2 * (encodeD ws).tiles) 64 + (encodeD ws).tiles * (encodeD ws).dense))

/-- R120, R128–R130, R134, R137, R183. The feed engine sends a BCL entry, with the block its place in the list gives, to the
queue of its reed; an entry kept in the spill ring follows when its queue has room; a walk that has sent its ENDs leaves and
signals; a list function ends with its result block and its signal. The model's choices it rests on: log entries 31 and 32. -/
def Obligations.ForagerEngines : Prop :=
  (∀ (p : Pair) (stalled : Nat) (o : UnitOp) (rest : List UnitOp) (s : State), Clocked s → (pair s p).walks = o :: rest →
    (pair s p).lists = [] → (walkD o.desc).form = 0 → (walkD o.desc).dense = false → (walkD o.desc).tasks = false →
    (pair s p).walk.ending = false → (pair s p).walk.item < (walkD o.desc).count →
    poisoned s ((walkD o.desc).list + 4 * (pair s p).walk.item) 4 = false →
    let v := numAt s ((walkD o.desc).list + 4 * (pair s p).walk.item) 4
    let r := bitsOf v 31 30
    let b := (walkD o.desc).blocks + (pair s p).walk.item * blockBytes (walkD o.desc).width
    bitsOf v 13 0 < (walkD o.desc).kb → bitsOf v 13 0 ≠ 0x3FFF → bitsOf v 27 14 < (walkD o.desc).nb →
    SMap.get false (pair s p).walk.closed (r * 16384 + bitsOf v 27 14) = false → inRing (pair s p) r = false →
    (reedQueue (pair s p) r).length < 64 →
    Completes (.foragerEntrySend p stalled) s fun u =>
      (∃ q : QEntry, reedQueue (pair u p) r = reedQueue (pair s p) r ++ [q] ∧ q.kind = 0 ∧ q.kb = bitsOf v 13 0
          ∧ q.nb = bitsOf v 27 14 ∧ q.last = bitAt v 28 ∧ q.xpose = (bitAt v 29 || (walkD o.desc).xposeAll)
          ∧ q.width = (walkD o.desc).width ∧ q.seq = SMap.get 0 (pair s p).walk.sent r % 65536
          ∧ q.block = readBytes s b (blockBytes (walkD o.desc).width) ∧ q.poison = poisoned s b (blockBytes (walkD o.desc).width))
        ∧ (pair u p).walk.item = (pair s p).walk.item + 1 ∧ (pair u p).walks = o :: rest
        ∧ (bitAt v 28 = true → SMap.get false (pair u p).walk.closed (r * 16384 + bitsOf v 27 14) = true)
        ∧ (∀ q, q ≠ r → reedQueue (pair u p) q = reedQueue (pair s p) q) ∧ MemSame s u ∧ ∀ q, q ≠ p.val → pair u q = pair s q)
  ∧ (∀ (p : Pair) (r : Reed) (e : RingSlot) (errs : List EntryErr) (s : State), Clocked s → (pair s p).ring = [e] → e.reed = r →
    (reedQueue (pair s p) r).length < 64 → poisoned s e.addr 8 = false → e.blockLen ≠ 0 →
    errs.contains .header = false →
    Completes (.ringRefill p r errs) s fun u =>
      (∃ q : QEntry, reedQueue (pair u p) r = reedQueue (pair s p) r ++ [q]
          ∧ q.kind = bitsOf (numAt s e.addr 8) 63 62 ∧ q.kb = bitsOf (numAt s e.addr 8) 29 16
          ∧ q.nb = bitsOf (numAt s e.addr 8) 45 32 ∧ q.seq = bitsOf (numAt s e.addr 8) 15 0
          ∧ q.block = readBytes s (e.addr + 8) e.blockLen
          ∧ q.poison = (bitAt (numAt s e.addr 8) 59 || poisoned s (e.addr + 8) e.blockLen || errs.contains .block))
        ∧ (pair u p).ring = [] ∧ MemSame s u ∧ ∀ q, q ≠ p.val → pair u q = pair s q)
  ∧ (∀ (p : Pair) (o : UnitOp) (rest : List UnitOp) (s : State), Clocked s → (pair s p).walks = o :: rest →
    (pair s p).walk.ending = true → 4 ≤ (pair s p).walk.endReed → semCount s p (wbits o.word 21 16) ≠ 0xFFFFFFFF →
    Completes (.walkDone p) s fun u =>
      (pair u p).walks = rest
        ∧ semCount u p (wbits o.word 21 16) = semCount s p (wbits o.word 21 16) + (if wbits o.word 22 22 = 1 then 1 else 0)
        ∧ (rest = [] → (pair u p).walk = {}) ∧ (pair u p).queues = (pair s p).queues ∧ MemSame s u
        ∧ Keeps [] [(.SEQ_SEM_i, 64 * p + wbits o.word 21 16)] s u ∧ ∀ q, q ≠ p.val → pair u q = pair s q)
  ∧ ∀ (p : Pair) (o : UnitOp) (rest : List UnitOp) (s : State), Clocked s → (pair s p).lists = o :: rest → (pair s p).walks = [] →
    (runList p o s).1.outside = false → (runList p o s).1.poison = false → (runList p o s).2.2 = false →
    resultOff o.desc + 64 ≤ combBytes → semCount s p (wbits o.word 21 16) ≠ 0xFFFFFFFF →
    Completes (.listFunctionDone p) s fun u =>
      (pair u p).lists = rest
        ∧ bytesAt u (combAddr p (resultOff o.desc)) 64 = (runList p o s).1.bytes
        ∧ semCount u p (wbits o.word 21 16) = semCount s p (wbits o.word 21 16) + (if wbits o.word 22 22 = 1 then 1 else 0)
        ∧ reg u .SEQ_STATUS p = reg s .SEQ_STATUS p ∧ (∀ i, scalar u p i = scalar s p i)

/-! ## The vector engine -/

/-- A VEC word of pair p whose fields are legal and whose operation's own conditions hold (R179, R181, R194, R195). -/
structure VecLegal (p w op : Nat) (spec : Nat → List Nat → VecSpec) (s : State) : Prop where
  issues : Issues p w s
  word : IsWord 3 op [(14, 0), (22, 16), (127, 24)] w
  sem : wbits w 22 22 = 1 ∨ wbits w 21 16 = 0
  formats : wbits w 27 24 ≤ 13 ∧ wbits w 31 28 ≤ 13 ∧ wbits w 35 32 ≤ 13
  rounding : wbits w 38 36 ≠ 7 ∧ wbits w 14 13 ≠ 3
  aux : wbits w 127 112 &&& (spec w (vecVals s p w)).auxMask = wbits w 127 112
  legal : (spec w (vecVals s p w)).illegal = false
  operand : (spec w (vecVals s p w)).operand = false

/-- A legal VEC instruction whose operands are aligned and lie in comb is queued in its place, with the scalars it names and the rounding
as they are now; where eight wait nothing happens yet; an operand not aligned to 64 bytes is the fault MISALIGNED. -/
def VecQueues (i : Pair → Instr) (op : Nat) (spec : Nat → List Nat → VecSpec) : Prop :=
  (∀ (p : Pair) (w : Nat) (s : State), VecLegal p w op spec s →
    (∀ f ∈ (spec w (vecVals s p w)).feet, f.1 % 64 = 0 ∧ f.1 < 2 ^ 23 ∧ f.1 + f.2 ≤ combBytes) → (pair s p).vec.length < 8 →
    Completes (i p) s fun u =>
      MovesTo p (seqPc s p + 1) s u ∧ IssueFrame p [] s u
        ∧ (pair u p).settled = { (pair s p).settled with
            vec := (pair s p).vec ++ [{ word := w, index := seqPc s p, vals := vecVals s p w, rnd := resolveRnd s (wbits w 38 36)
                                        seq := (pair s p).seq, breath := (pair s p).sliceBreath }] })
  ∧ (∀ (p : Pair) (w : Nat) (s : State), VecLegal p w op spec s →
    (∀ f ∈ (spec w (vecVals s p w)).feet, f.1 % 64 = 0 ∧ f.1 < 2 ^ 23 ∧ f.1 + f.2 ≤ combBytes) → (pair s p).vec.length = 8 →
    Completes (i p) s fun u => u = s)
  ∧ ∀ (p : Pair) (w : Nat) (s : State), VecLegal p w op spec s → (∃ f ∈ (spec w (vecVals s p w)).feet, f.1 % 64 ≠ 0) →
    Completes (i p) s fun u => Faulted p 0x03 3 (seqPc s p) s u

/-- R179, R194, R195. Every VEC operation but the quantisers and the gradient operations issues by its own conditions. -/
def Obligations.VecIssue : Prop :=
  VecQueues .vecAdd 0 (elemSpec 2 true) ∧ VecQueues .vecSub 1 (elemSpec 2 true) ∧ VecQueues .vecMul 2 (elemSpec 2 true)
    ∧ VecQueues .vecFma 3 (elemSpec 3 true) ∧ VecQueues .vecMin 4 (elemSpec 2 false) ∧ VecQueues .vecMax 5 (elemSpec 2 false)
    ∧ VecQueues .vecCvt 6 (elemSpec 1 false) ∧ VecQueues .vecAxpy 7 (elemSpec 2 false) ∧ VecQueues .vecExp 0x10 specialSpec
    ∧ VecQueues .vecRecip 0x11 specialSpec ∧ VecQueues .vecRsqrt 0x12 specialSpec ∧ VecQueues .vecSum 0x18 (sumSpec 1)
    ∧ VecQueues .vecDot 0x19 (sumSpec 2) ∧ VecQueues .vecSumsq64 0x1A sumSqSpec ∧ VecQueues .vecRmax 0x20 rowSpec
    ∧ VecQueues .vecRsum 0x21 rowSpec ∧ VecQueues .vecSoftmax 0x22 softmaxSpec ∧ VecQueues .vecSelect 0x23 selectSpec
    ∧ VecQueues .vecHstore 0x2B hstoreSpec

/-- R179, R194, R195, R198. The quantisers and the gradient operations issue by their own conditions. The model's choices it
rests on: log entry 46. -/
def Obligations.QuantGradIssue : Prop :=
  VecQueues .vecQuant 0x28 quantSpec ∧ VecQueues .vecDequant 0x29 dequantSpec ∧ VecQueues .vecDqacc 0x2A dqaccSpec
    ∧ VecQueues .vecGenc 0x30 gencSpec ∧ VecQueues .vecGdec 0x31 gdecSpec ∧ VecQueues .vecOptw 0x32 optwSpec
    ∧ VecQueues .vecDigest 0x33 digestSpec

/-- The oldest VEC instruction of pair p is o, an operation op. -/
structure VecHead (p op : Nat) (o : UnitOp) (rest : List UnitOp) (s : State) : Prop where
  clocked : Clocked s
  queue : (pair s p).vec = o :: rest
  op : wbits o.word 9 4 = op
  own : o.hub = none
  sem : semCount s p (wbits o.word 21 16) ≠ 0xFFFFFFFF

/-- A VEC instruction has left its queue and signalled, and has written comb only at the n bytes from offset d (R194). -/
def VecLeft (p : Nat) (o : UnitOp) (rest : List UnitOp) (d n : Nat) (s u : State) : Prop :=
  (pair u p).vec = rest
    ∧ semCount u p (wbits o.word 21 16) = semCount s p (wbits o.word 21 16) + (if wbits o.word 22 22 = 1 then 1 else 0)
    ∧ (∀ a, a < combAddr p d ∨ combAddr p d + n ≤ a → byteAt u a = byteAt s a) ∧ (∀ i, scalar u p i = scalar s p i)
    ∧ reg u .SEQ_STATUS p = reg s .SEQ_STATUS p ∧ ∀ q, q ≠ p → pair u q = pair s q

/-- The FP32 element i of the operand at offset a. -/
def elem32 (s : State) (p a i : Nat) : Nat := numAt s (combAddr p (a + 4 * i)) 4

/-- R92, R93, R99, R194, R195. On FP32 operands ADD, SUB and MUL write each result, rounded to FP32 and narrowed once into FP32,
BF16 or FP16; FMA rounds once; SUM writes the sum in the order of R93; HSTORE writes the 64 counts of its histogram set. The
instruction leaves its queue, signals, and writes no other byte. The model's choices it rests on: log entry 25. -/
def Obligations.VecResults : Prop :=
  (∀ (p : Pair) (o : UnitOp) (rest : List UnitOp) (op k : Nat) (s : State), VecHead p op o rest s → op ≤ 3 →
    wbits o.word 31 24 = 0 → (wbits o.word 35 32 = 0 ∧ k = 4 ∨ (wbits o.word 35 32 = 1 ∨ wbits o.word 35 32 = 2) ∧ k = 2) →
    wbits o.word 127 112 = 0 → wbits o.word 10 10 = 0 → o.rnd = 0 →
    Completes (.vecDone p) s fun u =>
      VecLeft p o rest (nth 0 o.vals 0) (k * (wbits o.word 79 59 + 1)) s u
        ∧ ∀ i ≤ wbits o.word 79 59,
            let a := elem32 s p (nth 0 o.vals 1) i
            let b := elem32 s p (nth 0 o.vals 2) i
            numAt u (combAddr p (nth 0 o.vals 0 + k * i)) k
              = (narrow (fmtOf (wbits o.word 35 32)) .rne (decide (wbits o.word 14 13 = 2))
                  (v32 (match op with
                    | 0 => add32 a b
                    | 1 => sub32 a b
                    | 2 => mul32 a b
                    | _ => fma32 a b (elem32 s p (nth 0 o.vals 3) i)))).code % 2 ^ (8 * k))
  ∧ (∀ (p : Pair) (o : UnitOp) (rest : List UnitOp) (s : State), VecHead p 0x18 o rest s → wbits o.word 27 24 = 0 → wbits o.word 10 10 = 0 →
    Completes (.vecDone p) s fun u =>
      VecLeft p o rest (nth 0 o.vals 0) 4 s u
        ∧ numAt u (combAddr p (nth 0 o.vals 0)) 4 
            = vecSum32 (wbits o.word 79 59 + 1) (fun i => rne32 (v32 (elem32 s p (nth 0 o.vals 1) i))) % 2 ^ 32)
  ∧ ∀ (p : Pair) (o : UnitOp) (rest : List UnitOp) (s : State), VecHead p 0x2B o rest s →
    (∀ b < 64, SMap.get 0 (pair s p).hist (wbits o.word 12 11 * 64 + b) < 2 ^ 32) →
    Completes (.vecDone p) s fun u =>
      VecLeft p o rest (nth 0 o.vals 0) 256 s u
        ∧ ∀ b < 64, numAt u (combAddr p (nth 0 o.vals 0 + 4 * b)) 4 = SMap.get 0 (pair s p).hist (wbits o.word 12 11 * 64 + b)
          ∧ SMap.get 0 (pair u p).hist (wbits o.word 12 11 * 64 + b)
            = if wbits o.word 112 112 = 1 then 0 else SMap.get 0 (pair s p).hist (wbits o.word 12 11 * 64 + b)

/-! ## Copies -/

/-- A COPY word of pair p names function fn by a clean descriptor (R163). -/
structure Copies (p w fn : Nat) (s : State) : Prop where
  issues : Issues p w s
  word : IsWord 0 0 [(9, 0), (58, 24)] w
  aligned : descOff w % 128 = 0
  inside : descOff w + 128 ≤ combBytes
  clean : poisoned s (combAddr p (descOff w)) 128 = false
  fn : bitsOf (numAt s (combAddr p (descOff w)) 8) 63 60 = fn

/-- A COPY whose descriptor is valid is accepted behind at most seven others, its descriptor read and its scalar sums applied; a descriptor that
is not valid is its fault. -/
def CopyQueues (i : Pair → Instr) (fn : Nat) : Prop :=
  (∀ (p : Pair) (w : Nat) (s : State), Copies p w fn s →
    copyFault s p (descWords s p w 16) (copyOp s p (descWords s p w 16)) = none → (pair s p).copies.length < 8 →
    Completes (i p) s fun u =>
      MovesTo p (seqPc s p + 1) s u ∧ IssueFrame p [] s u
        ∧ (pair u p).settled = { (pair s p).settled with copies := (pair s p).copies ++ [copyOp s p (descWords s p w 16)] })
  ∧ ∀ (p : Pair) (w f : Nat) (s : State), Copies p w fn s →
    copyFault s p (descWords s p w 16) (copyOp s p (descWords s p w 16)) = some f →
    Completes (i p) s fun u => Faulted p f 0 (seqPc s p) s u

/-- R163, R165, R167, R169, R178. SHAPE, GATHER and SCATTER copies are accepted, or fault by their descriptor. The model's
choices it rests on: log entry 36. -/
def Obligations.CopyIssue : Prop :=
  CopyQueues .copyShape 8 ∧ CopyQueues .copyGather 9 ∧ CopyQueues .copyScatter 10

/-- Bytes x to x + n and y to y + n have none in common. -/
def Apart (n x y : Nat) : Prop := x + n ≤ y ∨ y + n ≤ x

/-- R163, R164, R166, R167, R170. The oldest copy starts where it may; a put sends its request. A running local SHAPE copy whose
units overlap nowhere ends with every unit at its destination, no other byte changed, its place free and its semaphore raised; a
remote one ends once it is answered. The model's choices it rests on: log entries 22 and 24. -/
def Obligations.CopyResults : Prop :=
  (∀ (p : Pair) (c : CopyOp) (sa da : Nat) (s : State), Clocked s → (pair s p).copies = [c] → c.started = false →
    fld s F.SEQ_CTRL_copy_inflight p ≠ 0 → addrForm s c.src = some (none, sa) → addrForm s c.dst = some (none, da) →
    Completes (.copyStart p) s fun u =>
      pair u p = { pair s p with copies := [{ c with started := true }] } ∧ (∀ q, q ≠ p.val → pair u q = pair s q)
        ∧ u.apart = s.apart ∧ Keeps [] [] s u)
  ∧ (∀ (p : Pair) (c : CopyOp) (d sa da : Nat) (s : State), Clocked s → (pair s p).copies = [c] → c.started = false → c.kind = 8 →
    fld s F.SEQ_CTRL_copy_inflight p ≠ 0 → addrForm s c.src = some (none, sa) → addrForm s c.dst = some (some d, da) →
    Completes (.copyStart p) s fun u =>
      (pair u p).copies = [{ c with started := true }] ∧ u.nextReq = s.nextReq + 1 ∧ (c.inPlace = false → MemSame s u)
        ∧ (∀ a, a < combAddr p c.stage ∨ combAddr p c.stage + c.units * c.u ≤ a → byteAt u a = byteAt s a)
        ∧ u.requests = s.requests ++ [{ id := s.nextReq, pair := p, kind := 0, dst := d, sent := s.us, ref := c.seq, member := 0 }])
  ∧ (∀ (p : Pair) (c : CopyOp) (sa da : Nat) (s : State), Clocked s → (pair s p).copies = [c] → c.started = true → c.kind = 8 →
    c.inPlace = false → addrForm s c.src = some (none, sa) → addrForm s c.dst = some (none, da) →
    semCount s p c.sem ≠ 0xFFFFFFFF →
    (∀ l < c.units, poisoned s (unitAddr sa c.ext c.sstride l) c.u = false
      ∧ poisoned s (unitAddr da c.ext c.dstride l) c.u = false) →
    (∀ l < c.units, ∀ m < c.units, Apart c.u (unitAddr sa c.ext c.sstride l) (unitAddr da c.ext c.dstride m)
      ∧ (l ≠ m → Apart c.u (unitAddr da c.ext c.dstride l) (unitAddr da c.ext c.dstride m))) →
    Completes (.copyDone p 0) s fun u =>
      (pair u p).copies = [] ∧ semCount u p c.sem = semCount s p c.sem + 1
        ∧ (∀ l < c.units, bytesAt u (unitAddr da c.ext c.dstride l) c.u = bytesAt s (unitAddr sa c.ext c.sstride l) c.u)
        ∧ (∀ a, (∀ l < c.units, a < unitAddr da c.ext c.dstride l ∨ unitAddr da c.ext c.dstride l + c.u ≤ a) →
            byteAt u a = byteAt s a)
        ∧ (∀ x, marked u x = marked s x) ∧ (∀ q, q ≠ p.val → pair u q = pair s q))
  ∧ ∀ (p : Pair) (c : CopyOp) (d sa da : Nat) (s : State), Clocked s → (pair s p).copies = [c] → c.started = true → c.kind = 8 →
    c.finished = true → addrForm s c.src = some (none, sa) → addrForm s c.dst = some (some d, da) →
    semCount s p c.sem ≠ 0xFFFFFFFF →
    Completes (.copyDone p 0) s fun u =>
      (pair u p).copies = [] ∧ semCount u p c.sem = semCount s p c.sem + 1 ∧ MemSame s u

/-! ## Checks -/

/-- The signature of check unit u under the part's settings, as it is formed with the errors err (R386, R387). -/
def unitSignature (s : State) (u err : Nat) : Nat :=
  checkSignature (fld s F.RL_CHECK_SEED_seed) u (fld s F.RL_CHECK_fmt) (fld s F.RL_CHECK_steps_m1 + 1) ^^^ err % 2 ^ 256

/-- Pair p runs hum as check units with a bank free, has none to rerun, and its next unit u takes no library pattern (R386–R389). -/
structure RunsCheck (p u : Nat) (s : State) : Prop where
  clocked : Clocked s
  mode : checksUnits s p = true
  runs : humRuns s p = true
  bank : humBank s p = true
  unit : (pair s p).check.units = u
  first : (pair s p).check.reruns = []
  plain : s.library = []
  fresh : (pair s p).check.begun = none

/-- R203, R386–R389. CHKCMP compares two signatures in comb and sets xd to 0 or 1; a mismatch is logged. A check unit that
finishes is kept until the partner's; equal signatures end it, and different ones go to a third pair to rerun, whose next unit
it is and which is not counted. The model's choices it rests on: log entry 51. -/
def Obligations.Checks : Prop :=
  (∀ (p : Pair) (w : Nat) (s : State), Issues p w s → IsWord 7 2 [(9, 0), (38, 24)] w →
    scalar s p (wbits w 33 29) + 32 ≤ combBytes → scalar s p (wbits w 38 34) + 32 ≤ combBytes →
    Completes (.chkcmp p) s fun u =>
      MovesTo p (seqPc s p + 1) s u ∧ (pair u p).settled = (pair s p).settled ∧ MemSame s u
        ∧ (bytesAt s (combAddr p (scalar s p (wbits w 33 29))) 32 = bytesAt s (combAddr p (scalar s p (wbits w 38 34))) 32 →
            scalar u p (wbits w 28 24) = 0 ∧ IssueFrame p [(.SEQ_SCALAR_i, 32 * p + wbits w 28 24)] s u)
        ∧ (bytesAt s (combAddr p (scalar s p (wbits w 33 29))) 32 ≠ bytesAt s (combAddr p (scalar s p (wbits w 38 34))) 32 →
            scalar u p (wbits w 28 24) = 1 ∧ fld u F.RL_EVENTS_check_mismatch = 1 ∧ u.log ≠ s.log))
  ∧ (∀ (p : Pair) (n err : Nat) (s : State), RunsCheck p n s → (pair s (p.val ^^^ 32)).check.sigs = [] →
    (pair s p).check.sigs = [] →
    Completes (.checkUnitDone p err) s fun u =>
      (pair u p).check = { (pair s p).check with units := n + 1, sigs := [(n, unitSignature s n err)] }
        ∧ (∀ q, q ≠ p.val → pair u q = pair s q) ∧ MemSame s u)
  ∧ (∀ (p : Pair) (n err : Nat) (s : State), RunsCheck p n s →
    (pair s (p.val ^^^ 32)).check.sigs = [(n, unitSignature s n err)] →
    Completes (.checkUnitDone p err) s fun u =>
      (pair u p).check = { (pair s p).check with units := n + 1 } ∧ (pair u (p.val ^^^ 32)).check.sigs = []
        ∧ (∀ q, q ≠ p.val → q ≠ p.val ^^^ 32 → pair u q = pair s q) ∧ MemSame s u)
  ∧ (∀ (p : Pair) (n err other : Nat) (s : State), RunsCheck p n s → (pair s (p.val ^^^ 32)).check.sigs = [(n, other)] →
    other ≠ unitSignature s n err → p.val < p.val ^^^ 32 →
    Completes (.checkUnitDone p err) s fun u =>
      (pair u p).check.units = n + 1 ∧ (pair u (p.val ^^^ 32)).check.sigs = []
        ∧ (pair u (p.val ^^^ 16)).check.reruns = (pair s (p.val ^^^ 16)).check.reruns ++ [(n, p.val, unitSignature s n err, other)])
  ∧ ∀ (p : Pair) (n a sa sb err : Nat) (rest : List (Nat × Nat × Nat × Nat)) (s : State), Clocked s → checksUnits s p = true →
    humRuns s p = true → humBank s p = true → (pair s p).check.reruns = (n, a, sa, sb) :: rest →
    sa = unitSignature s n err → sb = unitSignature s n err →
    Completes (.checkUnitDone p err) s fun u =>
      (pair u p).check = { (pair s p).check with reruns := rest } ∧ (∀ q, q ≠ p.val → pair u q = pair s q)
        ∧ Keeps [] [] s u ∧ MemSame s u

/-! ## Collectives -/

/-- A COLL word of pair p names operation op by a clean descriptor, seven others at most wait, and its place in issue order is its own (R183). -/
structure Colls (p w op : Nat) (s : State) : Prop where
  issues : Issues p w s
  word : IsWord 5 op [(9, 0), (22, 16), (60, 24)] w
  sem : wbits w 22 22 = 1 ∨ wbits w 21 16 = 0
  aligned : descOff w % 128 = 0
  inside : descOff w + 128 ≤ combBytes
  clean : poisoned s (combAddr p (descOff w)) 128 = false
  room : (pair s p).colls.length < 8
  place : ∀ o ∈ (pair s p).colls, o.seq ≠ (pair s p).seq

/-- Word i of the descriptor of a COLL, its scalar sums applied. -/
def descWord (s : State) (p w i : Nat) : Nat := nth 0 (descWords s p w 16) i

/-- A COLL as the hub queues it. -/
def collOp (s : State) (p w : Nat) : UnitOp := { word := w, index := seqPc s p, desc := descWords s p w 16, seq := (pair s p).seq }

/-- This part's member number on the axis a COLL names. -/
def me (s : State) (w : Nat) : Nat := memberOf s (wbits w 60 59)

/-- The row of a ring collective. -/
def ringRow (p : Pair) (op : Nat) : Instr :=
  match op with
  | 0 => .allreduce p
  | 1 => .redscat p
  | 2 => .allgather p
  | _ => .bcast p

/-- A ring collective as its descriptor states it (R310). -/
def ringOf4 (s : State) (p w op : Nat) : RingOp :=
  { op := op, seq := (pair s p).seq, tag := bitsOf (descWord s p w 0) 49 46, axis := wbits w 60 59, b0 := (pair s p).sliceBreath
    deadline := bitsOf (descWord s p w 0) 57 50, red := bitsOf (descWord s p w 0) 45 44, root := bitsOf (descWord s p w 0) 43 40
    count := bitsOf (descWord s p w 0) 31 0, src := descWord s p w 1, dst := descWord s p w 2, res := descWord s p w 3 }

/-- R183, R309, R311, R312. A ring collective is queued and in progress at its pair. An excluded member does nothing more; a
member that waits for others, or sends its segments up the chain, changes no memory; a member of ALLGATHER, or the root of
BCAST, places its own bytes at their destination. The model's choices it rests on: log entry 54. -/
def Obligations.RingIssue : Prop :=
  (∀ (p : Pair) (w op : Nat) (s : State), op ≤ 3 → Colls p w op s → ringFault op p s (descWords s p w 16) (wbits w 60 59) = none →
    (excluded s (wbits w 60 59) (me s w) = true ∨ s.collHeld = [] ∧
      (op ≤ 1 ∧ ((activeMembers s (wbits w 60 59)).headD (me s w) ≠ me s w ∨ nextMember s (wbits w 60 59) (me s w) ≠ none)
        ∨ op = 3 ∧ (ringOf4 s p w op).root ≠ me s w)) →
    Completes (ringRow p op) s fun u =>
      MovesTo p (seqPc s p + 1) s u ∧ IssueFrame p [] s u
        ∧ (pair u p).settled = { (pair s p).settled with
            colls := (pair s p).colls ++ [collOp s p w], rings := (pair s p).rings ++ [ringOf4 s p w op] })
  ∧ ∀ (p : Pair) (w op d : Nat) (s : State), (op = 2 ∨ op = 3 ∧ (ringOf4 s p w op).root = me s w) → Colls p w op s →
    ringFault op p s (descWords s p w 16) (wbits w 60 59) = none → me s w ∈ activeMembers s (wbits w 60 59) → s.collHeld = [] →
    (∀ x ∈ (pair s p).rings, x.seq ≠ (pair s p).seq) →
    d = (ringOf4 s p w op).dst + (if op = 2 then me s w * (ringOf4 s p w op).count else 0) →
    poisoned s (ringOf4 s p w op).src (ringOf4 s p w op).count = false → poisoned s d (ringOf4 s p w op).count = false →
    Completes (ringRow p op) s fun u =>
      MovesTo p (seqPc s p + 1) s u ∧ (pair u p).colls = (pair s p).colls ++ [collOp s p w]
        ∧ (pair u p).rings = (pair s p).rings ++ [{ ringOf4 s p w op with
            parts := 1, bytes := (ringOf4 s p w op).count, members := setBitN 0 (me s w) }]
        ∧ bytesAt u d (ringOf4 s p w op).count = bytesAt s (ringOf4 s p w op).src (ringOf4 s p w op).count
        ∧ ∀ a, a < d ∨ d + (ringOf4 s p w op).count ≤ a → byteAt u a = byteAt s a

/-- A message has come whole to the released part within its lifetime (R307). -/
structure Arrives (m : Packet) (s : State) : Prop where
  whole : m.parts ≤ 1
  released : Released s
  young : m.age < 1000000
  near : m.hops ≤ fld s F.LINK_CTRL_max_hops

/-- The primitive with this place in issue order heads pair p's queue of collectives (R184). -/
structure CollHead (p seq : Nat) (o : UnitOp) (rest : List UnitOp) (s : State) : Prop where
  queue : (pair s p).colls = o :: rest
  own : o.seq = seq
  others : ∀ x ∈ rest, x.seq ≠ seq
  sem : semCount s p (wbits o.word 21 16) ≠ 0xFFFFFFFF

/-- That primitive is complete: it has left the queue and signalled (R184). -/
def CollDone (p : Nat) (o : UnitOp) (rest : List UnitOp) (s u : State) : Prop :=
  (pair u p).colls = rest
    ∧ semCount u p (wbits o.word 21 16) = semCount s p (wbits o.word 21 16) + (if wbits o.word 22 22 = 1 then 1 else 0)

/-- No byte of memory has changed but n from an address. -/
def Wrote (a n : Nat) (s u : State) : Prop := ∀ b, b < a ∨ a + n ≤ b → byteAt u b = byteAt s b

/-- R311, R313, R314. A final segment of an ALLREDUCE is written to its place; a partial that reaches the highest member is
reduced with this member's own term and written, behind what the vector queue holds. The collective closes once its segments are all written, or at its deadline's
tick: its result block says which, and its semaphore is raised. The model's choices it rests on: log entries 54 and 119. -/
def Obligations.RingSegments : Prop :=
  (∀ (x : RingOp) (m : Packet) (i ms neg : Nat) (s : State), Arrives m s → (pair s m.pair).rings = [x] → x.op = 0 →
    m.aux = [0, 1, i, ms, x.axis, neg] → x.tag = m.tag → x.b0 % 65536 = m.generation → excluded s x.axis (memberOf s x.axis) = false →
    m.poison = 0 → m.data.length % 4 = 0 → (∀ b ∈ m.data, b < 256) → poisoned s (x.dst + 65536 * i) m.data.length = false →
    Completes (.collSegmentReceive m) s fun u =>
      bytesAt u (x.dst + 65536 * i) m.data.length = m.data ∧ Wrote (x.dst + 65536 * i) m.data.length s u
        ∧ (pair u m.pair).rings = [{ x with parts := x.parts + 1, bytes := x.bytes + m.data.length, members := x.members ||| ms }])
  ∧ (∀ (x : RingOp) (m : Packet) (i ms neg : Nat) (s : State), Arrives m s → (pair s m.pair).rings = [x] → x.op = 0 → x.red = 0 →
    (pair s m.pair).vec = [] →
    m.aux = [0, 0, i, ms, x.axis, neg] → x.tag = m.tag → x.b0 % 65536 = m.generation → excluded s x.axis (memberOf s x.axis) = false →
    nextMember s x.axis (memberOf s x.axis) = none → m.poison = 0 → m.data.length = 4 * (segRange x.count i).2 →
    poisoned s (x.src + 65536 * i) (4 * (segRange x.count i).2) = false →
    poisoned s (x.dst + 65536 * i) (4 * (segRange x.count i).2) = false →
    Completes (.collSegmentReceive m) s fun u =>
      (∀ j < (segRange x.count i).2, numAt u (x.dst + 65536 * i + 4 * j) 4
          = add32 (leNat ((m.data.drop (4 * j)).take 4)) (numAt s (x.src + 65536 * i + 4 * j) 4) % 2 ^ 32)
        ∧ Wrote (x.dst + 65536 * i) (4 * (segRange x.count i).2) s u)
  ∧ (∀ (x : RingOp) (m : Packet) (i ms neg : Nat) (s : State), Arrives m s → (pair s m.pair).rings = [x] → x.op ≤ 1 →
    m.aux = [x.op, 0, i, ms, x.axis, neg] → x.tag = m.tag → x.b0 % 65536 = m.generation →
    excluded s x.axis (memberOf s x.axis) = false → (pair s m.pair).vec ≠ [] →
    Completes (.collSegmentReceive m) s fun u =>
      (pair u m.pair).vec = (pair s m.pair).vec ++ [{ seq := x.seq, hub := some m }] ∧ (pair u m.pair).rings = [x] ∧ MemSame s u)
  ∧ (∀ (p : Pair) (x : RingOp) (m : Packet) (i ms neg : Nat) (o : UnitOp) (rest : List UnitOp) (s : State), Clocked s →
    (pair s p).vec = o :: rest → o.hub = some m → m.pair = p → (pair s p).rings = [x] → x.op = 0 → x.red = 0 →
    m.aux = [0, 0, i, ms, x.axis, neg] → x.tag = m.tag → x.b0 % 65536 = m.generation →
    nextMember s x.axis (memberOf s x.axis) = none → m.poison = 0 → m.data.length = 4 * (segRange x.count i).2 →
    poisoned s (x.src + 65536 * i) (4 * (segRange x.count i).2) = false →
    poisoned s (x.dst + 65536 * i) (4 * (segRange x.count i).2) = false →
    Completes (.vecDone p) s fun u =>
      (pair u p).vec = rest
        ∧ (∀ j < (segRange x.count i).2, numAt u (x.dst + 65536 * i + 4 * j) 4
          = add32 (leNat ((m.data.drop (4 * j)).take 4)) (numAt s (x.src + 65536 * i + 4 * j) 4) % 2 ^ 32)
        ∧ Wrote (x.dst + 65536 * i) (4 * (segRange x.count i).2) s u)
  ∧ ∀ (p : Pair) (x : RingOp) (o : UnitOp) (rest : List UnitOp) (full : Bool) (s : State), Released s → (pair s p).rings = [x] →
    CollHead p x.seq o rest s → excluded s x.axis (memberOf s x.axis) = false → full = decide (ringGoal s x ≤ x.parts) →
    (full = true ∨ tickReached s (x.b0 + x.deadline) = true) →
    Completes (.collClose p 0) s fun u =>
      CollDone p o rest s u ∧ (pair u p).rings = []
        ∧ numAt u (combAddr p x.res) 8 = ((if full then 1 else 2) + x.members * 65536) % 2 ^ 64
        ∧ numAt u (combAddr p x.res + 8) 8 = x.bytes % 2 ^ 64 ∧ Wrote (combAddr p x.res) 64 s u
        ∧ (full = false → fld u F.LINK_EVENTS_coll_incomplete = 1)

/-- A PERMUTE as its descriptor states it (R315). -/
def permNew (s : State) (p w : Nat) : PermOp :=
  { seq := (pair s p).seq, tag := bitsOf (descWord s p w 0) 49 46, axis := wbits w 60 59, b0 := (pair s p).sliceBreath
    deadline := bitsOf (descWord s p w 0) 57 50, table := descWord s p w 1, entries := bitsOf (descWord s p w 0) 31 0
    base := descWord s p w 2, bytes := descWord s p w 4, res := descWord s p w 3 }

/-- Some entry that this member does not skip is invalid (R315). -/
def permInvalid (s : State) (p : Nat) (x : PermOp) : Bool :=
  (permEntries s x).any (fun e => !permSkip s x e && !e.ok p x (ringSizeOf s x.axis))

/-- R309, R315, R316. A PERMUTE is queued; an excluded member does nothing more, and an invalid table leaves it to abort. A
piece that arrives is written to its place in the staging area; a READY is noted. At its deadline it commits if every member is
READY, copying what is staged to its destination, and else aborts, with no destination written; its result block says which. The
model's choices it rests on: log entry 55. -/
def Obligations.Permute : Prop :=
  (∀ (p : Pair) (w : Nat) (s : State), Colls p w 5 s → permFault p s (descWords s p w 16) (wbits w 60 59) = none →
    (∀ x ∈ (pair s p).perms, x.seq ≠ (pair s p).seq) →
    (excluded s (wbits w 60 59) (me s w) = true ∨ s.collHeld = [] ∧ permInvalid s p (permNew s p w) = true) →
    Completes (.permute p) s fun u =>
      MovesTo p (seqPc s p + 1) s u ∧ IssueFrame p [] s u
        ∧ (pair u p).settled = { (pair s p).settled with
            colls := (pair s p).colls ++ [collOp s p w]
            perms := (pair s p).perms.filter (fun y => y.tag ≠ (permNew s p w).tag || y.outcome = 0)
              ++ [{ permNew s p w with failed := permInvalid s p (permNew s p w) }] })
  ∧ (∀ (x : PermOp) (m : Packet) (i off : Nat) (s : State), Arrives m s → (pair s m.pair).perms = [x] → x.outcome = 0 →
    m.aux = [0, i, x.axis, off] → x.tag = m.tag → x.b0 % 65536 = m.generation → m.poison = 0 →
    (∀ b ∈ m.data, b < 256) → poisoned s (x.base + off) m.data.length = false →
    Completes (.permuteDataReceive m) s fun u =>
      bytesAt u (x.base + off) m.data.length = m.data ∧ Wrote (x.base + off) m.data.length s u
        ∧ ∃ y, (pair u m.pair).perms = [y] ∧ y.staged = SMap.insert x.staged i true ∧ y.failed = x.failed ∧ y.outcome = 0
            ∧ y.bytesStaged = x.bytesStaged + m.data.length)
  ∧ (∀ (x : PermOp) (m : Packet) (s : State), Arrives m s → (pair s m.pair).perms = [x] → x.outcome = 0 → x.tag = m.tag →
    x.b0 % 65536 = m.generation →
    Completes (.permuteReadyReceive m) s fun u =>
      (pair u m.pair).perms = [{ x with ready := setBitN x.ready (coordOf m.src x.axis) }]
        ∧ (∀ q, q ≠ m.pair → pair u q = pair s q) ∧ u.apart = s.apart ∧ Keeps [] [] s u)
  ∧ (∀ (p : Pair) (x : PermOp) (o : UnitOp) (rest : List UnitOp) (s : State), Released s → (pair s p).perms = [x] →
    CollHead p x.seq o rest s → x.outcome = 0 → excluded s x.axis (memberOf s x.axis) = false → s.collHeld = [] →
    tickReached s (x.b0 + x.deadline) = true → (∃ m ∈ activeMembers s x.axis, bitAt x.ready m = false) →
    Completes (.permuteCommit p 0) s fun u =>
      CollDone p o rest s u ∧ (pair u p).perms = [{ x with outcome := 2 }]
        ∧ numAt u (combAddr p x.res) 8 = (2 + x.ready * 65536) % 2 ^ 64 ∧ Wrote (combAddr p x.res) 64 s u)
  ∧ (∀ (p : Pair) (x : PermOp) (e : PermEntry) (i : Nat) (o : UnitOp) (rest : List UnitOp) (s : State), Released s →
    (pair s p).perms = [x] → CollHead p x.seq o rest s → x.outcome = 0 → excluded s x.axis (memberOf s x.axis) = false →
    s.collHeld = [] → tickReached s (x.b0 + x.deadline) = true → (∀ m ∈ activeMembers s x.axis, bitAt x.ready m = true) →
    permIn s x = [i] → permEntry s x.table i = e → i < x.entries → e.bytes % 64 = 0 → Apart e.bytes (x.base + e.stage) e.into →
    poisoned s (x.base + e.stage) e.bytes = false → poisoned s e.into e.bytes = false →
    (e.into + e.bytes ≤ combAddr p x.res ∨ combAddr p x.res + 64 ≤ e.into) →
    Completes (.permuteCommit p 0) s fun u =>
      CollDone p o rest s u ∧ (pair u p).perms = [{ x with outcome := 1 }]
        ∧ numAt u (combAddr p x.res) 8 = (1 + x.ready * 65536) % 2 ^ 64
        ∧ bytesAt u e.into e.bytes = bytesAt s (x.base + e.stage) e.bytes)
  ∧ (∀ (x : PermOp) (m : Packet) (v : Nat) (s : State), Arrives m s → (pair s m.pair).perms = [x] → x.tag = m.tag →
    x.b0 % 65536 = m.generation → m.aux = [2, v, x.axis] → x.outcome ≠ 0 → x.outcome ≠ v →
    Completes (.permuteOutcomeReceive m) s fun u =>
      byteAt u (combAddr m.pair x.res) = byteAt s (combAddr m.pair x.res) ||| 4 ∧ Wrote (combAddr m.pair x.res) 1 s u
        ∧ fld u F.LINK_EVENTS_perm_split = 1)
  ∧ ∀ (x : PermOp) (m : Packet) (s : State), Arrives m s → (pair s m.pair).perms = [x] → x.tag = m.tag →
    x.b0 % 65536 = m.generation → m.aux = [2, x.outcome, x.axis] → x.outcome ≠ 0 →
    Completes (.permuteOutcomeReceive m) s fun u => u = s

/-! ## The gradient exchange -/

/-- A post of an exchange as its descriptor states it (R273). -/
def postNew (s : State) (p w : Nat) : GexPost :=
  { seq := (pair s p).seq, tag := bitsOf (descWord s p w 0) 61 58, axis := wbits w 60 59, b0 := (pair s p).sliceBreath
    ahead := bitsOf (descWord s p w 0) 49 46, deadline := bitsOf (descWord s p w 0) 57 50, fmt := bitsOf (descWord s p w 0) 45 43
    avg := bitAt (descWord s p w 0) 42, n := bitsOf (descWord s p w 0) 20 0 + 1, sum := descWord s p w 1, area := descWord s p w 2
    res := descWord s p w 3 }

/-- The owners of a non-empty range of n entries on an axis (R265). -/
def gexOwners (s : State) (axis fmt n : Nat) : List Nat :=
  (List.range (ringSizeOf s axis)).filter (fun k => (rangeOf (gexAlign fmt) n (ringSizeOf s axis) k).2 ≠ 0)

/-- R265, R273, R275, R278. A POST with a range of its own opens its receive side; one
without closes at issue, its sum +0. A GEXCH of a form from 2 is DESC_INVALID. A SEND sends one message to each owner of a
range and waits for the owners' masks. The model's choices it rests on: log entry 52. -/
def Obligations.ExchangeIssue : Prop :=
  (∀ (p : Pair) (w : Nat) (s : State), Colls p w 6 s → bitsOf (descWord s p w 0) 63 62 = 0 →
    gexPostFault p s (descWords s p w 16) (wbits w 60 59) = none → (postRange s (postNew s p w)).2 ≠ 0 →
    Completes (.gexchPost p) s fun u =>
      MovesTo p (seqPc s p + 1) s u ∧ IssueFrame p [] s u
        ∧ (pair u p).settled = { (pair s p).settled with
            colls := (pair s p).colls ++ [collOp s p w]
            posts := SMap.insert (pair s p).posts (postNew s p w).tag (postNew s p w) })
  ∧ (∀ (p : Pair) (w : Nat) (s : State), Colls p w 6 s → bitsOf (descWord s p w 0) 63 62 = 0 →
    gexPostFault p s (descWords s p w 16) (wbits w 60 59) = none → (postRange s (postNew s p w)).2 = 0 →
    (descWord s p w 3 + 64 ≤ descWord s p w 1 ∨ descWord s p w 1 + 4 * postStep s (postNew s p w) ≤ descWord s p w 3) →
    Completes (.gexchPost p) s fun u =>
      MovesTo p (seqPc s p + 1) s u ∧ (pair u p).colls = (pair s p).colls
        ∧ ∀ i < postStep s (postNew s p w), elem32 u p (descWord s p w 1) i = 0)
  ∧ (∀ (p : Pair) (w : Nat) (s : State), Colls p w 6 s → 2 ≤ bitsOf (descWord s p w 0) 63 62 →
    (Completes (.gexchPost p) s fun u => Faulted p 0x05 5 (seqPc s p) s u)
      ∧ Completes (.gexchSend p) s fun u => Faulted p 0x05 5 (seqPc s p) s u)
  ∧ ∀ (p : Pair) (w : Nat) (s : State), Colls p w 6 s → bitsOf (descWord s p w 0) 63 62 = 1 →
    gexSendFault p s (descWords s p w 16) (wbits w 60 59) = none →
    let owners := gexOwners s (wbits w 60 59) (bitsOf (descWord s p w 0) 45 43) (bitsOf (descWord s p w 0) 20 0 + 1)
    Completes (.gexchSend p) s fun u =>
      MovesTo p (seqPc s p + 1) s u ∧ (pair u p).colls = (pair s p).colls ++ [collOp s p w] ∧ MemSame s u
        ∧ (∃ x : GexSend, findSend u p (bitsOf (descWord s p w 0) 61 58) = some x ∧ x.seq = (pair s p).seq
            ∧ x.await = maskOf owners ∧ x.got = 0 ∧ x.wire = descWord s p w 1 ∧ x.err = descWord s p w 2 ∧ x.res = descWord s p w 3)
        ∧ u.requests.map (fun r => (r.kind, r.pair, r.dst, r.member))
          = s.requests.map (fun r => (r.kind, r.pair, r.dst, r.member))
            ++ owners.map (fun k => (2, p.val, memberDev s (wbits w 60 59) k, k))

/-- R272, R275–R279. A message of the exchange that its post accepts is written into its sender's slot; the hub decodes the
slots in order of members, the first into the sum; the post closes once all are in, with its mask and count in its result block.
A sender notes a mask that holds its bit, and completes with its last; masks not come in time are taken as set. An exclusion is
applied. The model's choices it rests on: log entry 52. -/
def Obligations.Exchange : Prop :=
  (∀ (x : GexPost) (h : GexHead) (m : Packet) (s : State), Arrives m s → gexHead m.data = h → findPost s m.pair h.tag = some x →
    gexReject s x m h = none → (h.fmt = 0 ∨ h.fmt = 1 ∨ h.fmt = 4) → m.data.length = 32 + h.bytes → (∀ b ∈ m.data, b < 256) →
    Completes (.gexMessageReceive m) s fun u =>
      findPost u m.pair h.tag = some { x with mask := setBitN x.mask h.sender, counts := SMap.insert x.counts h.sender h.count }
        ∧ bytesAt u (combAddr m.pair (slotOff s x h.sender)) h.bytes = m.data.drop 32
        ∧ Wrote (combAddr m.pair (slotOff s x h.sender)) h.bytes s u)
  ∧ (∀ (p : Pair) (tag : Nat) (x : GexPost) (s : State), Clocked s → findPost s p tag = some x → x.next < ringSizeOf s x.axis →
    bitAt x.mask x.next = true → x.fmt = 4 → x.wrote = false →
    Completes (.gexDecode p tag) s fun u =>
      (∃ y, findPost u p tag = some y ∧ y.next = x.next + 1 ∧ y.wrote = true ∧ y.mask = x.mask)
        ∧ (∀ i < (postRange s x).2, elem32 u p x.sum i = elem32 s p (slotOff s x x.next) i)
        ∧ Wrote (combAddr p x.sum) (4 * (postRange s x).2) s u)
  ∧ (∀ (p : Pair) (tag : Nat) (x : GexPost) (o : UnitOp) (rest : List UnitOp) (s : State), Released s → findPost s p tag = some x →
    x.tag = tag → CollHead p x.seq o rest s → postFull s x = true → ringSizeOf s x.axis ≤ x.next → x.avg = false →
    (postRange s x).2 ≠ 0 → x.counts.foldl (fun a e => a + e.2) 0 ≠ 0 →
    Completes (.gexPostClose p tag) s fun u =>
      CollDone p o rest s u ∧ findPost u p tag = none
        ∧ numAt u (combAddr p x.res) 8 = (x.mask + (if x.nonfinite then 2 ^ 17 else 0)) % 2 ^ 64
        ∧ numAt u (combAddr p x.res + 8) 8 = x.counts.foldl (fun a e => a + e.2) 0 % 2 ^ 64
        ∧ Wrote (combAddr p x.res) 64 s u)
  ∧ (∀ (x : GexSend) (m : Packet) (mask : Nat) (s : State), Arrives m s → findSend s m.pair m.tag = some x → x.tag = m.tag →
    m.aux = [1, mask, x.axis] → x.b0 % 65536 = m.generation → bitAt x.await (coordOf m.src x.axis) = true →
    bitAt mask (memberOf s x.axis) = true → clearBitN x.await (coordOf m.src x.axis) ≠ 0 →
    Completes (.maskReceive m) s fun u =>
      findSend u m.pair m.tag
          = some { x with await := clearBitN x.await (coordOf m.src x.axis), got := setBitN x.got (coordOf m.src x.axis) }
        ∧ MemSame s u)
  ∧ (∀ (x : GexSend) (m : Packet) (mask : Nat) (o : UnitOp) (rest : List UnitOp) (s : State), Arrives m s →
    findSend s m.pair m.tag = some x → x.tag = m.tag → CollHead m.pair x.seq o rest s → m.aux = [1, mask, x.axis] →
    x.b0 % 65536 = m.generation → bitAt x.await (coordOf m.src x.axis) = true → bitAt mask (memberOf s x.axis) = true →
    clearBitN x.await (coordOf m.src x.axis) = 0 →
    Completes (.maskReceive m) s fun u =>
      CollDone m.pair o rest s u ∧ findSend u m.pair m.tag = none
        ∧ numAt u (combAddr m.pair x.res) 8 = (setBitN x.got (coordOf m.src x.axis) + x.timedOut * 65536) % 2 ^ 64
        ∧ Wrote (combAddr m.pair x.res) 64 s u)
  ∧ (∀ (p : Pair) (tag : Nat) (x : GexSend) (o : UnitOp) (rest : List UnitOp) (s : State), Released s → findSend s p tag = some x →
    x.tag = tag → CollHead p x.seq o rest s → tickReached s (x.b0 + x.deadline + 1) = true → x.await ≠ 0 →
    Completes (.maskTimeout p tag) s fun u =>
      CollDone p o rest s u ∧ findSend u p tag = none ∧ fld u F.GEX_EVENTS_mask_timeout = 1
        ∧ numAt u (combAddr p x.res) 8 = (x.got + x.await * 65536) % 2 ^ 64 ∧ Wrote (combAddr p x.res) 64 s u)
  ∧ ∀ (w : Word) (s : State), Released s → s.exclPending = some w →
    Completes .excludeApply s fun u => reg u .GEX_EXCLUDE 0 = w ∧ u.exclPending = none ∧ Keeps [.GEX_EXCLUDE] [] s u ∧ MemSame s u

/-! ## The norm and the digests -/

/-- R280–R282. The first pair of a NORM64 leaves its sum with the part, which waits for the others. A report comes to the root;
the root's total goes out once every expected part has reported, and only once: a later report is stale. The total gives each pair its factor: 1 where the clip bound is
0. Without a total in time the factor is +0 with skip and incomplete set. The model's choices it rests on: log entry 53. -/
def Obligations.Norm : Prop :=
  (∀ (p : Pair) (w : Nat) (s : State), Colls p w 7 s → normFault p s (descWords s p w 16) (wbits w 60 59) = none →
    s.norms = [] → (∃ q < 64, q ≠ p.val ∧ bitAt (descWord s p w 4) q = true) →
    Completes (.norm64 p) s fun u =>
      MovesTo p (seqPc s p + 1) s u ∧ MemSame s u
        ∧ (pair u p).settled = { (pair s p).settled with colls := (pair s p).colls ++ [collOp s p w] }
        ∧ u.norms = [{ tag := bitsOf (descWord s p w 0) 21 18, b0 := (pair s p).sliceBreath, axes := bitsOf (descWord s p w 0) 3 0
                       deadline := bitsOf (descWord s p w 0) 11 4, pairs := descWord s p w 4
                       vals := [(p.val, sum64 ((normList s p (descWords s p w 16)).map (fun off =>
                         mark64 (numAt s (combAddr p off) 8) (poisoned s (combAddr p off) 8))))]
                       outs := [(p.val, descWord s p w 3, descWord s p w 2, (pair s p).seq)] }])
  ∧ (∀ (m : Packet) (axes dl b0 v : Nat) (s : State), Arrives m s → m.aux = [0, axes, dl, b0, v] → schedBreath s < b0 + dl →
    s.normRoots = [] →
    Completes (.normReportReceive m) s fun u =>
      u.normRoots = [{ tag := m.tag, generation := m.generation, b0 := b0, axes := axes, deadline := dl, reports := [(m.src, v)] }]
        ∧ Keeps [] [] s u ∧ MemSame s u ∧ u.pairs = s.pairs)
  ∧ (∀ (m : Packet) (r : NormRoot) (s : State), Arrives m s → s.normRoots = [r] → r.formed = true → r.tag = m.tag →
    r.generation = m.generation →
    Completes (.normReportReceive m) s fun u => u.normRoots = [r] ∧ fld u F.LINK_EVENTS_stale = 1 ∧ MemSame s u ∧ u.pairs = s.pairs)
  ∧ (∀ (r : NormRoot) (guard : Bool) (s : State), Released s → s.normRoots = [r] → r.formed = false →
    (∀ d ∈ expectedParts s r.axes, ∃ v, (d, v) ∈ r.reports) →
    Completes (.normTotal 0 guard) s fun u =>
      u.normRoots = [{ r with formed := true }] ∧ MemSame s u ∧ u.pairs = s.pairs ∧ Keeps eventRegs [] s u
        ∧ (scopeParts s r.axes = [deviceId s] →
            ∃ k, k.aux = [1, r.b0, sum64 ((expectedParts s r.axes).map (fun d => SMap.get 0 r.reports d)),
                (expectedParts s r.axes).length, (expectedParts s r.axes).length] ∧ u.out = .packet 9 k :: s.out))
  ∧ (∀ (n : NormOp) (m : Packet) (p off sq b0 v k : Nat) (o : UnitOp) (rest : List UnitOp) (s : State), Arrives m s → s.norms = [n] →
    n.tag = m.tag → n.b0 % 65536 = m.generation → n.outs = [(p, off, 0, sq)] → CollHead p sq o rest s →
    m.aux = [1, b0, 2 * v, k, k] → v < 0x7FF0000000000000 → k < 65536 →
    Completes (.normTotalReceive m) s fun u =>
      CollDone p o rest s u ∧ u.norms = [] ∧ numAt u (combAddr p off) 4 = 0x3F800000 ∧ numAt u (combAddr p off + 4) 4 = 0
        ∧ numAt u (combAddr p off + 8) 8 = v ∧ reg u .GEX_NORM 0 = BitVec.ofNat 64 v ∧ Wrote (combAddr p off) 16 s u)
  ∧ ∀ (n : NormOp) (p off clip sq : Nat) (o : UnitOp) (rest : List UnitOp) (s : State), Released s → s.norms = [n] →
    n.outs = [(p, off, clip, sq)] → CollHead p sq o rest s → tickReached s (n.b0 + n.deadline) = true →
    Completes (.normTimeout 0) s fun u =>
      CollDone p o rest s u ∧ u.norms = [] ∧ fld u F.GEX_EVENTS_norm_incomplete = 1 ∧ numAt u (combAddr p off) 4 = 0
        ∧ numAt u (combAddr p off + 4) 4 = 3 ∧ Wrote (combAddr p off) 16 s u

/-- R309, R393, R394. DIGCMP is queued and its vector sent. A member's vector is noted. It closes with every member's vector in;
where all members agree on every range the result names no member and no range, and no mismatch is raised. -/
def Obligations.Digests : Prop :=
  (∀ (p : Pair) (w : Nat) (s : State), Colls p w 8 s → digFault s (descWords s p w 16) (wbits w 60 59) = none → s.collHeld = [] →
    Completes (.digcmp p) s fun u =>
      MovesTo p (seqPc s p + 1) s u ∧ IssueFrame p [] s u
        ∧ (pair u p).settled = { (pair s p).settled with
            colls := (pair s p).colls ++ [collOp s p w]
            digs := (pair s p).digs ++ [{ seq := (pair s p).seq, tag := bitsOf (descWord s p w 0) 49 46, axis := wbits w 60 59
                                          b0 := (pair s p).sliceBreath, deadline := bitsOf (descWord s p w 0) 57 50, res := descWord s p w 3 }] })
  ∧ (∀ (x : DigOp) (m : Packet) (axis : Nat) (vals : List Nat) (s : State), Arrives m s → (pair s m.pair).digs = [x] → x.tag = m.tag →
    x.b0 % 65536 = m.generation → excluded s x.axis (coordOf m.src x.axis) = false → m.aux = axis :: vals →
    Completes (.digcmpVectorReceive m) s fun u =>
      (∃ y, (pair u m.pair).digs = [y] ∧ y.got = setBitN x.got (coordOf m.src x.axis)
        ∧ ∀ r < vals.length, SMap.get 0 y.vals (coordOf m.src x.axis * 16 + r) = nth 0 vals r)
        ∧ (∀ q, q ≠ m.pair → pair u q = pair s q) ∧ MemSame s u ∧ Keeps [] [] s u)
  ∧ ∀ (p : Pair) (x : DigOp) (v : Nat → Nat) (o : UnitOp) (rest : List UnitOp) (s : State), Released s → (pair s p).digs = [x] →
    CollHead p x.seq o rest s → excluded s x.axis (memberOf s x.axis) = false →
    (activeMembers s x.axis) ≠ [] → (∀ m ∈ activeMembers s x.axis, bitAt x.got m = true) →
    (∀ m ∈ activeMembers s x.axis, ∀ r < ringSizeOf s x.axis, SMap.get 0 x.vals (m * 16 + r) = v r ∧ v r < 2 ^ 256) →
    Completes (.digcmpClose p 0) s fun u =>
      CollDone p o rest s u ∧ (pair u p).digs = [] ∧ numAt u (combAddr p x.res) 32 = 0
        ∧ numAt u (combAddr p x.res + 32) 8 = maskOf (activeMembers s x.axis) * 65536 % 2 ^ 64
        ∧ Wrote (combAddr p x.res) 64 s u ∧ reg u .RL_EVENTS 0 = reg s .RL_EVENTS 0


/-! ## The all-to-all -/

/-- n bytes from a and m bytes from b have none in common. -/
def Clear (a n b m : Nat) : Prop := a + n ≤ b ∨ b + m ≤ a

/-- No memory is poisoned or offline. -/
def Clean (s : State) : Prop := ∀ a n, poisoned s a n = false

/-- A post of the all-to-all as its descriptor states it (R236). -/
def a2aNew (s : State) (p w : Nat) : A2aPost :=
  { seq := (pair s p).seq, tag := bitsOf (descWord s p w 0) 61 58, axis := wbits w 60 59, b0 := (pair s p).sliceBreath
    ahead := bitsOf (descWord s p w 0) 49 46, deadline := bitsOf (descWord s p w 0) 57 50, zeroFill := bitAt (descWord s p w 0) 42
    epp := bitsOf (descWord s p w 0) 27 16 + 1, c := bitsOf (descWord s p w 0) 15 0, near := descWord s p w 1, far := descWord s p w 2
    rowBytes := descWord s p w 3, hdr := descWord s p w 4, table := descWord s p w 5, gate := descWord s p w 6, n := descWord s p w 7
    res := descWord s p w 8, past := pastGens s p (bitsOf (descWord s p w 0) 61 58) }

/-- Rows that destination d keeps of a dispatch: the count its table gives, at most the capacity (R241). -/
def dispatchRows (s : State) (p w d : Nat) : Nat := min (numAt s (descWord s p w 5 + 4 * d) 4) (bitsOf (descWord s p w 0) 15 0)

/-- The header of slot k of a RETURN is valid, and its member's rows arrived (R238, R239, R243). -/
def returnValid (s : State) (p w k : Nat) : Bool := bitAt (numAt s (descWord s p w 4 + 16 * k) 8) 35
def returnArrived (s : State) (p w k : Nat) : Bool :=
  bitAt (numAt s (descWord s p w 5 + 64 + 8 * bitsOf (numAt s (descWord s p w 4 + 16 * k) 8) 39 36) 8) 20

/-- The slots of a RETURN by its count table (R239). -/
def returnSlots (s : State) (p w : Nat) : List Nat :=
  let t := numAt s (descWord s p w 5) 8
  List.range ((bitsOf t 11 0 + 1) * ((bitsOf t 15 12 + 1) * bitsOf t 31 16))

/-- R236, R238, R241–R243. A POST opens its receive side. A DISPATCH opens a batch of the rows its table keeps and asks an
answer of every member and for every row. A RETURN sends the valid rows of arrived members, skips those of the others, writes
its result block and completes. A CANCEL closes its batch and completes. The model's choices it rests on: log entry 56. -/
def Obligations.AlltoallIssue : Prop :=
  (∀ (p : Pair) (w : Nat) (s : State), Colls p w 4 s → bitsOf (descWord s p w 0) 63 62 = 0 →
    a2aPostFault p s (descWords s p w 16) (wbits w 60 59) = none →
    Completes (.alltoallPost p) s fun u =>
      MovesTo p (seqPc s p + 1) s u ∧ IssueFrame p [] s u
        ∧ (pair u p).settled = { (pair s p).settled with
            colls := (pair s p).colls ++ [collOp s p w], a2a := SMap.insert (pair s p).a2a (a2aNew s p w).tag (a2aNew s p w) })
  ∧ (∀ (p : Pair) (w : Nat) (s : State), Colls p w 4 s → bitsOf (descWord s p w 0) 63 62 = 1 →
    a2aDispatchFault p s (descWords s p w 16) (wbits w 60 59) = none → Clean s →
    Completes (.alltoallDispatch p) s fun u =>
      MovesTo p (seqPc s p + 1) s u ∧ MemSame s u ∧ (pair u p).colls = (pair s p).colls ++ [collOp s p w]
        ∧ ∃ b : Batch, findBatch u p (bitsOf (descWord s p w 0) 61 58) = some b ∧ b.generation = (pair s p).sliceBreath % 65536
            ∧ b.total = min 65536 ((List.range (ringSizeOf s (wbits w 60 59) * (bitsOf (descWord s p w 0) 27 16 + 1))).foldl
                (fun t d => t + dispatchRows s p w d) 0)
            ∧ b.close = (pair s p).sliceBreath + bitsOf (descWord s p w 0) 57 50 ∧ b.sem = bitsOf (descWord s p w 0) 41 36
            ∧ b.ret = descWord s p w 2 ∧ b.filled = [] ∧ b.seq = (pair s p).seq
            ∧ u.requests.length = s.requests.length + ringSizeOf s (wbits w 60 59) + b.total)
  ∧ (∀ (p : Pair) (w : Nat) (s : State), Colls p w 4 s → bitsOf (descWord s p w 0) 63 62 = 2 →
    a2aReturnFault p s (descWords s p w 16) (wbits w 60 59) = none → Clean s → semCount s p (wbits w 21 16) ≠ 0xFFFFFFFF →
    Completes (.alltoallReturn p) s fun u =>
      MovesTo p (seqPc s p + 1) s u ∧ (pair u p).colls = (pair s p).colls
        ∧ semCount u p (wbits w 21 16) = semCount s p (wbits w 21 16) + (if wbits w 22 22 = 1 then 1 else 0)
        ∧ numAt u (combAddr p (descWord s p w 8)) 8 = 0
        ∧ numAt u (combAddr p (descWord s p w 8) + 8) 8
          = (returnSlots s p w).countP (fun k => returnValid s p w k && returnArrived s p w k)
        ∧ numAt u (combAddr p (descWord s p w 8) + 16) 8
          = (returnSlots s p w).countP (fun k => returnValid s p w k && !returnArrived s p w k)
        ∧ Wrote (combAddr p (descWord s p w 8)) 64 s u)
  ∧ ∀ (p : Pair) (w : Nat) (b : Batch) (s : State), Colls p w 4 s → bitsOf (descWord s p w 0) 63 62 = 3 →
    a2aCancelFault s (descWords s p w 16) (wbits w 60 59) = none → findBatch s p (bitsOf (descWord s p w 0) 61 58) = some b →
    semCount s p (wbits w 21 16) ≠ 0xFFFFFFFF →
    Completes (.alltoallCancel p) s fun u =>
      MovesTo p (seqPc s p + 1) s u ∧ (pair u p).colls = (pair s p).colls ∧ MemSame s u
        ∧ findBatch u p (bitsOf (descWord s p w 0) 61 58) = none
        ∧ fld u F.ROUTE_COUNTS_cancels = satAdd F.ROUTE_COUNTS_cancels.width (fld s F.ROUTE_COUNTS_cancels) 1
        ∧ semCount u p (wbits w 21 16) = semCount s p (wbits w 21 16) + (if wbits w 22 22 = 1 then 1 else 0)

/-- A packet of the all-to-all comes to a post of its tag, axis and generation, from a member of the ring (R240). -/
structure ToPost (m : Packet) (x : A2aPost) (s : State) : Prop where
  arrives : Arrives m s
  post : findA2a s m.pair m.tag = some x
  generation : x.gen = m.generation
  axis : nth 0 m.aux 1 = x.axis
  member : onRing s x.axis m.src = true
  up : underReset s (hiveOf m.pair) = false

/-- R238–R245. A count vector is noted at its post; a row is written with its header and its gate to the slot its member and
index name. One that comes after the close, or of an earlier post of the tag, is refused as stale; a hive under reset takes none.
A post closes once every member has arrived complete. A DISPATCH completes once all its messages are answered. A
returned row is written to its slot of the batch; a full batch closes with its return list, its result block and its semaphore.
The model's choices it rests on: log entries 56 and 121. -/
def Obligations.Alltoall : Prop :=
  (∀ (x : A2aPost) (m : Packet) (cs : List Nat) (s : State), ToPost m x s → x.closed = false → m.aux = 0 :: x.axis :: cs → cs.length = x.epp →
    Completes (.alltoallRowReceive m) s fun u =>
      (∃ y, findA2a u m.pair m.tag = some y ∧ y.counted = setBitN x.counted (coordOf m.src x.axis) ∧ y.filled = x.filled
        ∧ ∀ e < x.epp, SMap.get 0 y.counts (e * 16 + coordOf m.src x.axis) = nth 0 cs e) ∧ MemSame s u)
  ∧ (∀ (x : A2aPost) (m : Packet) (e j pos rank slot gate t row h g : Nat) (s : State), ToPost m x s → x.closed = false →
    m.aux = [1, x.axis, e, j, pos, rank, slot, gate] → e < x.epp → j < x.c → m.data.length = x.rowBytes → m.poison = 0 →
    (∀ b ∈ m.data, b < 256) → pos < 2 ^ 32 → rank < 8 → gate < 2 ^ 32 → t = coordOf m.src x.axis * x.c + j →
    row = rowPlace x.near x.far x.n (a2aSlots s x) x.rowBytes e t → h = x.hdr + (e * a2aSlots s x + t) * 16 →
    g = x.gate + (e * a2aSlots s x + t) * 4 → poisoned s row x.rowBytes = false → poisoned s h 16 = false → poisoned s g 4 = false →
    Clear row x.rowBytes h 16 → Clear row x.rowBytes g 4 → Clear h 16 g 4 →
    Completes (.alltoallRowReceive m) s fun u =>
      bytesAt u row x.rowBytes = m.data ∧ numAt u h 8 = pos + rank * 2 ^ 32 + 2 ^ 35 + coordOf m.src x.axis * 2 ^ 36
        ∧ numAt u g 4 = gate
        ∧ findA2a u m.pair m.tag = some { x with filled := SMap.insert x.filled (e * 2 ^ 20 + t) true })
  ∧ (∀ (x : A2aPost) (m : Packet) (s : State), ToPost m x s → x.closed = true →
    Completes (.alltoallRowReceive m) s fun u =>
      findA2a u m.pair m.tag = some { x with refused := x.refused + 1 }
        ∧ numAt u (combAddr m.pair (x.res + 24)) 8 = (x.refused + 1) % 2 ^ 64 ∧ Wrote (combAddr m.pair (x.res + 24)) 8 s u
        ∧ fld u F.ROUTE_EVENTS_stale = 1
        ∧ fld u F.ROUTE_COUNTS_stale = satAdd F.ROUTE_COUNTS_stale.width (fld s F.ROUTE_COUNTS_stale) 1)
  ∧ (∀ (x : A2aPost) (m : Packet) (g : Nat) (s : State), Arrives m s → findA2a s m.pair m.tag = some x →
    underReset s (hiveOf m.pair) = false → x.gen ≠ m.generation → g ∈ x.past → g % 65536 = m.generation →
    schedBreath s < g + 65536 →
    Completes (.alltoallRowReceive m) s fun u =>
      fld u F.ROUTE_EVENTS_stale = 1 ∧ u.pairs = s.pairs ∧ MemSame s u
        ∧ fld u F.ROUTE_COUNTS_stale = satAdd F.ROUTE_COUNTS_stale.width (fld s F.ROUTE_COUNTS_stale) 1)
  ∧ (∀ (m : Packet) (s : State), Arrives m s → underReset s (hiveOf m.pair) = true →
    Completes (.alltoallRowReceive m) s fun u => u.pairs = s.pairs ∧ MemSame s u)
  ∧ (∀ (p : Pair) (tag : Nat) (x : A2aPost) (o : UnitOp) (rest : List UnitOp) (s : State), Released s → findA2a s p tag = some x →
    CollHead p x.seq o rest s → x.closed = false → (∀ m < ringSizeOf s x.axis, arrivedFrom s x m = true) →
    (∀ e < x.epp, ∀ t < a2aSlots s x, SMap.get false x.filled (e * 2 ^ 20 + t) = true) → x.c ≠ 0 →
    poisoned s x.table (192 + 4 * (x.epp * ringSizeOf s x.axis)) = false →
    Clear x.table (192 + 4 * (x.epp * ringSizeOf s x.axis)) (combAddr p x.res) 64 →
    Completes (.alltoallReceiveClose p tag) s fun u =>
      CollDone p o rest s u ∧ findA2a u p tag = some { x with closed := true, counts := [], filled := [] }
        ∧ numAt u (combAddr p x.res) 8 = maskOf (List.range (ringSizeOf s x.axis))
        ∧ numAt u x.table 8 = ((x.epp - 1) + (ringSizeOf s x.axis - 1) * 2 ^ 12 + x.c * 2 ^ 16 + x.n * 2 ^ 32) % 2 ^ 64)
  ∧ (∀ (p : Pair) (seq : Nat) (o : UnitOp) (rest : List UnitOp) (s : State), Clocked s → CollHead p seq o rest s →
    wbits o.word 9 4 = 4 → bitsOf (nth 0 o.desc 0) 63 62 = 1 →
    (∀ r ∈ s.requests, ¬(r.kind = 3 ∧ r.pair = p ∧ r.ref = seq)) →
    Completes (.dispatchDone p seq) s fun u =>
      CollDone p o rest s u ∧ (pair u p).batches = (pair s p).batches ∧ MemSame s u ∧ ∀ q, q ≠ p.val → pair u q = pair s q)
  ∧ (∀ (b : Batch) (m : Packet) (a i : Nat) (s : State), Arrives m s → findBatch s m.pair m.tag = some b → b.generation = m.generation →
    nth 0 m.aux 2 = i → i < b.total → SMap.get false b.filled i = false → m.data.length = b.rowBytes → m.poison = 0 →
    (∀ x ∈ m.data, x < 256) → a = b.ret + i * b.rowBytes → poisoned s a b.rowBytes = false →
    Completes (.returnRowReceive m) s fun u =>
      bytesAt u a b.rowBytes = m.data ∧ Wrote a b.rowBytes s u
        ∧ findBatch u m.pair m.tag = some { b with filled := SMap.insert b.filled i true })
  ∧ ∀ (p : Pair) (tag : Nat) (b : Batch) (s : State), Released s → findBatch s p tag = some b → batchFull s p b = true →
    semCount s p b.sem ≠ 0xFFFFFFFF → poisoned s b.list (16 * b.filled.length) = false →
    Clear b.list (16 * b.filled.length) (combAddr p b.res) 64 →
    Completes (.batchClose p tag) s fun u =>
      findBatch u p tag = none ∧ semCount u p b.sem = semCount s p b.sem + 1
        ∧ numAt u (combAddr p b.res) 8 = b.refusing * 65536 % 2 ^ 64 ∧ numAt u (combAddr p b.res + 8) 8 = b.total % 2 ^ 64
        ∧ ∀ k < b.filled.length,
            numAt u (b.list + 16 * k) 4 = SMap.get 0 b.slots (nth (0, false) b.filled k).1 / 2 ^ 32 % 65536
              ∧ numAt u (b.list + 16 * k + 4) 4 = SMap.get 0 b.slots (nth (0, false) b.filled k).1 % 2 ^ 32
              ∧ numAt u (b.list + 16 * k + 8) 8 = (b.ret + (nth (0, false) b.filled k).1 * b.rowBytes) % 2 ^ 64

/-! ## The breath -/

/-- An ordered set that leaves by a port, in a CONTROL flit of its own (R293). -/
def setOut (s : State) (n kind body : Nat) : List Out :=
  [.flit n (flitBytes s n 1 0 false (controlBody kind body)), .orderedSet n kind body]

/-- The ordered sets that flood from every torus port that is UP but one (R33). -/
def floodOut (s : State) (but kind body : Nat) : List Out :=
  ((List.range 8).filter (fun n => n ≠ but && portState s n = 2)).reverse.flatMap (fun n => setOut s n kind body)

/-- The breath unit alone has changed, by f, and ordered sets have left: registers but those of ks, memory, pairs and every other unit are
as before. -/
def BreathTo (f : BreathS → BreathS) (ks : List (Reg × Nat)) (sets : List Out) (s u : State) : Prop :=
  u.breath = f s.breath ∧ u.out = sets ++ s.out ∧ Keeps [] ks s u ∧ MemSame s u ∧ u.pairs = s.pairs ∧ u.log = s.log
    ∧ u.ports = s.ports

/-- The master's next tick: its own ID, the next number, its period (R28, R32). -/
def nextTick (s : State) (resync hold : Bool) : Tick :=
  { master := deviceId s, number := s.breath.emitted + 1, period := fld s F.BREATH_PERIOD_period, resync := resync, miss := hold
    hold := hold }

/-- R28, R30, R33, R47. A TIMER master emits its next tick. A PIN master emits one at an edge it accepts, rejects an edge
outside its window, and emits a hold tick where none came, ending its stream with the third. The model's choices it rests on:
log entry 62. -/
def Obligations.TickSources : Prop :=
  (∀ s : State, Released s → s.breath.streaming = true → s.breath.ending = false → fld s F.BREATH_CTRL_tick_source = 1 →
    Completes .masterTickEmit s fun u =>
      let t := nextTick s s.breath.resyncNext false
      BreathTo (fun b => { b with emitted := b.emitted + 1, resyncNext := false, due := b.due ++ [t] }) [] (floodOut s 9 1 t.body) s u)
  ∧ (∀ s : State, Released s → s.breath.streaming = true → s.breath.ending = true →
    Completes .masterTickEmit s fun u =>
      fld u F.BREATH_STATUS_state = 3 ∧ fld u F.BREATH_EVENTS_tick_lost = 1 ∧ u.breath.streaming = false ∧ u.breath.due = []
        ∧ MemSame s u ∧ u.pairs = s.pairs)
  ∧ (∀ (ok : Bool) (s : State), Released s → s.breath.streaming = true → s.breath.ending = false → fld s F.BREATH_CTRL_tick_source = 2 →
    (s.breath.pinRef = false ∨ ok = true) →
    Completes (.tickInEdge ok) s fun u =>
      let t := nextTick s s.breath.resyncNext false
      BreathTo (fun b => { b with emitted := b.emitted + 1, resyncNext := false, due := b.due ++ [t], pinRef := true })
          [(.BREATH_TICKIN, 0)] (floodOut s 9 1 t.body) s u ∧ fld u F.BREATH_TICKIN_consec_miss = 0)
  ∧ (∀ s : State, Released s → s.breath.streaming = true → s.breath.ending = false → fld s F.BREATH_CTRL_tick_source = 2 →
    s.breath.pinRef = true →
    Completes (.tickInEdge false) s fun u =>
      BreathTo id [(.BREATH_TICKIN, 0), (.BREATH_EVENTS, 0)] [] s u ∧ fld u F.BREATH_EVENTS_tick_in_reject = 1
        ∧ fld u F.BREATH_TICKIN_reject_count = satAdd 32 (fld s F.BREATH_TICKIN_reject_count) 1)
  ∧ ∀ s : State, Released s → s.breath.streaming = true → s.breath.ending = false → fld s F.BREATH_CTRL_tick_source = 2 →
    s.breath.pinRef = true → fld s F.BREATH_TICKIN_consec_miss < 3 →
    Completes .tickInMiss s fun u =>
      let t := nextTick s s.breath.resyncNext true
      BreathTo (fun b => { b with emitted := b.emitted + 1, resyncNext := false, due := b.due ++ [t]
                                  ending := decide (fld s F.BREATH_TICKIN_consec_miss = 2) })
          [(.BREATH_TICKIN, 0)] (floodOut s 9 1 t.body) s u
        ∧ fld u F.BREATH_TICKIN_consec_miss = fld s F.BREATH_TICKIN_consec_miss + 1

/-- A tick ordered set that a part following ticks takes for the first time on a torus port (R33, R34). -/
structure TakesTick (n : Port) (body : Nat) (t : Tick) (s : State) : Prop where
  released : Released s
  torus : n.val < 8
  check : crc16Ok body = true
  tick : tickOf body = t
  follower : fld s F.BREATH_CTRL_tick_source = 0
  measured : (portS s n).hopValid = true
  fresh : s.breath.seen.contains t.key = false
  plain : t.lost = false
  early : t.delay + fld s F.PORT_STATUS_hop_delay n ≤ fld s F.BREATH_COMP_tick_budget

/-- R33, R34, R36. A follower acts on the copy of a tick that comes on its parent port, forwards it with its delay grown, and
keeps a copy from another port; without one from its parent port it acts on the other. An ARMED part adopts the master of the
first tick. A set whose CRC fails is counted. A hold tick fires without starting a slice. The model's choices it rests on: log
entry 63. -/
def Obligations.Ticks : Prop :=
  (∀ (n : Port) (body inside : Nat) (t : Tick) (s : State), TakesTick n body t s → breathState s = 2 → s.breath.follows = some t.master →
    fld s F.BREATH_COMP_parent_port = n → s.breath.cands = [] →
    Completes (.tickReceive n body inside) s fun u =>
      BreathTo (fun b => { b with due := b.due ++ [t], seen := t.key :: b.seen }) [(.BREATH_STATUS, 0)]
          (floodOut s n 1 { t with delay := min (t.delay + fld s F.PORT_STATUS_hop_delay n + inside) (2 ^ 24 - 1) }.body) s u
        ∧ fld u F.BREATH_STATUS_reroute_active = 0)
  ∧ (∀ (n : Port) (body inside : Nat) (t : Tick) (s : State), TakesTick n body t s → breathState s = 2 → s.breath.follows = some t.master →
    fld s F.BREATH_COMP_parent_port ≠ n →
    Completes (.tickReceive n body inside) s fun u => BreathTo (fun b => { b with cands := b.cands ++ [(n.val, t)] }) [] [] s u)
  ∧ (∀ (inside : Nat) (n : Nat) (t : Tick) (s : State), Released s → s.breath.cands = [(n, t)] → s.breath.follows = some t.master →
    t.delay + fld s F.PORT_STATUS_hop_delay n ≤ fld s F.BREATH_COMP_tick_budget →
    Completes (.tickReroute inside) s fun u =>
      fld u F.BREATH_STATUS_reroute_active = 1
        ∧ BreathTo (fun b => { b with cands := [], due := b.due ++ [t], seen := t.key :: b.seen, reroutes := b.reroutes + 1 })
          [(.BREATH_STATUS, 0)]
          (floodOut s n 1 { t with delay := min (t.delay + fld s F.PORT_STATUS_hop_delay n + inside) (2 ^ 24 - 1) }.body) s u)
  ∧ (∀ (n : Port) (body inside : Nat) (t : Tick) (s : State), TakesTick n body t s → breathState s = 1 → s.breath.follows = none →
    s.breath.resumed = false → s.breath.cands = [] →
    Completes (.tickReceive n body inside) s fun u =>
      u.breath = { s.breath with follows := some t.master, due := s.breath.due ++ [t], seen := t.key :: s.breath.seen }
        ∧ fld u F.BREATH_COMP_parent_port = (parentPort s t.master).1 % 16 ∧ MemSame s u ∧ u.pairs = s.pairs)
  ∧ (∀ (n : Port) (body inside : Nat) (s : State), Released s → crc16Ok body = false →
    Completes (.tickReceive n body inside) s fun u =>
      BreathTo id [(.PORT_OSET, n.val), (.PORT_EVENTS, n.val)] [] s u ∧ fld u F.PORT_EVENTS_oset_crc n = 1
        ∧ fld u F.PORT_OSET_bad n = satAdd F.PORT_OSET_bad.width (fld s F.PORT_OSET_bad n) 1)
  ∧ ∀ (t : Tick) (rest : List Tick) (s : State), Released s → s.breath.due = t :: rest → breathState s = 2 → t.hold = true →
    t.resync = false →
    Completes .localTickFire s fun u =>
      fld u F.BREATH_TICK_tick_number = t.number % 2 ^ 48 ∧ fld u F.BREATH_TICK_master_id = t.master % 2 ^ 16
        ∧ fld u F.BREATH_STATUS_state = 2 ∧ schedBreath u = schedBreath s ∧ u.breath.due = rest
        ∧ u.breath.heldTicks = t.number :: s.breath.heldTicks ∧ (∀ p, reg u .SEQ_STATUS p = reg s .SEQ_STATUS p)
        ∧ u.pairs = s.pairs ∧ MemSame s u

/-- R34, R39, R40, R42–R44, R46, R51. At the guard point a part with no late slice asks for nothing; with late slices it records them
and asks for a stretch within its limit; past the limit, or under the HIVE_FAULT policy, the late pair's hive is to fault and none
is asked for; in TICK_LOST the request is dropped. A stretch request is forwarded once and marks its tick; one that comes after
its tick leaves the part in DESYNC. The slack of a block is recorded; echoes are sent, answered, and give the hop delay. The
model's choices it rests on: log entry 64. -/
def Obligations.Guard : Prop :=
  (∀ s : State, Released s → breathState s ≠ 3 → guardOpen s = true → latePairs s = [] → s.host.notices = [] →
    Completes .guardPoint s fun u =>
      fld u F.BREATH_STRETCH_consecutive = 0 ∧ u.breath = { s.breath with guarded := true }
        ∧ Keeps [] [(.BREATH_STRETCH, 0)] s u ∧ MemSame s u ∧ u.pairs = s.pairs ∧ u.out = s.out)
  ∧ (∀ s : State, Released s → breathState s = 2 → guardOpen s = true → latePairs s ≠ [] → s.host.notices = [] →
    fld s F.BREATH_CTRL_overrun_policy = 0 → fld s F.BREATH_STRETCH_consecutive < fld s F.BREATH_STRETCH_stretch_limit →
    s.breath.holds = [] → s.breath.heldTicks = [] →
    Completes .guardPoint s fun u =>
      fld u F.BREATH_EVENTS_overrun = 1 ∧ fld u F.BREATH_OVERRUN_PAIRS_pairs = (latePairs s).foldl setBitN 0
        ∧ fld u F.BREATH_COUNTS_overrun_count = satAdd F.BREATH_COUNTS_overrun_count.width (fld s F.BREATH_COUNTS_overrun_count) 1
        ∧ fld u F.BREATH_STRETCH_consecutive = fld s F.BREATH_STRETCH_consecutive + 1
        ∧ u.breath = { s.breath with guarded := true, holds := [tickNumber s + 2] }
        ∧ u.out = floodOut s 9 2 (stretchBody (deviceId s) (tickNumber s + 2)) ++ s.out ∧ MemSame s u ∧ u.pairs = s.pairs)
  ∧ (∀ (p : Nat) (s : State), Released s → breathState s = 2 → guardOpen s = true → latePairs s = [p] → underReset s (p / 16) = false →
    p < 64 → s.host.notices = [] →
    (fld s F.BREATH_CTRL_overrun_policy = 1 ∨ fld s F.BREATH_STRETCH_stretch_limit ≤ fld s F.BREATH_STRETCH_consecutive) →
    Completes .guardPoint s fun u =>
      fld u F.BREATH_EVENTS_overrun = 1 ∧ fld u F.BREATH_OVERRUN_PAIRS_pairs = 2 ^ p
        ∧ (fld s F.BREATH_CTRL_overrun_policy = 0 → fld u F.BREATH_EVENTS_stretch_limit = 1)
        ∧ fld u F.BREATH_STRETCH_consecutive = fld s F.BREATH_STRETCH_consecutive
        ∧ u.pendingFaults = s.pendingFaults ++ [{ hive := p / 16, cause := 2, pair := p }]
        ∧ u.breath = { s.breath with guarded := true } ∧ u.out = s.out ∧ MemSame s u ∧ u.pairs = s.pairs)
  ∧ (∀ s : State, Released s → breathState s = 3 → s.breath.guarded = false → latePairs s ≠ [] → fld s F.BREATH_CTRL_overrun_policy = 0 →
    Completes .guardPoint s fun u =>
      fld u F.BREATH_EVENTS_overrun = 1 ∧ fld u F.BREATH_OVERRUN_PAIRS_pairs = (latePairs s).foldl setBitN 0
        ∧ BreathTo (fun b => { b with guarded := true }) [(.BREATH_COUNTS, 0), (.BREATH_EVENTS, 0), (.BREATH_OVERRUN_PAIRS, 0)] [] s u)
  ∧ (∀ (n : Port) (body : Nat) (s : State), Released s → n.val < 8 → crc16Ok body = true → breathState s = 2 →
    s.breath.stretches.contains (bitsOf body 127 112, bitsOf body 111 64) = false → bitsOf body 111 64 ≤ tickNumber s →
    s.breath.holds = [] → s.breath.heldTicks = [] →
    Completes (.stretchReceive n body) s fun u =>
      breathState u = 4 ∧ fld u F.BREATH_EVENTS_stretch_late = 1 ∧ fld u F.BREATH_STATUS_hold_pending = 0 ∧ faultN u = true
        ∧ u.breath = { s.breath with stretches := (bitsOf body 127 112, bitsOf body 111 64) :: s.breath.stretches }
        ∧ MemSame s u ∧ u.pairs = s.pairs)
  ∧ (∀ (n : Port) (body : Nat) (s : State), Released s → n.val < 8 → crc16Ok body = true →
    s.breath.stretches.contains (bitsOf body 127 112, bitsOf body 111 64) = true →
    Completes (.stretchReceive n body) s fun u => u = s)
  ∧ (∀ (n : Port) (body : Nat) (s : State), Released s → n.val < 8 → crc16Ok body = true → breathState s = 2 →
    s.breath.stretches.contains (bitsOf body 127 112, bitsOf body 111 64) = false → tickNumber s < bitsOf body 111 64 →
    s.breath.holds = [] → s.breath.heldTicks = [] →
    Completes (.stretchReceive n body) s fun u =>
      BreathTo (fun b => { b with stretches := (bitsOf body 127 112, bitsOf body 111 64) :: b.stretches, holds := [bitsOf body 111 64] })
          [(.BREATH_STATUS, 0)] (floodOut s n 2 body) s u ∧ fld u F.BREATH_STATUS_hold_pending = 1)
  ∧ (∀ (margin : Nat) (p : Pair) (s : State), Released s → schedBreath s ≠ 0 → schedBreath s % 256 = 0 →
    Completes (.slackRecord margin p) s fun u =>
      fld u F.BREATH_SLACK_min_slack = margin % 2 ^ 32 ∧ fld u F.BREATH_SLACK_min_pair = p
        ∧ BreathTo id [(.BREATH_SLACK, 0)] [] s u)
  ∧ (∀ (n : Port) (now : Nat) (s : State), Released s → echoes s n = true →
    Completes (.echoSend n now) s fun u =>
      BreathTo id [] (setOut s n 3 (withCrc16 (deviceId s * 2 ^ 112 + n * 2 ^ 108 + now % 2 ^ 40 * 2 ^ 56))) s u)
  ∧ (∀ (n : Port) (body now turn : Nat) (s : State), Released s → n.val < 8 → crc16Ok body = true → bitAt body 107 = false →
    Completes (.echoReceive n body now turn) s fun u =>
      BreathTo id [] (setOut s n 3 (withCrc16 (deviceId s * 2 ^ 112 + n * 2 ^ 108 + 2 ^ 107 + bitsOf body 95 56 * 2 ^ 56
        + turn % 2 ^ 24 * 2 ^ 32))) s u)
  ∧ ∀ (n : Port) (body now turn : Nat) (s : State), Released s → n.val < 8 → crc16Ok body = true → bitAt body 107 = true →
    Completes (.echoReceive n body now turn) s fun u =>
      fld u F.PORT_STATUS_hop_delay n
          = ((now % 2 ^ 40 + 2 ^ 40 - bitsOf body 95 56) % 2 ^ 40 - bitsOf body 55 32) / 2 % 2 ^ 24
        ∧ (portS u n).hopValid = true ∧ Keeps [] [(.PORT_STATUS, n.val)] s u ∧ MemSame s u ∧ u.pairs = s.pairs ∧ u.out = s.out

/-- R28, R45, R47, R49, R50. ARM takes an IDLE part to ARMED, and a master starts its stream; RESUME takes a part from TICK_LOST
or DESYNC to ARMED; CEASE ends a TIMER master's stream at its next tick; a loss of ticks brings TICK_LOST; a queen that is IDLE
takes the tick source it is given. The model's choices it rests on: log entry 62. -/
def Obligations.BreathControl : Prop :=
  (∀ s : State, Released s → fld s F.BOOT_STATUS_state ≠ 3 → breathState s = 0 → fld s F.BREATH_CTRL_tick_source = 0 →
    Completes .breathArm s fun u => breathState u = 1 ∧ BreathTo id [(.BREATH_STATUS, 0)] [] s u)
  ∧ (∀ s : State, Released s → fld s F.BOOT_STATUS_state ≠ 3 → breathState s = 0 → fld s F.BREATH_CTRL_tick_source ≠ 0 →
    s.breath.resumed = false →
    Completes .breathArm s fun u =>
      breathState u = 1 ∧ u.breath.streaming = true ∧ u.breath.emitted = 0 ∧ u.breath.follows = some (deviceId s)
        ∧ MemSame s u ∧ u.pairs = s.pairs)
  ∧ (∀ s : State, Released s → (breathState s = 3 ∨ breathState s = 4) → fld s F.BREATH_CTRL_tick_source = 0 →
    Completes .breathResume s fun u =>
      breathState u = 1 ∧ fld u F.BREATH_STATUS_hold_pending = 0
        ∧ BreathTo (fun b => { b with holds := [], follows := none, resumed := true, heldTicks := [], cands := [], due := [] })
          [(.BREATH_STATUS, 0)] [] s u)
  ∧ (∀ s : State, Released s → s.breath.streaming = true → s.breath.ending = false → fld s F.BREATH_CTRL_tick_source = 1 →
    Completes .breathCease s fun u => BreathTo (fun b => { b with ending := true }) [] [] s u)
  ∧ (∀ s : State, Released s → breathState s = 2 → s.breath.streaming = false →
    Completes .tickLost s fun u =>
      breathState u = 3 ∧ fld u F.BREATH_EVENTS_tick_lost = 1 ∧ u.breath.due = [] ∧ u.breath.holds = [] ∧ MemSame s u
        ∧ u.pairs = s.pairs)
  ∧ ∀ (v : Nat) (s : State), Released s → breathState s = 0 → isQueen s = true → (v = 1 ∨ v = 2) →
    fld s F.BREATH_CTRL_tick_source = 0 → s.breath.streaming = false →
    Completes (.tickSourceWrite v) s fun u =>
      fld u F.BREATH_CTRL_tick_source = v ∧ fld u F.BREATH_STATUS_is_master = 1 ∧ breathState u = 0
        ∧ BreathTo (fun b => { b with ending := false }) [(.BREATH_CTRL, 0), (.BREATH_STATUS, 0)] [] s u

/-! ## Memory -/

/-- A far channel of hive h that a far address lies in (R208). -/
abbrev FarAt (a h : Nat) : Prop := tierOf a = .far h

/-- R20, R211, R218–R221. A read that meets no error changes nothing; a corrected error is counted; an uncorrectable one marks
its sector, counts and logs it; one of offline memory is counted; an unfilled granule meets no error. A write within a sector stores its bytes and no other, and
marks the sector where its data is poisoned. An access to no memory is logged and does nothing else there. The model's choices it
rests on: log entries 14, 17 and 68. -/
def Obligations.MemoryAccess : Prop :=
  (∀ (a rq : Nat) (s : State), Released s → isMemory a = true → offline s a = false → Completes (.memoryRead a rq .none) s fun u => u = s)
  ∧ (∀ (a rq h : Nat) (s : State), Released s → offline s a = false → FarAt a h →
    SMap.get false s.filled (granuleOf a) = true →
    Completes (.memoryRead a rq .corrected) s fun u =>
      fld u F.MEM_ECC_FAR_corrected h = satAdd F.MEM_ECC_FAR_corrected.width (fld s F.MEM_ECC_FAR_corrected h) 1 ∧ fld u F.MEM_EVENTS_far_ce h = 1
        ∧ Keeps [] [(.MEM_ECC_FAR, h), (.MEM_EVENTS, h)] s u ∧ u.still = s.still)
  ∧ (∀ (a rq h : Nat) (s : State), Released s → offline s a = false → FarAt a h → marked s (a / 64) = false → dirFull s a = false →
    SMap.get false s.filled (granuleOf a) = true →
    Completes (.memoryRead a rq .uncorrectable) s fun u =>
      marked u (a / 64) = true ∧ (∀ x, x ≠ a / 64 → marked u x = marked s x) ∧ (∀ b, byteAt u b = byteAt s b)
        ∧ fld u F.MEM_ECC_FAR_uncorrected h = satAdd F.MEM_ECC_FAR_uncorrected.width (fld s F.MEM_ECC_FAR_uncorrected h) 1 ∧ fld u F.MEM_EVENTS_far_ue h = 1
        ∧ fld u F.MEM_POISON_REC_far = satAdd 16 (fld s F.MEM_POISON_REC_far) 1 ∧ u.log ≠ s.log)
  ∧ (∀ (a rq h : Nat) (e : MemErr) (s : State), Released s → offline s a = false → FarAt a h →
    SMap.get false s.filled (granuleOf a) = false → (∀ gs, e ≠ .zeroMap gs) → (∀ off, e ≠ .alwaysOn off) →
    Completes (.memoryRead a rq e) s fun u => u = s)
  ∧ (∀ (a rq : Nat) (e : MemErr) (s : State), Released s → offline s a = true →
    Completes (.memoryRead a rq e) s fun u =>
      fld u F.MEM_POISON_REC_offline = satAdd 12 (fld s F.MEM_POISON_REC_offline) 1 ∧ MemSame s u)
  ∧ (∀ (a rq : Nat) (bs : List Nat) (bad : Bool) (s : State), Released s → isMemory a = true → offline s a = false → bs ≠ [] → a % 64 + bs.length ≤ 64 →
    (∀ b ∈ bs, b < 256) → dirFull s a = false →
    Completes (.memoryWrite a rq bs bad .none) s fun u =>
      bytesAt u a bs.length = bs ∧ Wrote a bs.length s u
        ∧ marked u (a / 64) = (bad || (marked s (a / 64) && decide (bs.length ≠ 64))) ∧ (∀ x, x ≠ a / 64 → marked u x = marked s x)
        ∧ Keeps [] [] s u ∧ u.pairs = s.pairs)
  ∧ (∀ (a rq : Nat) (bs : List Nat) (bad : Bool) (s : State), Released s → offline s a = true →
    Completes (.memoryWrite a rq bs bad .none) s fun u => MemSame s u ∧ u.pairs = s.pairs)
  ∧ ∀ (a rq : Nat) (bs : List Nat) (bad : Bool) (e : MemErr) (s : State), Released s → isMemory a = false →
    (Completes (.memoryRead a rq e) s fun u => MemSame s u ∧ u.pairs = s.pairs ∧ u.log ≠ s.log)
      ∧ Completes (.memoryWrite a rq bs bad e) s fun u => MemSame s u ∧ u.pairs = s.pairs ∧ u.log ≠ s.log

/-- R213–R216, R219, R220, R222–R224, R228. A channel that loses its lock fails; its tracking, idle reads, retraining and
temperatures are kept; refresh and a clean scrub change nothing; the background fill takes a granule; start-up training begins
once, and puts a hive with no failed channel in service; the poison record clears. The model's choices it rests on: log entry
15. -/
def Obligations.MemoryUpkeep : Prop :=
  (∀ (c : Chan) (s : State), Released s → chanRuns s c = true →
    Completes (.channelLockLoss c) s fun u =>
      bitAt (fld u F.MEM_STATUS_chan_failed (c.val / 8)) (c.val % 8) = true ∧ fld u F.MEM_EVENTS_chan_fail (c.val / 8) = 1 ∧ MemSame s u
        ∧ u.pairs = s.pairs)
  ∧ (∀ (c : Chan) (vals : List Nat) (s : State), Released s → chanRuns s c = true →
    Completes (.eyeTrack c vals) s fun u =>
      chanS u c = { chanS s c with track := vals } ∧ (∀ d, d ≠ c.val → chanS u d = chanS s d) ∧ Keeps [] [] s u ∧ u.still = { s.still with chans := u.chans })
  ∧ (∀ (c : Chan) (s : State), Released s → Completes (.channelIdleRead c .none) s fun u => u = s)
  ∧ (∀ (c : Chan) (s : State), Released s → chanRuns s c = true → fld s F.MEM_STATUS_chan_retraining (c.val / 8) = 0 →
    fld s F.MEM_CTRL_retrain_guard (c.val / 8) = 0 →
    Completes (.channelRetrain c) s fun u =>
      fld u F.MEM_STATUS_chan_retraining (c.val / 8) = 2 ^ (c.val % 8) ∧ Keeps [] [(.MEM_STATUS, c.val / 8)] s u ∧ u.still = s.still)
  ∧ (∀ (c : Chan) (eye : Nat) (s : State), Released s → fld s F.MEM_STATUS_chan_retraining (c.val / 8) = 2 ^ (c.val % 8) →
    Completes (.channelRetrainDone c eye) s fun u =>
      fld u F.MEM_STATUS_chan_retraining (c.val / 8) = 0 ∧ fld u F.MEM_CHAN_j_eye_width c = eye % 256
        ∧ fld u F.MEM_CHAN_j_retrains c = satAdd 16 (fld s F.MEM_CHAN_j_retrains c) 1
        ∧ Keeps [] [(.MEM_STATUS, c.val / 8), (.MEM_CHAN_j, c.val)] s u ∧ u.still = s.still)
  ∧ (∀ (c : Chan) (t0 t1 : Nat) (s : State), Released s →
    Completes (.deviceTempRead c t0 t1) s fun u =>
      fld u F.MEM_CHAN_j_temp c = max t0 t1 % 256 ∧ bitAt (fld u F.MEM_STATUS_chan_hot (c.val / 8)) (c.val % 8) = decide (85 < max t0 t1)
        ∧ Keeps [] [(.MEM_STATUS, c.val / 8), (.MEM_CHAN_j, c.val)] s u ∧ u.still = s.still)
  ∧ (∀ (c : Chan) (s : State), Released s → Completes (.refresh c) s fun u => u = s)
  ∧ (∀ (a : Nat) (s : State), Released s → Completes (.patrolScrub a .none) s fun u => u = s)
  ∧ (∀ (a h : Nat) (s : State), Released s → FarAt a h → offline s a = false → fld s F.MEM_CTRL_scrub_en h = 1 →
    fld s F.MEM_STATUS_self_refresh h = 0 → SMap.get false s.filled (granuleOf a) = true →
    Completes (.patrolScrub a .corrected) s fun u =>
      fld u F.MEM_ECC_FAR_corrected h = satAdd F.MEM_ECC_FAR_corrected.width (fld s F.MEM_ECC_FAR_corrected h) 1 ∧ MemSame s u)
  ∧ (∀ (h : Hive) (j : Nat) (s : State), Released s → j < 8 → fld s F.MEM_STATUS_self_refresh h = 0 → fld s F.MEM_STATUS_near_ready h = 1 →
    SMap.get false s.filled ((8 * h.val + j) * 2 ^ 18) = false →
    Completes (.backgroundFill h (some j) .none) s fun u =>
      SMap.get false u.filled ((8 * h.val + j) * 2 ^ 18) = true ∧ MemSame s u ∧ u.pairs = s.pairs)
  ∧ (∀ s : State, Released s → fld s F.BOOT_STATUS_state = 1 → s.memUp = false →
    Completes .memoryBringup s fun u => u = { s with memTraining := true })
  ∧ (∀ (h : Hive) (failed : Nat) (vals : List (List Nat)) (s : State), Released s → s.memTraining = true → bitsOf failed (8 * h.val + 7) (8 * h.val) = 0 →
    Completes (.memoryTrainDone failed vals) s fun u =>
      u.memTraining = false ∧ u.memUp = true ∧ fld u F.MEM_STATUS_near_ready h = 1 ∧ fld u F.MEM_STATUS_far_ready h = 1
        ∧ hiveState u h = (if bitAt (fld s F.BOOT_STOP_hive_en) h then 0 else 7))
  ∧ ∀ s : State, Released s →
    Completes .poisonRecClear s fun u => reg u .MEM_POISON_REC 0 = 0 ∧ Keeps [] [(.MEM_POISON_REC, 0)] s u ∧ u.still = s.still

/-! ## The bias loop -/

/-- R229–R233. A window closes at its boundary tick; another part's totals are kept; the update of a closed window with its
totals in sets each expert's bias by its load and counts an epoch; one that is late is lost. A host write of a bias takes effect
at the boundary tick. The model's choices it rests on: log entry 57. -/
def Obligations.Bias : Prop :=
  (∀ s : State, Released s → fld s F.ROUTE_CTRL_loop_en = 1 → s.winClosed = [] →
    tickReached s ((s.winNext + 1) * fld s F.ROUTE_CTRL_period) = true →
    Completes .biasWindowClose s fun u =>
      u.winNext = s.winNext + 1 ∧ u.winClosed = [(s.winNext, !windowLate s s.winNext)] ∧ fld u F.ROUTE_STATUS_pending = 1
        ∧ MemSame s u ∧ u.pairs = s.pairs ∧ u.windowLoads = s.windowLoads)
  ∧ (∀ (m : Packet) (j e v : Nat) (s : State), Arrives m s → m.aux = [16, j, e, v] → s.winNext ≤ j → s.winTotals = [] →
    Completes (.windowTotalsReceive m) s fun u =>
      u.winTotals = [(j * 65536 + m.src, [(e, v)])] ∧ MemSame s u ∧ u.pairs = s.pairs ∧ u.winClosed = s.winClosed)
  ∧ (∀ (j r i : Nat) (done : Bool) (s : State), Released s → fld s F.ROUTE_CTRL_loop_en = 1 → s.winClosed = [(j, done)] →
    tickReached s ((j + 1) * fld s F.ROUTE_CTRL_period + fld s F.ROUTE_CTRL_lag) = true → windowLate s j = false →
    scopePeers s = [] → s.biasHost = [] → routers s = [r] → i < routerN s r → routerBase s r + routerN s r ≤ 4096 →
    Completes .biasUpdate s fun u =>
      u.winClosed = [] ∧ fld u F.ROUTE_EVENTS_update = 1 ∧ fld u F.ROUTE_STATUS_epoch = (fld s F.ROUTE_STATUS_epoch + 1) % 2 ^ 48
        ∧ biasOf u (routerBase s r + i)
          = (newBias s (routerN s r)
              (((List.range (routerN s r)).map (fun k => reducedLoad s j (routerBase s r + k))).foldl (· + ·) 0)
              (reducedLoad s j (routerBase s r + i)) (biasOf s (routerBase s r + i))).getD (biasOf s (routerBase s r + i)) % 2 ^ 32)
  ∧ (∀ (j : Nat) (done : Bool) (s : State), Released s → fld s F.ROUTE_CTRL_loop_en = 1 → s.winClosed = [(j, done)] →
    tickReached s ((j + 1) * fld s F.ROUTE_CTRL_period + fld s F.ROUTE_CTRL_lag) = true → windowLate s j = true →
    Completes .biasUpdate s fun u =>
      u.winClosed = [] ∧ fld u F.ROUTE_EVENTS_update_lost = 1 ∧ (∀ e, biasOf u e = biasOf s e) ∧ MemSame s u)
  ∧ ∀ (e v : Nat) (s : State), Released s → s.biasShadow = [(e, v)] → e < 4096 →
    Completes .biasShadowApply s fun u =>
      biasOf u e = v % 2 ^ 32 ∧ (∀ k < 4096, k ≠ e → biasOf u k = biasOf s k) ∧ u.biasShadow = [] ∧ u.biasHost = [e]

/-! ## The link ports -/

/-- Registers but those of ks, memory, the pairs and the error log are as before. -/
def HubTo (ks : List (Reg × Nat)) (s u : State) : Prop :=
  Keeps [] ks s u ∧ MemSame s u ∧ u.pairs = s.pairs ∧ u.log = s.log

/-- A DATA flit of number k with neither acknowledgement nor nak in its header, its CRC good (R292). -/
structure GoodFlit (flit : List Nat) (k : Nat) : Prop where
  whole : flit.length = 256
  check : crc32 (flit.take 252) = leNat (flit.drop 252)
  data : bitsOf (leNat (flit.take 4)) 31 30 = 0
  plain : bitsOf (leNat (flit.take 4)) 5 0 = 0
  number : bitsOf (leNat (flit.take 4)) 29 18 = k

/-- The flits that port n has sent and not seen acknowledged, sent again (R300). -/
def resent (s : State) (n : Nat) : List Out :=
  ((portS s n).unacked.map (fun f => Out.flit n (flitBytes s n 0 f.1 false f.2))).reverse

/-- An IDLE flit with the acknowledgement of the moment, and a nak if it has one (R292, R300). -/
def idleOut (s : State) (n : Nat) (nak : Bool) : Out := .flit n (flitBytes s n 2 0 nak idleBody)

/-- R292, R293, R298–R300, R302. The next flit in order is taken and acknowledged; a CONTROL flit's ordered set is acted on as its
own row does; an acknowledgement frees what it covers. One whose CRC fails is discarded and answered with one nak. A
nak has every unacknowledged flit sent again, and at its eighth time in a row for one flit the port retrains, as it does where
no acknowledgement comes or the partner is silent. An adapted lane shows its values, and asks the partner for
steps of its transmitter; steps the partner asks for are applied. A set of an undefined kind or with a bad CRC is counted; an
empty slot is ignored. A lane whose SNR is below the limit, or whose lock is lost, fails and
the port retrains. The model's choices it rests on: log entries 58, 99 and 117. -/
def Obligations.LinkLayer : Prop :=
  (∀ (n : Port) (flit : List Nat) (k i w t : Nat) (s : State), Released s → portState s n = 2 → GoodFlit flit (portS s n).rxNext →
    Completes (.dataFlitReceive n flit k false i w t) s fun u =>
      (portS u n).rxNext = ((portS s n).rxNext + 1) % 4096 ∧ (portS u n).discarding = false ∧ u.out = idleOut u n false :: s.out
        ∧ (portS u n).unacked = (portS s n).unacked ∧ fld u F.PORT_FEC_corrected n = satAdd 48 (fld s F.PORT_FEC_corrected n) k
        ∧ HubTo [(.PORT_FEC, n.val), (.PORTCTR_RX_LO, n.val), (.PORTCTR_RX_HI, n.val), (.LINK_EVENTS, 0), (.LINK_COUNTS, 0)] s u)
  ∧ (∀ (n : Port) (flit : List Nat) (k i w t body : Nat) (s : State), Released s → n.val < 8 → portState s n = 2 →
    flit.length = 256 → crc32 (flit.take 252) = leNat (flit.drop 252) → flitKind flit = 1 → controlClean flit = true →
    bitsOf (leNat (flit.take 4)) 5 0 = 0 → slotOf flit 0 = (2, body) → (∀ j, 0 < j → j < 13 → (slotOf flit j).1 = 0) →
    crc16Ok body = true →
    Completes (.dataFlitReceive n flit k false i w t) s fun u =>
      (bitsOf body 127 112, bitsOf body 111 64) ∈ u.breath.stretches ∧ MemSame s u ∧ u.pairs = s.pairs)
  ∧ (∀ (n : Port) (flit : List Nat) (k i w t : Nat) (s : State), Released s → portState s n = 2 → flit.length = 256 →
    crc32 (flit.take 252) = leNat (flit.drop 252) → flitKind flit = 2 → bitsOf (leNat (flit.take 4)) 5 0 = 32 → s.hubHeld = [] →
    Completes (.dataFlitReceive n flit k false i w t) s fun u =>
      (portS u n).unacked = (portS s n).unacked.filter (fun f => !seqUpTo f.1 (bitsOf (leNat (flit.take 4)) 17 6)) ∧ u.out = s.out
        ∧ HubTo [(.PORT_FEC, n.val)] s u)
  ∧ (∀ (n : Port) (flit : List Nat) (k i w t : Nat) (s : State), Released s → portState s n = 2 → flitKind flit ≠ 1 →
    crc32 (flit.take 252) ≠ leNat (flit.drop 252) → (portS s n).discarding = false →
    Completes (.dataFlitReceive n flit k false i w t) s fun u =>
      fld u F.PORT_EVENTS_crc n = 1 ∧ fld u F.PORT_REPLAY_crc_fail n = satAdd 32 (fld s F.PORT_REPLAY_crc_fail n) 1
        ∧ (portS u n).discarding = true ∧ (portS u n).rxNext = (portS s n).rxNext
        ∧ u.out = idleOut u n true :: s.out
        ∧ HubTo [(.PORT_FEC, n.val), (.PORT_EVENTS, n.val), (.PORT_REPLAY, n.val)] s u)
  ∧ (∀ (n : Port) (ack : Nat) (s : State), Released s → portState s n = 2 → (portS s n).unacked ≠ [] →
    (∀ f ∈ (portS s n).unacked, seqUpTo f.1 ack = false) → (portS s n).resends < 7 → s.hubHeld = [] →
    Completes (.nakReceive n ack) s fun u =>
      u.out = resent s n ++ s.out ∧ (portS u n).unacked = (portS s n).unacked ∧ (portS u n).resends = (portS s n).resends + 1
        ∧ portState u n = 2 ∧ fld u F.PORT_EVENTS_replay n = 1 ∧ fld u F.LINK_EVENTS_replay = 1
        ∧ fld u F.PORT_REPLAY_replays n = satAdd 32 (fld s F.PORT_REPLAY_replays n) 1
        ∧ HubTo [(.PORT_EVENTS, n.val), (.PORT_REPLAY, n.val), (.LINK_EVENTS, 0)] s u)
  ∧ (∀ (n : Port) (ack : Nat) (s : State), Released s → portState s n = 2 → (portS s n).unacked ≠ [] →
    (∀ f ∈ (portS s n).unacked, seqUpTo f.1 ack = false) → (portS s n).resends = 7 → s.hubHeld = [] →
    Completes (.nakReceive n ack) s fun u =>
      portState u n = 3 ∧ fld u F.PORT_EVENTS_replay_fail n = 1 ∧ (portS u n).unacked = (portS s n).unacked
        ∧ HubTo [(.PORT_EVENTS, n.val), (.PORT_REPLAY, n.val), (.LINK_EVENTS, 0), (.PORT_STATUS, n.val)] s u)
  ∧ (∀ (n : Port) (s : State), Released s → portState s n = 2 → (portS s n).unacked ≠ [] →
    Completes (.replayTimeout n) s fun u =>
      portState u n = 3 ∧ fld u F.PORT_EVENTS_replay_fail n = 1 ∧ portS u n = { portS s n with hopValid := false, named := true } ∧ u.out = s.out
        ∧ HubTo [(.PORT_EVENTS, n.val), (.PORT_STATUS, n.val)] s u)
  ∧ (∀ (n : Port) (s : State), Released s → portState s n = 2 →
    Completes (.portHang n) s fun u =>
      portState u n = 3 ∧ fld u F.PORT_EVENTS_hang n = 1 ∧ portS u n = { portS s n with hopValid := false, named := true } ∧ u.out = s.out
        ∧ HubTo [(.PORT_EVENTS, n.val), (.PORT_STATUS, n.val)] s u)
  ∧ (∀ (n : Port) (k snr eye : Nat) (lock : Bool) (s : State), Released s → k < 8 →
    Completes (.eqAdapt n k snr eye lock none) s fun u =>
      fld u F.PORT_LANE_k_snr (8 * n.val + k) = snr % 256 ∧ fld u F.PORT_LANE_k_eye_height (8 * n.val + k) = eye % 256
        ∧ fld u F.PORT_LANE_k_cdr_lock (8 * n.val + k) = b2n lock
        ∧ fld u F.PORT_LANE_k_failed (8 * n.val + k) = fld s F.PORT_LANE_k_failed (8 * n.val + k)
        ∧ HubTo [(.PORT_LANE_k, 8 * n.val + k)] s u ∧ u.still = s.still)
  ∧ (∀ (n : Port) (k snr eye v : Nat) (lock : Bool) (s : State), Released s → k < 8 → portState s n = 2 →
    ((portS s n).eqAt = 0 ∨ (portS s n).eqAt + 999 ≤ s.us) →
    Completes (.eqAdapt n k snr eye lock (some v)) s fun u =>
      fld u F.PORT_LANE_k_snr (8 * n.val + k) = snr % 256 ∧ u.out = setOut s n 5 (withCrc16 (v % 2 ^ 112 * 65536)) ++ s.out
        ∧ portS u n = { portS s n with eqAt := s.us + 1 } ∧ HubTo [(.PORT_LANE_k, 8 * n.val + k)] s u)
  ∧ (∀ (n : Port) (kind body : Nat) (s : State), Released s → (kind = 0 ∨ kind ≤ 4 ∧ crc16Ok body = true) →
    Completes (.eqReceive n kind body) s fun u => u = s)
  ∧ (∀ (n : Port) (body : Nat) (s : State), Released s → crc16Ok body = true →
    Completes (.eqReceive n 5 body) s fun u =>
      portS u n = { portS s n with eqSteps := body / 65536 :: (portS s n).eqSteps } ∧ (∀ m, m ≠ n.val → portS u m = portS s m)
        ∧ HubTo [] s u ∧ u.still = s.still ∧ u.out = s.out)
  ∧ (∀ (n : Port) (kind body : Nat) (s : State), Released s → (5 < kind ∨ kind ≠ 0 ∧ crc16Ok body = false) →
    Completes (.eqReceive n kind body) s fun u =>
      fld u F.PORT_OSET_bad n = satAdd 32 (fld s F.PORT_OSET_bad n) 1 ∧ fld u F.PORT_EVENTS_oset_crc n = 1
        ∧ HubTo [(.PORT_OSET, n.val), (.PORT_EVENTS, n.val)] s u ∧ u.still = s.still)
  ∧ ∀ (n : Port) (k : Nat) (s : State), Released s → k < 8 → portState s n = 2 →
    (fld s F.PORT_LANE_k_snr (8 * n.val + k) < fld s F.PORT_CTRL_snr_min n ∨ fld s F.PORT_LANE_k_cdr_lock (8 * n.val + k) = 0) →
    Completes (.laneFail n k) s fun u =>
      fld u F.PORT_LANE_k_failed (8 * n.val + k) = 1 ∧ fld u F.PORT_EVENTS_lane_fail n = 1 ∧ portState u n = 3
        ∧ fld u F.PORT_STATUS_lanes_ok n = clearBitN (fld s F.PORT_STATUS_lanes_ok n) k
        ∧ HubTo [(.PORT_LANE_k, 8 * n.val + k), (.PORT_EVENTS, n.val), (.PORT_STATUS, n.val)] s u

/-- R301, R303, R318, R319. A port that has trained or retrained with all lanes healthy is UP at x8, and what it had sent and
not seen acknowledged goes again. With no lane, or with a partner it is not wired to, it is FAILED, and what waited for it is
lost. A port that has found no partner fails too. Driore sets the modes from the link plan and starts the ports. The model's
choices it rests on: log entry 59. -/
def Obligations.Training : Prop :=
  (∀ (n : Port) (s : State), Released s → portState s n = 3 → keptWidth s n ≠ 1 → keptWidth s n ≠ 2 → s.hubHeld = [] →
    Completes (.retrainEnd n 255 (fld s F.PORT_CTRL_fec n)) s fun u =>
      portState u n = 2 ∧ fld u F.PORT_STATUS_width n = 3 ∧ fld u F.PORT_STATUS_lanes_ok n = 255 ∧ u.out = resent s n ++ s.out
        ∧ portS u n = { portS s n with fails := 0, resends := 0, keptX4 := 0, named := false, fec := fld s F.PORT_CTRL_fec n }
        ∧ HubTo [(.PORT_STATUS, n.val)] s u)
  ∧ (∀ (n : Port) (healthy fec : Nat) (s : State), Released s → portState s n = 3 → fec ≠ fld s F.PORT_CTRL_fec n →
    Completes (.retrainEnd n healthy fec) s fun u =>
      portState u n = 4 ∧ fld u F.PORT_EVENTS_fec_mismatch n = 1 ∧ fld u F.LINK_EVENTS_port_failed = 1 ∧ MemSame s u ∧ u.pairs = s.pairs)
  ∧ (∀ (n : Port) (fec : Nat) (s : State), Released s → portState s n = 3 →
    Completes (.retrainEnd n 0 fec) s fun u =>
      portState u n = 4 ∧ fld u F.PORT_STATUS_width n = 0 ∧ fld u F.PORT_STATUS_lanes_ok n = 0 ∧ fld u F.LINK_EVENTS_port_failed = 1
        ∧ (portS u n).unacked = [] ∧ (portS u n).fails = (portS s n).fails + 1 ∧ u.hubHeld = s.hubHeld.filter (fun h => h.port ≠ n.val)
        ∧ HubTo [(.PORT_STATUS, n.val), (.PORT_EVENTS, n.val), (.LINK_EVENTS, 0)] s u)
  ∧ (∀ (n : Port) (partner : Nat) (s : State), Released s → portState s n = 1 → n.val < 8 → s.hubHeld = [] →
    Completes (.portTrainingDone n partner (n.val ^^^ 1) (portS s n).fec 255) s fun u =>
      portState u n = 2 ∧ fld u F.PORT_STATUS_width n = 3 ∧ fld u F.PORT_STATUS_lanes_ok n = 255
        ∧ fld u F.PORT_STATUS_partner_id n = partner % 65536 ∧ fld u F.PORT_STATUS_partner_port n = n.val ^^^ 1
        ∧ (∀ k < 8, fld u F.PORT_LANE_k_failed (8 * n.val + k) = 0) ∧ portS u n = { fec := (portS s n).fec, eqAt := (portS s n).eqAt } ∧ u.out = s.out
        ∧ HubTo ((.PORT_STATUS, n.val) :: (List.range 8).map (fun k => (.PORT_LANE_k, 8 * n.val + k))) s u)
  ∧ (∀ (n : Port) (partner other fec healthy : Nat) (s : State), Released s → portState s n = 1 → n.val < 8 → other ≠ n.val ^^^ 1 →
    Completes (.portTrainingDone n partner other fec healthy) s fun u =>
      portState u n = 4 ∧ fld u F.PORT_EVENTS_wiring n = 1 ∧ fld u F.LINK_EVENTS_port_failed = 1
        ∧ fld u F.PORT_STATUS_partner_id n = partner % 65536 ∧ MemSame s u ∧ u.pairs = s.pairs)
  ∧ (∀ (n : Port) (s : State), Released s → portState s n = 1 →
    Completes (.trainFail n) s fun u =>
      portState u n = 4 ∧ fld u F.PORT_STATUS_width n = 0 ∧ fld u F.PORT_EVENTS_train_fail n = 1 ∧ fld u F.LINK_EVENTS_port_failed = 1
        ∧ u.hubHeld = s.hubHeld.filter (fun h => h.port ≠ n.val)
        ∧ HubTo [(.PORT_STATUS, n.val), (.PORT_EVENTS, n.val), (.LINK_EVENTS, 0)] s u)
  ∧ (∀ s : State, Released s → drioreDown s = false → fld s F.BOOT_STATUS_state = 1 → s.memUp = true →
    Completes .linkBringup s fun u =>
      (∀ n < 8, fld u F.PORT_CTRL_mode n = bitsOf (stopNum s.boot.plan 0 4) (2 * n + 1) (2 * n)
          ∧ (fld u F.PORT_CTRL_mode n = 1 → portState s n = 0 → portState u n = 1)
          ∧ ((fld u F.PORT_CTRL_mode n ≠ 1 ∨ portState s n ≠ 0) → portState u n = portState s n))
        ∧ (fld s F.GROUP_STATUS_role ≠ 0 → portState u 8 = 5 ∧ fld u F.PORT_CTRL_mode 8 = 2)
        ∧ HubTo ((List.range 9).flatMap (fun n => [(.PORT_STATUS, n), (.PORT_CTRL, n)])) s u)
  ∧ (∀ (n : Port) (s : State), Released s → fld s F.PORT_CTRL_mode n = 1 →
    Completes (.retrain n) s fun u =>
      portState u n = 1 ∧ portS u n = { portS s n with fails := 0, keptX4 := 0, fec := fld s F.PORT_CTRL_fec n }
        ∧ HubTo [(.PORT_STATUS, n.val)] s u)
  ∧ (∀ (n : Port) (s : State), Released s → fld s F.PORT_CTRL_mode n ≠ 1 →
    Completes (.retrain n) s fun u => fld u F.LINK_EVENTS_ignored_write = 1 ∧ HubTo [(.LINK_EVENTS, 0)] s u ∧ u.still = s.still)
  ∧ ∀ (n : Port) (s : State), Released s →
    Completes (.portDown n) s fun u =>
      portState u n = 0 ∧ fld u F.PORT_STATUS_width n = 0 ∧ fld u F.PORT_STATUS_lanes_ok n = 0 ∧ (portS u n).unacked = [] ∧ u.hubHeld = s.hubHeld.filter (fun h => h.port ≠ n.val)
        ∧ HubTo [(.PORT_STATUS, n.val)] s u

/-- The state with a packet's own age at the hub it passes (R307). -/
def aged (s : State) (n spent : Nat) (m : Packet) : Packet :=
  { m with age := satAdd 20 m.age (spent + fld s F.PORT_STATUS_hop_delay n / 4) }

/-- The number of the i-th flit that port n sends from now on (R300). -/
def flitNumber (s : State) (n i : Nat) : Nat := if i = 0 then (portS s n).txNext else ((portS s n).txNext + i) % 4096

/-- The DATA flits of these bodies, as port n sends them next. -/
def dataFlits (s : State) (n : Nat) (bodies : List (List Nat)) : List Out :=
  bodies.zipIdx.map (fun x => Out.flit n (flitBytes s n 0 (flitNumber s n x.2) false x.1))

/-- The rows at which a packet for this part arrives. -/
def PacketRow (m : Packet) (c : Instr) : Prop :=
  c = .alltoallRowReceive m ∨ c = .returnRowReceive m ∨ c = .gexMessageReceive m ∨ c = .maskReceive m ∨ c =
    .normReportReceive m ∨ c = .normTotalReceive m ∨ c = .putReceive m ∨ c = .getReqReceive m ∨ c = .getDataReceive m ∨ c =
    .ackReceive m ∨ c = .refuseReceive m ∨ c = .eventReceive m ∨ c = .hostPacketReceive m ∨ c = .collSegmentReceive m ∨ c =
    .permuteDataReceive m ∨ c = .permuteReadyReceive m ∨ c = .permuteOutcomeReceive m ∨ c = .digcmpVectorReceive m ∨ c =
    .joinReceive m ∨ c = .conflictReceive m ∨ c = .hostReadCompletion m ∨ c = .relayResponseReceive m ∨ c =
    .windowTotalsReceive m

/-- A packet whose header fields all fit their places (R294). -/
structure FitsHeader (m : Packet) : Prop where
  kind : ptypeDefined m.ptype = true
  ends : m.dst < 2 ^ 16 ∧ m.src < 2 ^ 16
  unit : m.pair < 64 ∧ m.rsem < 64 ∧ m.cls < 4
  route : m.age < 2 ^ 20 ∧ m.hops < 64 ∧ m.dir < 16 ∧ m.rev < 16
  match_ : m.tag < 16 ∧ m.generation < 2 ^ 16 ∧ m.addr < 2 ^ 44 ∧ m.poison < 2 ^ 64
  payload : m.data.length % 64 = 0 ∧ m.data.length ≤ 4096 ∧ ∀ b ∈ m.data, b < 256

/-- R294, R304, R305, R307. A packet for another part leaves on its route, with a hop more and its age grown by the time in the hub and on the
hop. One that is too old, or has made too many hops, is dropped without an answer and counted, at its own part too. The next hop
is on the first axis that differs (R304). After one lifetime packets for the spur's partner go out on the spur (R305). The first packet
of a message of several waits for the others, and the bytes of a packet on a link are read back as that packet, whatever follows
(R294). The model's choices it rests on: log entries 42, 43 and 117. -/
def Obligations.Forwarding : Prop :=
  (∀ (n : Port) (spent k : Nat) (m q : Packet) (s : State), Released s → n.val < 8 → m.dst ≠ deviceId s →
    outlived s (aged s n spent m) = false → routeHop s (some (n.val / 2)) (aged s n spent m) = some (k, q) → q.rev = m.rev →
    portRoom s k q = true → s.hubHeld = [] →
    Completes (.packetForward n spent m) s fun u =>
      u.out = (dataFlits s k (flitBodies { q with hops := m.hops + 1 })).reverse ++ .packet k { q with hops := m.hops + 1 } :: s.out
        ∧ u.hubHeld = []
        ∧ (portS u k).unacked.map (·.2) = (portS s k).unacked.map (·.2) ++ flitBodies { q with hops := m.hops + 1 }
        ∧ (portS u k).txNext = ((portS s k).txNext + flitsOf q) % 4096
        ∧ HubTo [(.PORTCTR_FWD_LO, n.val), (.PORTCTR_FWD_HI, n.val), (.PORTCTR_TX_LO, k), (.PORTCTR_TX_HI, k)] s u)
  ∧ (∀ (n : Port) (spent : Nat) (m : Packet) (s : State), Released s → m.dst ≠ deviceId s → outlived s (aged s n spent m) = true →
    Completes (.packetForward n spent m) s fun u =>
      fld u F.LINK_EVENTS_lifetime = 1 ∧ fld u F.LINK_COUNTS_lifetime = satAdd 16 (fld s F.LINK_COUNTS_lifetime) 1
        ∧ HubTo [(.LINK_EVENTS, 0), (.LINK_COUNTS, 0)] s u ∧ u.still = s.still ∧ u.out = s.out)
  ∧ (∀ (m : Packet) (c : Instr) (s : State), Released s → PacketRow m c → (1000000 ≤ m.age ∨ fld s F.LINK_CTRL_max_hops < m.hops) →
    Completes c s fun u =>
      fld u F.LINK_EVENTS_lifetime = 1 ∧ fld u F.LINK_COUNTS_lifetime = satAdd 16 (fld s F.LINK_COUNTS_lifetime) 1
        ∧ HubTo [(.LINK_EVENTS, 0), (.LINK_COUNTS, 0)] s u ∧ u.still = s.still ∧ u.out = s.out)
  ∧ (∀ (a : Nat) (m : Packet) (s : State), nextAxis s m.dst = some a → portState s (2 * a + b2n (bitAt m.dir a)) = 2 →
    ∃ q, routeHop s none m = some (2 * a + b2n (bitAt m.dir a), q)
      ∧ q = { m with vc := decide (if bitAt m.dir a then coordOf (deviceId s) a = 0 else coordOf (deviceId s) a + 1 = ringOf s a) })
  ∧ (∀ (m : Packet) (c : Instr) (s : State), Released s → PacketRow m c → c ≠ .putReceive m → c ≠ .getDataReceive m →
    m.age < 1000000 → m.hops ≤ fld s F.LINK_CTRL_max_hops → 2 ≤ m.parts → (∀ x ∈ s.partsIn, msgKey x ≠ msgKey m) →
    Completes c s fun u => u = { s with partsIn := s.partsIn ++ [m] })
  ∧ (∀ s : State, Released s → s.spurRoute = 1 → s.hubHeld = [] →
    Completes .spurRouteSwitch s fun u => u = { s with spurRoute := 2 })
  ∧ ∀ (m : Packet) (rest : List Nat), FitsHeader m → (∀ b ∈ rest, b < 256) →
    (packetBytes m).length = 32 + m.data.length
      ∧ decodePacket (packetBytes m ++ rest) = some { m with req := 0, pieces := [], aux := [], part := 0, parts := 1 }

/-- What the part sends on for itself in giving p to the hub has left, or waits (R304–R306). -/
def Sent (p : Packet) (s u : State) : Prop := u.out = (inject p s).out ∧ u.hubHeld = (inject p s).hubHeld

/-- The answer of a message to its sender: an ACK (R294). -/
def ackOf (s : State) (m : Packet) : Packet :=
  { ptype := 4, dst := m.src, src := deviceId s, pair := m.pair, cls := 2, tag := m.tag, generation := m.generation, req := m.req
    aux := [m.ptype] }

/-- The counters that bytes at an address advance where another unit than the comb's own pair reaches it (R418). -/
def reachKeys (a : Nat) : List (Reg × Nat) :=
  match tierOf a with
  | .comb q => bankKeys q
  | _ => []

/-- The bank of the comb at an address, if it is one, takes no samples (R423). -/
def NoSample (s : State) (a : Nat) : Prop := ∀ q, tierOf a = .comb q → fld s F.CTR_P_SAMPLE_en q = 0

/-- A refused copy leaves the pair FAULTED with REMOTE_REJECT (R170, R173). -/
def CopyRejected (r : Request) (c : CopyOp) (s u : State) : Prop :=
  u.requests = s.requests.filter (fun x => x.id ≠ r.id) ∧ seqState u r.pair = 6 ∧ fld u F.SEQ_FAULT_code r.pair = 0x13
    ∧ fld u F.SEQ_FAULT_pc r.pair = c.index % 2 ^ 20 ∧ (pair u r.pair).copies = (pair s r.pair).copies.filter (fun x => x.seq ≠ r.ref)
    ∧ MemSame s u ∧ ∀ q, q ≠ r.pair → pair u q = pair s q

/-- R170, R294, R308, R332, R335. A put stores its bytes and is acknowledged; a get is answered with its data; the data of a get
is stored at the copy's destination; an acknowledgement finishes its copy; a refusal or the lapse of req_us faults its pair. A
record that reaches the queen goes to the event ring. A relayed write by a host is done and acknowledged. An answer to no
request is counted. The model's choices it rests on: log entries 20, 22 and 23. -/
def Obligations.Requests : Prop :=
  (∀ (m : Packet) (a k : Nat) (s : State), Arrives m s → footOk (footOf m) = true → m.rsig = false → m.pieces = [(a, k)] → 0 < k →
    a % 64 + k ≤ 64 → m.data.length = k → (∀ b ∈ m.data, b < 256) → m.poison = 0 → offline s a = false →
    Completes (.putReceive m) s fun u =>
      bytesAt u a k = m.data ∧ Wrote a k s u ∧ Keeps eventRegs (reachKeys a) s u ∧ (NoSample s a → Sent (ackOf s m) s u))
  ∧ (∀ (m : Packet) (a k : Nat) (s : State), Arrives m s → footOk (footOf m) = true → m.pieces = [(a, k)] → 0 < k → a % 64 + k ≤ 64 →
    offline s a = false →
    Completes (.getReqReceive m) s fun u =>
      MemSame s u ∧ u.pairs = s.pairs ∧ Keeps eventRegs (reachKeys a) s u
        ∧ (NoSample s a →
            Sent { ptype := 3, dst := m.src, pair := m.pair, cls := 2, req := m.req, data := bytesAt s a k, poison := b2n (marked s (a / 64)) }
              s u ∧ u.log = s.log))
  ∧ (∀ (m : Packet) (r : Request) (c : CopyOp) (a : Nat) (s : State), Arrives m s → findRequest s m.req = some r →
    (pair s r.pair).copies.find? (fun x => x.seq = r.ref) = some c → c.dstSide s = some (none, a) → c.units = 1 → c.inPlace = false → m.part = 0 →
    0 < c.u →
    a % 64 + c.u ≤ 64 → m.data.length = c.u → (∀ b ∈ m.data, b < 256) → m.poison = 0 → offline s a = false →
    Completes (.getDataReceive m) s fun u =>
      bytesAt u a c.u = m.data ∧ Wrote a c.u s u ∧ u.requests = s.requests.filter (fun x => x.id ≠ r.id)
        ∧ (pair u r.pair).copies = (pair s r.pair).copies.map (fun x => if x.seq = r.ref then { x with finished := true } else x)
        ∧ Keeps [] [] s u)
  ∧ (∀ (m : Packet) (r : Request) (s : State), Arrives m s → findRequest s m.req = some r → r.kind = 0 →
    Completes (.ackReceive m) s fun u =>
      u.requests = s.requests.filter (fun x => x.id ≠ r.id)
        ∧ (pair u r.pair).copies = (pair s r.pair).copies.map (fun x => if x.seq = r.ref then { x with finished := true } else x)
        ∧ HubTo [] s { u with pairs := s.pairs })
  ∧ (∀ (m : Packet) (s : State), Arrives m s → findRequest s m.req = none →
    Completes (.ackReceive m) s fun u =>
      fld u F.LINK_COUNTS_stale = satAdd 16 (fld s F.LINK_COUNTS_stale) 1 ∧ fld u F.LINK_EVENTS_stale = 1
        ∧ HubTo [(.LINK_COUNTS, 0), (.LINK_EVENTS, 0)] s u ∧ u.still = s.still)
  ∧ (∀ (m : Packet) (r : Request) (c : CopyOp) (s : State), Arrives m s → m.aux.head? ≠ some 0x20 → findRequest s m.req = some r →
    (r.kind = 0 ∨ r.kind = 1) → (pair s r.pair).copies.find? (fun x => x.seq = r.ref) = some c → seqState s r.pair ≠ 6 →
    Completes (.refuseReceive m) s fun u => CopyRejected r c s u)
  ∧ (∀ (r : Request) (c : CopyOp) (s : State), Released s → findRequest s r.id = some r → (r.kind = 0 ∨ r.kind = 1) →
    (pair s r.pair).copies.find? (fun x => x.seq = r.ref) = some c → seqState s r.pair ≠ 6 →
    r.sent + fld s F.LINK_TIMEOUT_req_us ≤ s.us →
    Completes (.requestTimeout r.id) s fun u => CopyRejected r c s u)
  ∧ (∀ (m : Packet) (s : State), Arrives m s → isQueen s = true → m.ptype = 6 → recItem m ≠ 0x0E41 → recItem m ≠ 0x0E42 →
    s.heldEvents = [] → ringOpen s = true →
    Completes (.eventReceive m) s fun u =>
      u.out = .hostWrite (fld s F.HOST_EVQ_BASE_base * 4096 + 32 * fld s F.HOST_EVQ_PTR_tail) (recOf m).bytes :: s.out
        ∧ fld u F.HOST_EVQ_PTR_tail = (fld s F.HOST_EVQ_PTR_tail + 1) % ringSize s % 2 ^ F.HOST_EVQ_PTR_tail.width
        ∧ u.newRecords = true ∧ HubTo [(.HOST_EVQ_PTR, 0)] s u)
  ∧ ∀ (m : Packet) (a : Nat) (s : State), Arrives m s → m.ptype = 0x20 → m.dst = deviceId s → m.cls = 1 →
    m.aux = [1, m.data.length, 1, 0, m.data.length] → m.addr = a → inOneMemory a m.data.length = true → m.data ≠ [] →
    a % 64 + m.data.length ≤ 64 → (∀ b ∈ m.data, b < 256) → offline s a = false →
    Completes (.hostPacketReceive m) s fun u =>
      bytesAt u a m.data.length = m.data ∧ Wrote a m.data.length s u ∧ u.pairs = s.pairs
        ∧ (NoSample s a → Sent { ptype := 4, dst := m.src, cls := 2, req := m.req } s u ∧ u.log = s.log)

/-! ## Groups -/

/-- The copies of a token that leave from coordinate c on every UP torus port but one, to neighbours in the box (R325). -/
def copiesOf (s : State) (but c : Nat) (t : Token) : List Out :=
  ((List.range 8).filter (fun n => n ≠ but && portState s n = 2 && inBox (stepThrough c n t.ring) t.base t.ext t.ring)).reverse.flatMap
    (fun n => setOut s n 4 { t with sender := c, port := n }.body)

/-- A token of this queen's from the coordinate q (R324). -/
def ownToken (s : State) (q epoch : Nat) (confirm takeover : Bool) : Token :=
  { origin := q, group := fld s F.GROUP_CFG_group_id, sender := q, base := fld s F.GROUP_CFG_box_base, ext := fld s F.GROUP_CFG_box_ext_m1
    ring := fld s F.GROUP_RINGS_ring_m1, epoch := epoch, confirm := confirm, takeover := takeover }

/-- A valid copy of a token that arrives on a torus port, its implied coordinate in its box (R325). -/
structure TokenAt (n : Port) (body : Nat) (t : Token) (c : Nat) (s : State) : Prop where
  released : Released s
  torus : n.val < 8
  check : crc16Ok body = true
  token : tokenOf body = t
  wired : t.port = n.val ^^^ 1
  coord : impliedCoord n t = c
  inside : inBox c t.base t.ext t.ring = true
  worker : isQueen s = false

/-- A new epoch of the queen at coordinate q (R326): every register of the group it sets, and the copies that leave. -/
def EpochBegun (q : Nat) (takeover : Bool) (s u : State) : Prop :=
  groupState u = 1 ∧ fld u F.GROUP_STATUS_role = 1 ∧ deviceId u = q ∧ fld u F.GROUP_STATUS_queen_id = q ∧ fld u F.GROUP_CFG_queen_coord = fld s F.GROUP_CFG_queen_coord
    ∧ fld u F.GROUP_STATUS_epoch = (fld s F.GROUP_STATUS_epoch + 1) % 256 ∧ fld u F.GROUP_STATUS_members = 1
    ∧ reg u .ENUM_CONFLICT 0 = 0 ∧ u.groups.roster = [(q, s.boot.serial + 1)] ∧ u.groups.started = s.us ∧ u.groups.conflict = false
    ∧ u.out = copiesOf s 9 q (ownToken s q ((fld s F.GROUP_STATUS_epoch + 1) % 256) false takeover) ++ s.out
    ∧ HubTo [(.GROUP_STATUS, 0), (.ENUM_CONFLICT, 0)] s u

/-- R325–R329, R335. A part that holds nothing adopts the coordinate, group and epoch of the first valid token, forwards it, and
is JOINED; a confirm copy of its epoch confirms it. A queen starts, gives up and takes over; it enters JOINs in its roster and
conflicts in its registers, closes the epoch as CONFIRMED or CONFLICT, and repeats the confirm copy, while it is a queen; another serial at a position is a
COLLISION. A member without one for 10
ms is an ORPHAN. The model's choices it rests on: log entry 65. -/
def Obligations.Groups : Prop :=
  (∀ (n : Port) (body c : Nat) (t : Token) (s : State), TokenAt n body t c s → groupState s = 0 → s.groups.confirmed = false →
    Completes (.addressReceive n body) s fun u =>
      groupState u = 2 ∧ deviceId u = c ∧ fld u F.GROUP_STATUS_queen_id = t.origin ∧ fld u F.GROUP_STATUS_epoch = t.epoch
        ∧ fld u F.GROUP_CFG_group_id = t.group ∧ fld u F.GROUP_CFG_queen_coord = t.origin ∧ fld u F.GROUP_CFG_box_base = t.base
        ∧ fld u F.GROUP_CFG_box_ext_m1 = t.ext ∧ fld u F.GROUP_RINGS_ring_m1 = t.ring ∧ u.adopted = true
        ∧ (∃ sent, u.out = sent ++ copiesOf s n c t ++ s.out)
        ∧ Keeps sendRegs [(.GROUP_CFG, 0), (.GROUP_STATUS, 0), (.GROUP_RINGS, 0)] s u ∧ MemSame s u ∧ u.pairs = s.pairs ∧ u.log = s.log)
  ∧ (∀ (n : Port) (body c : Nat) (t : Token) (s : State), TokenAt n body t c s → groupState s = 2 → t.origin = fld s F.GROUP_STATUS_queen_id →
    t.epoch = fld s F.GROUP_STATUS_epoch → c = deviceId s → t.confirm = true →
    Completes (.addressReceive n body) s fun u =>
      groupState u = 3 ∧ fld u F.ENUM_EVENTS_confirmed = 1 ∧ u.groups.confirmed = true ∧ u.groups.kept = s.us
        ∧ u.out = copiesOf s n c t ++ s.out ∧ deviceId u = deviceId s ∧ MemSame s u ∧ u.pairs = s.pairs ∧ u.log = s.log)
  ∧ (∀ s : State, Released s → isQueen s = true → groupState s ≠ 1 → s.groups.takeover = false →
    Completes .enumStart s fun u => EpochBegun (if s.groups.confirmed then deviceId s else fld s F.GROUP_CFG_queen_coord) false s u)
  ∧ (∀ s : State, Released s → isQueen s = true → (groupState s = 0 ∨ groupState s = 4) →
    Completes .enumDemote s fun u =>
      fld u F.GROUP_STATUS_role = 2 ∧ groupState u = 0 ∧ deviceId u = deviceId s ∧ u.groups = { s.groups with takeover := false, copy := none }
        ∧ HubTo [(.GROUP_STATUS, 0)] s u)
  ∧ (∀ s : State, Released s → fld s F.GROUP_STATUS_role = 2 → s.adopted = true →
    Completes .enumPromote s fun u => EpochBegun (deviceId s) true s u ∧ u.groups.takeover = true)
  ∧ (∀ s : State, Released s → (isQueen s = false ∨ groupState s = 1) →
    Completes .enumStart s fun u => fld u F.ENUM_EVENTS_ignored_write = 1 ∧ HubTo [(.ENUM_EVENTS, 0)] s u ∧ u.still = s.still)
  ∧ (∀ (m : Packet) (s : State), Arrives m s → isQueen s = true → groupState s ≠ 0 → drioreDown s = false → m.ptype = 6 →
    recItem m = 0x0E41 → inBox m.src (fld s F.GROUP_CFG_box_base) (fld s F.GROUP_CFG_box_ext_m1) (fld s F.GROUP_RINGS_ring_m1) = true →
    SMap.get 0 s.groups.roster m.src = 0 →
    Completes (.joinReceive m) s fun u =>
      SMap.get 0 u.groups.roster m.src = recData m + 1 ∧ (∀ c, c ≠ m.src → SMap.get 0 u.groups.roster c = SMap.get 0 s.groups.roster c)
        ∧ fld u F.GROUP_STATUS_members = u.groups.roster.length % 512 ∧ groupState u = groupState s
        ∧ HubTo [(.GROUP_STATUS, 0), (.HOST_EVQ_PTR, 0)] s u)
  ∧ (∀ (m : Packet) (held : Nat) (s : State), Arrives m s → isQueen s = true → groupState s ≠ 0 → drioreDown s = false → m.ptype = 6 →
    recItem m = 0x0E41 → inBox m.src (fld s F.GROUP_CFG_box_base) (fld s F.GROUP_CFG_box_ext_m1) (fld s F.GROUP_RINGS_ring_m1) = true →
    SMap.get 0 s.groups.roster m.src = held → held ≠ 0 → held % 2 ^ 65 ≠ recData m + 1 →
    Completes (.joinReceive m) s fun u =>
      fld u F.ENUM_EVENTS_collision = 1 ∧ u.groups.conflict = true ∧ MemSame s u ∧ u.pairs = s.pairs)
  ∧ (∀ (m : Packet) (d : Nat) (s : State), Arrives m s → isQueen s = true → m.ptype = 6 → recItem m = 0x0E42 → recData m = d →
    Completes (.conflictReceive m) s fun u =>
      u.groups.conflict = true ∧ (bitsOf d 7 0 = 1 → fld u F.ENUM_EVENTS_two_queens = 1)
        ∧ (bitsOf d 7 0 = 2 → fld u F.ENUM_EVENTS_wrap_mismatch = 1) ∧ (bitsOf d 7 0 = 3 → fld u F.ENUM_EVENTS_missing = 1)
        ∧ (bitsOf d 7 0 = 4 → fld u F.ENUM_EVENTS_collision = 1) ∧ (bitsOf d 7 0 = 5 → fld u F.ENUM_EVENTS_wiring = 1)
        ∧ (fld s F.ENUM_CONFLICT_code = 0 → fld u F.ENUM_CONFLICT_code = bitsOf d 7 0 ∧ fld u F.ENUM_CONFLICT_axis = bitsOf d 9 8
            ∧ fld u F.ENUM_CONFLICT_other = bitsOf d 31 16 ∧ fld u F.ENUM_CONFLICT_where = bitsOf d 47 32)
        ∧ (fld s F.ENUM_CONFLICT_code ≠ 0 → reg u .ENUM_CONFLICT 0 = reg s .ENUM_CONFLICT 0)
        ∧ HubTo [(.ENUM_CONFLICT, 0), (.ENUM_EVENTS, 0), (.HOST_EVQ_PTR, 0)] s u)
  ∧ (∀ s : State, Released s → isQueen s = true → groupState s = 1 → drioreDown s = false →
    s.groups.started + 1000 * fld s F.GROUP_RINGS_window_ms ≤ s.us → (∀ c ∈ boxPositions s, SMap.get 0 s.groups.roster c ≠ 0) →
    s.groups.conflict = false →
    Completes .epochClose s fun u =>
      groupState u = 3 ∧ fld u F.ENUM_EVENTS_confirmed = 1 ∧ u.groups.confirmed = true
        ∧ u.groups.copy = some (ownToken s (deviceId s) (fld s F.GROUP_STATUS_epoch) true false).body
        ∧ (∃ bell, u.out = copiesOf s 9 (deviceId s) (ownToken s (deviceId s) (fld s F.GROUP_STATUS_epoch) true false) ++ bell ++ s.out)
        ∧ MemSame s u ∧ u.pairs = s.pairs ∧ u.log = s.log)
  ∧ (∀ s : State, Released s → isQueen s = true → groupState s = 1 → drioreDown s = false →
    s.groups.started + 1000 * fld s F.GROUP_RINGS_window_ms ≤ s.us → (∃ c ∈ boxPositions s, SMap.get 0 s.groups.roster c = 0) →
    Completes .epochClose s fun u =>
      groupState u = 4 ∧ fld u F.ENUM_EVENTS_missing = 1 ∧ MemSame s u ∧ u.pairs = s.pairs)
  ∧ (∀ (b : Nat) (s : State), Released s → isQueen s = true → s.groups.copy = some b → s.groups.kept + 1000 ≤ s.us →
    Completes .keepalive s fun u =>
      u = { s with
        groups := { s.groups with kept := s.us, copy := some (tokenOf b).body }
        out := copiesOf s 9 (deviceId s) (tokenOf b) ++ s.out })
  ∧ ∀ s : State, Released s → isQueen s = false → groupState s = 3 → s.groups.kept + 10000 ≤ s.us →
    Completes .orphan s fun u =>
      groupState u = 5 ∧ fld u F.ENUM_EVENTS_orphan = 1 ∧ HubTo [(.GROUP_STATUS, 0), (.ENUM_EVENTS, 0)] s u ∧ u.still = s.still

/-! ## The host -/

/-- The endpoint after a function-level reset (R333): its registers, MSI-X table and mailbox as after reset, its commands' answers
discarded; every other register, memory and every other unit as before. -/
def FlrDone (up : Bool) (s u : State) : Prop :=
  (∀ r ∈ hostRegs, ∀ i, reg u r i = r.resetValue i) ∧ Keeps hostRegs [] s u ∧ u.pcieD3 = false ∧ u.pcieUp = up
    ∧ u.host.cmd = [] ∧ u.host.rsp = [] ∧ u.host.msixArea = [] ∧ u.host.pba = 0 ∧ u.host.accepted = 0 ∧ u.host.completed = 0 ∧ u.host.busy = false
    ∧ u.host.queue = s.host.queue.map (fun c => { c with gone := true }) ∧ MemSame s u ∧ u.pairs = s.pairs ∧ u.log = s.log ∧ u.out = s.out

/-- The queen's own endpoint takes accesses to the group (R330, R331). -/
structure HostOpen (s : State) : Prop where
  released : Released s
  up : s.pcieUp = true
  on : s.pcieD3 = false
  queen : isQueen s = true
  running : fld s F.BOOT_STATUS_state ≠ 3

/-- The TLP's ECRC is as it should be (R330). -/
def SoundTlp (x : Tlp) : Prop := x.ecrcBad = false

/-- R206, R330–R333, R336. An FLR and a link that goes down return the endpoint to its reset state. The link comes up; the
function moves between D0 and D3hot. New records raise vector 1, which waits in the PBA while it is masked. A window, or BAR0, reads and writes the registers of the part it names,
an aperture its memory; without a valid one a read gives zeros with EP set. Data that returns for a read completes it. The
model's choices it rests on: log entries 23, 82, 85 and 120. -/
def Obligations.HostAccess : Prop :=
  (∀ s : State, Released s → Completes .flr s fun u => FlrDone s.pcieUp s u)
  ∧ (∀ s : State, Released s → s.pcieUp = true → Completes .pcieLinkDown s fun u => FlrDone false s u)
  ∧ (∀ s : State, Released s → s.pcieUp = false → hasEndpoint s = true → s.heldEvents = [] →
    Completes .pcieLinkUp s fun u => u = { s with pcieUp := true })
  ∧ (∀ (d3 : Bool) (s : State), Released s → s.pcieUp = true → Completes (.pciePowerState d3 none) s fun u => u = { s with pcieD3 := d3 })
  ∧ (∀ (d3 gen check : Bool) (s : State), Released s → s.pcieUp = true →
    Completes (.pciePowerState d3 (some (gen, check))) s fun u =>
      u = { s with pcieD3 := d3, host := { s.host with aer := { s.host.aer with ecrcGen := gen, ecrcCheck := check } } })
  ∧ (∀ s : State, HostOpen s → s.newRecords = true → s.host.coalesced = none → bitAt (msixByte s 28) 0 = false →
    Completes .eventInterrupt s fun u =>
      u = { s with
        out := .msix 1 (msixNum s 16 8) (msixNum s 24 4) :: s.out
        newRecords := false
        host := { s.host with coalesced := some s.us } })
  ∧ (∀ s : State, HostOpen s → s.newRecords = true → s.host.coalesced = none → bitAt (msixByte s 28) 0 = true →
    Completes .eventInterrupt s fun u =>
      u = { s with newRecords := false, host := { s.host with coalesced := some s.us, pba := setBitN s.host.pba 1 } })
  ∧ (∀ (n : Fin 8) (off v tag : Nat) (x : Tlp) (s : State), HostOpen s → SoundTlp x → x.ep = false →
    (x.bar0 = true ∨ fldB s F.HOST_WIN_n_valid n = true ∧ fld s F.HOST_WIN_n_device n = deviceId s) → off < 0x2000000 → off % 8 = 0 →
    Completes (.hostWindowAccess n off 8 false v tag x) s fun u =>
      u = { s with out := .completion tag (natLe 8 (regWord s off)) false :: s.out })
  ∧ (∀ (n : Fin 8) (off v tag : Nat) (x : Tlp) (s : State), HostOpen s → SoundTlp x → x.bar0 = true → x.ep = false →
    0x2000000 ≤ off → off < 0x2000100 → off % 8 = 0 →
    Completes (.hostWindowAccess n off 8 false v tag x) s fun u =>
      u = { s with out := .completion tag ((List.range 8).map (fun i => msixByte s (off - 0x2000000 + i))) false :: s.out })
  ∧ (∀ (n : Fin 8) (off v tag : Nat) (x : Tlp) (s : State), HostOpen s → SoundTlp x → x.ep = true →
    Completes (.hostWindowAccess n off 8 true v tag x) s fun u =>
      u = { s with host := { s.host with aer := { s.host.aer with poisoned := true } } })
  ∧ (∀ (n : Fin 8) (off v tag : Nat) (x : Tlp) (s : State), HostOpen s → SoundTlp x → x.ep = false →
    (x.bar0 = true ∨ fldB s F.HOST_WIN_n_valid n = true ∧ fld s F.HOST_WIN_n_device n = deviceId s) → off < 0x2000000 →
    Completes (.hostWindowAccess n off 8 true v tag x) s fun u => exec (.registerWrite off 8 v 0) s = .next u)
  ∧ (∀ (n : Fin 8) (off v tag : Nat) (x : Tlp) (s : State), HostOpen s → SoundTlp x → x.bar0 = false →
    fldB s F.HOST_WIN_n_valid n = false →
    Completes (.hostWindowAccess n off 8 false v tag x) s fun u =>
      u.out = .completion tag (List.replicate 8 0) true :: s.out ∧ MemSame s u ∧ u.pairs = s.pairs)
  ∧ (∀ (n : Fin 16) (off size tag a : Nat) (x : Tlp) (bs : List Nat) (s : State), HostOpen s → SoundTlp x → x.ep = false →
    fldB s F.HOST_APT_n_valid n = true →
    fld s F.HOST_APT_n_device n = deviceId s → off < 2 ^ 32 → a = fld s F.HOST_APT_n_base n * 2 ^ 32 + off →
    inOneMemory a size = true → poisoned s a size = false → (∀ i < size, offline s (a + i) = false) →
    Completes (.hostApertureAccess n off size false bs tag x) s fun u =>
      ((∀ q, tierOf a ≠ .comb q) → u = { s with out := .completion tag (bytesAt s a size) false :: s.out })
        ∧ (NoSample s a → u.out = .completion tag (bytesAt s a size) false :: s.out) ∧ MemSame s u ∧ u.pairs = s.pairs
        ∧ Keeps eventRegs (reachKeys a) s u)
  ∧ (∀ (n : Fin 16) (off size tag a : Nat) (x : Tlp) (bs : List Nat) (s : State), HostOpen s → SoundTlp x →
    fldB s F.HOST_APT_n_valid n = true →
    fld s F.HOST_APT_n_device n = deviceId s → off < 2 ^ 32 → a = fld s F.HOST_APT_n_base n * 2 ^ 32 + off →
    inOneMemory a bs.length = true → bs ≠ [] → a % 64 + bs.length ≤ 64 → (∀ b ∈ bs, b < 256) → offline s a = false → dirFull s a = false →
    Completes (.hostApertureAccess n off size true bs tag x) s fun u =>
      bytesAt u a bs.length = bs ∧ Wrote a bs.length s u
        ∧ marked u (a / 64) = (x.ep || (marked s (a / 64) && decide (bs.length ≠ 64))) ∧ u.pairs = s.pairs
        ∧ Keeps eventRegs (reachKeys a) s u ∧ (NoSample s a → u.out = s.out))
  ∧ ∀ (m : Packet) (r : Request) (ep : Bool) (k : Nat) (s : State), Arrives m s → m.ptype = 0x20 → m.aux = [3, b2n ep, k] →
    findRequest s m.req = some r → r.kind = 5 →
    Completes (.hostReadCompletion m) s fun u =>
      u = { s with out := .completion r.ref (m.data.take k) ep :: s.out, requests := s.requests.filter (fun x => x.id ≠ r.id) }

/-! ## The mailbox -/

/-- The mailbox's one command is c, of an opcode, given to this part by its own host, and served (R337). -/
structure Commanded (c : MboxCmd) (op : Nat) (s : State) : Prop where
  released : Released s
  served : mboxServed s = true
  alone : s.host.queue = [c]
  opcode : c.opcode = op
  here : c.remote = none
  own : c.relay = none
  kept : c.gone = false
  taken : turnedAway s c = none

/-- The response is in its buffer, the command completed, the mailbox free (R337, R338). -/
def Responded (bytes : List Nat) (s u : State) : Prop :=
  u.host.rsp = putBuffer s.host.rsp bytes ∧ u.host.completed = s.host.accepted ∧ u.host.busy = false

/-- The command has left the queue and is answered with a status, a poison bit and data. -/
def Answers (c : MboxCmd) (status : Nat) (poison : Bool) (data : List Nat) (s u : State) : Prop :=
  u.host.queue = [] ∧ Responded (responseBytes c status poison data) s u ∧ MemSame s u ∧ u.pairs = s.pairs

/-- The same, with nothing else changed but the boot unit, by f (R411). -/
def FlashAnswers (c : MboxCmd) (data : List Nat) (f : BootS → BootS) (s u : State) : Prop :=
  Answers c 0 false data s u ∧ u.boot = f s.boot ∧ Keeps [] [] s u

/-- A FLASH_WRITE of an op: the flash identified, no op in progress, the payload's length n (R411). -/
structure FlashCommand (c : MboxCmd) (op n : Nat) (s : State) : Prop where
  command : Commanded c 0x0012 s
  which : flashOpOf c = op
  known : s.boot.identified = true
  idle : s.boot.flashOp = none
  size : c.payload.length = n

/-- The length and offset fields of a FLASH_WRITE (R411). -/
def flashLen (c : MboxCmd) : Nat := bitsOf (payNum c 0 8) 63 32
def flashOff (c : MboxCmd) : Nat := payNum c 8 8 % 2 ^ 32

/-- R338, R411. ERASE takes one aligned sector of 64 KiB, PROGRAM its bytes, and the flash changes when the op is done; READ
answers bytes of the flash; VERIFY starts; STATUS answers what the flash does. The model's choices it rests on: log entry 82. -/
def Obligations.Flash : Prop :=
  (∀ (c : MboxCmd) (s : State), FlashCommand c 0 16 s → flashOff c % 65536 = 0 → flashLen c = 65536 →
    Completes .flashErase s fun u =>
      FlashAnswers c [] (fun b => { b with flashOp := some { op := 0, off := flashOff c, bytes := [] } }) s u)
  ∧ (∀ (c : MboxCmd) (s : State), FlashCommand c 1 (16 + flashLen c) s → flashOff c % 256 = 0 → flashLen c % 256 = 0 →
    256 ≤ flashLen c → flashLen c ≤ 3840 →
    Completes .flashProgram s fun u =>
      FlashAnswers c [] (fun b => { b with flashOp := some { op := 1, off := flashOff c, bytes := c.payload.drop 16 } }) s u)
  ∧ (∀ (c : MboxCmd) (s : State), FlashCommand c 2 16 s → 1 ≤ flashLen c → flashLen c ≤ 4064 →
    Completes .flashRead s fun u =>
      FlashAnswers c ((List.range (flashLen c)).map (fun i => SMap.get 0xFF s.boot.flash (flashOff c + i))) id s u)
  ∧ (∀ (c : MboxCmd) (s : State), FlashCommand c 3 16 s →
    Completes .flashVerify s fun u => FlashAnswers c [] (fun b => { b with flashOp := some { op := 3, off := 0, bytes := [] } }) s u)
  ∧ (∀ (c : MboxCmd) (s : State), FlashCommand c 4 16 s →
    Completes .flashStatus s fun u => FlashAnswers c (natLe 8 (2 * b2n s.boot.progFailed + 256 * s.boot.verified)) id s u)
  ∧ (∀ (off : Nat) (s : State), Released s → s.boot.flashOp = some { op := 0, off := off, bytes := [] } →
    Completes (.flashOpDone true) s fun u =>
      (∀ i < 65536, SMap.get 0xFF u.boot.flash (off + i) = 0xFF)
        ∧ (∀ a, (a < off ∨ off + 65536 ≤ a) → SMap.get 0xFF u.boot.flash a = SMap.get 0xFF s.boot.flash a)
        ∧ u.boot.flashOp = none ∧ u.boot.progFailed = false ∧ Keeps [] [] s u ∧ MemSame s u ∧ u.pairs = s.pairs)
  ∧ ∀ (off : Nat) (bs : List Nat) (s : State), Released s → s.boot.flashOp = some { op := 1, off := off, bytes := bs } →
    Completes (.flashOpDone true) s fun u =>
      (∀ i < bs.length, SMap.get 0xFF u.boot.flash (off + i) = nth 0xFF bs i)
        ∧ (∀ a, (a < off ∨ off + bs.length ≤ a) → SMap.get 0xFF u.boot.flash a = SMap.get 0xFF s.boot.flash a)
        ∧ u.boot.flashOp = none ∧ u.boot.progFailed = false ∧ Keeps [] [] s u ∧ MemSame s u ∧ u.pairs = s.pairs

/-- R337–R339, R377, R382, R390, R406, R411–R413. IDENTIFY answers seven words; STOP_SWITCH schedules a switch or cancels it;
ATTEST answers the report with its signature, or bytes of the certificate chain; a signed pattern package waits for the boundary
that installs it; DUMP_READ answers bytes of a slot; HIVE_RESET escalates a fault; NOTIFY queues a notice, whose writes are made
at the guard point and whose record is put after it. A relayed command is answered by its target's response, or with TIMEOUT
after 100 ms. The model's choices it rests on: log entries 23, 81, 83 and 84. -/
def Obligations.Mailbox : Prop :=
  (∀ (c : MboxCmd) (s : State), Commanded c 0x0001 s → c.payload = [] →
    Completes .identify s fun u =>
      Answers c 0 false ([fld s F.BOOT_SERIAL_serial, fld s F.GROUP_STATUS_role, deviceId s, fld s F.GROUP_CFG_group_id
        , fld s F.GROUP_STATUS_queen_id, groupState s, fld s F.BOOT_STATUS_boot_lock].flatMap (natLe 8)) s u ∧ Keeps [] [] s u)
  ∧ (∀ (c : MboxCmd) (s : State), Commanded c 0x0010 s → c.payload.length = 16 → bitAt (payNum c 0 8) 2 = false → breathState s ≠ 0 →
    Completes .stopSwitch s fun u =>
      Answers c 0 false [] s u ∧ fld u F.BOOT_STOP_pending = 1 ∧ fld u F.BOOT_STOP_pending_stop = payNum c 0 8 % 4
        ∧ fld u F.BOOT_STOP_pending_breath = payNum c 8 8 % 2 ^ 32 ∧ u.boot.switch = some (payNum c 0 8 % 4, payNum c 8 8 % 2 ^ 48)
        ∧ Keeps [] [(.BOOT_STOP, 0)] s u)
  ∧ (∀ (c : MboxCmd) (s : State), Commanded c 0x0010 s → c.payload.length = 16 → bitAt (payNum c 0 8) 2 = true →
    Completes .stopSwitch s fun u =>
      Answers c 0 false [] s u ∧ fld u F.BOOT_STOP_pending = 0 ∧ u.boot.switch = none ∧ Keeps [] [(.BOOT_STOP, 0)] s u)
  ∧ (∀ (c : MboxCmd) (s : State), Commanded c 0x0011 s → c.payload.length = 40 → attestOp c = 0 →
    Completes .attestReport s fun u =>
      ∃ r, r = reportBytes (c.payload.drop 8) s ∧ Keeps [] [] s u
        ∧ Answers c 0 false (r ++ (List.range 64).map (fun i => nth 0 (Config.deviceSign r) i % 256)) s u)
  ∧ (∀ (c : MboxCmd) (s : State), Commanded c 0x0011 s → attestOp c = 1 → 14 ≤ c.payload.length → c.payload.length ≤ 16 →
    1 ≤ payNum c 12 2 → payNum c 12 2 ≤ 4064 →
    Completes .attestChain s fun u =>
      Keeps [] [] s u
        ∧ (if payNum c 8 4 + payNum c 12 2 ≤ (Config.certChain.take 4096).length then
            Answers c 0 false ((((Config.certChain.take 4096).drop (payNum c 8 4)).take (payNum c 12 2)).map (· % 256)) s u
          else Answers c 2 false [] s u))
  ∧ (∀ (c : MboxCmd) (n : Nat) (s : State), Commanded c 0x0020 s → payNum c 8 2 = n → 1 ≤ n → n ≤ 4096 → c.payload.length = 128 + 64 * n →
    payNum c 0 4 = 0x4E525450 → s.libVersion < payNum c 4 4 →
    Completes .patternPush s fun u =>
      Keeps [] [] s u ∧ u.library = s.library
        ∧ (if Config.ecdsaVerify s.boot.vendorPub (c.payload.take (64 + 64 * n)) (c.payload.drop (64 + 64 * n)) = true then
            Answers c 0 false [] s u ∧ u.libPending = some (payNum c 4 4, patternsOf (c.payload.take (64 + 64 * n)))
          else Answers c 6 false [] s u ∧ u.libPending = s.libPending))
  ∧ (∀ (v : Nat) (ps : List Pattern) (s : State), Released s → s.libPending = some (v, ps) →
    Completes .patternLibraryReplace s fun u =>
      fld u F.RL_EVENTS_pattern_push = 1 ∧ u.libVersion = v ∧ u.library = ps ∧ u.libNext = 0 ∧ u.libPending = none
        ∧ Keeps [] [(.RL_EVENTS, 0)] s u ∧ MemSame s u
        ∧ ∀ p, ∃ k, pair u p = { pair s p with check := { (pair s p).check with begun := k } })
  ∧ (∀ (c : MboxCmd) (a n : Nat) (s : State), Commanded c 0x0021 s → c.payload.length = 24 → payNum c 16 8 = n → n ≤ 4064 →
    payNum c 8 8 + n ≤ 0x20000000 → payNum c 0 8 % 4 * hiveBytes + 0x1FE0000000 + payNum c 8 8 = a → poisoned s a n = false →
    (∀ i < n, offline s (a + i) = false) →
    Completes .dumpRead s fun u => Answers c 0 false (bytesAt s a n) s u ∧ Keeps [] [] s u)
  ∧ (∀ (c : MboxCmd) (s : State), Commanded c 0x0022 s → c.payload.length = 8 → hiveState s (payNum c 0 8 % 4) = 0 → breathState s = 2 →
    Completes .hiveReset s fun u =>
      Answers c 0 false [] s u ∧ u.pendingFaults = s.pendingFaults ++ [{ hive := payNum c 0 8 % 4, cause := 0x0B, pair := 255 }]
        ∧ Keeps [] [] s u)
  ∧ (∀ (c : MboxCmd) (s : State), Commanded c 0x0030 s → c.payload.length = 120 → noticeBad (noticeOf c) = false →
    s.host.notices.length < 4 →
    Completes .notify s fun u => Answers c 0 false [] s u ∧ u.host.notices = s.host.notices ++ [noticeOf c] ∧ Keeps [] [] s u)
  ∧ (∀ (x : Notice) (a v : Nat) (s : State), Released s → guardOpen s = true → s.host.notices = [x] → x.applied = false →
    x.breath = comingBreath s → x.writes = [(regBase + a, v)] → barsOpen s = true → a < 0x2000000 →
    Completes .notifyApply s fun u =>
      exec (.registerWrite a 8 v 0) { s with host := { s.host with notices := [{ x with applied := true, late := false }] } } = .next u)
  ∧ (∀ (x : Notice) (p : Pair) (s : State), Released s → s.host.notices = [x] → x.applied = true → x.deliver = true → x.pairs = 2 ^ p.val →
    x.off % 64 = 0 → x.off < combBytes → x.bytes.length = 32 → (∀ b ∈ x.bytes, b < 256) → hiveState s (p.val / 16) = 0 → x.sem < 64 →
    semCount s p x.sem ≠ 0xFFFFFFFF →
    Completes .notifyDeliver s fun u =>
      u.host.notices = [] ∧ bytesAt u (combAddr p x.off) 32 = x.bytes ∧ Wrote (combAddr p x.off) 32 s u
        ∧ semCount u p x.sem = semCount s p x.sem + 1 ∧ u.pairs = s.pairs)
  ∧ (∀ (c : MboxCmd) (num t dev : Nat) (s : State), Released s → drioreDown s = false → s.host.relayed = [(c, num, t, dev)] →
    t + 100000 ≤ s.us → c.relay = none → c.gone = false →
    Completes (.mailboxRelayTimeout num) s fun u =>
      u.host.relayed = [] ∧ Responded (responseBytes c 5 false []) s u ∧ MemSame s u ∧ u.pairs = s.pairs ∧ Keeps [] [] s u)
  ∧ ∀ (c : MboxCmd) (m : Packet) (k t dev : Nat) (s : State), Arrives m s → drioreDown s = false → m.ptype = 0x20 → m.aux = [4, k] →
    s.host.relayed = [(c, m.req, t, dev)] → c.gone = false →
    Completes (.relayResponseReceive m) s fun u =>
      u.host.relayed = [] ∧ Responded (m.data.take k) s u ∧ MemSame s u ∧ u.pairs = s.pairs ∧ Keeps [] [] s u

/-! ## Power, clocks and heat -/

/-- The ceiling of the clocks (R347), in 10 MHz, none from the host where its register is 0. -/
def ceilSpec (s : State) : Nat :=
  let fl := fld s F.PCC_CLOCK_f_floor
  let host := if fld s F.PCC_CLOCK_host_cap = 0 then fld s F.PCC_CLOCK_f_max else max (fld s F.PCC_CLOCK_host_cap) fl
  max (min (min (fld s F.PCC_CLOCK_f_max) (min s.power.ceilTherm s.power.ceilPwr)) host) fl

/-- The loops' state has changed by f, and the status shows the ceiling and the duty that follow (R346, R347, R363); memory, the pairs and
every register but those of ks, the status, its events and what sending writes are as before. -/
def LoopTo (f : PowerS → PowerS) (ks : List (Reg × Nat)) (s u : State) : Prop :=
  u.power = f s.power ∧ fld u F.PCC_STATUS_f_ceil = ceilSpec u % 256
    ∧ fld u F.PCC_STATUS_duty = min u.power.clDuty u.power.brakeDuty % 16
    ∧ Keeps eventRegs ((.PCC_STATUS, 0) :: (.PCC_EVENTS, 0) :: ks) s u ∧ MemSame s u ∧ u.pairs = s.pairs

/-- The request that follows a code of the loop: with the rail offset, and less the margin while a window is active (R349, R356). -/
def requestOf (s : State) (v : Nat) (window : Bool) : Nat :=
  min (v + fld s F.PCC_VOLT_rail_offset - (if window then fld s F.PCC_MARGIN_v_offset else 0)) 100

/-- R346–R352, R362, R366, R367. Over the cap the voltage falls by a code, at its floor the ceiling by 10 MHz; under it with
room the ceiling rises. A refused request freezes, and a retry that is accepted takes effect. Over its limit current lowers the
duty; well under it for 20 samples it rises. Heat lowers the ceiling at once and raises it every tenth update. The brake lowers
the duty, its release raises it step by step. A hive's ramp rises to the ceiling. The model's choices it rests on: log entry 72.
-/
def Obligations.PowerLoops : Prop :=
  (∀ (p : Nat) (rings : List Nat) (s : State), stopLoaded s = true → s.power.started = true → s.power.frozen = none → fld s F.PCC_CAP_cap < p →
    fld s F.PCC_VOLT_v_min < s.power.v →
    Completes (.voltageLoop p rings true) s fun u =>
      u.power = { s.power with v := s.power.v - 1, overCap := true, rings := u.power.rings } ∧ fld u F.PCC_STATUS_power_w = p % 65536
        ∧ fld u F.PCC_VOLT_v_request = requestOf s (s.power.v - 1) s.power.window.isSome
        ∧ (∀ i < 64, SMap.get 0 u.power.rings i = nth 0 rings i
            ∧ fld u F.PCC_PAIR_p_f_rep i = nth 0 rings i * 256 / (256 + fld s F.PCC_PAIR_p_age i) % 1024) ∧ MemSame s u ∧ u.pairs = s.pairs)
  ∧ (∀ (p : Nat) (rings : List Nat) (s : State), stopLoaded s = true → s.power.started = true → s.power.frozen = none → fld s F.PCC_CAP_cap < p →
    s.power.v ≤ fld s F.PCC_VOLT_v_min → fld s F.PCC_CLOCK_f_floor < s.power.ceilPwr →
    Completes (.voltageLoop p rings true) s fun u =>
      u.power = { s.power with ceilPwr := s.power.ceilPwr - 1, overCap := true, rings := u.power.rings } ∧ MemSame s u ∧ u.pairs = s.pairs)
  ∧ (∀ (p : Nat) (rings : List Nat) (s : State), stopLoaded s = true → s.power.started = true → s.power.frozen = none →
    p + fld s F.PCC_LOOP_hyst_w < fld s F.PCC_CAP_cap → s.power.ceilPwr < fld s F.PCC_CLOCK_f_max →
    requestOf s s.power.v s.power.window.isSome ≠ fld s F.PCC_VOLT_v_request →
    Completes (.voltageLoop p rings false) s fun u =>
      u.power = { s.power with ceilPwr := s.power.ceilPwr + 1, overCap := false, rings := u.power.rings
                               frozen := some (requestOf s s.power.v s.power.window.isSome) }
        ∧ fld u F.PCC_EVENTS_avs_fail = 1 ∧ fld u F.PCC_VOLT_v_request = fld s F.PCC_VOLT_v_request ∧ MemSame s u ∧ u.pairs = s.pairs)
  ∧ (∀ (v : Nat) (s : State), Released s → s.power.frozen = some v →
    Completes (.avsRetry true) s fun u =>
      fld u F.PCC_VOLT_v_request = v % 256 ∧ u.power = { s.power with frozen := none } ∧ HubTo [(.PCC_VOLT, 0)] s u)
  ∧ (∀ (amps : Nat) (s : State), Released s → fld s F.PCC_CAP_i_limit < amps →
    Completes (.currentSample amps) s fun u =>
      LoopTo (fun x => { x with clDuty := max (x.clDuty - 1) (fld s F.PCC_LOOP_cl_min_duty), below := 0 }) [] s u)
  ∧ (∀ (amps : Nat) (s : State), Released s → 16 * amps < 15 * fld s F.PCC_CAP_i_limit →
    Completes (.currentSample amps) s fun u =>
      LoopTo (fun x => if x.below < 19 then { x with below := x.below + 1 } else { x with clDuty := min (x.clDuty + 1) 8, below := 0 })
        [] s u)
  ∧ (∀ s : State, Released s → 4 * fld s F.PCC_THERM_t_throttle ≤ s.power.hot →
    Completes .thermalLoop s fun u =>
      LoopTo (fun x => { x with
        ceilTherm := if fld s F.PCC_CLOCK_f_floor < x.ceilTherm then x.ceilTherm - 1 else x.ceilTherm, cool := 0 }) [] s u)
  ∧ (∀ s : State, Released s → s.power.hot + 8 ≤ 4 * fld s F.PCC_THERM_t_throttle →
    Completes .thermalLoop s fun u =>
      LoopTo (fun x => if x.cool < 9 then { x with cool := x.cool + 1 }
        else { x with
          ceilTherm := if x.ceilTherm < fld s F.PCC_CLOCK_f_max then x.ceilTherm + 1 else x.ceilTherm, cool := 0 }) [] s u)
  ∧ (∀ s : State, Released s → s.power.braked = false →
    Completes .brakeAsserted s fun u =>
      u.power = { s.power with braked := true, ramping := false, brakeDuty := fld s F.PCC_BRAKE_duty, brakeSince := s.us
                               brakeBreath := schedBreath s + 1, humDuty := 0 }
        ∧ fld u F.PCC_EVENTS_brake = 1 ∧ fld u F.PCC_STATUS_duty = min s.power.clDuty (fld s F.PCC_BRAKE_duty) % 16
        ∧ fld u F.PCC_BRAKE_excess = (if s.power.brakeBreath = schedBreath s + 1 then satAdd 32 (fld s F.PCC_BRAKE_excess) 1
            else fld s F.PCC_BRAKE_excess)
        ∧ Keeps (logRegs ++ eventRegs) [(.PCC_STATUS, 0), (.PCC_EVENTS, 0), (.PCC_BRAKE, 0)] s u ∧ MemSame s u ∧ u.pairs = s.pairs)
  ∧ (∀ s : State, Released s → s.power.braked = true →
    Completes .brakeRelease s fun u =>
      u.power = { s.power with braked := false, ramping := true } ∧ u.log ≠ s.log
        ∧ Keeps (logRegs ++ eventRegs) [(.PCC_STATUS, 0), (.PCC_EVENTS, 0)] s u ∧ MemSame s u ∧ u.pairs = s.pairs)
  ∧ (∀ s : State, Released s → s.power.ramping = true →
    Completes .brakeReleaseStep s fun u =>
      LoopTo (fun x => if x.brakeDuty + 1 < x.clDuty then { x with brakeDuty := x.brakeDuty + 1 }
        else { x with brakeDuty := 8, ramping := false }) [] s u)
  ∧ ∀ (h : Hive) (r : Nat) (s : State), Released s → SMap.get none s.power.ramps h = some r →
    Completes (.clockRamp h) s fun u =>
      SMap.get none u.power.ramps h = (if r + 1 < ceilSpec s then some (r + 1) else none)
        ∧ (∀ g, g ≠ h.val → SMap.get none u.power.ramps g = SMap.get none s.power.ramps g)
        ∧ LoopTo (fun x => { x with ramps := u.power.ramps }) [] s u

/-- A sample of every sensor, none of them stuck before it (R359). -/
def Sampled (vals : List (Option Nat)) (s : State) : Prop := vals.length = 70 ∧ ∀ k < 70, (sensorS s k).stale < 99

/-- R353, R356–R361, R363–R365, R367, R392, R436. The sensors give the pairs' temperatures and the hottest; two samples in a row
at 105 °C trip the part. Age codes are taken at start-up, and later steps wait for a boundary. Hum fills the current up to its
target. Telemetry is read. Energy, the counted cycles and the reasons' durations are integrated, and a job's energy is closed at its boundary. A
test window begins and ends, its clock offsets between. The loss of the core reference is a device fault, that of the link
reference fails the ports. The model's choices it rests on: log entries 70, 72, 74, 104 and 123. -/
def Obligations.PowerState : Prop :=
  (∀ (vals : List (Option Nat)) (s : State), Released s → Sampled vals s → (∀ k < 70, ∃ c < 420, vals[k]? = some (some c)) →
    Completes (.sensorSample vals) s fun u =>
      (∀ p < 64, ∀ c, vals[p]? = some (some c) → fld u F.PCC_PAIR_p_temp p = c / 4)
        ∧ (∀ k < 70, ∀ c, vals[k]? = some (some c) → c / 4 ≤ fld u F.PCC_STATUS_t_hot)
        ∧ (∃ k < 70, ∃ c, vals[k]? = some (some c) ∧ fld u F.PCC_STATUS_t_hot = c / 4) ∧ u.thermTrip = s.thermTrip
        ∧ HubTo ([(.PCC_STATUS, 0), (.PCC_STACK_TEMP, 0)] ++ (List.range 64).map (fun p => (.PCC_PAIR_p, p))) s u)
  ∧ (∀ (vals : List (Option Nat)) (k c : Nat) (s : State), Released s → Sampled vals s → k < 70 → vals[k]? = some (some c) → 420 ≤ c →
    1 ≤ (sensorS s k).hot →
    Completes (.sensorSample vals) s fun u => u.thermTrip = true ∧ u.pairs = s.pairs
      ∧ (s.thermTrip = false → fld u F.PCC_EVENTS_therm_trip = 1 ∧ fld u F.RL_STATUS_device_fault = 1))
  ∧ (∀ (codes : List Nat) (s : State), stopLoaded s = true → s.power.aged = false →
    Completes (.ageingMeasure codes) s fun u =>
      (∀ p < 64, fld u F.PCC_PAIR_p_age p = min (nth 0 codes p) 31) ∧ u.power = { s.power with aged := true }
        ∧ HubTo ((List.range 64).map (fun p => (.PCC_PAIR_p, p))) s u)
  ∧ (∀ (codes : List Nat) (s : State), stopLoaded s = true → s.power.aged = true →
    Completes (.ageingMeasure codes) s fun u =>
      (∀ p < 64, p ∈ u.power.ageDue → fld s F.PCC_PAIR_p_age p < nth 0 codes p ∧ fld s F.PCC_PAIR_p_age p < 31)
        ∧ u.power = { s.power with ageDue := u.power.ageDue } ∧ HubTo [] s u)
  ∧ (∀ (bare gain k n : Nat) (c : Bool) (p : Pair) (s : State), Released s → fld s F.PCC_CTRL_hum_mode ≠ 0 → s.power.braked = false →
    s.power.ramping = false → pairRuns s p = true → (pair s p).blocked = .hum k n c → breathState s ≠ 3 →
    s.power.humStop = 0 → gain ≠ 0 →
    Completes (.humAdjust bare gain) s fun u =>
      let r := max bare (s.power.humRamp - 1000 * fld s F.PCC_HUM_hum_ramp)
      let t := max s.power.humFloor r
      u.power = { s.power with
          humRamp := r, humDuty := u.power.humDuty, humSum := s.power.humSum + bare + u.power.humDuty * gain
          humCount := s.power.humCount + 1 }
        ∧ u.power.humDuty ≤ 16 ∧ (t ≤ bare + 16 * gain → t ≤ bare + u.power.humDuty * gain)
        ∧ (u.power.humDuty ≠ 0 → bare + (u.power.humDuty - 1) * gain < t)
        ∧ (bare + 16 * gain < t → u.power.humDuty = 16 ∧ fld u F.PCC_EVENTS_hum_short = 1) ∧ HubTo [(.PCC_EVENTS, 0)] s u)
  ∧ (∀ (v i : Nat) (s : State), Released s →
    Completes (.telemetryRead (some (v, i, false))) s fun u =>
      fld u F.PCC_STATUS_i_core = i % 65536 ∧ u.power = { s.power with tele := v } ∧ HubTo [(.PCC_STATUS, 0)] s u)
  ∧ (∀ s : State, Released s →
    Completes (.telemetryRead none) s fun u => fld u F.PCC_EVENTS_tele_lost = 1 ∧ HubTo [(.PCC_EVENTS, 0)] s u ∧ u.still = s.still)
  ∧ (∀ (e : Nat) (work : List (Nat × Nat × Nat)) (s : State), Released s → (s.power.energyMode = 0 ∨ s.power.jobTag ≠ 0) →
    Completes (.energyIntegrate e work) s fun u =>
      fld u F.PCC_ENERGY_energy_uj = (fld s F.PCC_ENERGY_energy_uj + e) % 2 ^ 64 ∧ u.us = s.us + 1
        ∧ (∀ i < 7, fld u F.PCC_THR_DUR_i_dur_us i
            = satAdd 48 (fld s F.PCC_THR_DUR_i_dur_us i) (b2n (bitAt (fld s F.PCC_STATUS_reasons) i)))
        ∧ MemSame s u ∧ u.pairs = s.pairs
        ∧ (work = [] → HubTo ((.PCC_ENERGY, 0) :: (List.range 7).map (fun i => (.PCC_THR_DUR_i, i))) s u))
  ∧ (∀ (e code n : Nat) (p : Pair) (j : Fin 8) (s : State), Released s → ctrRuns s p = true → bitAt (fld s F.CTR_P_CTRL_en p) j = true →
    ctrSel s p j = code → chained s p j = false → isTraffic code = false →
    Completes (.energyIntegrate e [(p.val, code, n)]) s fun u =>
      fld u F.CTR_P_n_count (8 * p.val + j.val) = (fld s F.CTR_P_n_count (8 * p.val + j.val) + n) % 2 ^ 48)
  ∧ (∀ (e : Nat) (work : List (Nat × Nat × Nat)) (s : State), s.inService = false → Completes (.energyIntegrate e work) s fun u => u = { s with us := s.us + 1 })
  ∧ (∀ (t : Nat) (s : State), Released s → s.power.tagDue = some t → s.power.energyMode = 1 →
    Completes .jobTagApply s fun u =>
      fld u F.PCC_JOB_LAST_energy_uj = fld s F.PCC_ENERGY_energy_uj ∧ fld u F.PCC_JOB_last_tag = s.power.jobTag % 2 ^ 32
        ∧ fld u F.PCC_ENERGY_energy_uj = 0 ∧ u.power = { s.power with jobTag := t, tagDue := none }
        ∧ HubTo [(.PCC_JOB_LAST, 0), (.PCC_JOB, 0), (.PCC_ENERGY, 0)] s u)
  ∧ (∀ s : State, Released s → s.power.started = true → s.power.window = none → s.power.frozen = none → fld s F.RL_TWIN_length ≠ 0 →
    fld s F.RL_TWIN_start = comingBreath s →
    Completes .testWindowBegin s fun u =>
      u.power = { s.power with window := some (comingBreath s), clockOn := false } ∧ fld u F.RL_STATUS_window = 1
        ∧ fld u F.PCC_VOLT_v_request = requestOf s s.power.v true ∧ MemSame s u ∧ u.pairs = s.pairs ∧ u.log = s.log)
  ∧ (∀ (b : Nat) (s : State), Released s → s.power.window = some b →
    Completes .marginClockApply s fun u => LoopTo (fun x => { x with clockOn := true }) [] s u)
  ∧ (∀ (b : Nat) (s : State), Released s → s.power.started = true → s.power.window = some b → s.power.frozen = none →
    b + fld s F.RL_TWIN_length ≤ comingBreath s →
    Completes .testWindowEnd s fun u =>
      u.power = { s.power with window := none, clockOn := false } ∧ fld u F.RL_STATUS_window = 0
        ∧ fld u F.PCC_VOLT_v_request = requestOf s s.power.v false ∧ MemSame s u ∧ u.pairs = s.pairs ∧ u.log = s.log)
  ∧ (∀ s : State, Released s →
    Completes .refclkCoreLoss s fun u =>
      fld u F.RL_STATUS_device_fault = 1 ∧ u.log ≠ s.log ∧ faultN u = true
        ∧ Keeps (logRegs ++ eventRegs) [(.RL_STATUS, 0)] s u ∧ MemSame s u ∧ u.pairs = s.pairs)
  ∧ ∀ s : State, Released s →
    Completes .refclkLinkLoss s fun u =>
      (∀ n < 9, (1 ≤ portState s n ∧ portState s n ≤ 3 →
            portState u n = 4 ∧ ∀ k < 8, fld u F.PORT_LANE_k_failed (8 * n + k) = 1 ∧ fld u F.PORT_LANE_k_cdr_lock (8 * n + k) = 0)
          ∧ ((portState s n = 0 ∨ 4 ≤ portState s n) → portState u n = portState s n))
        ∧ MemSame s u ∧ u.pairs = s.pairs ∧ u.log = s.log

/-! ## The performance counters -/

/-- R420–R424. Clearing sets counters to 0; a scheduled freeze copies every counter at its boundary and schedules the next; a
window ends with the KiB each port has moved. The user alias reaches selects, enables and overflow bits while it is enabled, and
nothing otherwise. The model's choices it rests on: log entry 74. -/
def Obligations.Counters : Prop :=
  (∀ s : State, Released s →
    Completes .freezeNow s fun u =>
      fld u F.CTR_FREEZE_at = 0 ∧ fld u F.CTR_FREEZE_STATUS_pending = 1 ∧ u.counters = { s.counters with freezeNext := true }
        ∧ HubTo [(.CTR_FREEZE, 0), (.CTR_FREEZE_STATUS, 0)] s u)
  ∧ (∀ s : State, Released s →
    Completes .clearAll s fun u =>
      (∀ i < 512, fld u F.CTR_P_n_count i = 0) ∧ (∀ i < 256, fld u F.CTR_P_SLOT_k_count i = 0) ∧ (∀ p < 64, fld u F.CTR_P_OVF_ovf p = 0)
        ∧ (∀ n < 9, portBytes u n 0 = 0 ∧ portBytes u n 1 = 0 ∧ fld u F.PORTCTR_FWD_LO_count n = 0 ∧ fld u F.PORTCTR_FWD_HI_count n = 0)
        ∧ Keeps [.CTR_P_n, .CTR_P_SLOT_k, .CTR_P_OVF, .PORTCTR_TX_LO, .PORTCTR_TX_HI, .PORTCTR_RX_LO, .PORTCTR_RX_HI, .PORTCTR_FWD_LO
            , .PORTCTR_FWD_HI] [] s u ∧ MemSame s u ∧ u.pairs = s.pairs)
  ∧ (∀ s : State, Released s → (s.counters.freezeNext = true ∨ (fld s F.CTR_FREEZE_at ≠ 0 ∧ fld s F.CTR_FREEZE_at ≤ comingBreath s)) →
    Completes .counterFreeze s fun u =>
      (∀ p < 64, (∀ j < 8, fld u F.CTR_P_SNAP_j_count (12 * p + j) = fld s F.CTR_P_n_count (8 * p + j))
          ∧ ∀ k < 4, fld u F.CTR_P_SNAP_j_count (12 * p + 8 + k) = fld s F.CTR_P_SLOT_k_count (4 * p + k))
        ∧ (∀ n < 9, fld u F.PORTCTR_SNAP_TX_LO_count n = fld s F.PORTCTR_TX_LO_count n
          ∧ fld u F.PORTCTR_SNAP_RX_LO_count n = fld s F.PORTCTR_RX_LO_count n)
        ∧ fld u F.CTR_FREEZE_STATUS_last = comingBreath s % 2 ^ 48 ∧ fld u F.CTR_FREEZE_STATUS_valid = 1
        ∧ fld u F.CTR_FREEZE_at = (if fld s F.CTR_FREEZE_every = 0 then 0 else (comingBreath s + fld s F.CTR_FREEZE_every) % 2 ^ 48)
        ∧ u.counters = { s.counters with freezeNext := false } ∧ (∀ i, reg u .CTR_P_n i = reg s .CTR_P_n i) ∧ MemSame s u
        ∧ u.pairs = s.pairs)
  ∧ (∀ s : State, Released s → comingBreath s % max s.counters.length 1 = 0 →
    Completes .bwWindowEnd s fun u =>
      (∀ n < 9,
          fld u F.PORTCTR_BW_tx_kib n = min ((portBytes s n 0 + 2 ^ 96 - SMap.get 0 s.counters.bytes (2 * n)) % 2 ^ 96 / 1024) 0xFFFFFFFF
            ∧ fld u F.PORTCTR_BW_rx_kib n
              = min ((portBytes s n 1 + 2 ^ 96 - SMap.get 0 s.counters.bytes (2 * n + 1)) % 2 ^ 96 / 1024) 0xFFFFFFFF
            ∧ SMap.get 0 u.counters.bytes (2 * n) = portBytes s n 0 ∧ SMap.get 0 u.counters.bytes (2 * n + 1) = portBytes s n 1)
        ∧ fld u F.CTR_WINDOW_dur_us = min (s.us - s.counters.start) 0xFFFFFFFF ∧ u.counters.start = s.us
        ∧ u.counters.length = fld s F.CTR_WINDOW_breaths ∧ MemSame s u ∧ u.pairs = s.pairs)
  ∧ (∀ (p : Pair) (mask : Nat) (s : State), Released s →
    Completes (.counterClear p mask) s fun u =>
      (∀ j < 8, bitAt mask j = true → fld u F.CTR_P_n_count (8 * p + j) = 0)
        ∧ (∀ k < 4, bitAt mask (8 + k) = true → fld u F.CTR_P_SLOT_k_count (4 * p + k) = 0)
        ∧ (∀ j < 8, bitAt mask j = false → (j % 2 = 0 ∨ bitAt mask (j - 1) = false) →
            fld u F.CTR_P_n_count (8 * p + j) = fld s F.CTR_P_n_count (8 * p + j))
        ∧ (∀ k < 4, bitAt mask (8 + k) = false → fld u F.CTR_P_SLOT_k_count (4 * p + k) = fld s F.CTR_P_SLOT_k_count (4 * p + k))
        ∧ Keeps [] ((List.range 8).map (fun j => (.CTR_P_n, 8 * p.val + j)) ++ (List.range 4).map (fun k => (.CTR_P_SLOT_k, 4 * p.val + k))) s u
        ∧ u.still = s.still)
  ∧ (∀ (p : Pair) (off v : Nat) (s : State), Released s → fld s F.CTR_USER_en = 0 → Completes (.userAliasWrite p off v) s fun u => u = s)
  ∧ (∀ (p : Pair) (v : Nat) (s : State), Released s → fld s F.CTR_USER_en = 1 →
    (∀ j < 8, (bitsOf v (8 * j + 7) (8 * j) ≤ 15 ∧ bitsOf v (8 * j + 7) (8 * j) ≠ 2) ∨ (j % 2 = 0 ∧ isTraffic (bitsOf v (8 * j + 7) (8 * j)) = true)) →
    Completes (.userAliasWrite p 0x60 v) s fun u =>
      (∀ j < 8, bitsOf (fld u F.CTR_P_SEL_event p) (8 * j + 7) (8 * j) = bitsOf v (8 * j + 7) (8 * j)) ∧ HubTo [(.CTR_P_SEL, p.val)] s u)
  ∧ (∀ (p : Pair) (v : Nat) (s : State), Released s → fld s F.CTR_USER_en = 1 → v < 65536 →
    Completes (.userAliasWrite p 0x68 v) s fun u => fld u F.CTR_P_CTRL_en p = v % 4096 ∧ HubTo [(.CTR_P_CTRL, p.val)] s u ∧ u.still = s.still)
  ∧ ∀ (p : Pair) (v : Nat) (s : State), Released s → fld s F.CTR_USER_en = 1 →
    Completes (.userAliasWrite p 0x70 v) s fun u =>
      (∀ j < 12, bitAt (fld u F.CTR_P_OVF_ovf p) j = (bitAt (fld s F.CTR_P_OVF_ovf p) j && !bitAt v j)) ∧ HubTo [(.CTR_P_OVF, p.val)] s u
        ∧ u.still = s.still

/-! ## Faults of hives and of the management processor -/

/-- The bytes of dump slot g (R373). -/
def InSlot (g a : Nat) : Prop := slotBase g ≤ a ∧ a < slotBase g + slotSize

/-- No other hive faults, dumps or waits. -/
def AloneHive (h : Nat) (s : State) : Prop := ∀ x < 4, x ≠ h → hiveState s x = 0 ∧ (hiveS s x).waitReset = false

/-- The fault of hive h has taken effect: QUIESCE, its cause recorded, its RUNNING pairs FAULTED, and no other pair or hive touched. -/
def FaultTaken (f : PendingFault) (s u : State) : Prop :=
  u.pendingFaults = [] ∧ hiveState u f.hive = 1 ∧ fld u F.RL_HIVE_h_cause f.hive = f.cause % 256
    ∧ fld u F.RL_HIVE_h_fault_breath f.hive = comingBreath s % 2 ^ 32 ∧ fld u F.RL_EVENTS_hive_fault = 1
    ∧ (∀ p < 64, p / 16 = f.hive → seqState s p = 2 → seqState u p = 6)
    ∧ (∀ p < 64, p / 16 ≠ f.hive ∨ seqState s p ≠ 2 → seqState u p = seqState s p ∧ pair u p = pair s p)
    ∧ (∀ g < 4, g ≠ f.hive → hiveState u g = hiveState s g) ∧ (hiveS u f.hive).since = s.us ∧ MemSame s u

/-- R20, R222, R225, R370, R372–R381. A fault takes effect at a boundary tick and takes a free slot for its dump. The quiesce
ends what the hive's units had not finished, and the hive goes on to FAULT_HOLD or to RESET, which resets its units. A dump ends
with its header and status, cut off by its budget with status 3. A release clears memory but the keep window, a hive reset too
often is HELD, and a hive whose training has ended is in service. A slot is released by its register. The model's choices it
rests on: log entries 75 and 105. -/
def Obligations.HiveFaults : Prop :=
  (∀ (f : PendingFault) (s : State), Released s → breathState s = 2 → s.pendingFaults = [f] → f.hive < 4 → hiveState s f.hive = 0 →
    fld s F.RL_CTRL_dump_en = 0 →
    Completes .hiveFault s fun u => FaultTaken f s u ∧ (hiveS u f.hive).dumpTo = none)
  ∧ (∀ (f : PendingFault) (g : Nat) (s : State), Released s → breathState s = 2 → s.pendingFaults = [f] → f.hive < 4 → hiveState s f.hive = 0 →
    fld s F.RL_CTRL_dump_en = 1 → f.cause ≠ 0x0B → g = (f.hive + 1) % 4 → hiveState s g = 0 → fld s F.MEM_STATUS_chan_failed g = 0 →
    fld s F.RL_DUMP_SLOT_g_occupied g = 0 →
    Completes .hiveFault s fun u =>
      FaultTaken f s u ∧ (hiveS u f.hive).dumpTo = some g ∧ fld u F.RL_DUMP_SLOT_g_occupied g = 1
        ∧ fld u F.RL_DUMP_SLOT_g_source g = f.hive ∧ fld u F.RL_DUMP_SLOT_g_status g = 0)
  ∧ (∀ (h : Hive) (s : State), Released s → hiveState s h = 1 → (hiveS s h).quiesced = false → (hiveS s h).waitReset = false →
    (hiveS s h).since + 2000 ≤ s.us → (hiveS s h).dumpTo = none → bitAt (fld s F.RL_CTRL_auto_reset) h = false →
    Completes (.quiesceEnd h) s fun u =>
      hiveState u h = 4 ∧ (∀ p < 64, p / 16 = h.val → (pair u p).copies = [] ∧ (pair u p).vec = [] ∧ (pair u p).lists = []
          ∧ (pair u p).walks = [] ∧ (pair u p).colls = [] ∧ (pair u p).array.acc = (pair s p).array.acc)
        ∧ ∀ r ∈ u.requests, r.kind = 5 ∨ r.pair / 16 ≠ h.val)
  ∧ (∀ (h : Hive) (s : State), Released s → hiveState s h = 1 → (hiveS s h).quiesced = false → (hiveS s h).waitReset = false →
    (hiveS s h).since + 2000 ≤ s.us → (∀ x, (hiveS s x).dumpTo ≠ some h.val) → (hiveS s h).dumpTo = none →
    bitAt (fld s F.RL_CTRL_auto_reset) h = true →
    Completes (.quiesceEnd h) s fun u =>
      hiveState u h = 3 ∧ (∀ p < 64, p / 16 = h.val → pair u p = {}) ∧ fld u F.MEM_STATUS_self_refresh h = 1
        ∧ fld u F.RL_HIVE_h_resets h = satAdd 16 (fld s F.RL_HIVE_h_resets h) 1 ∧ (hiveS u h).resetAt = s.us
        ∧ (hiveS u h).released = false)
  ∧ (∀ (h : Hive) (k n : Nat) (s : State), Released s → dumping s h = true → (hiveS s h).records = 0 →
    Completes (.dumpReadTimeout h k n) s fun u =>
      u = { s with hives := SMap.set {} s.hives h { hiveS s h with cuts := SMap.insert (hiveS s h).cuts k n } })
  ∧ (∀ (h : Hive) (g k n : Nat) (s : State), Released s → dumping s h = true → (hiveS s h).records = 0 → (hiveS s h).dumpTo = some g →
    (hiveS s h).dumpAt + 1000 * fld s F.RL_DUMP_CFG_budget_ms ≤ s.us → k < (dumpPlan s h).length →
    Completes (.dumpBudgetExpire h k n) s fun u =>
      fld u F.RL_DUMP_SLOT_g_status g = 3 ∧ (hiveS u h).records ≠ 0 ∧ hiveState u h = 2 ∧ u.pairs = s.pairs
        ∧ ∀ a, ¬InSlot g a → byteAt u a = byteAt s a)
  ∧ (∀ (h : Hive) (g : Nat) (s : State), Released s → dumping s h = true → AloneHive h s → (hiveS s h).records = 0 →
    (hiveS s h).dumpTo = some g → g < 4 → fld s F.MEM_STATUS_chan_failed g = 0 → bitAt (fld s F.RL_CTRL_auto_reset) h = false →
    Completes (.dumpComplete h) s fun u =>
      hiveState u h = 4 ∧ fld u F.RL_EVENTS_dump_done = 1 ∧ fld u F.RL_DUMP_SLOT_g_status g ∈ [1, 2, 3]
        ∧ numAt u (slotBase g) 4 = 0x504D5544 ∧ u.pairs = s.pairs ∧ ∀ a, ¬InSlot g a → byteAt u a = byteAt s a)
  ∧ (∀ (h : Hive) (s : State), Released s → hiveState s h = 3 → (hiveS s h).released = false → fld s F.MEM_STATUS_self_refresh h = 1 →
    (hiveS s h).resetAt + 1000 ≤ s.us → (hiveS s h).storm = false →
    Completes (.hiveRelease h) s fun u =>
      fld u F.MEM_STATUS_near_ready h = 1 ∧ fld u F.MEM_STATUS_far_ready h = 1 ∧ fld u F.MEM_STATUS_self_refresh h = 0
        ∧ (hiveS u h).released = true ∧ hiveState u h = 3 ∧ u.pairs = s.pairs
        ∧ ∀ a, byteAt u a = if ownerHive a = some h.val ∧ inKeep a = false then 0 else byteAt s a)
  ∧ (∀ (h : Hive) (s : State), Released s → hiveState s h = 3 → (hiveS s h).released = false → fld s F.MEM_STATUS_self_refresh h = 1 →
    (hiveS s h).resetAt + 1000 ≤ s.us → (hiveS s h).storm = true →
    Completes (.hiveRelease h) s fun u =>
      hiveState u h = 5 ∧ fld u F.RL_EVENTS_hive_held = 1 ∧ HubTo [(.RL_HIVE_h, h.val), (.RL_EVENTS, 0)] s u)
  ∧ (∀ (h : Hive) (s : State), Released s → hiveState s h = 3 → (hiveS s h).released = true → (hiveS s h).training = 0 →
    Completes (.hiveReady h) s fun u =>
      hiveState u h = (if (hiveS s h).on then 0 else 7) ∧ u.pendingFaults = s.pendingFaults.filter (fun f => f.hive ≠ h.val)
        ∧ fld u F.MEM_STATUS_chan_retraining h = 0
        ∧ ((hiveS s h).on = true → SMap.get none u.power.ramps h = some (fld s F.PCC_CLOCK_f_floor))
        ∧ Keeps eventRegs ([(.RL_HIVE_h, h.val), (.MEM_STATUS, h.val), (.PCC_STATUS, 0), (.PCC_EVENTS, 0)]
            ++ (List.range 8).map (fun j => (.MEM_CHAN_j, 8 * h.val + j))) s u
        ∧ MemSame s u ∧ u.pairs = s.pairs)
  ∧ ∀ (g : Hive) (s : State), Released s →
    Completes (.dumpSlotRelease g) s fun u =>
      fld u F.RL_DUMP_SLOT_g_occupied g = 0 ∧ HubTo [(.RL_DUMP_SLOT_g, g.val)] s u ∧ u.still = s.still

/-- The management processor alone is reset: counted, and down (R385). -/
def MpDown (held : Bool) (s u : State) : Prop :=
  u.mp.down = true ∧ u.mpHeldReset = held ∧ fld u F.RL_EVENTS_mp_reset = 1
    ∧ fld u F.RL_STATUS_mp_resets = satAdd 8 (fld s F.RL_STATUS_mp_resets) 1 ∧ fld u F.RL_STATUS_mp_held = (if held then 1 else fld s F.RL_STATUS_mp_held)
    ∧ MemSame s u ∧ u.pairs = s.pairs

/-- Resets of the management processor in the last 60 minutes (R385). -/
def mpResetsHour (s : State) : Nat := (s.mp.resets.filter (fun t => s.us < t + 3600000000)).length

/-- R384, R385. A watchdog escalates the fault of its pair's hive. A heartbeat is noted. Without one, or at a lockstep mismatch,
the management processor is reset, and the fourth time in an hour held. It restarts if its copy is sound, and is held if not.
The model's choices it rests on: log entry 3. -/
def Obligations.ManagementProcessor : Prop :=
  (∀ (p : Pair) (s : State), Released s → hiveState s (p.val / 16) = 0 → breathState s ≠ 3 → seqState s p = 2 → (pair s p).inSlice = true →
    Completes (.watchdogExpire p) s fun u =>
      fld u F.RL_EVENTS_watchdog = 1 ∧ u.pendingFaults = s.pendingFaults ++ [{ hive := p.val / 16, cause := 0x0A, pair := p }]
        ∧ Keeps logRegs [] s u ∧ MemSame s u ∧ u.pairs = s.pairs)
  ∧ (∀ s : State, Released s → drioreDown s = false → Completes .heartbeat s fun u => u = { s with mp := { s.mp with beat := s.us } })
  ∧ (∀ s : State, Released s → drioreDown s = false → (∀ h, dumping s h = false) → mpResetsHour s < 3 →
    s.mp.beat + 1000 * fld s F.RL_CTRL_hb_timeout_ms ≤ s.us → Completes .heartbeatTimeout s fun u => MpDown false s u)
  ∧ (∀ s : State, Released s → drioreDown s = false → (∀ h, dumping s h = false) → mpResetsHour s < 3 →
    Completes .lockstepMismatch s fun u => MpDown false s u)
  ∧ (∀ s : State, Released s → drioreDown s = false → (∀ h, dumping s h = false) → 3 ≤ mpResetsHour s →
    Completes .lockstepMismatch s fun u => MpDown true s u ∧ fld u F.RL_STATUS_device_fault = 1)
  ∧ (∀ s : State, Released s → s.mp.down = true → s.mpHeldReset = false →
    Completes (.mpRestart true) s fun u => u.mp = { s.mp with down := false, beat := s.us } ∧ u.mpHeldReset = false)
  ∧ ∀ s : State, Released s → s.mp.down = true → s.mpHeldReset = false →
    Completes (.mpRestart false) s fun u =>
      u.mpHeldReset = true ∧ fld u F.RL_STATUS_mp_held = 1 ∧ u.mp = s.mp ∧ MemSame s u ∧ u.pairs = s.pairs

/-! ## Boot, stops and the full device reset -/

/-- The record of stop i in the running image (R405). -/
def stopRec (s : State) (i : Nat) : List Nat := (s.boot.stops.drop (256 * i)).take 256

/-- R222, R224, R403–R410. The checks end in order: the fuses, the flash, the image, the time; the first that fails takes the
part to RECOVERY with its code, and where none does Driore starts with the hives that the stop enables under RESET. Boot
complete sets the boot lock, after the fuse writes it owes. A switch that falls due loads its stop. A latched enable applies.
The model's choices it rests on: log entry 80. -/
def Obligations.Boot : Prop :=
  (∀ (flashId readOk : Bool) (s : State), Released s → fld s F.BOOT_STATUS_state = 0 →
    Completes (.bootVerify false flashId readOk) s fun u =>
      fld u F.BOOT_STATUS_state = 3 ∧ fld u F.BOOT_STATUS_fail_code = 12 ∧ (∀ h < 4, hiveState u h = 3))
  ∧ (∀ (readOk : Bool) (s : State), Released s → fld s F.BOOT_STATUS_state = 0 →
    Completes (.bootVerify true false readOk) s fun u => fld u F.BOOT_STATUS_state = 3 ∧ fld u F.BOOT_STATUS_fail_code = 1)
  ∧ (∀ (readOk : Bool) (s : State), Released s → fld s F.BOOT_STATUS_state = 0 →
    Completes (.bootVerify true true readOk) s fun u =>
      let code := imageCode (isQueen s) readOk s
      let late := decide (s.boot.released + 1500000 < s.us)
      fld u F.BOOT_STATUS_state = (if code ≠ 0 ∨ late = true then 3 else 1)
        ∧ (code ≠ 0 → fld u F.BOOT_STATUS_fail_code = code) ∧ (code = 0 → late = true → fld u F.BOOT_STATUS_fail_code = 11)
        ∧ (code = 0 → late = false → ∀ h < 4, hiveState u h = if bitAt (fld u F.BOOT_STOP_hive_en) h then 3 else 7)
        ∧ u.boot.identified = true)
  ∧ (∀ s : State, Released s → fld s F.BOOT_STATUS_state = 0 → s.boot.released + 1500000 ≤ s.us →
    Completes .bootTimeLimit s fun u =>
      fld u F.BOOT_STATUS_state = 3 ∧ fld u F.BOOT_STATUS_fail_code = 11 ∧ (∀ h < 4, hiveState u h = 3))
  ∧ (∀ (blown h : Nat) (s : State), Released s → fld s F.BOOT_STATUS_state = 1 → drioreDown s = false → fld s F.GROUP_STATUS_state = 3 →
    h < 4 → bitAt (fld s F.BOOT_STOP_hive_en) h = true → hiveState s h = 0 → fld s F.BOOT_STATUS_boot_lock = 0 → s.boot.commit = none →
    Completes (.bootComplete true blown) s fun u =>
      fld u F.BOOT_STATUS_state = 2 ∧ fld u F.BOOT_STATUS_boot_lock = 1 ∧ u.boot.owner = s.boot.enrol.getD s.boot.owner
        ∧ u.boot.enrol = none ∧ (s.boot.enrol ≠ none → fld u F.BOOT_EVENTS_owner_enrolled = 1)
        ∧ HubTo [(.BOOT_STATUS, 0), (.BOOT_FUSE, 0), (.BOOT_EVENTS, 0)] s u)
  ∧ (∀ (i b : Nat) (s : State), Released s → s.boot.switch = some (i, b) → i < 4 → breathState s = 0 → (∀ h < 4, hiveQuiesced s h = true) →
    Completes .stopSwitchApply s fun u =>
      u.boot.switch = none ∧ fld u F.BOOT_STOP_pending = 0 ∧ fld u F.BOOT_STOP_active = i ∧ fld u F.BOOT_EVENTS_stop_applied = 1
        ∧ fld u F.BREATH_PERIOD_period = stopNum (stopRec s i) 0 4 % 2 ^ F.BREATH_PERIOD_period.width
        ∧ fld u F.PCC_CAP_cap = stopNum (stopRec s i) 8 2 % 2048 ∧ fld u F.PCC_CLOCK_f_max = nth 0 (stopRec s i) 12 % 256
        ∧ fld u F.BOOT_STOP_hive_en = nth 0 (stopRec s i) 7 % 16 ∧ MemSame s u)
  ∧ (∀ (h : Hive) (s : State), Released s → (hiveS s h).enable = some false → hiveState s h = 0 →
    Completes (.hiveEnablePending h) s fun u =>
      hiveState u h = 7 ∧ (hiveS u h).enable = none ∧ (∀ p < 64, p / 16 = h.val → pair u p = {})
        ∧ (∀ p < 64, p / 16 ≠ h.val → pair u p = pair s p) ∧ MemSame s u)
  ∧ ∀ (h : Hive) (s : State), Released s → (hiveS s h).enable = some true → hiveState s h = 7 →
    Completes (.hiveEnablePending h) s fun u =>
      hiveState u h = 0 ∧ (hiveS u h).enable = none ∧ SMap.get none u.power.ramps h = some (fld s F.PCC_CLOCK_f_floor) ∧ MemSame s u

/-- A full device reset (R433, R434): every register, memory, unit and queue as after reset; the fuses, the flash, the pins' levels and
what has left the part stay. -/
def FullReset (s u : State) : Prop :=
  u.inService = false ∧ u.regs = [] ∧ u.mem = [] ∧ u.poison = [] ∧ u.pairs = [] ∧ u.ports = [] ∧ u.requests = [] ∧ u.hives = []
    ∧ u.host = {} ∧ u.groups = {} ∧ u.power = {} ∧ u.log = [] ∧ u.breath = {} ∧ u.thermTrip = false ∧ u.mpHeldReset = false
    ∧ u.boot.serial = s.boot.serial ∧ u.boot.owner = s.boot.owner ∧ u.boot.rollback = s.boot.rollback
    ∧ u.boot.revoked = s.boot.revoked ∧ (s.boot.flashOp = none → u.boot.flash = s.boot.flash) ∧ u.us = s.us ∧ u.out = s.out
    ∧ u.pending = s.pending

/-- The part has taken its release: its pins sampled, its hives under RESET, nothing braked (R406, R408). -/
def ReleasedAs (queen : Bool) (stop : Nat) (s u : State) : Prop :=
  u.inService = true ∧ fld u F.GROUP_STATUS_role = b2n queen ∧ fld u F.BOOT_STATUS_stop_sel = stop % 4
    ∧ fld u F.BOOT_STATUS_state = fld s F.BOOT_STATUS_state ∧ fld u F.BOOT_SERIAL_serial = s.boot.serial % 2 ^ 64
    ∧ u.boot = { s.boot with due := none, resetLow := false, released := s.us }
    ∧ Keeps [] ([(.GROUP_STATUS, 0), (.BOOT_STATUS, 0), (.BOOT_SERIAL, 0)] ++ (List.range 4).map (fun h => (.RL_HIVE_h, h))) s u
    ∧ MemSame s u ∧ u.pairs = s.pairs ∧ u.us = s.us ∧ u.power = s.power

/-- R406, R408, R433–R435. PWR_OK low and RESET_N low take the part to full device reset; nothing but time and the pins leaves
it. A release takes effect with PWR_OK high, at once 10 µs after RESET_N fell or 1 ms after PWR_OK rose. The model's choices it
rests on: log entry 12. -/
def Obligations.Pins : Prop :=
  (∀ s : State, Completes .pwrOkFall s fun u => FullReset s u ∧ u.boot.pwrOk = false ∧ u.boot.resetLow = s.boot.resetLow)
  ∧ (∀ s : State, Completes .resetNAssert s fun u =>
      FullReset s u ∧ u.boot.resetLow = true ∧ u.boot.lowSince = s.us ∧ u.boot.due = none ∧ u.boot.pwrOk = s.boot.pwrOk)
  ∧ (∀ s : State, s.boot.pwrOk = false →
    Completes .pwrOkRise s fun u =>
      u = { s with boot := { s.boot with pwrOk := true, due := if s.boot.resetLow then none else some (s.us + 1000) } })
  ∧ (∀ (queen : Bool) (stop : Nat) (s : State), s.boot.resetLow = true → s.boot.pwrOk = true → s.boot.lowSince + 10 ≤ s.us →
    Completes (.resetNRelease queen stop false) s fun u => ReleasedAs queen stop s u)
  ∧ (∀ (queen braked : Bool) (stop : Nat) (s : State), s.boot.resetLow = true → s.boot.pwrOk = true → s.us < s.boot.lowSince + 10 →
    Completes (.resetNRelease queen stop braked) s fun u =>
      u = { s with boot := { s.boot with resetLow := false, due := some (s.boot.lowSince + 10) } })
  ∧ ∀ (queen : Bool) (stop t : Nat) (s : State), s.boot.due = some t → t ≤ s.us → s.boot.pwrOk = true → s.boot.resetLow = false →
    Completes (.releaseAfterPwrOk queen stop false) s fun u => ReleasedAs queen stop s u

/-! ## The register space -/

/-- The host may write registers: the part is released, its endpoint up and in D0 (R330). -/
structure HostMay (s : State) : Prop where
  released : Released s
  up : s.pcieUp = true
  on : s.pcieD3 = false

/-- A write that a register's rules refuse: its block's ignored_write is set, and nothing else changes (R13). -/
def Ignored (f : Fld) (s u : State) : Prop := fld u f = 1 ∧ Keeps [] [(f.reg, 0)] s u ∧ u.still = s.still

/-- The offset of a register of pair p's window (R78, R176). -/
def pairOff (p o : Nat) : Nat := 0x1000000 + 0x400000 * (p / 16) + 0x20000 * (p % 16) + o

/-- R5, R6, R7, R9, R13, R206, R251, R323, R337. A write of an RW register sets its fields and no reserved bit, and reads back; of an event
register it clears the bits written as 1; of a read-only register it does nothing; of a locked field, or of a value out of its
range or at odds with another field, it is ignored. A write that waits for a tick reads back at once. A command register runs its command. An unassigned offset reads 0 and takes
no write. An access of a wrong size or alignment, or past the register space, changes the log alone. The doorbell accepts the
command in the buffer. The model's choices it rests on: log entry 86. -/
def Obligations.RegisterWrites : Prop :=
  (∀ (n : Fin 8) (v : Nat) (s : State), HostMay s →
    Completes (.registerWrite (0xE100 + 8 * n.val) 8 v 0) s fun u =>
      fld u F.HOST_WIN_n_valid n = bitsOf v 63 63 ∧ fld u F.HOST_WIN_n_device n = v % 65536
        ∧ regWord u (0xE100 + 8 * n.val) = bitsOf v 63 63 * 2 ^ 63 + v % 65536 ∧ Keeps [] [(.HOST_WIN_n, n.val)] s u ∧ u.still = s.still)
  ∧ (∀ (v : Nat) (s : State), HostMay s →
    Completes (.registerWrite 0xC008 8 v 0) s fun u =>
      regWord u 0xC008 = v % 2 ^ 64 ∧ Keeps [] [] s u ∧ u.still = { s.still with exclPending := some (BitVec.ofNat 64 v) })
  ∧ (∀ (i : Fin 2048) (v : Nat) (s : State), HostMay s →
    Completes (.registerWrite (0x4000 + 8 * i.val) 8 v 0) s fun u =>
      regWord u (0x4000 + 8 * i.val) = v % 2 ^ 64 ∧ Keeps [] [] s u ∧ MemSame s u ∧ u.pairs = s.pairs)
  ∧ (∀ (r : Fin 16) (v : Nat) (s : State), HostMay s → fld s F.ROUTE_CTRL_loop_en = 0 → bitsOf v 12 0 ≠ 0 →
    4096 < bitsOf v 27 16 + bitsOf v 12 0 → bitsOf v 12 0 ≠ fld s F.ROUTER_r_experts r →
    Completes (.registerWrite (0x900 + 8 * r.val) 8 v 0) s fun u => Ignored F.ROUTE_EVENTS_ignored_write s u)
  ∧ (∀ (v : Nat) (s : State), HostMay s → fld s F.BOOT_STATUS_boot_lock = 0 → groupOpen s = true → s.groups.confirmed = false →
    boxOk (bitsOf v 31 16) (bitsOf v 15 0) (fld s F.GROUP_RINGS_ring_m1) (bitsOf v 47 32) = false →
    v % 2 ^ 64 ≠ (reg s .GROUP_CFG 0).toNat →
    Completes (.registerWrite 0xD000 8 v 0) s fun u => Ignored F.ENUM_EVENTS_ignored_write s u)
  ∧ (∀ (v : Nat) (s : State), HostMay s →
    Completes (.registerWrite 0x50010 8 v 0) s fun u =>
      (∀ j < 16, bitAt (reg u .RL_EVENTS 0).toNat j = (bitAt (reg s .RL_EVENTS 0).toNat j && !bitAt v j))
        ∧ Keeps [] [(.RL_EVENTS, 0)] s u ∧ u.still = s.still)
  ∧ (∀ (v : Nat) (s : State), HostMay s → Completes (.registerWrite 0x20060 8 v 0) s fun u => Keeps [] [] s u ∧ u.still = s.still)
  ∧ (∀ (n : Fin 8) (v : Nat) (s : State), HostMay s → fld s F.BOOT_STATUS_boot_lock = 1 → bitsOf v 7 6 ≠ fld s F.PORT_CTRL_mode n →
    Completes (.registerWrite (0x31000 + 0x100 * n.val) 4 v 0) s fun u =>
      fld u F.PORT_CTRL_mode n = fld s F.PORT_CTRL_mode n ∧ fld u F.LINK_EVENTS_ignored_write = 1
        ∧ Keeps [] [(.PORT_CTRL, n.val), (.LINK_EVENTS, 0)] s u ∧ u.still = s.still)
  ∧ (∀ (v : Nat) (s : State), HostMay s → (v % 2048 < 200 ∨ 1600 < v % 2048) → v % 2048 ≠ fld s F.PCC_CAP_cap →
    Completes (.registerWrite 0x20018 8 v 0) s fun u =>
      fld u F.PCC_CAP_cap = fld s F.PCC_CAP_cap ∧ fld u F.PCC_EVENTS_ignored_write = 1 ∧ MemSame s u ∧ u.pairs = s.pairs)
  ∧ (∀ (v : Nat) (s : State), HostMay s → 200 ≤ v % 2048 → v % 2048 ≤ 1600 → 1000 ≤ bitsOf v 43 32 → bitsOf v 43 32 ≤ 2400 →
    Completes (.registerWrite 0x20018 8 v 0) s fun u =>
      fld u F.PCC_CAP_cap = v % 2048 ∧ fld u F.PCC_CAP_i_limit = bitsOf v 43 32 ∧ MemSame s u ∧ u.pairs = s.pairs)
  ∧ (∀ (v : Nat) (s : State), HostMay s → bitsOf v 47 40 < bitsOf v 39 32 → bitsOf v 39 32 ≤ 100 →
    bitsOf v 39 32 ≠ fld s F.PCC_VOLT_v_min ∨ bitsOf v 47 40 ≠ fld s F.PCC_VOLT_v_max →
    Completes (.registerWrite 0x20008 8 v 0) s fun u => Ignored F.PCC_EVENTS_ignored_write s u)
  ∧ (∀ (p : Pair) (s : State), HostMay s → seqState s p = 3 →
    Completes (.registerWrite (pairOff p 0x30) 8 1 0) s fun u =>
      seqState u p = 4 ∧ seqPc u p = seqPc s p ∧ (∀ q, q ≠ p.val → seqState u q = seqState s q) ∧ MemSame s u ∧ u.pairs = s.pairs)
  ∧ (∀ (p : Pair) (v : Nat) (s : State), HostMay s → v ∈ [3, 5, 6, 7] →
    Completes (.registerWrite (pairOff p 0x30) 8 v 0) s fun u =>
      fld u F.SEQ_EVENTS_ignored_write p = 1 ∧ (∀ q, seqState u q = seqState s q) ∧ MemSame s u ∧ u.pairs = s.pairs)
  ∧ (∀ (off v : Nat) (s : State), HostMay s → regAt off = none → off < 0x41000 → off % 8 = 0 →
    regWord s off = 0 ∧ Completes (.registerWrite off 8 v 0) s fun u => u = s)
  ∧ (∀ (off size v : Nat) (s : State), HostMay s → off < 0x2000000 →
    (size ≠ 4 ∧ size ≠ 8 ∨ size = 8 ∧ off % 8 ≠ 0 ∨ size = 4 ∧ off % 4 ≠ 0) →
    Completes (.registerWrite off size v 0) s fun u => u.log ≠ s.log ∧ Keeps logRegs [] s u ∧ MemSame s u ∧ u.pairs = s.pairs)
  ∧ (∀ (off v : Nat) (s : State), Released s → drioreDown s = false → 0x2000000 ≤ off →
    Completes (.registerWrite off 8 v 1) s fun u => u.log ≠ s.log ∧ Keeps logRegs [] s u ∧ MemSame s u ∧ u.pairs = s.pairs)
  ∧ (∀ (v : Nat) (s : State), HostMay s → s.host.busy = false → s.host.queue = [] → (bufferCmd s).remote = none →
    turnedAway s (bufferCmd s) = none →
    Completes (.registerWrite 0x2012000 8 v 0) s fun u =>
      u = { s with host := { s.host with accepted := v % 65536, busy := true, queue := [bufferCmd s] } })
  ∧ (∀ (v : Nat) (s : State), HostMay s → s.host.busy = true →
    Completes (.registerWrite 0x2012000 8 v 0) s fun u => Ignored F.HOST_EVENTS_mbox_busy s u)
  ∧ ∀ (off size v : Nat) (s : State), Released s → (s.pcieUp = false ∨ s.pcieD3 = true) →
    Completes (.registerWrite off size v 0) s fun u => u = s

/-! ## The board -/

/-- The part answers on I3C: from 1 ms after its release (R441). -/
def OnI3c (s : State) : Prop := Released s ∧ s.boot.released + 1000 ≤ s.us

/-- The TAP holds an instruction, and the balls are driven by the part (0), the boundary register (1) or nothing (2) (R442). -/
def tap (s : State) (ir drive : Nat) : PinS := { s.pins with tapIr := ir, drive := drive }

/-- R207, R441, R442. I3C reads a register with status 0, and answers status 3 until it is up; it writes the cap within its
range and refuses another register with a logged fault. The TAP selects its instructions: IDCODE shifts the part's identity out,
SAMPLE and EXTEST load the boundary register, and EXTEST, CLAMP and HIGHZ drive the balls only with RESET_N low or in RECOVERY.
REGACC reads and writes the register space, and no memory. The model's choices it rests on: log entries 89 and 90. -/
def Obligations.Board : Prop :=
  (∀ (off : Nat) (s : State), OnI3c s → off < 0x2000000 → off % 8 = 0 →
    Completes (.i3cRead (regBase + off)) s fun u =>
      let bs := 0 :: natLe 8 (regWord s off)
      u = { s with out := .i3cData bs :: s.out, pins := { s.pins with i3cResult := bs } })
  ∧ (∀ (a : Nat) (s : State), Released s → s.us < s.boot.released + 1000 →
    Completes (.i3cRead a) s fun u =>
      let bs := 3 :: List.replicate 8 0
      u = { s with out := .i3cData bs :: s.out, pins := { s.pins with i3cResult := bs } })
  ∧ (∀ (v : Nat) (s : State), OnI3c s → 200 ≤ v % 2048 → v % 2048 ≤ 1600 →
    Completes (.i3cWrite (regBase + 0x20018) v) s fun u =>
      fld u F.PCC_CAP_cap = v % 2048 ∧ fld u F.PCC_CAP_i_limit = fld s F.PCC_CAP_i_limit ∧ u.pins.i3cResult = [0] ∧ MemSame s u
        ∧ u.pairs = s.pairs)
  ∧ (∀ (off v : Nat) (s : State), OnI3c s → off < 0x2000000 → off % 8 = 0 → off ≠ 0x20018 → off ≠ 0x20010 →
    Completes (.i3cWrite (regBase + off) v) s fun u =>
      u.pins.i3cResult = [1] ∧ u.log ≠ s.log ∧ Keeps logRegs [] s u ∧ MemSame s u ∧ u.pairs = s.pairs)
  ∧ (∀ (a : Nat) (s : State), OnI3c s →
    Completes (.i3cAddressAssign a) s fun u => u = { s with pins := { s.pins with i3cAddr := some (a % 128) } })
  ∧ (∀ s : State, Completes .tapReset s fun u => u = { s with pins := tap s 1 0 })
  ∧ (∀ s : State, Completes .idcode s fun u => u = { s with pins := tap s 1 0, out := .tdo 0x04800C6B :: s.out })
  ∧ (∀ (v : Nat) (s : State), Completes (.samplePreload v) s fun u =>
      ∃ x, u = { s with pins := { tap s 2 0 with boundary := v }, out := .tdo x :: s.out, freshCount := s.freshCount + 1 })
  ∧ (∀ (n v : Nat) (s : State), (s.boot.resetLow = true ∨ (s.inService = true ∧ fld s F.BOOT_STATUS_state = 3)) →
    (Completes (.extest n v) s fun u =>
      ∃ x, u = { s with pins := { tap s 0 1 with boundary := v }, out := .tdo x :: s.out, freshCount := s.freshCount + 1 })
    ∧ (Completes (.clamp n v) s fun u => u = { s with pins := tap s 4 1, out := .tdo (2 * v % 2 ^ n) :: s.out })
    ∧ Completes (.highz n v) s fun u => u = { s with pins := tap s 5 2, out := .tdo (2 * v % 2 ^ n) :: s.out })
  ∧ (∀ (n v : Nat) (s : State), s.boot.resetLow = false → fld s F.BOOT_STATUS_state ≠ 3 →
    (Completes (.extest n v) s fun u => u = { s with pins := tap s 0 0, out := .tdo (2 * v % 2 ^ n) :: s.out })
    ∧ (Completes (.clamp n v) s fun u => u = { s with pins := tap s 4 0, out := .tdo (2 * v % 2 ^ n) :: s.out })
    ∧ Completes (.highz n v) s fun u => u = { s with pins := tap s 5 0, out := .tdo (2 * v % 2 ^ n) :: s.out })
  ∧ (∀ (n v : Nat) (s : State),
    Completes (.bypass n v) s fun u => u = { s with pins := tap s 0xFF 0, out := .tdo (2 * v % 2 ^ n) :: s.out })
  ∧ (∀ (off : Nat) (s : State), Released s → s.boot.resetLow = false → off < 0x2000000 → off % 8 = 0 →
    Completes (.regaccRead (regBase + off)) s fun u =>
      let w := regWord s off % 2 ^ 64 + (regBase + off) * 2 ^ 64
      u = { s with pins := { tap s 0x20 0 with regacc := w }, out := .tdo w :: s.out })
  ∧ (∀ (off v : Nat) (s : State), Released s → s.boot.resetLow = false → off < 0x2000000 → off % 8 = 0 →
    Completes (.regaccWrite (regBase + off) v) s fun u =>
      ∃ t, exec (.registerWrite off 8 v 2) { s with pins := tap s 0x20 0 } = .next t ∧ u.regs = t.regs ∧ u.mem = t.mem
        ∧ u.pairs = t.pairs ∧ u.pins.regacc = (regBase + off) * 2 ^ 64)
  ∧ ∀ (a : Nat) (s : State), a < combBase + 64 * combBytes →
    Completes (.regaccRead a) s fun u =>
      u.pins.regacc = a * 2 ^ 64 + 3 * 2 ^ 108 ∧ u.still = { s.still with pins := u.pins } ∧ u.regs = s.regs

/-! ## The machine -/

/-- A step takes the command at the front of the queue and executes it with the queue's rest; on an empty queue the block idles,
which is the model's choice (log entry 1). -/
def Obligations.Steps : Prop :=
  (∀ (c : Instr) (q : List Instr) (s : State), s.pending = c :: q → step s = exec c { s with pending := q })
  ∧ ∀ s : State, s.pending = [] → step s = .next s

/-- Every command ends in a next state, and leaves the queue as it is. The model's choices it rests on: log entry 102. -/
def Obligations.QueueKept : Prop := ∀ (c : Instr) (s : State), ∃ u, exec c s = .next u ∧ u.pending = s.pending

/-- The rows that act on a part in full device reset: the pins, the TAP and time (R433–R435, R442). -/
def BoardRow (c : Instr) : Prop :=
  c = .pwrOkFall ∨ c = .pwrOkRise ∨ c = .resetNAssert ∨ (∃ q n b, c = .resetNRelease q n b) ∨ (∃ q n b, c = .releaseAfterPwrOk q n b)
    ∨ (∃ e w, c = .energyIntegrate e w) ∨ c = .tapReset ∨ (∃ n v, c = .extest n v) ∨ c = .idcode ∨ (∃ v, c = .samplePreload v)
    ∨ (∃ n v, c = .clamp n v) ∨ (∃ n v, c = .highz n v) ∨ (∃ n v, c = .bypass n v) ∨ (∃ a, c = .regaccRead a)
    ∨ ∃ a v, c = .regaccWrite a v

/-- The rows that run on the pair clocks: every score instruction of a pair, and the work of its units. -/
def ClockedRow (p : Pair) (c : Instr) : Prop :=
  c ∈ scoreRows p
    ∨ c ∈ [.scoreRefill p, .copyStart p, .walkDone p, .listFunctionDone p, .vecDone p, .waitRelease p, .quietRelease p]
    ∨ (∃ met, c ∈ [.accDone p met, .splitDone p met, .bprodDone p met, .drainDone p met, .modeChange p met, .foldDone p met, .chkmulDone p met])
    ∨ (∃ k, c = .copyDone p k) ∨ (∃ bs bad, c = .stageDone p bs bad) ∨ (∃ r met, c = .reedBlock p r met) ∨ (∃ r met, c = .reedClose p r met)
    ∨ (∃ r met, c = .reedEnd p r met) ∨ (∃ r bs bad met, c = .reedTask p r bs bad met) ∨ (∃ n, c = .foragerEntrySend p n)
    ∨ (∃ r es, c = .ringRefill p r es)
    ∨ (∃ e, c = .checkUnitDone p e) ∨ (∃ n, c = .dispatchDone p n) ∨ ∃ t, c = .gexDecode p t

/-- R361, R433, R434. In full device reset nothing but the pins, the TAP and time changes the part; a thermal trip has stopped
everything that runs on the pair clocks. The model's choices it rests on: log entry 92. -/
def Obligations.Stopped : Prop :=
  (∀ (c : Instr) (s : State), s.inService = false → ¬BoardRow c → exec c s = .next s)
  ∧ ∀ (p : Pair) (c : Instr) (s : State), s.thermTrip = true → ClockedRow p c → exec c s = .next s

/-- A part in full device reset holds what reset leaves: beside the fuses, the flash, the pins' levels and the TAP, time, the free values drawn
and what has left the part, every register, memory and unit is as State.reset has it; and a release falls due by itself only with
PWR_OK high and RESET_N high (R433, R434). -/
def InReset (s : State) : Prop :=
  s.inService = false →
    s = { State.reset with
          us := s.us, freshCount := s.freshCount, out := s.out, pending := s.pending, pins := s.pins
          boot := { flash := s.boot.flash, serial := s.boot.serial, owner := s.boot.owner, rollback := s.boot.rollback
                    revoked := s.boot.revoked, pwrOk := s.boot.pwrOk, resetLow := s.boot.resetLow, due := s.boot.due
                    lowSince := s.boot.lowSince } }
      ∧ (s.boot.due ≠ none → s.boot.pwrOk = true ∧ s.boot.resetLow = false)

/-- The state after reset is in full device reset, memory lists nothing, and a sample of registers hold their values after reset
by the tables of R52, R320, R342, R368, R399 and R426. The model's choices it rests on: log entries 11 to 14 and 100. -/
def Obligations.AfterReset : Prop :=
  InReset State.reset ∧ State.reset.inService = false ∧ State.reset.pending = [] ∧ State.reset.mem = [] ∧ Memory.wf State.reset.mem = true
    ∧ (∀ a, byteAt State.reset a = 0) ∧ (∀ x, marked State.reset x = false)
    ∧ (∀ n < 9, portState State.reset n = 0 ∧ fld State.reset F.PORT_CTRL_snr_min n = 136 ∧ fld State.reset F.PORT_CTRL_allow_x4 n = 1)
    ∧ (∀ h < 4, hiveState State.reset h = 3) ∧ (∀ p < 64, seqState State.reset p = 0 ∧ ∀ i, scalar State.reset p i = 0 ∧ semCount State.reset p i = 0)
    ∧ fld State.reset F.RL_LOG_PTR_ring_next = 32 ∧ fld State.reset F.RL_CTRL_auto_reset = 15 ∧ fld State.reset F.PCC_STATUS_duty = 8
    ∧ fld State.reset F.LINK_CTRL_max_hops = 48 ∧ fld State.reset F.HOST_CTRL_coalesce_us = 20 ∧ fld State.reset F.CTR_WINDOW_breaths = 16
    ∧ fld State.reset F.PCC_BRAKE_duty = 2 ∧ breathState State.reset = 0

/-- R433, R434. Whatever the step does, a part in full device reset holds what reset leaves. The model's choices it rests on:
log entries 5, 12 and 13. -/
def Obligations.ResetKept : Prop := ∀ s u : State, InReset s → step s = .next u → InReset u
end

