-- ==== Sys2Proof/Laws/Maps.lean ====
section
/-! SUPPORT. Sparse maps: what a read gives after a write, and that writes keep the canonical form. -/

namespace Sys2Proof.SMap

variable {α : Type}

/-- Every key of a sorted map is above a bound its first key is above. -/
def above (k : Nat) (m : SMap α) : Prop := ∀ e ∈ m, k < e.1

theorem sorted_cons {a : Nat} {v : α} {m : SMap α} : sorted ((a, v) :: m) = true ↔ above a m ∧ sorted m = true := by
  induction m generalizing a v with
  | nil => simp [sorted, above]
  | cons e m ih =>
    obtain ⟨b, w⟩ := e
    simp only [sorted, Bool.and_eq_true, decide_eq_true_eq, above, List.mem_cons, forall_eq_or_imp]
    constructor
    · rintro ⟨h, hs⟩
      exact ⟨⟨h, fun e he => lt_trans h ((ih.mp hs).1 e he)⟩, hs⟩
    · rintro ⟨⟨h, _⟩, hs⟩
      exact ⟨h, hs⟩

theorem get_of_above {d : α} {m : SMap α} {k : Nat} (h : above k m) : get d m k = d := by
  induction m with
  | nil => rfl
  | cons e m ih =>
    obtain ⟨a, v⟩ := e
    have ha : k < a := h (a, v) (by simp)
    simp only [get, if_neg (Nat.ne_of_gt ha)]
    exact ih (fun e he => h e (by simp [he]))

@[simp] theorem get_erase_self {d : α} {m : SMap α} {k : Nat} : get d (erase m k) k = d := by
  induction m with
  | nil => rfl
  | cons e m ih =>
    obtain ⟨a, v⟩ := e
    by_cases h : a = k <;> simp [erase, get, h, ih]

theorem get_erase_ne {d : α} {m : SMap α} {k j : Nat} (h : j ≠ k) : get d (erase m k) j = get d m j := by
  induction m with
  | nil => rfl
  | cons e m ih =>
    obtain ⟨a, v⟩ := e
    by_cases ha : a = k
    · have : a ≠ j := fun e => h (by omega)
      simp [erase, get, ha, ih, show k ≠ j from fun e => h e.symm]
    · simp only [erase, if_neg ha, get, ih]

@[simp] theorem get_insert_self {d : α} {m : SMap α} {k : Nat} {v : α} : get d (insert m k v) k = v := by
  induction m with
  | nil => simp [insert, get]
  | cons e m ih =>
    obtain ⟨a, w⟩ := e
    unfold insert
    split
    · simp [get]
    · split
      · simp [get]
      · rename_i h; simp [get, h, ih]

theorem get_insert_ne {d : α} {m : SMap α} {k j : Nat} {v : α} (h : j ≠ k) : get d (insert m k v) j = get d m j := by
  have h' : k ≠ j := fun e => h e.symm
  induction m with
  | nil => simp [insert, get, h']
  | cons e m ih =>
    obtain ⟨a, w⟩ := e
    unfold insert
    split
    · simp [get, h']
    · split
      · rename_i ha; subst ha; simp [get, h']
      · by_cases hj : a = j <;> simp [get, hj, ih]

/-- A read after a write of the same key gives the value written. -/
@[simp] theorem get_set_self [DecidableEq α] {d : α} {m : SMap α} {k : Nat} {v : α} : get d (set d m k v) k = v := by
  unfold set
  split
  · rename_i h; simp [h]
  · simp

/-- A write leaves every other key alone, whatever an unlisted one reads as. -/
theorem get_set_ne [DecidableEq α] {d b : α} {m : SMap α} {k j : Nat} {v : α} (h : j ≠ k) :
    get b (set d m k v) j = get b m j := by
  unfold set
  split
  · exact get_erase_ne h
  · exact get_insert_ne h

theorem mem_erase {m : SMap α} {k : Nat} {e : Nat × α} (h : e ∈ erase m k) : e ∈ m := by
  induction m with
  | nil => simp [erase] at h
  | cons x m ih =>
    obtain ⟨a, v⟩ := x
    by_cases ha : a = k
    · exact List.mem_cons_of_mem _ (ih (by simpa [erase, ha] using h))
    · rcases (by simpa [erase, ha] using h : e = (a, v) ∨ e ∈ erase m k) with h | h
      · simp [h]
      · exact List.mem_cons_of_mem _ (ih h)

theorem mem_insert {m : SMap α} {k : Nat} {v : α} {e : Nat × α} (h : e ∈ insert m k v) : e = (k, v) ∨ e ∈ m := by
  induction m with
  | nil => simpa [insert] using h
  | cons x m ih =>
    obtain ⟨a, w⟩ := x
    unfold insert at h
    split at h
    · simpa using h
    · split at h
      · rcases List.mem_cons.mp h with h | h <;> simp [h]
      · rcases List.mem_cons.mp h with h | h
        · simp [h]
        · rcases ih h with h | h <;> simp [h]

theorem sorted_erase {m : SMap α} {k : Nat} (h : sorted m = true) : sorted (erase m k) = true := by
  induction m with
  | nil => rfl
  | cons x m ih =>
    obtain ⟨a, v⟩ := x
    obtain ⟨h1, h2⟩ := sorted_cons.mp h
    by_cases ha : a = k
    · simpa [erase, ha] using ih h2
    · simp only [erase, if_neg ha]
      exact sorted_cons.mpr ⟨fun e he => h1 e (mem_erase he), ih h2⟩

theorem sorted_insert {m : SMap α} {k : Nat} {v : α} (h : sorted m = true) : sorted (insert m k v) = true := by
  induction m with
  | nil => rfl
  | cons x m ih =>
    obtain ⟨a, w⟩ := x
    obtain ⟨h1, h2⟩ := sorted_cons.mp h
    unfold insert
    split
    · rename_i hk
      exact sorted_cons.mpr ⟨by
        intro e he
        rcases List.mem_cons.mp he with he | he
        · simpa [he] using hk
        · exact lt_trans hk (h1 e he), h⟩
    · split
      · rename_i ha; subst ha
        exact sorted_cons.mpr ⟨h1, h2⟩
      · rename_i hk ha
        refine sorted_cons.mpr ⟨?_, ih h2⟩
        intro e he
        rcases mem_insert he with he | he
        · simp only [he]; omega
        · exact h1 e he

theorem wf_iff [DecidableEq α] {d : α} {m : SMap α} : wf d m = true ↔ sorted m = true ∧ ∀ e ∈ m, e.2 ≠ d := by
  simp [wf]

/-- A write keeps the canonical form. -/
theorem wf_set [DecidableEq α] {d : α} {m : SMap α} {k : Nat} {v : α} (h : wf d m = true) : wf d (set d m k v) = true := by
  obtain ⟨h1, h2⟩ := wf_iff.mp h
  unfold set
  split
  · exact wf_iff.mpr ⟨sorted_erase h1, fun e he => h2 e (mem_erase he)⟩
  · rename_i hv
    refine wf_iff.mpr ⟨sorted_insert h1, fun e he => ?_⟩
    rcases mem_insert he with he | he
    · simpa [he] using hv
    · exact h2 e he

theorem wf_erase [DecidableEq α] {d : α} {m : SMap α} {k : Nat} (h : wf d m = true) : wf d (erase m k) = true := by
  obtain ⟨h1, h2⟩ := wf_iff.mp h
  exact wf_iff.mpr ⟨sorted_erase h1, fun e he => h2 e (mem_erase he)⟩

theorem sorted_filter {m : SMap α} {q : Nat × α → Bool} (h : sorted m = true) : sorted (m.filter q) = true := by
  induction m with
  | nil => rfl
  | cons x m ih =>
    obtain ⟨a, v⟩ := x
    obtain ⟨h1, h2⟩ := sorted_cons.mp h
    by_cases hq : q (a, v)
    · simp only [List.filter_cons, hq, if_true]
      exact sorted_cons.mpr ⟨fun e he => h1 e (List.mem_of_mem_filter he), ih h2⟩
    · simpa [List.filter_cons, hq] using ih h2

theorem wf_filter [DecidableEq α] {d : α} {m : SMap α} {q : Nat × α → Bool} (h : wf d m = true) : wf d (m.filter q) = true := by
  obtain ⟨h1, h2⟩ := wf_iff.mp h
  exact wf_iff.mpr ⟨sorted_filter h1, fun e he => h2 e (List.mem_of_mem_filter he)⟩

/-- Dropping keys keeps the canonical form. -/
theorem wf_dropKeys [DecidableEq α] {d : α} {m : SMap α} {q : Nat → Bool} (h : wf d m = true) : wf d (dropKeys m q) = true :=
  wf_filter h

end Sys2Proof.SMap
end

