-- ==== Sys2Proof/Laws/Regs.lean ====
section
/-! SUPPORT. Registers and fields: what a read gives after a write. -/

namespace Sys2Proof.Machine

/-! ## Masks and fields of a word -/

theorem getLsbD_maskW (hi lo k : Nat) : (maskW hi lo).getLsbD k = (decide (k < 64) && decide (lo ≤ k) && decide (k ≤ hi)) := by
  unfold maskW
  rw [BitVec.getLsbD_ofNat, Nat.mul_comm, Nat.testBit_two_pow_mul, Nat.testBit_two_pow_sub_one]
  by_cases h1 : k < 64 <;> by_cases h2 : lo ≤ k <;> simp [h1, h2]
  omega

/-- A field lies within the word and in its register's mask: decided for each field. -/
def Fld.ok (f : Fld) : Bool := decide (f.lo ≤ f.hi) && decide (f.hi < 64) && decide (f.reg.fieldMask &&& maskW f.hi f.lo = maskW f.hi f.lo)

theorem Fld.mask_bit {f : Fld} (h : f.ok = true) {k : Nat} (h1 : f.lo ≤ k) (h2 : k ≤ f.hi) : f.reg.fieldMask.getLsbD k = true := by
  simp only [Fld.ok, Bool.and_eq_true, decide_eq_true_eq] at h
  have hb := congrArg (fun w => w.getLsbD k) h.2
  simp only [BitVec.getLsbD_and, getLsbD_maskW] at hb
  have : k < 64 := by omega
  simpa [h1, h2, this] using hb

theorem getLsbD_putField (f : Fld) (v : Nat) (w : Word) {k : Nat} (hk : k < 64) :
    (putField f v w).getLsbD k = if f.lo ≤ k ∧ k ≤ f.hi then v.testBit (k - f.lo) else w.getLsbD k := by
  unfold putField
  simp only [BitVec.getLsbD_or, BitVec.getLsbD_and, BitVec.getLsbD_not, getLsbD_maskW, BitVec.getLsbD_shiftLeft,
    BitVec.getLsbD_ofNat, hk, decide_true, Bool.true_and]
  by_cases h1 : f.lo ≤ k
  · have : ¬ k < f.lo := by omega
    have : k - f.lo < 64 := by omega
    by_cases h2 : k ≤ f.hi <;> simp [*]
  · simp [h1]

/-- A field read after its own write: the value, cut to the field's width. -/
theorem getField_putField {f : Fld} (h : f.ok = true) (v : Nat) (w : Word) :
    getField f (putField f v w &&& f.reg.fieldMask) = v % 2 ^ f.width := by
  have hm := @Fld.mask_bit f h
  simp only [Fld.ok, Bool.and_eq_true, decide_eq_true_eq] at h
  have e : (putField f v w &&& f.reg.fieldMask &&& maskW f.hi f.lo) >>> f.lo = BitVec.ofNat 64 (v % 2 ^ f.width) := by
    apply BitVec.eq_of_getLsbD_eq
    intro k hk
    simp only [BitVec.getLsbD_ushiftRight, BitVec.getLsbD_and, getLsbD_maskW, BitVec.getLsbD_ofNat, hk, decide_true, Bool.true_and,
      Nat.testBit_mod_two_pow, Fld.width]
    by_cases h1 : f.lo + k ≤ f.hi
    · have h64 : f.lo + k < 64 := by omega
      rw [getLsbD_putField f v w h64, hm (by omega) h1]
      simp [h1, h64, show k < f.hi + 1 - f.lo by omega]
    · simp [h1, show ¬ k < f.hi + 1 - f.lo by omega]
  have h64 : v % 2 ^ f.width < 2 ^ 64 :=
    lt_of_lt_of_le (Nat.mod_lt _ (by positivity)) (Nat.pow_le_pow_right (by norm_num) (by unfold Fld.width; omega))
  unfold getField
  rw [e, BitVec.toNat_ofNat, Nat.mod_eq_of_lt h64]

/-- A field read after the write of another field of the register. -/
theorem getField_putField_ne {f g : Fld} (hr : f.reg = g.reg) (h : g.ok = true) (hd : f.hi < g.lo ∨ g.hi < f.lo) (v : Nat) (w : Word) :
    getField g (putField f v w &&& f.reg.fieldMask) = getField g w := by
  have hm := @Fld.mask_bit g h
  simp only [Fld.ok, Bool.and_eq_true, decide_eq_true_eq] at h
  unfold getField
  congr 1
  apply BitVec.eq_of_getLsbD_eq
  intro k hk
  simp only [BitVec.getLsbD_ushiftRight, BitVec.getLsbD_and, getLsbD_maskW]
  by_cases h1 : g.lo + k ≤ g.hi
  · have h64 : g.lo + k < 64 := by omega
    rw [getLsbD_putField f v w h64, hr, hm (by omega) h1, if_neg (by omega)]
    simp
  · simp [h1]

/-! ## Register keys -/

theorem Reg.code_inj {r q : Reg} (h : r.code = q.code) : r = q := by
  have e := congrArg Reg.ofNat h
  simpa only [Reg.code, Reg.ofNat_ctorIdx] using e

theorem Reg.code_lt (r : Reg) : r.code < 256 := by
  cases r <;> decide

theorem regKey_ne {r q : Reg} {i j : Nat} (h : r ≠ q ∨ i ≠ j) : regKey q j ≠ regKey r i := by
  intro e
  have h1 := r.code_lt
  have h2 := q.code_lt
  unfold regKey at e
  have hc : q.code = r.code := by omega
  rcases h with h | h
  · exact h (Reg.code_inj hc).symm
  · omega

/-! ## Registers -/

@[simp] theorem reg_setReg_self (r : Reg) (i : Nat) (w : Word) (s : State) : reg (setReg r i w s) r i = w &&& r.fieldMask := by
  simp [reg, setReg]

theorem reg_setReg_ne {r q : Reg} {i j : Nat} (w : Word) (s : State) (h : r ≠ q ∨ i ≠ j) :
    reg (setReg r i w s) q j = reg s q j := by
  unfold reg setReg
  exact SMap.get_set_ne (α := Word) (regKey_ne h)

/-- A field read after its own write. -/
theorem fld_setFld_self {f : Fld} (h : f.ok = true) (i v : Nat) (s : State) : fld (setFld f i v s) f i = v % 2 ^ f.width := by
  simp only [fld, setFld, reg_setReg_self]
  exact getField_putField h v _

/-- A field of the same register read after the write of another. -/
theorem fld_setFld_same {f g : Fld} (hr : f.reg = g.reg) (h : g.ok = true) (hd : f.hi < g.lo ∨ g.hi < f.lo) (i v : Nat) (s : State) :
    fld (setFld f i v s) g i = fld s g i := by
  simp only [fld, setFld, ← hr, reg_setReg_self]
  exact getField_putField_ne hr h hd v _

/-- A register that the write does not name. -/
theorem reg_setFld_ne {f : Fld} {q : Reg} {i j : Nat} (v : Nat) (s : State)
    (h : f.reg ≠ q ∨ i ≠ j) : reg (setFld f i v s) q j = reg s q j :=
  reg_setReg_ne _ s h

theorem fld_setFld_ne {f g : Fld} {i j : Nat} (v : Nat) (s : State)
    (h : f.reg ≠ g.reg ∨ i ≠ j) : fld (setFld f i v s) g j = fld s g j := by
  simp only [fld, reg_setFld_ne v s h]

/-! ## Pairs -/

@[simp] theorem pair_modPair_self (p : Nat) (f : PairS → PairS) (s : State) : pair (modPair p f s) p = f (pair s p) := by
  simp [pair, modPair]

theorem pair_modPair_ne {p q : Nat} (f : PairS → PairS) (s : State) (h : q ≠ p) : pair (modPair p f s) q = pair s q := by
  simp only [pair, modPair]
  exact SMap.get_set_ne h

end Sys2Proof.Machine
end

