-- ==== Sys2Proof/Laws/State.lean ====
section
/-! SUPPORT. What an update leaves alone, field by field: true by definition. -/

namespace Sys2Proof.Machine

variable (s : State)

@[simp] theorem setReg_mem (r : Reg) (i : Nat) (w : Word) : (setReg r i w s).mem = s.mem := rfl
@[simp] theorem setReg_poison (r : Reg) (i : Nat) (w : Word) : (setReg r i w s).poison = s.poison := rfl
@[simp] theorem setReg_filled (r : Reg) (i : Nat) (w : Word) : (setReg r i w s).filled = s.filled := rfl
@[simp] theorem setReg_us (r : Reg) (i : Nat) (w : Word) : (setReg r i w s).us = s.us := rfl
@[simp] theorem setReg_pairs (r : Reg) (i : Nat) (w : Word) : (setReg r i w s).pairs = s.pairs := rfl
@[simp] theorem setReg_windowLoads (r : Reg) (i : Nat) (w : Word) : (setReg r i w s).windowLoads = s.windowLoads := rfl
@[simp] theorem setReg_log (r : Reg) (i : Nat) (w : Word) : (setReg r i w s).log = s.log := rfl
@[simp] theorem setReg_eventTimes (r : Reg) (i : Nat) (w : Word) : (setReg r i w s).eventTimes = s.eventTimes := rfl
@[simp] theorem setReg_eventDrops (r : Reg) (i : Nat) (w : Word) : (setReg r i w s).eventDrops = s.eventDrops := rfl
@[simp] theorem setReg_heldEvents (r : Reg) (i : Nat) (w : Word) : (setReg r i w s).heldEvents = s.heldEvents := rfl
@[simp] theorem setReg_pendingFaults (r : Reg) (i : Nat) (w : Word) : (setReg r i w s).pendingFaults = s.pendingFaults := rfl
@[simp] theorem setReg_pcieD3 (r : Reg) (i : Nat) (w : Word) : (setReg r i w s).pcieD3 = s.pcieD3 := rfl
@[simp] theorem setReg_pcieUp (r : Reg) (i : Nat) (w : Word) : (setReg r i w s).pcieUp = s.pcieUp := rfl
@[simp] theorem setReg_newRecords (r : Reg) (i : Nat) (w : Word) : (setReg r i w s).newRecords = s.newRecords := rfl
@[simp] theorem setReg_adopted (r : Reg) (i : Nat) (w : Word) : (setReg r i w s).adopted = s.adopted := rfl
@[simp] theorem setReg_inService (r : Reg) (i : Nat) (w : Word) : (setReg r i w s).inService = s.inService := rfl
@[simp] theorem setReg_thermTrip (r : Reg) (i : Nat) (w : Word) : (setReg r i w s).thermTrip = s.thermTrip := rfl
@[simp] theorem setReg_mpHeldReset (r : Reg) (i : Nat) (w : Word) : (setReg r i w s).mpHeldReset = s.mpHeldReset := rfl
@[simp] theorem setReg_freshCount (r : Reg) (i : Nat) (w : Word) : (setReg r i w s).freshCount = s.freshCount := rfl
@[simp] theorem setReg_requests (r : Reg) (i : Nat) (w : Word) : (setReg r i w s).requests = s.requests := rfl
@[simp] theorem setReg_nextReq (r : Reg) (i : Nat) (w : Word) : (setReg r i w s).nextReq = s.nextReq := rfl
@[simp] theorem setReg_hubHeld (r : Reg) (i : Nat) (w : Word) : (setReg r i w s).hubHeld = s.hubHeld := rfl
@[simp] theorem setReg_partsIn (r : Reg) (i : Nat) (w : Word) : (setReg r i w s).partsIn = s.partsIn := rfl
@[simp] theorem setReg_ports (r : Reg) (i : Nat) (w : Word) : (setReg r i w s).ports = s.ports := rfl
@[simp] theorem setReg_spurRoute (r : Reg) (i : Nat) (w : Word) : (setReg r i w s).spurRoute = s.spurRoute := rfl
@[simp] theorem setReg_exclPending (r : Reg) (i : Nat) (w : Word) : (setReg r i w s).exclPending = s.exclPending := rfl
@[simp] theorem setReg_norms (r : Reg) (i : Nat) (w : Word) : (setReg r i w s).norms = s.norms := rfl
@[simp] theorem setReg_normRoots (r : Reg) (i : Nat) (w : Word) : (setReg r i w s).normRoots = s.normRoots := rfl
@[simp] theorem setReg_collHeld (r : Reg) (i : Nat) (w : Word) : (setReg r i w s).collHeld = s.collHeld := rfl
@[simp] theorem setReg_biasShadow (r : Reg) (i : Nat) (w : Word) : (setReg r i w s).biasShadow = s.biasShadow := rfl
@[simp] theorem setReg_biasHost (r : Reg) (i : Nat) (w : Word) : (setReg r i w s).biasHost = s.biasHost := rfl
@[simp] theorem setReg_biasHostBreath (r : Reg) (i : Nat) (w : Word) : (setReg r i w s).biasHostBreath = s.biasHostBreath := rfl
@[simp] theorem setReg_winNext (r : Reg) (i : Nat) (w : Word) : (setReg r i w s).winNext = s.winNext := rfl
@[simp] theorem setReg_winClosed (r : Reg) (i : Nat) (w : Word) : (setReg r i w s).winClosed = s.winClosed := rfl
@[simp] theorem setReg_winTotals (r : Reg) (i : Nat) (w : Word) : (setReg r i w s).winTotals = s.winTotals := rfl
@[simp] theorem setReg_libVersion (r : Reg) (i : Nat) (w : Word) : (setReg r i w s).libVersion = s.libVersion := rfl
@[simp] theorem setReg_library (r : Reg) (i : Nat) (w : Word) : (setReg r i w s).library = s.library := rfl
@[simp] theorem setReg_libNext (r : Reg) (i : Nat) (w : Word) : (setReg r i w s).libNext = s.libNext := rfl
@[simp] theorem setReg_libPending (r : Reg) (i : Nat) (w : Word) : (setReg r i w s).libPending = s.libPending := rfl
@[simp] theorem setReg_breath (r : Reg) (i : Nat) (w : Word) : (setReg r i w s).breath = s.breath := rfl
@[simp] theorem setReg_chans (r : Reg) (i : Nat) (w : Word) : (setReg r i w s).chans = s.chans := rfl
@[simp] theorem setReg_hives (r : Reg) (i : Nat) (w : Word) : (setReg r i w s).hives = s.hives := rfl
@[simp] theorem setReg_memTraining (r : Reg) (i : Nat) (w : Word) : (setReg r i w s).memTraining = s.memTraining := rfl
@[simp] theorem setReg_memUp (r : Reg) (i : Nat) (w : Word) : (setReg r i w s).memUp = s.memUp := rfl
@[simp] theorem setReg_power (r : Reg) (i : Nat) (w : Word) : (setReg r i w s).power = s.power := rfl
@[simp] theorem setReg_counters (r : Reg) (i : Nat) (w : Word) : (setReg r i w s).counters = s.counters := rfl
@[simp] theorem setReg_mp (r : Reg) (i : Nat) (w : Word) : (setReg r i w s).mp = s.mp := rfl
@[simp] theorem setReg_boot (r : Reg) (i : Nat) (w : Word) : (setReg r i w s).boot = s.boot := rfl
@[simp] theorem setReg_groups (r : Reg) (i : Nat) (w : Word) : (setReg r i w s).groups = s.groups := rfl
@[simp] theorem setReg_host (r : Reg) (i : Nat) (w : Word) : (setReg r i w s).host = s.host := rfl
@[simp] theorem setReg_pins (r : Reg) (i : Nat) (w : Word) : (setReg r i w s).pins = s.pins := rfl
@[simp] theorem setReg_out (r : Reg) (i : Nat) (w : Word) : (setReg r i w s).out = s.out := rfl
@[simp] theorem setReg_pending (r : Reg) (i : Nat) (w : Word) : (setReg r i w s).pending = s.pending := rfl

@[simp] theorem setFld_mem (f : Fld) (i v : Nat) : (setFld f i v s).mem = s.mem := rfl
@[simp] theorem setFld_poison (f : Fld) (i v : Nat) : (setFld f i v s).poison = s.poison := rfl
@[simp] theorem setFld_filled (f : Fld) (i v : Nat) : (setFld f i v s).filled = s.filled := rfl
@[simp] theorem setFld_us (f : Fld) (i v : Nat) : (setFld f i v s).us = s.us := rfl
@[simp] theorem setFld_pairs (f : Fld) (i v : Nat) : (setFld f i v s).pairs = s.pairs := rfl
@[simp] theorem setFld_windowLoads (f : Fld) (i v : Nat) : (setFld f i v s).windowLoads = s.windowLoads := rfl
@[simp] theorem setFld_log (f : Fld) (i v : Nat) : (setFld f i v s).log = s.log := rfl
@[simp] theorem setFld_eventTimes (f : Fld) (i v : Nat) : (setFld f i v s).eventTimes = s.eventTimes := rfl
@[simp] theorem setFld_eventDrops (f : Fld) (i v : Nat) : (setFld f i v s).eventDrops = s.eventDrops := rfl
@[simp] theorem setFld_heldEvents (f : Fld) (i v : Nat) : (setFld f i v s).heldEvents = s.heldEvents := rfl
@[simp] theorem setFld_pendingFaults (f : Fld) (i v : Nat) : (setFld f i v s).pendingFaults = s.pendingFaults := rfl
@[simp] theorem setFld_pcieD3 (f : Fld) (i v : Nat) : (setFld f i v s).pcieD3 = s.pcieD3 := rfl
@[simp] theorem setFld_pcieUp (f : Fld) (i v : Nat) : (setFld f i v s).pcieUp = s.pcieUp := rfl
@[simp] theorem setFld_newRecords (f : Fld) (i v : Nat) : (setFld f i v s).newRecords = s.newRecords := rfl
@[simp] theorem setFld_adopted (f : Fld) (i v : Nat) : (setFld f i v s).adopted = s.adopted := rfl
@[simp] theorem setFld_inService (f : Fld) (i v : Nat) : (setFld f i v s).inService = s.inService := rfl
@[simp] theorem setFld_thermTrip (f : Fld) (i v : Nat) : (setFld f i v s).thermTrip = s.thermTrip := rfl
@[simp] theorem setFld_mpHeldReset (f : Fld) (i v : Nat) : (setFld f i v s).mpHeldReset = s.mpHeldReset := rfl
@[simp] theorem setFld_freshCount (f : Fld) (i v : Nat) : (setFld f i v s).freshCount = s.freshCount := rfl
@[simp] theorem setFld_requests (f : Fld) (i v : Nat) : (setFld f i v s).requests = s.requests := rfl
@[simp] theorem setFld_nextReq (f : Fld) (i v : Nat) : (setFld f i v s).nextReq = s.nextReq := rfl
@[simp] theorem setFld_hubHeld (f : Fld) (i v : Nat) : (setFld f i v s).hubHeld = s.hubHeld := rfl
@[simp] theorem setFld_partsIn (f : Fld) (i v : Nat) : (setFld f i v s).partsIn = s.partsIn := rfl
@[simp] theorem setFld_ports (f : Fld) (i v : Nat) : (setFld f i v s).ports = s.ports := rfl
@[simp] theorem setFld_spurRoute (f : Fld) (i v : Nat) : (setFld f i v s).spurRoute = s.spurRoute := rfl
@[simp] theorem setFld_exclPending (f : Fld) (i v : Nat) : (setFld f i v s).exclPending = s.exclPending := rfl
@[simp] theorem setFld_norms (f : Fld) (i v : Nat) : (setFld f i v s).norms = s.norms := rfl
@[simp] theorem setFld_normRoots (f : Fld) (i v : Nat) : (setFld f i v s).normRoots = s.normRoots := rfl
@[simp] theorem setFld_collHeld (f : Fld) (i v : Nat) : (setFld f i v s).collHeld = s.collHeld := rfl
@[simp] theorem setFld_biasShadow (f : Fld) (i v : Nat) : (setFld f i v s).biasShadow = s.biasShadow := rfl
@[simp] theorem setFld_biasHost (f : Fld) (i v : Nat) : (setFld f i v s).biasHost = s.biasHost := rfl
@[simp] theorem setFld_biasHostBreath (f : Fld) (i v : Nat) : (setFld f i v s).biasHostBreath = s.biasHostBreath := rfl
@[simp] theorem setFld_winNext (f : Fld) (i v : Nat) : (setFld f i v s).winNext = s.winNext := rfl
@[simp] theorem setFld_winClosed (f : Fld) (i v : Nat) : (setFld f i v s).winClosed = s.winClosed := rfl
@[simp] theorem setFld_winTotals (f : Fld) (i v : Nat) : (setFld f i v s).winTotals = s.winTotals := rfl
@[simp] theorem setFld_libVersion (f : Fld) (i v : Nat) : (setFld f i v s).libVersion = s.libVersion := rfl
@[simp] theorem setFld_library (f : Fld) (i v : Nat) : (setFld f i v s).library = s.library := rfl
@[simp] theorem setFld_libNext (f : Fld) (i v : Nat) : (setFld f i v s).libNext = s.libNext := rfl
@[simp] theorem setFld_libPending (f : Fld) (i v : Nat) : (setFld f i v s).libPending = s.libPending := rfl
@[simp] theorem setFld_breath (f : Fld) (i v : Nat) : (setFld f i v s).breath = s.breath := rfl
@[simp] theorem setFld_chans (f : Fld) (i v : Nat) : (setFld f i v s).chans = s.chans := rfl
@[simp] theorem setFld_hives (f : Fld) (i v : Nat) : (setFld f i v s).hives = s.hives := rfl
@[simp] theorem setFld_memTraining (f : Fld) (i v : Nat) : (setFld f i v s).memTraining = s.memTraining := rfl
@[simp] theorem setFld_memUp (f : Fld) (i v : Nat) : (setFld f i v s).memUp = s.memUp := rfl
@[simp] theorem setFld_power (f : Fld) (i v : Nat) : (setFld f i v s).power = s.power := rfl
@[simp] theorem setFld_counters (f : Fld) (i v : Nat) : (setFld f i v s).counters = s.counters := rfl
@[simp] theorem setFld_mp (f : Fld) (i v : Nat) : (setFld f i v s).mp = s.mp := rfl
@[simp] theorem setFld_boot (f : Fld) (i v : Nat) : (setFld f i v s).boot = s.boot := rfl
@[simp] theorem setFld_groups (f : Fld) (i v : Nat) : (setFld f i v s).groups = s.groups := rfl
@[simp] theorem setFld_host (f : Fld) (i v : Nat) : (setFld f i v s).host = s.host := rfl
@[simp] theorem setFld_pins (f : Fld) (i v : Nat) : (setFld f i v s).pins = s.pins := rfl
@[simp] theorem setFld_out (f : Fld) (i v : Nat) : (setFld f i v s).out = s.out := rfl
@[simp] theorem setFld_pending (f : Fld) (i v : Nat) : (setFld f i v s).pending = s.pending := rfl

@[simp] theorem raise_mem (f : Fld) (i : Nat) : (raise f i s).mem = s.mem := rfl
@[simp] theorem raise_poison (f : Fld) (i : Nat) : (raise f i s).poison = s.poison := rfl
@[simp] theorem raise_filled (f : Fld) (i : Nat) : (raise f i s).filled = s.filled := rfl
@[simp] theorem raise_us (f : Fld) (i : Nat) : (raise f i s).us = s.us := rfl
@[simp] theorem raise_pairs (f : Fld) (i : Nat) : (raise f i s).pairs = s.pairs := rfl
@[simp] theorem raise_windowLoads (f : Fld) (i : Nat) : (raise f i s).windowLoads = s.windowLoads := rfl
@[simp] theorem raise_log (f : Fld) (i : Nat) : (raise f i s).log = s.log := rfl
@[simp] theorem raise_eventTimes (f : Fld) (i : Nat) : (raise f i s).eventTimes = s.eventTimes := rfl
@[simp] theorem raise_eventDrops (f : Fld) (i : Nat) : (raise f i s).eventDrops = s.eventDrops := rfl
@[simp] theorem raise_heldEvents (f : Fld) (i : Nat) : (raise f i s).heldEvents = s.heldEvents := rfl
@[simp] theorem raise_pendingFaults (f : Fld) (i : Nat) : (raise f i s).pendingFaults = s.pendingFaults := rfl
@[simp] theorem raise_pcieD3 (f : Fld) (i : Nat) : (raise f i s).pcieD3 = s.pcieD3 := rfl
@[simp] theorem raise_pcieUp (f : Fld) (i : Nat) : (raise f i s).pcieUp = s.pcieUp := rfl
@[simp] theorem raise_newRecords (f : Fld) (i : Nat) : (raise f i s).newRecords = s.newRecords := rfl
@[simp] theorem raise_adopted (f : Fld) (i : Nat) : (raise f i s).adopted = s.adopted := rfl
@[simp] theorem raise_inService (f : Fld) (i : Nat) : (raise f i s).inService = s.inService := rfl
@[simp] theorem raise_thermTrip (f : Fld) (i : Nat) : (raise f i s).thermTrip = s.thermTrip := rfl
@[simp] theorem raise_mpHeldReset (f : Fld) (i : Nat) : (raise f i s).mpHeldReset = s.mpHeldReset := rfl
@[simp] theorem raise_freshCount (f : Fld) (i : Nat) : (raise f i s).freshCount = s.freshCount := rfl
@[simp] theorem raise_requests (f : Fld) (i : Nat) : (raise f i s).requests = s.requests := rfl
@[simp] theorem raise_nextReq (f : Fld) (i : Nat) : (raise f i s).nextReq = s.nextReq := rfl
@[simp] theorem raise_hubHeld (f : Fld) (i : Nat) : (raise f i s).hubHeld = s.hubHeld := rfl
@[simp] theorem raise_partsIn (f : Fld) (i : Nat) : (raise f i s).partsIn = s.partsIn := rfl
@[simp] theorem raise_ports (f : Fld) (i : Nat) : (raise f i s).ports = s.ports := rfl
@[simp] theorem raise_spurRoute (f : Fld) (i : Nat) : (raise f i s).spurRoute = s.spurRoute := rfl
@[simp] theorem raise_exclPending (f : Fld) (i : Nat) : (raise f i s).exclPending = s.exclPending := rfl
@[simp] theorem raise_norms (f : Fld) (i : Nat) : (raise f i s).norms = s.norms := rfl
@[simp] theorem raise_normRoots (f : Fld) (i : Nat) : (raise f i s).normRoots = s.normRoots := rfl
@[simp] theorem raise_collHeld (f : Fld) (i : Nat) : (raise f i s).collHeld = s.collHeld := rfl
@[simp] theorem raise_biasShadow (f : Fld) (i : Nat) : (raise f i s).biasShadow = s.biasShadow := rfl
@[simp] theorem raise_biasHost (f : Fld) (i : Nat) : (raise f i s).biasHost = s.biasHost := rfl
@[simp] theorem raise_biasHostBreath (f : Fld) (i : Nat) : (raise f i s).biasHostBreath = s.biasHostBreath := rfl
@[simp] theorem raise_winNext (f : Fld) (i : Nat) : (raise f i s).winNext = s.winNext := rfl
@[simp] theorem raise_winClosed (f : Fld) (i : Nat) : (raise f i s).winClosed = s.winClosed := rfl
@[simp] theorem raise_winTotals (f : Fld) (i : Nat) : (raise f i s).winTotals = s.winTotals := rfl
@[simp] theorem raise_libVersion (f : Fld) (i : Nat) : (raise f i s).libVersion = s.libVersion := rfl
@[simp] theorem raise_library (f : Fld) (i : Nat) : (raise f i s).library = s.library := rfl
@[simp] theorem raise_libNext (f : Fld) (i : Nat) : (raise f i s).libNext = s.libNext := rfl
@[simp] theorem raise_libPending (f : Fld) (i : Nat) : (raise f i s).libPending = s.libPending := rfl
@[simp] theorem raise_breath (f : Fld) (i : Nat) : (raise f i s).breath = s.breath := rfl
@[simp] theorem raise_chans (f : Fld) (i : Nat) : (raise f i s).chans = s.chans := rfl
@[simp] theorem raise_hives (f : Fld) (i : Nat) : (raise f i s).hives = s.hives := rfl
@[simp] theorem raise_memTraining (f : Fld) (i : Nat) : (raise f i s).memTraining = s.memTraining := rfl
@[simp] theorem raise_memUp (f : Fld) (i : Nat) : (raise f i s).memUp = s.memUp := rfl
@[simp] theorem raise_power (f : Fld) (i : Nat) : (raise f i s).power = s.power := rfl
@[simp] theorem raise_counters (f : Fld) (i : Nat) : (raise f i s).counters = s.counters := rfl
@[simp] theorem raise_mp (f : Fld) (i : Nat) : (raise f i s).mp = s.mp := rfl
@[simp] theorem raise_boot (f : Fld) (i : Nat) : (raise f i s).boot = s.boot := rfl
@[simp] theorem raise_groups (f : Fld) (i : Nat) : (raise f i s).groups = s.groups := rfl
@[simp] theorem raise_host (f : Fld) (i : Nat) : (raise f i s).host = s.host := rfl
@[simp] theorem raise_pins (f : Fld) (i : Nat) : (raise f i s).pins = s.pins := rfl
@[simp] theorem raise_out (f : Fld) (i : Nat) : (raise f i s).out = s.out := rfl
@[simp] theorem raise_pending (f : Fld) (i : Nat) : (raise f i s).pending = s.pending := rfl

@[simp] theorem satAddFld_mem (f : Fld) (i n : Nat) : (satAddFld f i n s).mem = s.mem := rfl
@[simp] theorem satAddFld_poison (f : Fld) (i n : Nat) : (satAddFld f i n s).poison = s.poison := rfl
@[simp] theorem satAddFld_filled (f : Fld) (i n : Nat) : (satAddFld f i n s).filled = s.filled := rfl
@[simp] theorem satAddFld_us (f : Fld) (i n : Nat) : (satAddFld f i n s).us = s.us := rfl
@[simp] theorem satAddFld_pairs (f : Fld) (i n : Nat) : (satAddFld f i n s).pairs = s.pairs := rfl
@[simp] theorem satAddFld_windowLoads (f : Fld) (i n : Nat) : (satAddFld f i n s).windowLoads = s.windowLoads := rfl
@[simp] theorem satAddFld_log (f : Fld) (i n : Nat) : (satAddFld f i n s).log = s.log := rfl
@[simp] theorem satAddFld_eventTimes (f : Fld) (i n : Nat) : (satAddFld f i n s).eventTimes = s.eventTimes := rfl
@[simp] theorem satAddFld_eventDrops (f : Fld) (i n : Nat) : (satAddFld f i n s).eventDrops = s.eventDrops := rfl
@[simp] theorem satAddFld_heldEvents (f : Fld) (i n : Nat) : (satAddFld f i n s).heldEvents = s.heldEvents := rfl
@[simp] theorem satAddFld_pendingFaults (f : Fld) (i n : Nat) : (satAddFld f i n s).pendingFaults = s.pendingFaults := rfl
@[simp] theorem satAddFld_pcieD3 (f : Fld) (i n : Nat) : (satAddFld f i n s).pcieD3 = s.pcieD3 := rfl
@[simp] theorem satAddFld_pcieUp (f : Fld) (i n : Nat) : (satAddFld f i n s).pcieUp = s.pcieUp := rfl
@[simp] theorem satAddFld_newRecords (f : Fld) (i n : Nat) : (satAddFld f i n s).newRecords = s.newRecords := rfl
@[simp] theorem satAddFld_adopted (f : Fld) (i n : Nat) : (satAddFld f i n s).adopted = s.adopted := rfl
@[simp] theorem satAddFld_inService (f : Fld) (i n : Nat) : (satAddFld f i n s).inService = s.inService := rfl
@[simp] theorem satAddFld_thermTrip (f : Fld) (i n : Nat) : (satAddFld f i n s).thermTrip = s.thermTrip := rfl
@[simp] theorem satAddFld_mpHeldReset (f : Fld) (i n : Nat) : (satAddFld f i n s).mpHeldReset = s.mpHeldReset := rfl
@[simp] theorem satAddFld_freshCount (f : Fld) (i n : Nat) : (satAddFld f i n s).freshCount = s.freshCount := rfl
@[simp] theorem satAddFld_requests (f : Fld) (i n : Nat) : (satAddFld f i n s).requests = s.requests := rfl
@[simp] theorem satAddFld_nextReq (f : Fld) (i n : Nat) : (satAddFld f i n s).nextReq = s.nextReq := rfl
@[simp] theorem satAddFld_hubHeld (f : Fld) (i n : Nat) : (satAddFld f i n s).hubHeld = s.hubHeld := rfl
@[simp] theorem satAddFld_partsIn (f : Fld) (i n : Nat) : (satAddFld f i n s).partsIn = s.partsIn := rfl
@[simp] theorem satAddFld_ports (f : Fld) (i n : Nat) : (satAddFld f i n s).ports = s.ports := rfl
@[simp] theorem satAddFld_spurRoute (f : Fld) (i n : Nat) : (satAddFld f i n s).spurRoute = s.spurRoute := rfl
@[simp] theorem satAddFld_exclPending (f : Fld) (i n : Nat) : (satAddFld f i n s).exclPending = s.exclPending := rfl
@[simp] theorem satAddFld_norms (f : Fld) (i n : Nat) : (satAddFld f i n s).norms = s.norms := rfl
@[simp] theorem satAddFld_normRoots (f : Fld) (i n : Nat) : (satAddFld f i n s).normRoots = s.normRoots := rfl
@[simp] theorem satAddFld_collHeld (f : Fld) (i n : Nat) : (satAddFld f i n s).collHeld = s.collHeld := rfl
@[simp] theorem satAddFld_biasShadow (f : Fld) (i n : Nat) : (satAddFld f i n s).biasShadow = s.biasShadow := rfl
@[simp] theorem satAddFld_biasHost (f : Fld) (i n : Nat) : (satAddFld f i n s).biasHost = s.biasHost := rfl
@[simp] theorem satAddFld_biasHostBreath (f : Fld) (i n : Nat) : (satAddFld f i n s).biasHostBreath = s.biasHostBreath := rfl
@[simp] theorem satAddFld_winNext (f : Fld) (i n : Nat) : (satAddFld f i n s).winNext = s.winNext := rfl
@[simp] theorem satAddFld_winClosed (f : Fld) (i n : Nat) : (satAddFld f i n s).winClosed = s.winClosed := rfl
@[simp] theorem satAddFld_winTotals (f : Fld) (i n : Nat) : (satAddFld f i n s).winTotals = s.winTotals := rfl
@[simp] theorem satAddFld_libVersion (f : Fld) (i n : Nat) : (satAddFld f i n s).libVersion = s.libVersion := rfl
@[simp] theorem satAddFld_library (f : Fld) (i n : Nat) : (satAddFld f i n s).library = s.library := rfl
@[simp] theorem satAddFld_libNext (f : Fld) (i n : Nat) : (satAddFld f i n s).libNext = s.libNext := rfl
@[simp] theorem satAddFld_libPending (f : Fld) (i n : Nat) : (satAddFld f i n s).libPending = s.libPending := rfl
@[simp] theorem satAddFld_breath (f : Fld) (i n : Nat) : (satAddFld f i n s).breath = s.breath := rfl
@[simp] theorem satAddFld_chans (f : Fld) (i n : Nat) : (satAddFld f i n s).chans = s.chans := rfl
@[simp] theorem satAddFld_hives (f : Fld) (i n : Nat) : (satAddFld f i n s).hives = s.hives := rfl
@[simp] theorem satAddFld_memTraining (f : Fld) (i n : Nat) : (satAddFld f i n s).memTraining = s.memTraining := rfl
@[simp] theorem satAddFld_memUp (f : Fld) (i n : Nat) : (satAddFld f i n s).memUp = s.memUp := rfl
@[simp] theorem satAddFld_power (f : Fld) (i n : Nat) : (satAddFld f i n s).power = s.power := rfl
@[simp] theorem satAddFld_counters (f : Fld) (i n : Nat) : (satAddFld f i n s).counters = s.counters := rfl
@[simp] theorem satAddFld_mp (f : Fld) (i n : Nat) : (satAddFld f i n s).mp = s.mp := rfl
@[simp] theorem satAddFld_boot (f : Fld) (i n : Nat) : (satAddFld f i n s).boot = s.boot := rfl
@[simp] theorem satAddFld_groups (f : Fld) (i n : Nat) : (satAddFld f i n s).groups = s.groups := rfl
@[simp] theorem satAddFld_host (f : Fld) (i n : Nat) : (satAddFld f i n s).host = s.host := rfl
@[simp] theorem satAddFld_pins (f : Fld) (i n : Nat) : (satAddFld f i n s).pins = s.pins := rfl
@[simp] theorem satAddFld_out (f : Fld) (i n : Nat) : (satAddFld f i n s).out = s.out := rfl
@[simp] theorem satAddFld_pending (f : Fld) (i n : Nat) : (satAddFld f i n s).pending = s.pending := rfl

@[simp] theorem modPair_regs (p : Nat) (f : PairS → PairS) : (modPair p f s).regs = s.regs := rfl
@[simp] theorem modPair_mem (p : Nat) (f : PairS → PairS) : (modPair p f s).mem = s.mem := rfl
@[simp] theorem modPair_poison (p : Nat) (f : PairS → PairS) : (modPair p f s).poison = s.poison := rfl
@[simp] theorem modPair_filled (p : Nat) (f : PairS → PairS) : (modPair p f s).filled = s.filled := rfl
@[simp] theorem modPair_us (p : Nat) (f : PairS → PairS) : (modPair p f s).us = s.us := rfl
@[simp] theorem modPair_windowLoads (p : Nat) (f : PairS → PairS) : (modPair p f s).windowLoads = s.windowLoads := rfl
@[simp] theorem modPair_log (p : Nat) (f : PairS → PairS) : (modPair p f s).log = s.log := rfl
@[simp] theorem modPair_eventTimes (p : Nat) (f : PairS → PairS) : (modPair p f s).eventTimes = s.eventTimes := rfl
@[simp] theorem modPair_eventDrops (p : Nat) (f : PairS → PairS) : (modPair p f s).eventDrops = s.eventDrops := rfl
@[simp] theorem modPair_heldEvents (p : Nat) (f : PairS → PairS) : (modPair p f s).heldEvents = s.heldEvents := rfl
@[simp] theorem modPair_pendingFaults (p : Nat) (f : PairS → PairS) : (modPair p f s).pendingFaults = s.pendingFaults := rfl
@[simp] theorem modPair_pcieD3 (p : Nat) (f : PairS → PairS) : (modPair p f s).pcieD3 = s.pcieD3 := rfl
@[simp] theorem modPair_pcieUp (p : Nat) (f : PairS → PairS) : (modPair p f s).pcieUp = s.pcieUp := rfl
@[simp] theorem modPair_newRecords (p : Nat) (f : PairS → PairS) : (modPair p f s).newRecords = s.newRecords := rfl
@[simp] theorem modPair_adopted (p : Nat) (f : PairS → PairS) : (modPair p f s).adopted = s.adopted := rfl
@[simp] theorem modPair_inService (p : Nat) (f : PairS → PairS) : (modPair p f s).inService = s.inService := rfl
@[simp] theorem modPair_thermTrip (p : Nat) (f : PairS → PairS) : (modPair p f s).thermTrip = s.thermTrip := rfl
@[simp] theorem modPair_mpHeldReset (p : Nat) (f : PairS → PairS) : (modPair p f s).mpHeldReset = s.mpHeldReset := rfl
@[simp] theorem modPair_freshCount (p : Nat) (f : PairS → PairS) : (modPair p f s).freshCount = s.freshCount := rfl
@[simp] theorem modPair_requests (p : Nat) (f : PairS → PairS) : (modPair p f s).requests = s.requests := rfl
@[simp] theorem modPair_nextReq (p : Nat) (f : PairS → PairS) : (modPair p f s).nextReq = s.nextReq := rfl
@[simp] theorem modPair_hubHeld (p : Nat) (f : PairS → PairS) : (modPair p f s).hubHeld = s.hubHeld := rfl
@[simp] theorem modPair_partsIn (p : Nat) (f : PairS → PairS) : (modPair p f s).partsIn = s.partsIn := rfl
@[simp] theorem modPair_ports (p : Nat) (f : PairS → PairS) : (modPair p f s).ports = s.ports := rfl
@[simp] theorem modPair_spurRoute (p : Nat) (f : PairS → PairS) : (modPair p f s).spurRoute = s.spurRoute := rfl
@[simp] theorem modPair_exclPending (p : Nat) (f : PairS → PairS) : (modPair p f s).exclPending = s.exclPending := rfl
@[simp] theorem modPair_norms (p : Nat) (f : PairS → PairS) : (modPair p f s).norms = s.norms := rfl
@[simp] theorem modPair_normRoots (p : Nat) (f : PairS → PairS) : (modPair p f s).normRoots = s.normRoots := rfl
@[simp] theorem modPair_collHeld (p : Nat) (f : PairS → PairS) : (modPair p f s).collHeld = s.collHeld := rfl
@[simp] theorem modPair_biasShadow (p : Nat) (f : PairS → PairS) : (modPair p f s).biasShadow = s.biasShadow := rfl
@[simp] theorem modPair_biasHost (p : Nat) (f : PairS → PairS) : (modPair p f s).biasHost = s.biasHost := rfl
@[simp] theorem modPair_biasHostBreath (p : Nat) (f : PairS → PairS) : (modPair p f s).biasHostBreath = s.biasHostBreath := rfl
@[simp] theorem modPair_winNext (p : Nat) (f : PairS → PairS) : (modPair p f s).winNext = s.winNext := rfl
@[simp] theorem modPair_winClosed (p : Nat) (f : PairS → PairS) : (modPair p f s).winClosed = s.winClosed := rfl
@[simp] theorem modPair_winTotals (p : Nat) (f : PairS → PairS) : (modPair p f s).winTotals = s.winTotals := rfl
@[simp] theorem modPair_libVersion (p : Nat) (f : PairS → PairS) : (modPair p f s).libVersion = s.libVersion := rfl
@[simp] theorem modPair_library (p : Nat) (f : PairS → PairS) : (modPair p f s).library = s.library := rfl
@[simp] theorem modPair_libNext (p : Nat) (f : PairS → PairS) : (modPair p f s).libNext = s.libNext := rfl
@[simp] theorem modPair_libPending (p : Nat) (f : PairS → PairS) : (modPair p f s).libPending = s.libPending := rfl
@[simp] theorem modPair_breath (p : Nat) (f : PairS → PairS) : (modPair p f s).breath = s.breath := rfl
@[simp] theorem modPair_chans (p : Nat) (f : PairS → PairS) : (modPair p f s).chans = s.chans := rfl
@[simp] theorem modPair_hives (p : Nat) (f : PairS → PairS) : (modPair p f s).hives = s.hives := rfl
@[simp] theorem modPair_memTraining (p : Nat) (f : PairS → PairS) : (modPair p f s).memTraining = s.memTraining := rfl
@[simp] theorem modPair_memUp (p : Nat) (f : PairS → PairS) : (modPair p f s).memUp = s.memUp := rfl
@[simp] theorem modPair_power (p : Nat) (f : PairS → PairS) : (modPair p f s).power = s.power := rfl
@[simp] theorem modPair_counters (p : Nat) (f : PairS → PairS) : (modPair p f s).counters = s.counters := rfl
@[simp] theorem modPair_mp (p : Nat) (f : PairS → PairS) : (modPair p f s).mp = s.mp := rfl
@[simp] theorem modPair_boot (p : Nat) (f : PairS → PairS) : (modPair p f s).boot = s.boot := rfl
@[simp] theorem modPair_groups (p : Nat) (f : PairS → PairS) : (modPair p f s).groups = s.groups := rfl
@[simp] theorem modPair_host (p : Nat) (f : PairS → PairS) : (modPair p f s).host = s.host := rfl
@[simp] theorem modPair_pins (p : Nat) (f : PairS → PairS) : (modPair p f s).pins = s.pins := rfl
@[simp] theorem modPair_out (p : Nat) (f : PairS → PairS) : (modPair p f s).out = s.out := rfl
@[simp] theorem modPair_pending (p : Nat) (f : PairS → PairS) : (modPair p f s).pending = s.pending := rfl

@[simp] theorem emit_regs (o : Out) : (emit o s).regs = s.regs := rfl
@[simp] theorem emit_mem (o : Out) : (emit o s).mem = s.mem := rfl
@[simp] theorem emit_poison (o : Out) : (emit o s).poison = s.poison := rfl
@[simp] theorem emit_filled (o : Out) : (emit o s).filled = s.filled := rfl
@[simp] theorem emit_us (o : Out) : (emit o s).us = s.us := rfl
@[simp] theorem emit_pairs (o : Out) : (emit o s).pairs = s.pairs := rfl
@[simp] theorem emit_windowLoads (o : Out) : (emit o s).windowLoads = s.windowLoads := rfl
@[simp] theorem emit_log (o : Out) : (emit o s).log = s.log := rfl
@[simp] theorem emit_eventTimes (o : Out) : (emit o s).eventTimes = s.eventTimes := rfl
@[simp] theorem emit_eventDrops (o : Out) : (emit o s).eventDrops = s.eventDrops := rfl
@[simp] theorem emit_heldEvents (o : Out) : (emit o s).heldEvents = s.heldEvents := rfl
@[simp] theorem emit_pendingFaults (o : Out) : (emit o s).pendingFaults = s.pendingFaults := rfl
@[simp] theorem emit_pcieD3 (o : Out) : (emit o s).pcieD3 = s.pcieD3 := rfl
@[simp] theorem emit_pcieUp (o : Out) : (emit o s).pcieUp = s.pcieUp := rfl
@[simp] theorem emit_newRecords (o : Out) : (emit o s).newRecords = s.newRecords := rfl
@[simp] theorem emit_adopted (o : Out) : (emit o s).adopted = s.adopted := rfl
@[simp] theorem emit_inService (o : Out) : (emit o s).inService = s.inService := rfl
@[simp] theorem emit_thermTrip (o : Out) : (emit o s).thermTrip = s.thermTrip := rfl
@[simp] theorem emit_mpHeldReset (o : Out) : (emit o s).mpHeldReset = s.mpHeldReset := rfl
@[simp] theorem emit_freshCount (o : Out) : (emit o s).freshCount = s.freshCount := rfl
@[simp] theorem emit_requests (o : Out) : (emit o s).requests = s.requests := rfl
@[simp] theorem emit_nextReq (o : Out) : (emit o s).nextReq = s.nextReq := rfl
@[simp] theorem emit_hubHeld (o : Out) : (emit o s).hubHeld = s.hubHeld := rfl
@[simp] theorem emit_partsIn (o : Out) : (emit o s).partsIn = s.partsIn := rfl
@[simp] theorem emit_ports (o : Out) : (emit o s).ports = s.ports := rfl
@[simp] theorem emit_spurRoute (o : Out) : (emit o s).spurRoute = s.spurRoute := rfl
@[simp] theorem emit_exclPending (o : Out) : (emit o s).exclPending = s.exclPending := rfl
@[simp] theorem emit_norms (o : Out) : (emit o s).norms = s.norms := rfl
@[simp] theorem emit_normRoots (o : Out) : (emit o s).normRoots = s.normRoots := rfl
@[simp] theorem emit_collHeld (o : Out) : (emit o s).collHeld = s.collHeld := rfl
@[simp] theorem emit_biasShadow (o : Out) : (emit o s).biasShadow = s.biasShadow := rfl
@[simp] theorem emit_biasHost (o : Out) : (emit o s).biasHost = s.biasHost := rfl
@[simp] theorem emit_biasHostBreath (o : Out) : (emit o s).biasHostBreath = s.biasHostBreath := rfl
@[simp] theorem emit_winNext (o : Out) : (emit o s).winNext = s.winNext := rfl
@[simp] theorem emit_winClosed (o : Out) : (emit o s).winClosed = s.winClosed := rfl
@[simp] theorem emit_winTotals (o : Out) : (emit o s).winTotals = s.winTotals := rfl
@[simp] theorem emit_libVersion (o : Out) : (emit o s).libVersion = s.libVersion := rfl
@[simp] theorem emit_library (o : Out) : (emit o s).library = s.library := rfl
@[simp] theorem emit_libNext (o : Out) : (emit o s).libNext = s.libNext := rfl
@[simp] theorem emit_libPending (o : Out) : (emit o s).libPending = s.libPending := rfl
@[simp] theorem emit_breath (o : Out) : (emit o s).breath = s.breath := rfl
@[simp] theorem emit_chans (o : Out) : (emit o s).chans = s.chans := rfl
@[simp] theorem emit_hives (o : Out) : (emit o s).hives = s.hives := rfl
@[simp] theorem emit_memTraining (o : Out) : (emit o s).memTraining = s.memTraining := rfl
@[simp] theorem emit_memUp (o : Out) : (emit o s).memUp = s.memUp := rfl
@[simp] theorem emit_power (o : Out) : (emit o s).power = s.power := rfl
@[simp] theorem emit_counters (o : Out) : (emit o s).counters = s.counters := rfl
@[simp] theorem emit_mp (o : Out) : (emit o s).mp = s.mp := rfl
@[simp] theorem emit_boot (o : Out) : (emit o s).boot = s.boot := rfl
@[simp] theorem emit_groups (o : Out) : (emit o s).groups = s.groups := rfl
@[simp] theorem emit_host (o : Out) : (emit o s).host = s.host := rfl
@[simp] theorem emit_pins (o : Out) : (emit o s).pins = s.pins := rfl
@[simp] theorem emit_out (o : Out) : (emit o s).out = o :: s.out := rfl
@[simp] theorem emit_pending (o : Out) : (emit o s).pending = s.pending := rfl

@[simp] theorem pokeByte_regs (a v : Nat) : (pokeByte a v s).regs = s.regs := rfl
@[simp] theorem pokeByte_poison (a v : Nat) : (pokeByte a v s).poison = s.poison := rfl
@[simp] theorem pokeByte_filled (a v : Nat) : (pokeByte a v s).filled = s.filled := rfl
@[simp] theorem pokeByte_us (a v : Nat) : (pokeByte a v s).us = s.us := rfl
@[simp] theorem pokeByte_pairs (a v : Nat) : (pokeByte a v s).pairs = s.pairs := rfl
@[simp] theorem pokeByte_windowLoads (a v : Nat) : (pokeByte a v s).windowLoads = s.windowLoads := rfl
@[simp] theorem pokeByte_log (a v : Nat) : (pokeByte a v s).log = s.log := rfl
@[simp] theorem pokeByte_eventTimes (a v : Nat) : (pokeByte a v s).eventTimes = s.eventTimes := rfl
@[simp] theorem pokeByte_eventDrops (a v : Nat) : (pokeByte a v s).eventDrops = s.eventDrops := rfl
@[simp] theorem pokeByte_heldEvents (a v : Nat) : (pokeByte a v s).heldEvents = s.heldEvents := rfl
@[simp] theorem pokeByte_pendingFaults (a v : Nat) : (pokeByte a v s).pendingFaults = s.pendingFaults := rfl
@[simp] theorem pokeByte_pcieD3 (a v : Nat) : (pokeByte a v s).pcieD3 = s.pcieD3 := rfl
@[simp] theorem pokeByte_pcieUp (a v : Nat) : (pokeByte a v s).pcieUp = s.pcieUp := rfl
@[simp] theorem pokeByte_newRecords (a v : Nat) : (pokeByte a v s).newRecords = s.newRecords := rfl
@[simp] theorem pokeByte_adopted (a v : Nat) : (pokeByte a v s).adopted = s.adopted := rfl
@[simp] theorem pokeByte_inService (a v : Nat) : (pokeByte a v s).inService = s.inService := rfl
@[simp] theorem pokeByte_thermTrip (a v : Nat) : (pokeByte a v s).thermTrip = s.thermTrip := rfl
@[simp] theorem pokeByte_mpHeldReset (a v : Nat) : (pokeByte a v s).mpHeldReset = s.mpHeldReset := rfl
@[simp] theorem pokeByte_freshCount (a v : Nat) : (pokeByte a v s).freshCount = s.freshCount := rfl
@[simp] theorem pokeByte_requests (a v : Nat) : (pokeByte a v s).requests = s.requests := rfl
@[simp] theorem pokeByte_nextReq (a v : Nat) : (pokeByte a v s).nextReq = s.nextReq := rfl
@[simp] theorem pokeByte_hubHeld (a v : Nat) : (pokeByte a v s).hubHeld = s.hubHeld := rfl
@[simp] theorem pokeByte_partsIn (a v : Nat) : (pokeByte a v s).partsIn = s.partsIn := rfl
@[simp] theorem pokeByte_ports (a v : Nat) : (pokeByte a v s).ports = s.ports := rfl
@[simp] theorem pokeByte_spurRoute (a v : Nat) : (pokeByte a v s).spurRoute = s.spurRoute := rfl
@[simp] theorem pokeByte_exclPending (a v : Nat) : (pokeByte a v s).exclPending = s.exclPending := rfl
@[simp] theorem pokeByte_norms (a v : Nat) : (pokeByte a v s).norms = s.norms := rfl
@[simp] theorem pokeByte_normRoots (a v : Nat) : (pokeByte a v s).normRoots = s.normRoots := rfl
@[simp] theorem pokeByte_collHeld (a v : Nat) : (pokeByte a v s).collHeld = s.collHeld := rfl
@[simp] theorem pokeByte_biasShadow (a v : Nat) : (pokeByte a v s).biasShadow = s.biasShadow := rfl
@[simp] theorem pokeByte_biasHost (a v : Nat) : (pokeByte a v s).biasHost = s.biasHost := rfl
@[simp] theorem pokeByte_biasHostBreath (a v : Nat) : (pokeByte a v s).biasHostBreath = s.biasHostBreath := rfl
@[simp] theorem pokeByte_winNext (a v : Nat) : (pokeByte a v s).winNext = s.winNext := rfl
@[simp] theorem pokeByte_winClosed (a v : Nat) : (pokeByte a v s).winClosed = s.winClosed := rfl
@[simp] theorem pokeByte_winTotals (a v : Nat) : (pokeByte a v s).winTotals = s.winTotals := rfl
@[simp] theorem pokeByte_libVersion (a v : Nat) : (pokeByte a v s).libVersion = s.libVersion := rfl
@[simp] theorem pokeByte_library (a v : Nat) : (pokeByte a v s).library = s.library := rfl
@[simp] theorem pokeByte_libNext (a v : Nat) : (pokeByte a v s).libNext = s.libNext := rfl
@[simp] theorem pokeByte_libPending (a v : Nat) : (pokeByte a v s).libPending = s.libPending := rfl
@[simp] theorem pokeByte_breath (a v : Nat) : (pokeByte a v s).breath = s.breath := rfl
@[simp] theorem pokeByte_chans (a v : Nat) : (pokeByte a v s).chans = s.chans := rfl
@[simp] theorem pokeByte_hives (a v : Nat) : (pokeByte a v s).hives = s.hives := rfl
@[simp] theorem pokeByte_memTraining (a v : Nat) : (pokeByte a v s).memTraining = s.memTraining := rfl
@[simp] theorem pokeByte_memUp (a v : Nat) : (pokeByte a v s).memUp = s.memUp := rfl
@[simp] theorem pokeByte_power (a v : Nat) : (pokeByte a v s).power = s.power := rfl
@[simp] theorem pokeByte_counters (a v : Nat) : (pokeByte a v s).counters = s.counters := rfl
@[simp] theorem pokeByte_mp (a v : Nat) : (pokeByte a v s).mp = s.mp := rfl
@[simp] theorem pokeByte_boot (a v : Nat) : (pokeByte a v s).boot = s.boot := rfl
@[simp] theorem pokeByte_groups (a v : Nat) : (pokeByte a v s).groups = s.groups := rfl
@[simp] theorem pokeByte_host (a v : Nat) : (pokeByte a v s).host = s.host := rfl
@[simp] theorem pokeByte_pins (a v : Nat) : (pokeByte a v s).pins = s.pins := rfl
@[simp] theorem pokeByte_out (a v : Nat) : (pokeByte a v s).out = s.out := rfl
@[simp] theorem pokeByte_pending (a v : Nat) : (pokeByte a v s).pending = s.pending := rfl

@[simp] theorem setMark_regs (sec : Nat) (v : Bool) : (setMark sec v s).regs = s.regs := rfl
@[simp] theorem setMark_mem (sec : Nat) (v : Bool) : (setMark sec v s).mem = s.mem := rfl
@[simp] theorem setMark_filled (sec : Nat) (v : Bool) : (setMark sec v s).filled = s.filled := rfl
@[simp] theorem setMark_us (sec : Nat) (v : Bool) : (setMark sec v s).us = s.us := rfl
@[simp] theorem setMark_pairs (sec : Nat) (v : Bool) : (setMark sec v s).pairs = s.pairs := rfl
@[simp] theorem setMark_windowLoads (sec : Nat) (v : Bool) : (setMark sec v s).windowLoads = s.windowLoads := rfl
@[simp] theorem setMark_log (sec : Nat) (v : Bool) : (setMark sec v s).log = s.log := rfl
@[simp] theorem setMark_eventTimes (sec : Nat) (v : Bool) : (setMark sec v s).eventTimes = s.eventTimes := rfl
@[simp] theorem setMark_eventDrops (sec : Nat) (v : Bool) : (setMark sec v s).eventDrops = s.eventDrops := rfl
@[simp] theorem setMark_heldEvents (sec : Nat) (v : Bool) : (setMark sec v s).heldEvents = s.heldEvents := rfl
@[simp] theorem setMark_pendingFaults (sec : Nat) (v : Bool) : (setMark sec v s).pendingFaults = s.pendingFaults := rfl
@[simp] theorem setMark_pcieD3 (sec : Nat) (v : Bool) : (setMark sec v s).pcieD3 = s.pcieD3 := rfl
@[simp] theorem setMark_pcieUp (sec : Nat) (v : Bool) : (setMark sec v s).pcieUp = s.pcieUp := rfl
@[simp] theorem setMark_newRecords (sec : Nat) (v : Bool) : (setMark sec v s).newRecords = s.newRecords := rfl
@[simp] theorem setMark_adopted (sec : Nat) (v : Bool) : (setMark sec v s).adopted = s.adopted := rfl
@[simp] theorem setMark_inService (sec : Nat) (v : Bool) : (setMark sec v s).inService = s.inService := rfl
@[simp] theorem setMark_thermTrip (sec : Nat) (v : Bool) : (setMark sec v s).thermTrip = s.thermTrip := rfl
@[simp] theorem setMark_mpHeldReset (sec : Nat) (v : Bool) : (setMark sec v s).mpHeldReset = s.mpHeldReset := rfl
@[simp] theorem setMark_freshCount (sec : Nat) (v : Bool) : (setMark sec v s).freshCount = s.freshCount := rfl
@[simp] theorem setMark_requests (sec : Nat) (v : Bool) : (setMark sec v s).requests = s.requests := rfl
@[simp] theorem setMark_nextReq (sec : Nat) (v : Bool) : (setMark sec v s).nextReq = s.nextReq := rfl
@[simp] theorem setMark_hubHeld (sec : Nat) (v : Bool) : (setMark sec v s).hubHeld = s.hubHeld := rfl
@[simp] theorem setMark_partsIn (sec : Nat) (v : Bool) : (setMark sec v s).partsIn = s.partsIn := rfl
@[simp] theorem setMark_ports (sec : Nat) (v : Bool) : (setMark sec v s).ports = s.ports := rfl
@[simp] theorem setMark_spurRoute (sec : Nat) (v : Bool) : (setMark sec v s).spurRoute = s.spurRoute := rfl
@[simp] theorem setMark_exclPending (sec : Nat) (v : Bool) : (setMark sec v s).exclPending = s.exclPending := rfl
@[simp] theorem setMark_norms (sec : Nat) (v : Bool) : (setMark sec v s).norms = s.norms := rfl
@[simp] theorem setMark_normRoots (sec : Nat) (v : Bool) : (setMark sec v s).normRoots = s.normRoots := rfl
@[simp] theorem setMark_collHeld (sec : Nat) (v : Bool) : (setMark sec v s).collHeld = s.collHeld := rfl
@[simp] theorem setMark_biasShadow (sec : Nat) (v : Bool) : (setMark sec v s).biasShadow = s.biasShadow := rfl
@[simp] theorem setMark_biasHost (sec : Nat) (v : Bool) : (setMark sec v s).biasHost = s.biasHost := rfl
@[simp] theorem setMark_biasHostBreath (sec : Nat) (v : Bool) : (setMark sec v s).biasHostBreath = s.biasHostBreath := rfl
@[simp] theorem setMark_winNext (sec : Nat) (v : Bool) : (setMark sec v s).winNext = s.winNext := rfl
@[simp] theorem setMark_winClosed (sec : Nat) (v : Bool) : (setMark sec v s).winClosed = s.winClosed := rfl
@[simp] theorem setMark_winTotals (sec : Nat) (v : Bool) : (setMark sec v s).winTotals = s.winTotals := rfl
@[simp] theorem setMark_libVersion (sec : Nat) (v : Bool) : (setMark sec v s).libVersion = s.libVersion := rfl
@[simp] theorem setMark_library (sec : Nat) (v : Bool) : (setMark sec v s).library = s.library := rfl
@[simp] theorem setMark_libNext (sec : Nat) (v : Bool) : (setMark sec v s).libNext = s.libNext := rfl
@[simp] theorem setMark_libPending (sec : Nat) (v : Bool) : (setMark sec v s).libPending = s.libPending := rfl
@[simp] theorem setMark_breath (sec : Nat) (v : Bool) : (setMark sec v s).breath = s.breath := rfl
@[simp] theorem setMark_chans (sec : Nat) (v : Bool) : (setMark sec v s).chans = s.chans := rfl
@[simp] theorem setMark_hives (sec : Nat) (v : Bool) : (setMark sec v s).hives = s.hives := rfl
@[simp] theorem setMark_memTraining (sec : Nat) (v : Bool) : (setMark sec v s).memTraining = s.memTraining := rfl
@[simp] theorem setMark_memUp (sec : Nat) (v : Bool) : (setMark sec v s).memUp = s.memUp := rfl
@[simp] theorem setMark_power (sec : Nat) (v : Bool) : (setMark sec v s).power = s.power := rfl
@[simp] theorem setMark_counters (sec : Nat) (v : Bool) : (setMark sec v s).counters = s.counters := rfl
@[simp] theorem setMark_mp (sec : Nat) (v : Bool) : (setMark sec v s).mp = s.mp := rfl
@[simp] theorem setMark_boot (sec : Nat) (v : Bool) : (setMark sec v s).boot = s.boot := rfl
@[simp] theorem setMark_groups (sec : Nat) (v : Bool) : (setMark sec v s).groups = s.groups := rfl
@[simp] theorem setMark_host (sec : Nat) (v : Bool) : (setMark sec v s).host = s.host := rfl
@[simp] theorem setMark_pins (sec : Nat) (v : Bool) : (setMark sec v s).pins = s.pins := rfl
@[simp] theorem setMark_out (sec : Nat) (v : Bool) : (setMark sec v s).out = s.out := rfl
@[simp] theorem setMark_pending (sec : Nat) (v : Bool) : (setMark sec v s).pending = s.pending := rfl

@[simp] theorem modBreath_regs (f : BreathS → BreathS) : (modBreath f s).regs = s.regs := rfl
@[simp] theorem modBreath_mem (f : BreathS → BreathS) : (modBreath f s).mem = s.mem := rfl
@[simp] theorem modBreath_poison (f : BreathS → BreathS) : (modBreath f s).poison = s.poison := rfl
@[simp] theorem modBreath_filled (f : BreathS → BreathS) : (modBreath f s).filled = s.filled := rfl
@[simp] theorem modBreath_us (f : BreathS → BreathS) : (modBreath f s).us = s.us := rfl
@[simp] theorem modBreath_pairs (f : BreathS → BreathS) : (modBreath f s).pairs = s.pairs := rfl
@[simp] theorem modBreath_windowLoads (f : BreathS → BreathS) : (modBreath f s).windowLoads = s.windowLoads := rfl
@[simp] theorem modBreath_log (f : BreathS → BreathS) : (modBreath f s).log = s.log := rfl
@[simp] theorem modBreath_eventTimes (f : BreathS → BreathS) : (modBreath f s).eventTimes = s.eventTimes := rfl
@[simp] theorem modBreath_eventDrops (f : BreathS → BreathS) : (modBreath f s).eventDrops = s.eventDrops := rfl
@[simp] theorem modBreath_heldEvents (f : BreathS → BreathS) : (modBreath f s).heldEvents = s.heldEvents := rfl
@[simp] theorem modBreath_pendingFaults (f : BreathS → BreathS) : (modBreath f s).pendingFaults = s.pendingFaults := rfl
@[simp] theorem modBreath_pcieD3 (f : BreathS → BreathS) : (modBreath f s).pcieD3 = s.pcieD3 := rfl
@[simp] theorem modBreath_pcieUp (f : BreathS → BreathS) : (modBreath f s).pcieUp = s.pcieUp := rfl
@[simp] theorem modBreath_newRecords (f : BreathS → BreathS) : (modBreath f s).newRecords = s.newRecords := rfl
@[simp] theorem modBreath_adopted (f : BreathS → BreathS) : (modBreath f s).adopted = s.adopted := rfl
@[simp] theorem modBreath_inService (f : BreathS → BreathS) : (modBreath f s).inService = s.inService := rfl
@[simp] theorem modBreath_thermTrip (f : BreathS → BreathS) : (modBreath f s).thermTrip = s.thermTrip := rfl
@[simp] theorem modBreath_mpHeldReset (f : BreathS → BreathS) : (modBreath f s).mpHeldReset = s.mpHeldReset := rfl
@[simp] theorem modBreath_freshCount (f : BreathS → BreathS) : (modBreath f s).freshCount = s.freshCount := rfl
@[simp] theorem modBreath_requests (f : BreathS → BreathS) : (modBreath f s).requests = s.requests := rfl
@[simp] theorem modBreath_nextReq (f : BreathS → BreathS) : (modBreath f s).nextReq = s.nextReq := rfl
@[simp] theorem modBreath_hubHeld (f : BreathS → BreathS) : (modBreath f s).hubHeld = s.hubHeld := rfl
@[simp] theorem modBreath_partsIn (f : BreathS → BreathS) : (modBreath f s).partsIn = s.partsIn := rfl
@[simp] theorem modBreath_ports (f : BreathS → BreathS) : (modBreath f s).ports = s.ports := rfl
@[simp] theorem modBreath_spurRoute (f : BreathS → BreathS) : (modBreath f s).spurRoute = s.spurRoute := rfl
@[simp] theorem modBreath_exclPending (f : BreathS → BreathS) : (modBreath f s).exclPending = s.exclPending := rfl
@[simp] theorem modBreath_norms (f : BreathS → BreathS) : (modBreath f s).norms = s.norms := rfl
@[simp] theorem modBreath_normRoots (f : BreathS → BreathS) : (modBreath f s).normRoots = s.normRoots := rfl
@[simp] theorem modBreath_collHeld (f : BreathS → BreathS) : (modBreath f s).collHeld = s.collHeld := rfl
@[simp] theorem modBreath_biasShadow (f : BreathS → BreathS) : (modBreath f s).biasShadow = s.biasShadow := rfl
@[simp] theorem modBreath_biasHost (f : BreathS → BreathS) : (modBreath f s).biasHost = s.biasHost := rfl
@[simp] theorem modBreath_biasHostBreath (f : BreathS → BreathS) : (modBreath f s).biasHostBreath = s.biasHostBreath := rfl
@[simp] theorem modBreath_winNext (f : BreathS → BreathS) : (modBreath f s).winNext = s.winNext := rfl
@[simp] theorem modBreath_winClosed (f : BreathS → BreathS) : (modBreath f s).winClosed = s.winClosed := rfl
@[simp] theorem modBreath_winTotals (f : BreathS → BreathS) : (modBreath f s).winTotals = s.winTotals := rfl
@[simp] theorem modBreath_libVersion (f : BreathS → BreathS) : (modBreath f s).libVersion = s.libVersion := rfl
@[simp] theorem modBreath_library (f : BreathS → BreathS) : (modBreath f s).library = s.library := rfl
@[simp] theorem modBreath_libNext (f : BreathS → BreathS) : (modBreath f s).libNext = s.libNext := rfl
@[simp] theorem modBreath_libPending (f : BreathS → BreathS) : (modBreath f s).libPending = s.libPending := rfl
@[simp] theorem modBreath_breath (f : BreathS → BreathS) : (modBreath f s).breath = f s.breath := rfl
@[simp] theorem modBreath_chans (f : BreathS → BreathS) : (modBreath f s).chans = s.chans := rfl
@[simp] theorem modBreath_hives (f : BreathS → BreathS) : (modBreath f s).hives = s.hives := rfl
@[simp] theorem modBreath_memTraining (f : BreathS → BreathS) : (modBreath f s).memTraining = s.memTraining := rfl
@[simp] theorem modBreath_memUp (f : BreathS → BreathS) : (modBreath f s).memUp = s.memUp := rfl
@[simp] theorem modBreath_power (f : BreathS → BreathS) : (modBreath f s).power = s.power := rfl
@[simp] theorem modBreath_counters (f : BreathS → BreathS) : (modBreath f s).counters = s.counters := rfl
@[simp] theorem modBreath_mp (f : BreathS → BreathS) : (modBreath f s).mp = s.mp := rfl
@[simp] theorem modBreath_boot (f : BreathS → BreathS) : (modBreath f s).boot = s.boot := rfl
@[simp] theorem modBreath_groups (f : BreathS → BreathS) : (modBreath f s).groups = s.groups := rfl
@[simp] theorem modBreath_host (f : BreathS → BreathS) : (modBreath f s).host = s.host := rfl
@[simp] theorem modBreath_pins (f : BreathS → BreathS) : (modBreath f s).pins = s.pins := rfl
@[simp] theorem modBreath_out (f : BreathS → BreathS) : (modBreath f s).out = s.out := rfl
@[simp] theorem modBreath_pending (f : BreathS → BreathS) : (modBreath f s).pending = s.pending := rfl

@[simp] theorem modPort_regs (n : Nat) (f : PortS → PortS) : (modPort n f s).regs = s.regs := rfl
@[simp] theorem modPort_mem (n : Nat) (f : PortS → PortS) : (modPort n f s).mem = s.mem := rfl
@[simp] theorem modPort_poison (n : Nat) (f : PortS → PortS) : (modPort n f s).poison = s.poison := rfl
@[simp] theorem modPort_pairs (n : Nat) (f : PortS → PortS) : (modPort n f s).pairs = s.pairs := rfl
@[simp] theorem modPort_inService (n : Nat) (f : PortS → PortS) : (modPort n f s).inService = s.inService := rfl
@[simp] theorem modPort_thermTrip (n : Nat) (f : PortS → PortS) : (modPort n f s).thermTrip = s.thermTrip := rfl
@[simp] theorem modPort_us (n : Nat) (f : PortS → PortS) : (modPort n f s).us = s.us := rfl
@[simp] theorem modPort_pending (n : Nat) (f : PortS → PortS) : (modPort n f s).pending = s.pending := rfl

@[simp] theorem modHive_regs (h : Nat) (f : HiveS → HiveS) : (modHive h f s).regs = s.regs := rfl
@[simp] theorem modHive_mem (h : Nat) (f : HiveS → HiveS) : (modHive h f s).mem = s.mem := rfl
@[simp] theorem modHive_poison (h : Nat) (f : HiveS → HiveS) : (modHive h f s).poison = s.poison := rfl
@[simp] theorem modHive_pairs (h : Nat) (f : HiveS → HiveS) : (modHive h f s).pairs = s.pairs := rfl
@[simp] theorem modHive_inService (h : Nat) (f : HiveS → HiveS) : (modHive h f s).inService = s.inService := rfl
@[simp] theorem modHive_thermTrip (h : Nat) (f : HiveS → HiveS) : (modHive h f s).thermTrip = s.thermTrip := rfl
@[simp] theorem modHive_us (h : Nat) (f : HiveS → HiveS) : (modHive h f s).us = s.us := rfl
@[simp] theorem modHive_pending (h : Nat) (f : HiveS → HiveS) : (modHive h f s).pending = s.pending := rfl

@[simp] theorem modChan_regs (c : Nat) (f : ChanS → ChanS) : (modChan c f s).regs = s.regs := rfl
@[simp] theorem modChan_mem (c : Nat) (f : ChanS → ChanS) : (modChan c f s).mem = s.mem := rfl
@[simp] theorem modChan_poison (c : Nat) (f : ChanS → ChanS) : (modChan c f s).poison = s.poison := rfl
@[simp] theorem modChan_pairs (c : Nat) (f : ChanS → ChanS) : (modChan c f s).pairs = s.pairs := rfl
@[simp] theorem modChan_inService (c : Nat) (f : ChanS → ChanS) : (modChan c f s).inService = s.inService := rfl
@[simp] theorem modChan_thermTrip (c : Nat) (f : ChanS → ChanS) : (modChan c f s).thermTrip = s.thermTrip := rfl
@[simp] theorem modChan_us (c : Nat) (f : ChanS → ChanS) : (modChan c f s).us = s.us := rfl
@[simp] theorem modChan_pending (c : Nat) (f : ChanS → ChanS) : (modChan c f s).pending = s.pending := rfl

@[simp] theorem modPower_regs (f : PowerS → PowerS) : (modPower f s).regs = s.regs := rfl
@[simp] theorem modPower_mem (f : PowerS → PowerS) : (modPower f s).mem = s.mem := rfl
@[simp] theorem modPower_poison (f : PowerS → PowerS) : (modPower f s).poison = s.poison := rfl
@[simp] theorem modPower_pairs (f : PowerS → PowerS) : (modPower f s).pairs = s.pairs := rfl
@[simp] theorem modPower_inService (f : PowerS → PowerS) : (modPower f s).inService = s.inService := rfl
@[simp] theorem modPower_thermTrip (f : PowerS → PowerS) : (modPower f s).thermTrip = s.thermTrip := rfl
@[simp] theorem modPower_us (f : PowerS → PowerS) : (modPower f s).us = s.us := rfl
@[simp] theorem modPower_pending (f : PowerS → PowerS) : (modPower f s).pending = s.pending := rfl

@[simp] theorem modBoot_regs (f : BootS → BootS) : (modBoot f s).regs = s.regs := rfl
@[simp] theorem modBoot_mem (f : BootS → BootS) : (modBoot f s).mem = s.mem := rfl
@[simp] theorem modBoot_poison (f : BootS → BootS) : (modBoot f s).poison = s.poison := rfl
@[simp] theorem modBoot_pairs (f : BootS → BootS) : (modBoot f s).pairs = s.pairs := rfl
@[simp] theorem modBoot_inService (f : BootS → BootS) : (modBoot f s).inService = s.inService := rfl
@[simp] theorem modBoot_thermTrip (f : BootS → BootS) : (modBoot f s).thermTrip = s.thermTrip := rfl
@[simp] theorem modBoot_us (f : BootS → BootS) : (modBoot f s).us = s.us := rfl
@[simp] theorem modBoot_pending (f : BootS → BootS) : (modBoot f s).pending = s.pending := rfl

@[simp] theorem modHost_regs (f : HostS → HostS) : (modHost f s).regs = s.regs := rfl
@[simp] theorem modHost_mem (f : HostS → HostS) : (modHost f s).mem = s.mem := rfl
@[simp] theorem modHost_poison (f : HostS → HostS) : (modHost f s).poison = s.poison := rfl
@[simp] theorem modHost_pairs (f : HostS → HostS) : (modHost f s).pairs = s.pairs := rfl
@[simp] theorem modHost_inService (f : HostS → HostS) : (modHost f s).inService = s.inService := rfl
@[simp] theorem modHost_thermTrip (f : HostS → HostS) : (modHost f s).thermTrip = s.thermTrip := rfl
@[simp] theorem modHost_us (f : HostS → HostS) : (modHost f s).us = s.us := rfl
@[simp] theorem modHost_pending (f : HostS → HostS) : (modHost f s).pending = s.pending := rfl

@[simp] theorem modGroup_regs (f : GroupS → GroupS) : (modGroup f s).regs = s.regs := rfl
@[simp] theorem modGroup_mem (f : GroupS → GroupS) : (modGroup f s).mem = s.mem := rfl
@[simp] theorem modGroup_poison (f : GroupS → GroupS) : (modGroup f s).poison = s.poison := rfl
@[simp] theorem modGroup_pairs (f : GroupS → GroupS) : (modGroup f s).pairs = s.pairs := rfl
@[simp] theorem modGroup_inService (f : GroupS → GroupS) : (modGroup f s).inService = s.inService := rfl
@[simp] theorem modGroup_thermTrip (f : GroupS → GroupS) : (modGroup f s).thermTrip = s.thermTrip := rfl
@[simp] theorem modGroup_us (f : GroupS → GroupS) : (modGroup f s).us = s.us := rfl
@[simp] theorem modGroup_pending (f : GroupS → GroupS) : (modGroup f s).pending = s.pending := rfl

@[simp] theorem modMp_regs (f : MpS → MpS) : (modMp f s).regs = s.regs := rfl
@[simp] theorem modMp_mem (f : MpS → MpS) : (modMp f s).mem = s.mem := rfl
@[simp] theorem modMp_poison (f : MpS → MpS) : (modMp f s).poison = s.poison := rfl
@[simp] theorem modMp_pairs (f : MpS → MpS) : (modMp f s).pairs = s.pairs := rfl
@[simp] theorem modMp_inService (f : MpS → MpS) : (modMp f s).inService = s.inService := rfl
@[simp] theorem modMp_thermTrip (f : MpS → MpS) : (modMp f s).thermTrip = s.thermTrip := rfl
@[simp] theorem modMp_us (f : MpS → MpS) : (modMp f s).us = s.us := rfl
@[simp] theorem modMp_pending (f : MpS → MpS) : (modMp f s).pending = s.pending := rfl

@[simp] theorem modPins_regs (f : PinS → PinS) : (modPins f s).regs = s.regs := rfl
@[simp] theorem modPins_mem (f : PinS → PinS) : (modPins f s).mem = s.mem := rfl
@[simp] theorem modPins_poison (f : PinS → PinS) : (modPins f s).poison = s.poison := rfl
@[simp] theorem modPins_pairs (f : PinS → PinS) : (modPins f s).pairs = s.pairs := rfl
@[simp] theorem modPins_inService (f : PinS → PinS) : (modPins f s).inService = s.inService := rfl
@[simp] theorem modPins_thermTrip (f : PinS → PinS) : (modPins f s).thermTrip = s.thermTrip := rfl
@[simp] theorem modPins_us (f : PinS → PinS) : (modPins f s).us = s.us := rfl
@[simp] theorem modPins_pending (f : PinS → PinS) : (modPins f s).pending = s.pending := rfl

end Sys2Proof.Machine
end

