-- ==== Sys2Proof/Laws/Ops.lean ====
section
/-! SUPPORT. What each shared operation can do: the registers it may write and what it leaves alone. -/

namespace Sys2Proof.Machine

variable {rs rs' : List Reg} {ks ks' : List (Reg × Nat)} {s t u : State}

/-! ## Keeps and Aside -/

theorem Keeps.refl : Keeps rs ks s s := fun _ _ _ _ => rfl

theorem Keeps.trans (h1 : Keeps rs ks s t) (h2 : Keeps rs ks t u) : Keeps rs ks s u :=
  fun r i a b => (h2 r i a b).trans (h1 r i a b)

theorem Keeps.mono (h : Keeps rs ks s u) (h1 : ∀ r ∈ rs, r ∈ rs') (h2 : ∀ k ∈ ks, k.1 ∈ rs' ∨ k ∈ ks') : Keeps rs' ks' s u := by
  intro r i a b
  refine h r i (fun c => a (h1 r c)) (fun c => ?_)
  rcases h2 _ c with c | c
  · exact a c
  · exact b c

theorem Keeps.fld (h : Keeps rs ks s u) {f : Fld} {i : Nat} (h1 : f.reg ∉ rs) (h2 : (f.reg, i) ∉ ks) : fld u f i = fld s f i := by
  simp only [Machine.fld, h f.reg i h1 h2]

theorem Keeps.setReg {r : Reg} {i : Nat} (w : Word) (h : Keeps rs ks s t) (hr : r ∈ rs ∨ (r, i) ∈ ks) :
    Keeps rs ks s (setReg r i w t) := by
  intro q j a b
  rw [reg_setReg_ne, h q j a b]
  by_contra c
  simp only [not_or, not_not] at c
  obtain ⟨rfl, rfl⟩ := c
  rcases hr with hr | hr
  · exact a hr
  · exact b hr

theorem Keeps.setFld {f : Fld} {i : Nat} (v : Nat) (h : Keeps rs ks s t) (hr : f.reg ∈ rs ∨ (f.reg, i) ∈ ks) :
    Keeps rs ks s (setFld f i v t) := h.setReg _ hr

theorem Aside.refl : Aside rs ks s s := ⟨rfl, .refl⟩

theorem Aside.trans (h1 : Aside rs ks s t) (h2 : Aside rs ks t u) : Aside rs ks s u :=
  ⟨h2.1.trans h1.1, h1.2.trans h2.2⟩

theorem Aside.mono (h : Aside rs ks s u) (h1 : ∀ r ∈ rs, r ∈ rs') (h2 : ∀ k ∈ ks, k.1 ∈ rs' ∨ k ∈ ks') : Aside rs' ks' s u :=
  ⟨h.1, h.2.mono h1 h2⟩

/-- A change that writes no register. -/
theorem Aside.of_still (h : u.still = s.still) (hr : u.regs = s.regs) : Aside rs ks s u :=
  ⟨h, fun r i _ _ => by simp only [reg, hr]⟩

theorem Aside.setReg {r : Reg} {i : Nat} (w : Word) (h : Aside rs ks s t) (hr : r ∈ rs ∨ (r, i) ∈ ks) :
    Aside rs ks s (setReg r i w t) := ⟨h.1, h.2.setReg w hr⟩

theorem Aside.setFld {f : Fld} {i : Nat} (v : Nat) (h : Aside rs ks s t) (hr : f.reg ∈ rs ∨ (f.reg, i) ∈ ks) :
    Aside rs ks s (setFld f i v t) := h.setReg _ hr

theorem Aside.raise {f : Fld} {i : Nat} (h : Aside rs ks s t) (hr : f.reg ∈ rs ∨ (f.reg, i) ∈ ks) :
    Aside rs ks s (raise f i t) := h.setFld _ hr

theorem Aside.satAddFld {f : Fld} {i : Nat} (n : Nat) (h : Aside rs ks s t) (hr : f.reg ∈ rs ∨ (f.reg, i) ∈ ks) :
    Aside rs ks s (satAddFld f i n t) := h.setFld _ hr

theorem Aside.emit (o : Out) (h : Aside rs ks s t) : Aside rs ks s (emit o t) :=
  h.trans (.of_still rfl rfl)

theorem Aside.log (l : SMap LogEntry) (h : Aside rs ks s t) : Aside rs ks s { t with log := l } :=
  h.trans (.of_still rfl rfl)

theorem Aside.ite {c : Prop} [Decidable c] {a b : State} (h1 : Aside rs ks s a) (h2 : Aside rs ks s b) :
    Aside rs ks s (if c then a else b) := by
  split
  · exact h1
  · exact h2

/-! ## What follows from Aside -/

theorem Aside.fld (h : Aside rs ks s u) {f : Fld} {i : Nat} (h1 : f.reg ∉ rs) (h2 : (f.reg, i) ∉ ks) : Machine.fld u f i = Machine.fld s f i :=
  h.2.fld h1 h2

theorem Aside.reg (h : Aside rs ks s u) {r : Reg} {i : Nat} (h1 : r ∉ rs) (h2 : (r, i) ∉ ks) : Machine.reg u r i = Machine.reg s r i :=
  h.2 r i h1 h2

theorem Aside.mem (h : Aside rs ks s u) : u.mem = s.mem := (congrArg State.mem h.1 :)
theorem Aside.poison (h : Aside rs ks s u) : u.poison = s.poison := (congrArg State.poison h.1 :)
theorem Aside.pairs (h : Aside rs ks s u) : u.pairs = s.pairs := (congrArg State.pairs h.1 :)
theorem Aside.inService (h : Aside rs ks s u) : u.inService = s.inService := (congrArg State.inService h.1 :)
theorem Aside.thermTrip (h : Aside rs ks s u) : u.thermTrip = s.thermTrip := (congrArg State.thermTrip h.1 :)
theorem Aside.us (h : Aside rs ks s u) : u.us = s.us := (congrArg State.us h.1 :)
theorem Aside.pending (h : Aside rs ks s u) : u.pending = s.pending := (congrArg State.pending h.1 :)
theorem Aside.pair (h : Aside rs ks s u) (p : Nat) : Machine.pair u p = Machine.pair s p := by simp only [Machine.pair, h.pairs]
theorem Aside.byteAt (h : Aside rs ks s u) (a : Nat) : Machine.byteAt u a = Machine.byteAt s a := by simp only [Machine.byteAt, h.mem]
theorem Aside.marked (h : Aside rs ks s u) (x : Nat) : Machine.marked u x = Machine.marked s x := by simp only [Machine.marked, h.poison]
theorem Aside.memSame (h : Aside rs ks s u) : MemSame s u := ⟨h.byteAt, h.marked⟩

/-! ## Output and packets -/

theorem msix_aside (v : Nat) (s : State) : Aside [] [] s (msix v s) := by
  unfold msix
  split
  · exact .refl
  · split
    · exact .of_still rfl rfl
    · exact Aside.refl.emit _

theorem countPort_aside {lo hi : Fld} (port n : Nat) (s : State) : Aside [lo.reg, hi.reg] [] s (countPort lo hi port n s) := by
  unfold countPort
  split
  · exact (Aside.refl.setFld _ (.inl (by simp))).setFld _ (.inl (by simp))
  · exact .refl

theorem modPort_aside (n : Nat) (f : PortS → PortS) (s : State) : Aside [] [] s (modPort n f s) := .of_still rfl rfl

/-- What a fold does, where each of its steps keeps the rest. -/
theorem foldl_aside {α : Type} {f : State → α → State} (h : ∀ t a, Aside rs ks t (f t a)) (l : List α) (s : State) :
    Aside rs ks s (l.foldl f s) := by
  induction l generalizing s with
  | nil => exact .refl
  | cons a l ih => exact (h s a).trans (ih _)

theorem sendPacket_aside (port : Nat) (p : Packet) (s : State) : Aside sendRegs [] s (sendPacket port p s) := by
  unfold sendPacket
  refine Aside.trans ((Aside.refl.emit _).trans (foldl_aside (fun t b => ?_) _ _)) ((countPort_aside _ _ _).mono (by simp) (by simp))
  exact ((modPort_aside _ _ t).mono (by simp) (by simp)).emit _

theorem lifetimeDrop_aside (s : State) : Aside sendRegs [] s (lifetimeDrop s) :=
  (Aside.refl.satAddFld _ (.inl (by decide))).raise (.inl (by decide))

/-- A port that serves its queue writes the packet counts alone. -/
theorem servePort_aside (k n : Nat) (s : State) : Aside sendRegs [] s (servePort k n s) := by
  induction k generalizing s with
  | zero => exact .refl
  | succ k ih =>
    unfold servePort
    split
    · exact .refl
    · rename_i h _
      split
      · exact .refl
      · have hs : Aside sendRegs [] s (modPort n
            (fun x => { x with turn := SMap.set 0 x.turn (classRank (h.aged s).cls) ((h.input + 1) % 10) })
            { s with hubHeld := s.hubHeld.erase h }) := .of_still rfl rfl
        refine (hs.trans ?_).trans (ih _)
        split
        · exact lifetimeDrop_aside _
        · exact sendPacket_aside _ _ _

theorem transmit_aside (port input : Nat) (p : Packet) (s : State) : Aside sendRegs [] s (transmit port input p s) :=
  Aside.trans (.of_still rfl rfl) (servePort_aside _ _ _)

theorem sendOn_aside {fromAxis : Option Nat} {input : Nat} {p : Packet} {back : State → State}
    (hb : ∀ t, Aside sendRegs [] t (back t)) (s : State) : Aside sendRegs [] s (sendOn fromAxis input p back s) := by
  unfold sendOn
  split
  · refine Aside.trans ?_ (transmit_aside _ _ _ _)
    split
    · exact (Aside.refl.satAddFld _ (.inl (by decide))).raise (.inl (by decide))
    · exact .refl
  · exact ((Aside.refl.satAddFld _ (.inl (by decide))).raise (.inl (by decide))).trans (hb _)

theorem injectOne_aside (p : Packet) (s : State) : Aside sendRegs [] s (injectOne p s) := by
  unfold injectOne
  dsimp only
  split
  · exact Aside.refl.emit _
  · split
    · exact transmit_aside _ _ _ _
    · refine sendOn_aside (fun t => ?_) s
      split
      · exact .refl
      · exact Aside.refl.emit _

theorem injectVia_aside (dirs : Nat) (p : Packet) (s : State) : Aside sendRegs [] s (injectVia dirs p s) :=
  foldl_aside (fun t m => injectOne_aside m t) _ s

theorem inject_aside (p : Packet) (s : State) : Aside sendRegs [] s (inject p s) := injectVia_aside _ p s

/-! ## The error log -/

theorem logNew_aside (f : LogFacts) (s : State) : Aside logRegs [] s (logNew f s) := by
  unfold logNew
  refine Aside.setFld _ (Aside.setFld _ (Aside.log _ (Aside.ite ?_ ?_)) (.inl (by decide))) (.inl (by decide))
  · exact Aside.raise (Aside.satAddFld _ (Aside.ite (Aside.setFld _ (Aside.log _ .refl) (.inl (by decide))) .refl) (.inl (by decide)))
      (.inl (by decide))
  · exact Aside.ite (Aside.setFld _ (Aside.log _ .refl) (.inl (by decide))) .refl

theorem logEvent_aside (f : LogFacts) (s : State) : Aside logRegs [] s (logEvent f s) := by
  unfold logEvent
  split
  · exact .of_still rfl rfl
  · exact logNew_aside f s

/-! ## Event records -/

theorem ringWrite_aside (e : EventRec) (s : State) : Aside eventRegs [] s (ringWrite e s) := by
  unfold ringWrite
  dsimp only
  refine Aside.setFld _ ?_ (.inl (by decide))
  exact Aside.of_still rfl rfl

theorem queenTake_aside (e : EventRec) (s : State) : Aside eventRegs [] s (queenTake e s) := by
  unfold queenTake
  split
  · exact ringWrite_aside e s
  · split
    · exact .of_still rfl rfl
    · exact (Aside.refl.satAddFld _ (.inl (by decide))).trans ((msix_aside _ _).mono (by simp) (by simp))

theorem drainHeld_aside (n : Nat) (s : State) : Aside eventRegs [] s (drainHeld n s) := by
  induction n generalizing s with
  | zero => exact .refl
  | succ n ih =>
    unfold drainHeld
    split
    · exact .refl
    · split
      · refine Aside.trans (Aside.trans ?_ (ringWrite_aside _ _)) (ih _)
        exact .of_still rfl rfl
      · exact .refl

theorem deliverRec_aside (dst : Nat) (e : EventRec) (s : State) : Aside eventRegs [] s (deliverRec dst e s) := by
  unfold deliverRec
  split
  · exact queenTake_aside e s
  · exact (inject_aside _ s).mono (by simp) (by simp)

theorem sendRec_aside (dst : Option Nat) (device block item pr data : Nat) (s : State) :
    Aside eventRegs [] s (sendRec dst device block item pr data s) := by
  unfold sendRec
  dsimp only
  split
  · exact .of_still rfl rfl
  · split
    · exact .of_still rfl rfl
    · exact Aside.trans (.of_still rfl rfl) (deliverRec_aside _ _ _)

theorem sendEvent_aside (block item pr data : Nat) (s : State) : Aside eventRegs [] s (sendEvent block item pr data s) :=
  sendRec_aside _ _ _ _ _ _ s

theorem freshData_aside (s : State) : Aside [] [] s (freshData s).2 := .of_still rfl rfl

theorem sendEventOpen_aside (block item pr : Nat) (s : State) : Aside eventRegs [] s (sendEventOpen block item pr s) :=
  Aside.trans ((freshData_aside s).mono (by simp) (by simp)) (sendEvent_aside _ _ _ _ _)

/-! ## Counters -/

theorem bank_mem {p j : Nat} (h : j < 8) : (Reg.CTR_P_n, 8 * p + j) ∈ bankKeys p := by
  simp only [bankKeys, List.mem_append, List.mem_map, List.mem_range]
  exact .inl ⟨j, h, rfl⟩

theorem bank_ovf (p : Nat) : (Reg.CTR_P_OVF, p) ∈ bankKeys p := by simp [bankKeys]

theorem bank_last (p : Nat) : (Reg.CTR_P_SAMPLE_LAST, p) ∈ bankKeys p := by simp [bankKeys]

theorem bank_reg {p : Nat} {k : Reg × Nat} (h : k ∈ bankKeys p) :
    k.1 = .CTR_P_n ∨ k.1 = .CTR_P_OVF ∨ k.1 = .CTR_P_SAMPLE_LAST := by
  simp only [bankKeys, List.mem_append, List.mem_map, List.mem_range, List.mem_cons, List.not_mem_nil, or_false] at h
  rcases h with ⟨j, _, rfl⟩ | rfl | rfl <;> simp

theorem ctrSample_aside (p j old new code : Nat) (s : State) : Aside eventRegs (bankKeys p) s (ctrSample p j old new code s) := by
  unfold ctrSample
  dsimp only
  split
  · refine Aside.trans ?_ ((sendEvent_aside _ _ _ _ _).mono (by simp) (by simp))
    exact (((Aside.refl.setFld _ (.inr (bank_last p))).setFld _ (.inr (bank_last p))).setFld _ (.inr (bank_last p))).setFld _ (.inr (bank_last p))
  · exact .refl

theorem ctrBump_aside (p j code n : Nat) (s : State) (hj : j < 8) : Aside eventRegs (bankKeys p) s (ctrBump p j code n s) := by
  unfold ctrBump
  split
  · rename_i h
    dsimp only
    split
    · rename_i ht
      have h1 : j + 1 < 8 := by
        simp only [Bool.and_eq_true, Bool.not_eq_true', Bool.and_eq_false_iff, decide_eq_false_iff_not] at h
        have := h.2
        rcases this with h2 | h2
        · simp [ht] at h2
        · omega
      refine Aside.trans ?_ (ctrSample_aside p j _ _ code _)
      have h2 := (Aside.refl (rs := eventRegs) (ks := bankKeys p) (s := s)).setFld (f := F.CTR_P_n_count)
        (i := 8 * p + j + 1) ((fld s F.CTR_P_n_count (8 * p + j + 1) * 2 ^ 48 + fld s F.CTR_P_n_count (8 * p + j) + n) / 2 ^ 48) (.inr (bank_mem h1))
      have h3 := h2.setFld (f := F.CTR_P_n_count) (i := 8 * p + j) (fld s F.CTR_P_n_count (8 * p + j + 1) * 2 ^ 48 + fld s F.CTR_P_n_count (8 * p + j) + n) (.inr (bank_mem hj))
      split
      · exact h3.setFld _ (.inr (bank_ovf p))
      · exact h3
    · refine Aside.trans ?_ (ctrSample_aside p j _ _ code _)
      have h3 := (Aside.refl (rs := eventRegs) (ks := bankKeys p) (s := s)).setFld (f := F.CTR_P_n_count)
        (i := 8 * p + j) (fld s F.CTR_P_n_count (8 * p + j) + n) (.inr (bank_mem hj))
      split
      · exact h3.setFld _ (.inr (bank_ovf p))
      · exact h3
  · exact .refl

/-- What a fold over numbers keeps, each of its steps keeps. -/
theorem iter_aside {n : Nat} {f : Nat → State → State} (h : ∀ i, i < n → ∀ t, Aside rs ks t (f i t)) (s : State) :
    Aside rs ks s (iter n s f) := by
  unfold iter
  induction n with
  | zero => exact .refl
  | succ n ih =>
    rw [List.range_succ, List.foldl_append]
    exact (ih (fun i hi => h i (by omega))).trans (h n (by omega) _)

/-- Counting an event writes the pair's own bank and, where a sample is due, sends its record. -/
theorem count_aside (p code n : Nat) (s : State) : Aside eventRegs (bankKeys p) s (count p code n s) := by
  unfold count
  split
  · exact iter_aside (fun i hi t => ctrBump_aside p i code n t hi) s
  · exact .refl

theorem countSlots_aside (p k n : Nat) (s : State) :
    Aside [] [(.CTR_P_SLOT_k, 4 * p + k), (.CTR_P_OVF, p)] s (countSlots p k n s) := by
  unfold countSlots
  split
  · dsimp only
    have h := (Aside.refl (rs := []) (ks := [(Reg.CTR_P_SLOT_k, 4 * p + k), (Reg.CTR_P_OVF, p)]) (s := s)).setFld
      (f := F.CTR_P_SLOT_k_count) (i := 4 * p + k) (fld s F.CTR_P_SLOT_k_count (4 * p + k) + n) (.inr (by simp))
    split
    · exact h.setFld _ (.inr (by simp))
    · exact h
  · exact .refl

/-! ## Hive and pair faults, semaphores -/

theorem escalate_aside (h cause pr : Nat) (s : State) : Aside logRegs [] s (escalate h cause pr s) := by
  unfold escalate
  split
  · exact logNew_aside _ s
  · exact .of_still rfl rfl

/-- Noting an offline access writes the offline count, the hive's memory events and the error log. -/
theorem noteOffline_aside (a requester : Nat) (isRead : Bool) (s : State) :
    Aside [.MEM_POISON_REC, .MEM_EVENTS, .RL_LOG_PTR, .RL_EVENTS] [] s (noteOffline a requester isRead s) := by
  unfold noteOffline
  dsimp only
  have h : Aside [.MEM_POISON_REC, .MEM_EVENTS, .RL_LOG_PTR, .RL_EVENTS] [] s (if isRead then satAddFld F.MEM_POISON_REC_offline 0 1 s else s) := by
    split
    · exact Aside.refl.satAddFld _ (.inl (by decide))
    · exact .refl
  split
  · exact (h.raise (.inl (by decide))).trans ((logEvent_aside _ _).mono (by simp) (by simp))
  · exact h

theorem noteOfflineRange_aside (a n requester : Nat) (isRead : Bool) (s : State) :
    Aside [.MEM_POISON_REC, .MEM_EVENTS, .RL_LOG_PTR, .RL_EVENTS] [] s (noteOfflineRange a n requester isRead s) :=
  foldl_aside (fun t x => noteOffline_aside (x * 64) requester isRead t) _ s

end Sys2Proof.Machine
end

