-- ==== Sys2Proof/Laws/Issue.lean ====
section
/-! SUPPORT. Fetch and issue: what the checks common to every score instruction give, and what an issue writes. -/

namespace Sys2Proof.Machine

variable {p w : Nat} {s : State}

/-- The index of the next instruction, alone of the pair's SEQ_STATUS, after an issue. -/
def stepTo (p pc : Nat) (next : Option Nat) (s : State) : State :=
  setFld F.SEQ_STATUS_pc p (next.getD (pc + 1)) (modPair p (fun x => { x with lastIssued := pc, past := decide (next.getD (pc + 1) ≥ 2 ^ 20), seq := x.seq + 1 }) s)

theorem count_aside' (p code n : Nat) {s t : State} {rs : List Reg} {ks : List (Reg × Nat)} (h : Aside rs ks s t)
    (h1 : ∀ r ∈ eventRegs, r ∈ rs) (h2 : ∀ k ∈ bankKeys p, k.1 ∈ rs ∨ k ∈ ks) : Aside rs ks s (count p code n t) :=
  h.trans ((count_aside p code n t).mono h1 h2)

/-- An issue moves the index, notes itself and is counted. -/
theorem issued_aside (p pc : Nat) (next : Option Nat) (s : State) :
    Aside eventRegs (bankKeys p) (stepTo p pc next s) (issued p pc next s) := by
  have e : modPair p (fun x => { x with lastIssued := pc, past := decide (next.getD (pc + 1) ≥ 2 ^ 20), seq := x.seq + 1 })
      (setFld F.SEQ_STATUS_pc p (next.getD (pc + 1)) s) = stepTo p pc next s := rfl
  unfold issued
  dsimp only
  rw [e]
  exact count_aside p 0x0A 1 _

/-- A fetch that delivers no poison writes the buffer alone, and is counted. -/
theorem fetch_aside (h : (fetchWord p (seqPc s p) s).2.1 = false) :
    ∃ b, Aside eventRegs (bankKeys p) (modPair p (fun x => { x with ibuf := b }) s) (fetchWord p (seqPc s p) s).2.2 := by
  unfold fetchWord fetchSector at *
  dsimp only at *
  split
  · exact ⟨_, .refl⟩
  · rename_i hf
    rw [hf] at h
    dsimp only at h
    have hp : poisoned s (fld s F.SEQ_SCORE_base p * 4096 + 64 * (seqPc s p / 4)) 64 = false := by
      simp only [decide_eq_false_iff_not] at h
      by_contra c
      rw [Bool.not_eq_false] at c
      rw [c] at h
      simp [b2n] at h
    have hn : ∀ r, noteOfflineRange (fld s F.SEQ_SCORE_base p * 4096 + 64 * (seqPc s p / 4)) 64 r true s = s := by
      intro r
      unfold poisoned at hp
      rw [List.any_eq_false] at hp
      unfold noteOfflineRange
      rw [List.filter_eq_nil_iff.mpr, List.foldl_nil]
      intro x hx
      have := hp x hx
      simp only [Bool.or_eq_true, not_or] at this
      exact this.2
    rw [hn]
    exact ⟨_, count_aside p 0x23 64 _⟩

/-- An instruction whose word its row owns, and whose checks its meaning passes, issues. -/
theorem issueWith_done {mine : Nat → State → Bool} {body : Nat → State → Issue} {t' : State} {next : Option Nat}
    (h : Issues p w s) (hd : definedOp w = true) (hm : mine w (fetchWord p (seqPc s p) s).2.2 = true)
    (hb : body w (fetchWord p (seqPc s p) s).2.2 = .done t' next) :
    issueWith p mine body s = issued p (seqPc s p) next t' := by
  have h1 := h.word
  have h2 := h.clean
  have h3 := h.within
  have h4 := h.notPast
  unfold issueWith
  rw [h.ready]
  simp only [Bool.not_true, Bool.false_eq_true, if_false, ge_iff_le, Nat.not_le.mpr h3, h4, decide_false, Bool.or_self, h1, h2, hd, hm, hb]

/-- One that its meaning stops with a fault takes that fault alone. -/
theorem issueWith_fault {mine : Nat → State → Bool} {body : Nat → State → Issue} {c : Nat}
    (h : Issues p w s) (hd : definedOp w = true) (hm : mine w (fetchWord p (seqPc s p) s).2.2 = true)
    (hb : body w (fetchWord p (seqPc s p) s).2.2 = .fault c) :
    issueWith p mine body s = pairFault p c (wCls w) (seqPc s p) 0 (fetchWord p (seqPc s p) s).2.2 := by
  have h1 := h.word
  have h2 := h.clean
  have h3 := h.within
  have h4 := h.notPast
  unfold issueWith
  rw [h.ready]
  simp only [Bool.not_true, Bool.false_eq_true, if_false, ge_iff_le, Nat.not_le.mpr h3, h4, decide_false, Bool.or_self, h1, h2, hd, hm, hb]

/-- A word that names no operation faults ILLEGAL, whichever row is asked. -/
theorem issueWith_undefined {mine : Nat → State → Bool} {body : Nat → State → Issue}
    (h : Issues p w s) (hd : definedOp w = false) :
    issueWith p mine body s = pairFault p fIllegal (wCls w) (seqPc s p) 0 (fetchWord p (seqPc s p) s).2.2 := by
  have h1 := h.word
  have h2 := h.clean
  have h3 := h.within
  have h4 := h.notPast
  unfold issueWith
  rw [h.ready]
  simp only [Bool.not_true, Bool.false_eq_true, if_false, ge_iff_le, Nat.not_le.mpr h3, h4, decide_false, Bool.or_self, h1, h2, hd, Bool.not_false, if_true]

/-- What reads registers that counting and fetching leave alone reads the same after the fetch. -/
theorem fetch_fld (h : (fetchWord p (seqPc s p) s).2.1 = false) {f : Fld} {i : Nat} (h1 : f.reg ∉ eventRegs)
    (h2 : (f.reg, i) ∉ bankKeys p) : fld (fetchWord p (seqPc s p) s).2.2 f i = fld s f i := by
  obtain ⟨b, hb⟩ := fetch_aside h
  exact hb.fld h1 h2

theorem not_bank {r : Reg} {i : Nat} (h : r ≠ .CTR_P_n ∧ r ≠ .CTR_P_OVF ∧ r ≠ .CTR_P_SAMPLE_LAST) : (r, i) ∉ bankKeys p := by
  intro c
  rcases bank_reg c with e | e | e
  · exact h.1 e
  · exact h.2.1 e
  · exact h.2.2 e

/-! ## What an issue does, from the state before the fetch -/

/-- A change of one pair's units by h, and of the registers of rs and ks. -/
structure PairAside (rs : List Reg) (ks : List (Reg × Nat)) (p : Nat) (h : PairS → PairS) (s u : State) : Prop where
  rest : u.apart = s.apart
  own : pair u p = h (pair s p)
  others : ∀ q, q ≠ p → pair u q = pair s q
  regs : Keeps rs ks s u

theorem Aside.toPair {rs : List Reg} {ks : List (Reg × Nat)} {u : State} (a : Aside rs ks s u) : PairAside rs ks p id s u where
  rest := (congrArg (fun t : State => { t with pairs := [] }) a.1 :)
  own := a.pair p
  others := fun q _ => a.pair q
  regs := a.2

theorem PairAside.trans {rs : List Reg} {ks : List (Reg × Nat)} {h g : PairS → PairS} {t u : State}
    (a : PairAside rs ks p h s t) (b : PairAside rs ks p g t u) : PairAside rs ks p (fun x => g (h x)) s u where
  rest := b.rest.trans a.rest
  own := by rw [b.own, a.own]
  others := fun q hq => (b.others q hq).trans (a.others q hq)
  regs := a.regs.trans b.regs

theorem PairAside.modPair {rs : List Reg} {ks : List (Reg × Nat)} (g : PairS → PairS) (s : State) :
    PairAside rs ks p g s (modPair p g s) where
  rest := rfl
  own := pair_modPair_self p g s
  others := fun _ hq => pair_modPair_ne g s hq
  regs := fun _ _ _ _ => rfl

theorem PairAside.mono {rs rs' : List Reg} {ks ks' : List (Reg × Nat)} {h : PairS → PairS} {u : State} (a : PairAside rs ks p h s u)
    (h1 : ∀ r ∈ rs, r ∈ rs') (h2 : ∀ k ∈ ks, k.1 ∈ rs' ∨ k ∈ ks') : PairAside rs' ks' p h s u :=
  { a with regs := a.regs.mono h1 h2 }

/-- An issue of pair p: its own registers ks written, its units changed by h, and nothing else but counting. -/
abbrev Own (p : Nat) (h : PairS → PairS) (ks : List (Reg × Nat)) (s u : State) : Prop :=
  PairAside eventRegs ((.SEQ_STATUS, p) :: ks ++ bankKeys p) p h s u

/-- What an issued pair's units are, where the instruction's own effect on them is g and the buffer is b. -/
def issuedUnits (g : PairS → PairS) (b : SMap Nat) (pc n : Nat) (x : PairS) : PairS :=
  let y := g { x with ibuf := b }
  { y with lastIssued := pc, past := decide (n ≥ 2 ^ 20), seq := y.seq + 1 }

/-- An instruction issues: from a clean fetch, and an effect of its own on the state after it. -/
theorem issue_own {g : PairS → PairS} {ks : List (Reg × Nat)} {t' : State} {pc : Nat} {next : Option Nat}
    (hf : (fetchWord p (seqPc s p) s).2.1 = false)
    (hg : PairAside eventRegs (ks ++ bankKeys p) p g (fetchWord p (seqPc s p) s).2.2 t') :
    ∃ b, Own p (issuedUnits g b pc (next.getD (pc + 1))) ks s (issued p pc next t') := by
  obtain ⟨b, hb⟩ := fetch_aside hf
  refine ⟨b, ?_⟩
  have m1 : ∀ r ∈ eventRegs, r ∈ eventRegs := fun _ h => h
  have h1 : Own p (fun x => { x with ibuf := b }) ks s (fetchWord p (seqPc s p) s).2.2 :=
    (PairAside.modPair _ s).trans ((hb.mono m1 (by simp; tauto)).toPair)
  have h2 := h1.trans (hg.mono m1 (by simp; tauto))
  have h3 : Own p (fun x => { x with lastIssued := pc, past := decide (next.getD (pc + 1) ≥ 2 ^ 20), seq := x.seq + 1 }) ks t' (stepTo p pc next t') :=
    (PairAside.modPair _ t').trans ((Aside.refl.setFld (f := F.SEQ_STATUS_pc) (i := p) (next.getD (pc + 1)) (.inr (by simp))).toPair)
  exact (h2.trans h3).trans (((issued_aside p pc next t').mono m1 (by simp; tauto)).toPair)

/-- The whole of an issue: the word is the row's own, its checks pass, its effect on the state after the fetch is t'. -/
theorem issue_completes {c : Instr} {f : State → State} {mine : Nat → State → Bool} {body : Nat → State → Issue}
    {g : PairS → PairS} {ks : List (Reg × Nat)} {t' : State} {next : Option Nat} (he : exec c s = .next (whenClocked f s))
    (hf : f s = issueWith p mine body s) (h : Issues p w s) (hd : definedOp w = true)
    (hm : mine w (fetchWord p (seqPc s p) s).2.2 = true) (hb : body w (fetchWord p (seqPc s p) s).2.2 = .done t' next)
    (hg : PairAside eventRegs (ks ++ bankKeys p) p g (fetchWord p (seqPc s p) s).2.2 t') :
    ∃ b, exec c s = .next (issued p (seqPc s p) next t')
      ∧ Own p (issuedUnits g b (seqPc s p) (next.getD (seqPc s p + 1))) ks s (issued p (seqPc s p) next t') := by
  obtain ⟨b, o⟩ := issue_own (pc := seqPc s p) (next := next) h.clean hg
  have e : f s = issued p (seqPc s p) next t' := hf.trans (issueWith_done h hd hm hb)
  have o' : Own p _ ks s (f s) := e ▸ o
  refine ⟨b, ?_, o⟩
  have h1 := h.clocked
  rw [he, whenClocked, if_neg (by simp [h1.2]), whenReleased, if_pos h1.1, ← e]
  congr 1
  have i1 := o'.rest
  have i2 : (f s).inService = s.inService := (congrArg State.inService i1 :)
  have i3 : (f s).pending = s.pending := (congrArg State.pending i1 :)
  rw [← i3, ← h1.1, ← i2]

theorem Own.frame {h : PairS → PairS} {ks : List (Reg × Nat)} {u : State} (o : Own p h ks s u)
    (hs : seqState u p = seqState s p) : IssueFrame p ks s u where
  regs := o.regs
  state := hs
  others := o.others
  memory := ⟨fun a => (congrArg (fun t : State => byteAt t a) o.rest :), fun x => (congrArg (fun t : State => marked t x) o.rest :)⟩
  rest := o.rest

theorem PairAside.inService {rs : List Reg} {ks : List (Reg × Nat)} {h : PairS → PairS} {u : State} (o : PairAside rs ks p h s u) :
    u.inService = s.inService := (congrArg State.inService o.rest :)

theorem PairAside.pending {rs : List Reg} {ks : List (Reg × Nat)} {h : PairS → PairS} {u : State} (o : PairAside rs ks p h s u) :
    u.pending = s.pending := (congrArg State.pending o.rest :)

/-- The index after an issue, and the registers that counting leaves alone. -/
theorem issued_pc (p pc : Nat) (next : Option Nat) (s : State) : seqPc (issued p pc next s) p = next.getD (pc + 1) % 2 ^ 20 := by
  have h := (issued_aside p pc next s).fld (f := F.SEQ_STATUS_pc) (i := p) (by decide) (not_bank (by decide))
  unfold seqPc
  rw [h]
  exact fld_setFld_self (f := F.SEQ_STATUS_pc) (by decide) p _ _

theorem issued_fld (p pc : Nat) (next : Option Nat) (s : State) {f : Fld} {i : Nat} (h1 : f.reg ∉ eventRegs)
    (h2 : f.reg ≠ .CTR_P_n ∧ f.reg ≠ .CTR_P_OVF ∧ f.reg ≠ .CTR_P_SAMPLE_LAST) (h3 : f.reg ≠ .SEQ_STATUS) :
    fld (issued p pc next s) f i = fld s f i :=
  ((issued_aside p pc next s).fld h1 (not_bank h2)).trans (fld_setFld_ne _ _ (.inl h3.symm))

theorem issued_state (p pc : Nat) (next : Option Nat) (s : State) : seqState (issued p pc next s) p = seqState s p := by
  have h := (issued_aside p pc next s).fld (f := F.SEQ_STATUS_state) (i := p) (by decide) (not_bank (by decide))
  unfold seqState
  rw [h]
  exact fld_setFld_same (f := F.SEQ_STATUS_pc) (g := F.SEQ_STATUS_state) rfl (by decide) (by decide) p _ _

/-- Commands of the pair clocks act as their meaning says while the part is released and its clocks run. -/
theorem whenReleased_eq {f : State → State} (h : s.inService = true) :
    whenReleased f s = { f s with inService := true, pending := s.pending } := by
  simp only [whenReleased, h, if_true]

theorem whenClocked_eq {f : State → State} (h : Clocked s) :
    whenClocked f s = { f s with inService := true, pending := s.pending } := by
  simp only [whenClocked, h.2, Bool.false_eq_true, if_false, whenReleased_eq h.1]

/-- A command that takes the part out of nothing and leaves the queue alone acts as its meaning says. -/
theorem whenClocked_self {f : State → State} (h : Clocked s) (h1 : (f s).inService = s.inService) (h2 : (f s).pending = s.pending) :
    whenClocked f s = f s := by
  rw [whenClocked_eq h, ← h2, ← h.1, ← h1]

theorem whenReleased_self {f : State → State} (h : s.inService = true) (h1 : (f s).inService = s.inService)
    (h2 : (f s).pending = s.pending) : whenReleased f s = f s := by
  rw [whenReleased_eq h, ← h2, ← h, ← h1]

theorem Own.whenClocked {h : PairS → PairS} {ks : List (Reg × Nat)} {f : State → State} (hc : Clocked s) (o : Own p h ks s (f s)) :
    whenClocked f s = f s := whenClocked_self hc (PairAside.inService o) (PairAside.pending o)

end Sys2Proof.Machine
end

