-- ==== Sys2Proof/Laws/Memory.lean ====
section
/-! SUPPORT. Memory: a read after a write, the bytes a write leaves alone, and that every operation that writes memory keeps
its canonical form. -/

namespace Sys2Proof.Machine

variable {s : State}

/-- What every step of a fold keeps, the fold keeps. -/
theorem foldl_invariant {α β : Type} {P : β → Prop} {f : β → α → β} (h : ∀ t a, P t → P (f t a)) (l : List α) {b : β} (hb : P b) :
    P (l.foldl f b) := by
  induction l generalizing b with
  | nil => exact hb
  | cons a l ih => exact ih (h b a hb)

/-! ## Reads after writes -/

@[simp] theorem byteAt_pokeByte_self (a v : Nat) (s : State) : byteAt (pokeByte a v s) a = v % 256 := by
  simp [byteAt, pokeByte, BitVec.toNat_ofNat]

theorem byteAt_pokeByte_ne {a x : Nat} (v : Nat) (s : State) (h : x ≠ a) : byteAt (pokeByte a v s) x = byteAt s x := by
  simp only [byteAt, pokeByte, SMap.get_set_ne h]

/-- Bytes written from a leave every address below a and from a plus their number alone. -/
theorem byteAt_pokeBytes_out {a x : Nat} {bs : List Nat} (s : State) (h : x < a ∨ a + bs.length ≤ x) :
    byteAt (pokeBytes a bs s) x = byteAt s x := by
  induction bs generalizing a s with
  | nil => rfl
  | cons b bs ih =>
    simp only [List.length_cons] at h
    rw [pokeBytes, ih _ (by omega), byteAt_pokeByte_ne _ _ (by omega)]

/-- Byte i of what is written from a is read back at a + i. -/
theorem byteAt_pokeBytes_in {a i : Nat} {bs : List Nat} (s : State) (h : i < bs.length) :
    byteAt (pokeBytes a bs s) (a + i) = bs[i] % 256 := by
  induction bs generalizing a i s with
  | nil => simp at h
  | cons b bs ih =>
    cases i with
    | zero => rw [pokeBytes, byteAt_pokeBytes_out _ (.inl (by omega))]; simp
    | succ i =>
      rw [pokeBytes, show a + (i + 1) = a + 1 + i by omega, ih _ (by simpa using h)]
      simp

@[simp] theorem fillGranule_mem (a : Nat) (s : State) : (fillGranule a s).mem = s.mem := by unfold fillGranule; split <;> rfl

theorem byteAt_congr {s t : State} (h : t.mem = s.mem) (x : Nat) : byteAt t x = byteAt s x := by simp only [byteAt, h]

theorem noteOffline_mem (a requester : Nat) (isRead : Bool) (s : State) : (noteOffline a requester isRead s).mem = s.mem :=
  (noteOffline_aside a requester isRead s).mem

theorem escalate_mem (h cause pr : Nat) (s : State) : (escalate h cause pr s).mem = s.mem := (escalate_aside h cause pr s).mem

/-- A directory without room: memory is as before (R219). -/
theorem dirFull_mem (o : Option Nat) (s : State) :
    (match o with | some h => escalate h 0x06 255 (raise F.MEM_EVENTS_poison_dir_full h s) | none => s).mem = s.mem := by
  cases o with
  | none => rfl
  | some h => exact (escalate_mem _ _ _ _).trans (raise_mem _ _ _)

/-- The part of a write in one sector writes its own bytes and no others. -/
theorem byteAt_writeSector_out {a x : Nat} {bs : List Nat} (bad : Bool) (s : State) (h : x < a ∨ a + bs.length ≤ x) :
    byteAt (writeSector a bs bad s) x = byteAt s x := by
  unfold writeSector
  dsimp only
  split
  · exact byteAt_congr (noteOffline_mem _ _ _ _) x
  · split
    · exact byteAt_congr (dirFull_mem _ _) x
    · have hp : byteAt (pokeBytes a bs (fillGranule a s)) x = byteAt s x :=
        (byteAt_pokeBytes_out _ h).trans (byteAt_congr (fillGranule_mem a s) x)
      split
      · exact hp
      · split <;> exact hp

theorem byteAt_writeBytes_out {n a x : Nat} {bs : List Nat} (bad : Bool) (s : State) (h : x < a ∨ a + bs.length ≤ x) :
    byteAt (writeBytes n a bs bad s) x = byteAt s x := by
  induction n generalizing a bs s with
  | zero => rfl
  | succ n ih =>
    unfold writeBytes
    cases bs with
    | nil => rfl
    | cons b bs =>
      dsimp only
      rw [ih _ (by rw [List.length_drop]; simp only [List.length_cons] at h ⊢; omega),
        byteAt_writeSector_out _ _ (by rw [List.length_take]; simp only [List.length_cons] at h ⊢; omega)]

/-- A write leaves every byte outside its own alone. -/
theorem byteAt_memWrite_out {a x : Nat} {bs : List Nat} (bad : Bool) (s : State) (h : x < a ∨ a + bs.length ≤ x) :
    byteAt (memWrite a bs bad s) x = byteAt s x := byteAt_writeBytes_out bad s h

/-! ## The canonical form -/

theorem dropKeys_wf {m : List Host.Cell} (q : Nat → Bool) (h : Memory.wf m = true) : Memory.wf (SMap.dropKeys m q) = true :=
  SMap.wf_dropKeys h

theorem pokeByte_wf (a v : Nat) (h : Memory.wf s.mem = true) : Memory.wf (pokeByte a v s).mem = true := SMap.wf_set h

theorem pokeBytes_wf (a : Nat) (bs : List Nat) (h : Memory.wf s.mem = true) : Memory.wf (pokeBytes a bs s).mem = true := by
  induction bs generalizing a s with
  | nil => exact h
  | cons b bs ih => exact ih _ (pokeByte_wf a b h)

theorem writeSector_wf (a : Nat) (bs : List Nat) (bad : Bool) (h : Memory.wf s.mem = true) :
    Memory.wf (writeSector a bs bad s).mem = true := by
  unfold writeSector
  dsimp only
  split
  · rw [noteOffline_mem]; exact h
  · split
    · exact (congrArg (fun m => Memory.wf m) (dirFull_mem (ownerHive a) s)).trans h
    · have hp := pokeBytes_wf a bs (s := fillGranule a s) (by rw [fillGranule_mem]; exact h)
      split
      · exact hp
      · split <;> exact hp

theorem writeBytes_wf (n a : Nat) (bs : List Nat) (bad : Bool) (h : Memory.wf s.mem = true) :
    Memory.wf (writeBytes n a bs bad s).mem = true := by
  induction n generalizing a bs s with
  | zero => exact h
  | succ n ih =>
    unfold writeBytes
    cases bs with
    | nil => exact h
    | cons b bs => exact ih _ _ (writeSector_wf _ _ _ h)

theorem memWrite_wf (a : Nat) (bs : List Nat) (bad : Bool) (h : Memory.wf s.mem = true) :
    Memory.wf (memWrite a bs bad s).mem = true := writeBytes_wf _ _ _ _ h

theorem putPiece_wf (x : Nat × List Nat × Bool) (h : Memory.wf s.mem = true) : Memory.wf (putPiece x s).mem = true := by
  unfold putPiece
  dsimp only
  split
  · rw [noteOffline_mem]; exact h
  · split
    · exact (congrArg (fun m => Memory.wf m) (dirFull_mem (ownerHive x.1) s)).trans h
    · have hp := pokeBytes_wf x.1 x.2.1 (s := fillGranule x.1 s) (by rw [fillGranule_mem]; exact h)
      split <;> exact hp

theorem clearWhole_mem (cut : List (Nat × List Nat × Bool)) (s : State) : (clearWhole cut s).mem = s.mem := by
  unfold clearWhole
  refine foldl_invariant (P := fun t : State => t.mem = s.mem) ?_ _ rfl
  intro t e ht
  split
  · exact ht
  · exact ht

theorem scatter_wf (pieces : List (Nat × List Nat × Bool)) (h : Memory.wf s.mem = true) : Memory.wf (scatter pieces s).mem = true := by
  unfold scatter
  dsimp only
  rw [clearWhole_mem]
  exact foldl_invariant (P := fun t : State => Memory.wf t.mem = true) (fun t x ht => putPiece_wf x ht) _ h

theorem clearGranules_wf (gs : List Nat) (h : Memory.wf s.mem = true) : Memory.wf (clearGranules gs s).mem = true :=
  dropKeys_wf (fun a => a < combBase && gs.contains (granuleOf a)) h

theorem clearCombs_wf (g : Nat) (h : Memory.wf s.mem = true) : Memory.wf (clearCombs g s).mem = true :=
  dropKeys_wf (fun a => combBase ≤ a && (a - combBase) / combBytes / 16 = g && a < combBase + 64 * combBytes) h

theorem clearTiers_wf (g : Nat) (keep : Bool) (h : Memory.wf s.mem = true) : Memory.wf (clearTiers g keep s).mem = true :=
  dropKeys_wf (fun a => match tierOf a with
    | .far f => f = g && !(keep && inKeep a)
    | .near f => f = g
    | _ => false) h

theorem poisonSector_mem (a : Nat) (s : State) : (poisonSector a s).mem = s.mem := by
  unfold poisonSector
  split
  · exact dirFull_mem (ownerHive a) s
  · rfl

theorem drop_wf (q : Nat → Bool) (h : Memory.wf s.mem = true) : Memory.wf ({ s with mem := SMap.dropKeys s.mem q } : State).mem = true :=
  dropKeys_wf q h

theorem pokeAll_wf (base : Nat) (l : List (Nat × Nat)) (h : Memory.wf s.mem = true) :
    Memory.wf (l.foldl (fun t c => pokeByte (base + c.1) c.2 t) s).mem = true :=
  foldl_invariant (P := fun t : State => Memory.wf t.mem = true) (fun _ _ ht => pokeByte_wf _ _ ht) l h

theorem poisonAll_mem (l : List Nat) (s : State) : (l.foldl (fun t x => poisonSector (x * 64) t) s).mem = s.mem :=
  foldl_invariant (P := fun t : State => t.mem = s.mem) (fun _ _ ht => (poisonSector_mem _ _).trans ht) l rfl

theorem fillAll_mem (d g base n : Nat) (s : State) :
    (iter n s (fun i t => if slotLost t d g (base + 2048 * i) then t else fillGranule (base + 2048 * i) t)).mem = s.mem := by
  unfold iter
  refine foldl_invariant (P := fun t : State => t.mem = s.mem) (fun t i ht => ?_) (List.range n) rfl
  dsimp only
  split
  · exact ht
  · exact (fillGranule_mem _ _).trans ht

theorem slotWrite_wf (d g n : Nat) (cells : List (Nat × Nat)) (bad : List Nat) (h : Memory.wf s.mem = true) :
    Memory.wf (slotWrite d g n cells bad s).mem = true := by
  unfold slotWrite
  extract_lets base s0 secs inside s1 s2 lost s3 s4
  rw [fillAll_mem]
  have h0 : Memory.wf s0.mem = true := by
    unfold s0
    split
    · rw [noteOffline_mem]; exact h
    · exact h
  clear_value s0
  have h2 : Memory.wf s2.mem = true := (congrArg (fun m => Memory.wf m) (poisonAll_mem secs s1)).trans h0
  clear_value s2
  have h3 : Memory.wf s3.mem = true := drop_wf _ h2
  clear_value s3
  exact pokeAll_wf _ _ h3

/-- Bytes of a dump's header poked, but where the slot is lost. -/
theorem pokeHeader_wf (d g base : Nat) (hdr l : List Nat) (h : Memory.wf s.mem = true) :
    Memory.wf (l.foldl (fun t i => if slotLost t d g (base + i) then t else pokeByte (base + i) (nth 0 hdr i) t) s).mem = true := by
  refine foldl_invariant (P := fun t : State => Memory.wf t.mem = true) (fun t i ht => ?_) l h
  split
  · exact ht
  · exact pokeByte_wf _ _ ht

theorem writeHeader_wf (d g status bytes recs : Nat) (h : Memory.wf s.mem = true) :
    Memory.wf (writeHeader d g status bytes recs s).mem = true := by
  unfold writeHeader
  generalize List.range 256 = l
  exact pokeHeader_wf d g _ _ l h

theorem reset_memory_wf : Memory.wf State.reset.mem = true := rfl

end Sys2Proof.Machine
end

