-- ==== Sys2Proof/Laws/Released.lean ====
section
/-! SUPPORT. A command executed by the released part: its meaning on everything but the queue. -/

namespace Sys2Proof.Machine

/-- What a command's meaning gives, with the queue as it was and the part still released. -/
def keepQueue (q : List Instr) (t : State) : State := { t with inService := true, pending := q }

variable (q : List Instr) (t : State)

@[simp] theorem keepQueue_regs : (keepQueue q t).regs = t.regs := rfl
@[simp] theorem keepQueue_mem : (keepQueue q t).mem = t.mem := rfl
@[simp] theorem keepQueue_poison : (keepQueue q t).poison = t.poison := rfl
@[simp] theorem keepQueue_filled : (keepQueue q t).filled = t.filled := rfl
@[simp] theorem keepQueue_us : (keepQueue q t).us = t.us := rfl
@[simp] theorem keepQueue_pairs : (keepQueue q t).pairs = t.pairs := rfl
@[simp] theorem keepQueue_windowLoads : (keepQueue q t).windowLoads = t.windowLoads := rfl
@[simp] theorem keepQueue_log : (keepQueue q t).log = t.log := rfl
@[simp] theorem keepQueue_eventTimes : (keepQueue q t).eventTimes = t.eventTimes := rfl
@[simp] theorem keepQueue_eventDrops : (keepQueue q t).eventDrops = t.eventDrops := rfl
@[simp] theorem keepQueue_heldEvents : (keepQueue q t).heldEvents = t.heldEvents := rfl
@[simp] theorem keepQueue_pendingFaults : (keepQueue q t).pendingFaults = t.pendingFaults := rfl
@[simp] theorem keepQueue_pcieD3 : (keepQueue q t).pcieD3 = t.pcieD3 := rfl
@[simp] theorem keepQueue_pcieUp : (keepQueue q t).pcieUp = t.pcieUp := rfl
@[simp] theorem keepQueue_newRecords : (keepQueue q t).newRecords = t.newRecords := rfl
@[simp] theorem keepQueue_adopted : (keepQueue q t).adopted = t.adopted := rfl
@[simp] theorem keepQueue_inService : (keepQueue q t).inService = true := rfl
@[simp] theorem keepQueue_thermTrip : (keepQueue q t).thermTrip = t.thermTrip := rfl
@[simp] theorem keepQueue_mpHeldReset : (keepQueue q t).mpHeldReset = t.mpHeldReset := rfl
@[simp] theorem keepQueue_freshCount : (keepQueue q t).freshCount = t.freshCount := rfl
@[simp] theorem keepQueue_requests : (keepQueue q t).requests = t.requests := rfl
@[simp] theorem keepQueue_nextReq : (keepQueue q t).nextReq = t.nextReq := rfl
@[simp] theorem keepQueue_hubHeld : (keepQueue q t).hubHeld = t.hubHeld := rfl
@[simp] theorem keepQueue_partsIn : (keepQueue q t).partsIn = t.partsIn := rfl
@[simp] theorem keepQueue_ports : (keepQueue q t).ports = t.ports := rfl
@[simp] theorem keepQueue_spurRoute : (keepQueue q t).spurRoute = t.spurRoute := rfl
@[simp] theorem keepQueue_exclPending : (keepQueue q t).exclPending = t.exclPending := rfl
@[simp] theorem keepQueue_norms : (keepQueue q t).norms = t.norms := rfl
@[simp] theorem keepQueue_normRoots : (keepQueue q t).normRoots = t.normRoots := rfl
@[simp] theorem keepQueue_collHeld : (keepQueue q t).collHeld = t.collHeld := rfl
@[simp] theorem keepQueue_biasShadow : (keepQueue q t).biasShadow = t.biasShadow := rfl
@[simp] theorem keepQueue_biasHost : (keepQueue q t).biasHost = t.biasHost := rfl
@[simp] theorem keepQueue_biasHostBreath : (keepQueue q t).biasHostBreath = t.biasHostBreath := rfl
@[simp] theorem keepQueue_winNext : (keepQueue q t).winNext = t.winNext := rfl
@[simp] theorem keepQueue_winClosed : (keepQueue q t).winClosed = t.winClosed := rfl
@[simp] theorem keepQueue_winTotals : (keepQueue q t).winTotals = t.winTotals := rfl
@[simp] theorem keepQueue_libVersion : (keepQueue q t).libVersion = t.libVersion := rfl
@[simp] theorem keepQueue_library : (keepQueue q t).library = t.library := rfl
@[simp] theorem keepQueue_libNext : (keepQueue q t).libNext = t.libNext := rfl
@[simp] theorem keepQueue_libPending : (keepQueue q t).libPending = t.libPending := rfl
@[simp] theorem keepQueue_breath : (keepQueue q t).breath = t.breath := rfl
@[simp] theorem keepQueue_chans : (keepQueue q t).chans = t.chans := rfl
@[simp] theorem keepQueue_hives : (keepQueue q t).hives = t.hives := rfl
@[simp] theorem keepQueue_memTraining : (keepQueue q t).memTraining = t.memTraining := rfl
@[simp] theorem keepQueue_memUp : (keepQueue q t).memUp = t.memUp := rfl
@[simp] theorem keepQueue_power : (keepQueue q t).power = t.power := rfl
@[simp] theorem keepQueue_counters : (keepQueue q t).counters = t.counters := rfl
@[simp] theorem keepQueue_mp : (keepQueue q t).mp = t.mp := rfl
@[simp] theorem keepQueue_boot : (keepQueue q t).boot = t.boot := rfl
@[simp] theorem keepQueue_groups : (keepQueue q t).groups = t.groups := rfl
@[simp] theorem keepQueue_host : (keepQueue q t).host = t.host := rfl
@[simp] theorem keepQueue_pins : (keepQueue q t).pins = t.pins := rfl
@[simp] theorem keepQueue_out : (keepQueue q t).out = t.out := rfl
@[simp] theorem keepQueue_pending : (keepQueue q t).pending = q := rfl
@[simp] theorem keepQueue_reg (r : Reg) (i : Nat) : reg (keepQueue q t) r i = reg t r i := rfl
@[simp] theorem keepQueue_fld (f : Fld) (i : Nat) : fld (keepQueue q t) f i = fld t f i := rfl
@[simp] theorem keepQueue_fldB (f : Fld) (i : Nat) : fldB (keepQueue q t) f i = fldB t f i := rfl
@[simp] theorem keepQueue_pair (p : Nat) : pair (keepQueue q t) p = pair t p := rfl
@[simp] theorem keepQueue_byteAt (a : Nat) : byteAt (keepQueue q t) a = byteAt t a := rfl
@[simp] theorem keepQueue_marked (x : Nat) : marked (keepQueue q t) x = marked t x := rfl
@[simp] theorem keepQueue_seqState (p : Nat) : seqState (keepQueue q t) p = seqState t p := rfl
@[simp] theorem keepQueue_seqPc (p : Nat) : seqPc (keepQueue q t) p = seqPc t p := rfl
@[simp] theorem keepQueue_scalar (p i : Nat) : scalar (keepQueue q t) p i = scalar t p i := rfl
@[simp] theorem keepQueue_semCount (p i : Nat) : semCount (keepQueue q t) p i = semCount t p i := rfl

theorem keepQueue_keeps {rs : List Reg} {ks : List (Reg × Nat)} {s u : State} (h : Keeps rs ks s u) : Keeps rs ks s (keepQueue q u) := h

theorem whenReleased_keepQueue {f : State → State} {s : State} (h : Released s) : whenReleased f s = keepQueue s.pending (f s) :=
  whenReleased_eq h

theorem whenClocked_keepQueue {f : State → State} {s : State} (h : Clocked s) : whenClocked f s = keepQueue s.pending (f s) :=
  whenClocked_eq h

/-- A command of the released part completes as its meaning says. -/
theorem completes_released {c : Instr} {f : State → State} {s : State} {P : State → Prop} (hs : Released s)
    (he : exec c s = .next (whenReleased f s)) (hp : P (keepQueue s.pending (f s))) : Completes c s P :=
  ⟨_, he.trans (by rw [whenReleased_keepQueue hs]), hp⟩

/-- A command of the pair clocks completes as its meaning says. -/
theorem completes_clocked {c : Instr} {f : State → State} {s : State} {P : State → Prop} (hs : Clocked s)
    (he : exec c s = .next (whenClocked f s)) (hp : P (keepQueue s.pending (f s))) : Completes c s P :=
  ⟨_, he.trans (by rw [whenClocked_keepQueue hs]), hp⟩

end Sys2Proof.Machine
end

