-- ==== Sys2Proof/WellFormed.lean ====
section
/-! DEFINITION. Well-formed commands: every operand lies in the range the spec's encoding gives it. An operand for which the
spec gives no width (a measured value, a reading of a free clock) is unbounded. -/

namespace Sys2Proof

/-- A number of at most n bits. -/
def fits (n v : Nat) : Bool := v < 2 ^ n

/-- Every element is a byte. -/
def areBytes (bs : List Nat) : Bool := bs.all (fun b => b < 256)

/-- The header fields of a packet have the widths R294 gives them, and its payload is of bytes, at most 64 sectors. A payload
is held without the zeros that fill its last sector. -/
def Packet.wf (m : Packet) : Bool :=
  fits 8 m.ptype && fits 16 m.dst && fits 16 m.src && fits 6 m.pair && fits 6 m.rsem && fits 2 m.cls && fits 20 m.age
    && fits 6 m.hops && fits 4 m.dir && fits 4 m.rev && fits 4 m.tag && fits 16 m.generation && fits 44 m.addr
    && fits 64 m.poison && areBytes m.data && decide (m.data.length ≤ 4096)

/-- A storage error names a place of the array: a bank's 512 rows of 64 columns, a half of a staging buffer, a token of a reed's held operand. -/
def ArrayErr.wf : ArrayErr → Bool
  | .corrected => true
  | .accumulator bank row col => decide (bank < 4) && fits 9 row && fits 6 col
  | .staging tile _ _ => decide (tile < 6)
  | .held reed token => decide (reed < 4) && fits 9 token
  | .turn _ => true

/-- What an array command meets: its storage errors name places that exist. -/
def ArrayMet.wf (m : ArrayMet) : Bool := m.errs.all ArrayErr.wf

/-- A command's operands lie in their ranges: addresses in the 44-bit local form (R442), register data in 64 bits (R5), an
ordered set's body in 16 bytes (R293), a flit of 256 bytes (R292), the 70 sensors (R359), the fields of R294. -/
def Instr.wf : Instr → Bool
  | .registerWrite off _ v _ => fits 44 off && fits 64 v
  | .pwrOkFall => true
  | .pwrOkRise => true
  | .resetNAssert => true
  | .resetNRelease _ stopSel _ => fits 2 stopSel
  | .brakeAsserted => true
  | .brakeRelease => true
  | .brakeReleaseStep => true
  | .refclkCoreLoss => true
  | .refclkLinkLoss => true
  | .sensorSample vals => vals.length == 70
  | .masterTickEmit => true
  | .tickInEdge _ => true
  | .tickInMiss => true
  | .tickReceive _ body _ => fits 128 body
  | .tickReroute _ => true
  | .localTickFire => true
  | .guardPoint => true
  | .stretchReceive _ body => fits 128 body
  | .tickLost => true
  | .breathResume => true
  | .breathArm => true
  | .breathCease => true
  | .tickSourceWrite v => fits 64 v
  | .slackRecord _ _ => true
  | .echoSend _ _ => true
  | .echoReceive _ body _ _ => fits 128 body
  | .startNew => true
  | .startJoin => true
  | .scoreStart => true
  | .seqPause _ => true
  | .seqResume _ => true
  | .seqClear _ => true
  | .scoreRefill _ => true
  | .copyShape _ => true
  | .copyGather _ => true
  | .copyScatter _ => true
  | .copyStart _ => true
  | .copyDone _ _ => true
  | .acc _ => true
  | .accDone _ met => met.wf
  | .split _ => true
  | .splitDone _ met => met.wf
  | .bprod _ => true
  | .bprodDone _ met => met.wf
  | .drain _ => true
  | .drainDone _ met => met.wf
  | .stage _ => true
  | .stageDone _ remote _ => areBytes remote
  | .modeChange _ met => met.wf
  | .foldDone _ met => met.wf
  | .reedBlock _ _ met => met.wf
  | .reedClose _ _ met => met.wf
  | .reedEnd _ _ met => met.wf
  | .reedTask _ _ remote _ met => areBytes remote && met.wf
  | .walk _ => true
  | .foragerEntrySend _ _ => true
  | .ringRefill _ _ _ => true
  | .walkDone _ => true
  | .merge _ => true
  | .prefixSum _ => true
  | .sort _ => true
  | .pack _ => true
  | .unpack _ => true
  | .combine _ => true
  | .encode _ => true
  | .listFunctionDone _ => true
  | .vecAdd _ => true
  | .vecSub _ => true
  | .vecMul _ => true
  | .vecFma _ => true
  | .vecMin _ => true
  | .vecMax _ => true
  | .vecCvt _ => true
  | .vecAxpy _ => true
  | .vecExp _ => true
  | .vecRecip _ => true
  | .vecRsqrt _ => true
  | .vecSum _ => true
  | .vecDot _ => true
  | .vecSumsq64 _ => true
  | .vecRmax _ => true
  | .vecRsum _ => true
  | .vecSoftmax _ => true
  | .vecSelect _ => true
  | .vecQuant _ => true
  | .vecDequant _ => true
  | .vecDqacc _ => true
  | .vecHstore _ => true
  | .vecGenc _ => true
  | .vecGdec _ => true
  | .vecOptw _ => true
  | .vecDigest _ => true
  | .vecDone _ => true
  | .wait _ => true
  | .waitRelease _ => true
  | .signal _ => true
  | .quiet _ => true
  | .quietRelease _ => true
  | .ctlNop _ => true
  | .li _ => true
  | .ctlAdd _ => true
  | .addi _ => true
  | .ctlSub _ => true
  | .muli _ => true
  | .ctlAnd _ => true
  | .ctlOr _ => true
  | .ctlXor _ => true
  | .shl _ => true
  | .shr _ => true
  | .sar _ => true
  | .br _ => true
  | .loop _ => true
  | .get _ => true
  | .slice _ => true
  | .scoreEnd _ => true
  | .hum _ => true
  | .chkmul _ => true
  | .chkmulDone _ met => met.wf
  | .chkcmp _ => true
  | .checkUnitDone _ _ => true
  | .allreduce _ => true
  | .redscat _ => true
  | .allgather _ => true
  | .bcast _ => true
  | .alltoallPost _ => true
  | .alltoallDispatch _ => true
  | .alltoallReturn _ => true
  | .alltoallCancel _ => true
  | .permute _ => true
  | .gexchPost _ => true
  | .gexchSend _ => true
  | .norm64 _ => true
  | .digcmp _ => true
  | .memoryRead a _ _ => fits 44 a
  | .memoryWrite a _ bs _ _ => fits 44 a && areBytes bs
  | .channelLockLoss _ => true
  | .eyeTrack _ _ => true
  | .channelIdleRead _ _ => true
  | .channelRetrain _ => true
  | .channelRetrainDone _ eye => fits 8 eye
  | .deviceTempRead _ _ _ => true
  | .refresh _ => true
  | .patrolScrub a _ => fits 44 a
  | .backgroundFill _ _ _ => true
  | .memoryBringup => true
  | .memoryTrainDone failed _ => fits 32 failed
  | .poisonRecClear => true
  | .biasWindowClose => true
  | .biasUpdate => true
  | .biasShadowApply => true
  | .alltoallRowReceive m => m.wf
  | .alltoallReceiveClose _ tag => fits 4 tag
  | .dispatchDone _ _ => true
  | .returnRowReceive m => m.wf
  | .batchClose _ tag => fits 4 tag
  | .gexMessageReceive m => m.wf
  | .gexDecode _ tag => fits 4 tag
  | .gexPostClose _ tag => fits 4 tag
  | .maskReceive m => m.wf
  | .maskTimeout _ tag => fits 4 tag
  | .excludeApply => true
  | .normReportReceive m => m.wf
  | .normTotal _ _ => true
  | .normTotalReceive m => m.wf
  | .normTimeout _ => true
  | .dataFlitReceive _ flit _ _ _ _ _ => flit.length == 256 && areBytes flit
  | .nakReceive _ ack => fits 12 ack
  | .replayTimeout _ => true
  | .addressReceive _ body => fits 128 body
  | .eqReceive _ kind body => fits 8 kind && fits 128 body
  | .eqAdapt _ k _ _ _ ask => fits 3 k && ask.all (fits 112)
  | .laneFail _ k => fits 3 k
  | .retrainEnd _ healthy fec => fits 8 healthy && fits 1 fec
  | .portHang _ => true
  | .retrain _ => true
  | .portDown _ => true
  | .packetForward _ _ m => m.wf
  | .putReceive m => m.wf
  | .getReqReceive m => m.wf
  | .getDataReceive m => m.wf
  | .ackReceive m => m.wf
  | .refuseReceive m => m.wf
  | .requestTimeout _ => true
  | .eventReceive m => m.wf
  | .hostPacketReceive m => m.wf
  | .collSegmentReceive m => m.wf
  | .collClose _ _ => true
  | .permuteDataReceive m => m.wf
  | .permuteReadyReceive m => m.wf
  | .permuteCommit _ _ => true
  | .permuteOutcomeReceive m => m.wf
  | .digcmpVectorReceive m => m.wf
  | .digcmpClose _ _ => true
  | .linkBringup => true
  | .trainFail _ => true
  | .spurRouteSwitch => true
  | .enumStart => true
  | .enumDemote => true
  | .enumPromote => true
  | .joinReceive m => m.wf
  | .conflictReceive m => m.wf
  | .epochClose => true
  | .keepalive => true
  | .orphan => true
  | .flr => true
  | .pcieLinkDown => true
  | .hostWindowAccess _ _ _ _ v _ _ => fits 64 v
  | .hostApertureAccess _ _ _ _ bytes _ _ => areBytes bytes
  | .eventInterrupt => true
  | .identify => true
  | .stopSwitch => true
  | .attestReport => true
  | .attestChain => true
  | .flashErase => true
  | .flashProgram => true
  | .flashRead => true
  | .flashVerify => true
  | .flashStatus => true
  | .flashOpDone _ => true
  | .patternPush => true
  | .patternLibraryReplace => true
  | .dumpRead => true
  | .hiveReset => true
  | .notify => true
  | .notifyApply => true
  | .notifyDeliver => true
  | .mailboxRelayTimeout _ => true
  | .voltageLoop _ _ _ => true
  | .currentSample _ => true
  | .thermalLoop => true
  | .ageingMeasure _ => true
  | .humAdjust _ _ => true
  | .telemetryRead _ => true
  | .avsRetry _ => true
  | .energyIntegrate _ work => work.all (fun w => w.1 < 64 && [0x01, 0x09, 0x0B, 0x0C, 0x0D].contains w.2.1)
  | .jobTagApply => true
  | .testWindowBegin => true
  | .marginClockApply => true
  | .testWindowEnd => true
  | .clockRamp _ => true
  | .hiveFault => true
  | .quiesceEnd _ => true
  | .dumpReadTimeout _ _ _ => true
  | .dumpBudgetExpire _ _ _ => true
  | .dumpComplete _ => true
  | .hiveRelease _ => true
  | .hiveReady _ => true
  | .watchdogExpire _ => true
  | .heartbeat => true
  | .heartbeatTimeout => true
  | .lockstepMismatch => true
  | .mpRestart _ => true
  | .dumpSlotRelease _ => true
  | .bootVerify _ _ _ => true
  | .bootComplete _ _ => true
  | .stopSwitchApply => true
  | .hiveEnablePending _ => true
  | .freezeNow => true
  | .clearAll => true
  | .counterFreeze => true
  | .bwWindowEnd => true
  | .counterClear _ mask => fits 12 mask
  | .userAliasWrite _ _ v => fits 64 v
  | .i3cRead a => fits 44 a
  | .i3cWrite a v => fits 44 a && fits 64 v
  | .i3cAddressAssign a => fits 7 a
  | .tapReset => true
  | .extest _ _ => true
  | .idcode => true
  | .samplePreload _ => true
  | .clamp _ _ => true
  | .highz _ _ => true
  | .bypass _ _ => true
  | .regaccRead a => fits 44 a
  | .regaccWrite a v => fits 44 a && fits 64 v
  | .portTrainingDone _ partner partnerPort fec healthy => fits 16 partner && fits 4 partnerPort && fits 1 fec && fits 8 healthy
  | .pcieLinkUp => true
  | .pciePowerState _ _ => true
  | .hostReadCompletion m => m.wf
  | .relayResponseReceive m => m.wf
  | .windowTotalsReceive m => m.wf
  | .bootTimeLimit => true
  | .releaseAfterPwrOk _ stopSel _ => fits 2 stopSel

end Sys2Proof
end

