-- ==== Sys2Proof/Tests/Slice0.lean ====
section
/-! SUPPORT. Tests: ill-formed commands refused, and for the hypotheses of every statement a state and operands that meet them
all together, at the ends of their ranges where they have ends, with the effect of the command in that state. -/

namespace Sys2Proof.Tests

open Sys2Proof Sys2Proof.Machine

set_option maxRecDepth 8000

/-! ## States -/

/-- An instruction word: its fields' low bits and values. -/
def word (fs : List (Nat × Nat)) : Nat := fs.foldl (fun w f => w + f.2 * 2 ^ f.1) 0

/-- Fields of registers set: the field, its place, its value. -/
def sets (fs : List (Fld × Nat × Nat)) (s : State) : State := fs.foldl (fun t f => setFld f.1 f.2.1 f.2.2 t) s

/-- The part after release, its hives in service. -/
def live (fs : List (Fld × Nat × Nat)) : State :=
  sets ([(F.RL_HIVE_h_state, 0, 0), (F.RL_HIVE_h_state, 1, 0), (F.RL_HIVE_h_state, 2, 0), (F.RL_HIVE_h_state, 3, 0)] ++ fs)
    { State.reset with inService := true }

/-- Pair p with the units x, released and clocked. -/
def unit (p : Nat) (x : PairS) (fs : List (Fld × Nat × Nat)) : State :=
  { live fs with pairs := [(p, x)] }

/-- Pair p RUNNING at index 0 of a score whose first word is w, in its buffer. -/
def runs (p w : Nat) (x : PairS) (fs : List (Fld × Nat × Nat)) : State :=
  unit p { x with ibuf := [(0, 2 * w)] } ((F.SEQ_STATUS_state, p, 2) :: fs)

/-- The next state of a command. -/
def after (c : Instr) (s : State) : State := match exec c s with | .next u => u | _ => s

def issuesB (p w : Nat) (s : State) : Bool :=
  s.inService && !s.thermTrip && canIssue s p && decide (seqPc s p < scoreLength s p) && !(pair s p).past
    && (fetchWord p (seqPc s p) s).1 == w && !(fetchWord p (seqPc s p) s).2.1

theorem issues_of {p w : Nat} {s : State} (h : issuesB p w s = true) : Issues p w s := by
  simp only [issuesB, Bool.and_eq_true, decide_eq_true_eq, Bool.not_eq_true', beq_iff_eq] at h
  obtain ⟨⟨⟨⟨⟨⟨h1, h2⟩, h3⟩, h4⟩, h5⟩, h6⟩, h7⟩ := h
  exact ⟨⟨h1, h2⟩, h3, h4, h5, h6, h7⟩

theorem isWord_of {cls op : Nat} {fields : List (Nat × Nat)} {w : Nat}
    (h : (wbits w 3 0 == cls && wbits w 9 4 == op && onlyBits w fields) = true) : IsWord cls op fields w := by
  simp only [Bool.and_eq_true, beq_iff_eq] at h
  exact ⟨h.1.1, h.1.2, h.2⟩

/-- The word issues next on pair p and is an operation with no bit outside its fields. -/
def Spells (p cls op : Nat) (fields : List (Nat × Nat)) (w : Nat) (s : State) : Prop := Issues p w s ∧ IsWord cls op fields w

theorem spells_of {p cls op : Nat} {fields : List (Nat × Nat)} {w : Nat} {s : State}
    (h : (issuesB p w s && (wbits w 3 0 == cls && wbits w 9 4 == op && onlyBits w fields)) = true) : Spells p cls op fields w s := by
  rw [Bool.and_eq_true] at h
  exact ⟨issues_of h.1, isWord_of h.2⟩

/-! ## The sequencer -/

/-- A CTL word that writes scalar 7 from scalars 3 and 4. -/
def ctlWord (op imm : Nat) : Nat := word [(0, 6), (4, op), (24, 7), (29, 3), (34, 4), (64, imm)]

/-- Pair 63 with such a word, scalars 3 and 4 at the ends of their range. -/
def ctlState (op imm : Nat) : State :=
  runs 63 (ctlWord op imm) {} [(F.SEQ_SCALAR_i_value, 32 * 63 + 3, 2 ^ 64 - 1), (F.SEQ_SCALAR_i_value, 32 * 63 + 4, 2 ^ 63)]

/-- The word is one of the statement's, and the command puts v into scalar 7. -/
def CtlWitness (c : Instr) (op imm v : Nat) : Prop :=
  Spells 63 6 op [(9, 0), (38, 24), (127, 64)] (ctlWord op imm) (ctlState op imm)
    ∧ scalar (after c (ctlState op imm)) 63 7 = v ∧ seqPc (after c (ctlState op imm)) 63 = 1

theorem test_ctl_values :
    CtlWitness (.li 63) 1 (2 ^ 64 - 1) (2 ^ 64 - 1) ∧ CtlWitness (.ctlAdd 63) 2 0 (2 ^ 63 - 1) ∧ CtlWitness (.addi 63) 3 2 1
      ∧ CtlWitness (.ctlSub 63) 4 0 (2 ^ 63 - 1) ∧ CtlWitness (.muli 63) 5 3 (2 ^ 64 - 3) :=
  ⟨⟨spells_of (by decide), by decide⟩, ⟨spells_of (by decide), by decide⟩, ⟨spells_of (by decide), by decide⟩,
   ⟨spells_of (by decide), by decide⟩, ⟨spells_of (by decide), by decide⟩⟩

theorem test_ctl_logic :
    CtlWitness (.ctlAnd 63) 6 0 (2 ^ 63) ∧ CtlWitness (.ctlOr 63) 7 0 (2 ^ 64 - 1) ∧ CtlWitness (.ctlXor 63) 8 0 (2 ^ 63 - 1)
      ∧ CtlWitness (.shl 63) 0x0A 63 (2 ^ 63) ∧ CtlWitness (.shr 63) 0x0B 63 1 ∧ CtlWitness (.sar 63) 0x0C 63 (2 ^ 64 - 1) :=
  ⟨⟨spells_of (by decide), by decide⟩, ⟨spells_of (by decide), by decide⟩, ⟨spells_of (by decide), by decide⟩,
   ⟨spells_of (by decide), by decide⟩, ⟨spells_of (by decide), by decide⟩, ⟨spells_of (by decide), by decide⟩⟩

/-- GET of a selector in the 4 bits of its field. -/
theorem test_get_selectors :
    (Spells 63 6 0x12 [(9, 0), (38, 24), (127, 64)] (ctlWord 0x12 1) (ctlState 0x12 1) ∧ wbits (ctlWord 0x12 1) 67 64 < 8)
      ∧ scalar (after (.get 63) (ctlState 0x12 1)) 63 7 = 63
      ∧ (Spells 63 6 0x12 [(9, 0), (38, 24), (127, 64)] (ctlWord 0x12 7) (ctlState 0x12 7) ∧ wbits (ctlWord 0x12 7) 67 64 < 8)
      ∧ Issues 63 (ctlWord 0x12 8) (ctlState 0x12 8) ∧ 8 ≤ wbits (ctlWord 0x12 8) 67 64 := by
  exact ⟨⟨spells_of (by decide), by decide⟩, by decide, ⟨spells_of (by decide), by decide⟩, issues_of (by decide), by decide⟩

theorem test_nop : Spells 0 6 0 [(9, 0), (38, 24), (127, 64)] (word [(0, 6)]) (runs 0 (word [(0, 6)]) {} []) := spells_of (by decide)

/-- A BR with condition cc to the index t, in a score of 2^20 instructions; scalar 3 is below scalar 4 as unsigned, above as signed. -/
def brState (cc t : Nat) : State :=
  runs 5 (word [(0, 6), (4, 0x10), (10, cc), (29, 3), (34, 4), (64, t)]) {}
    [(F.SEQ_SCORE_length_m1, 5, 2 ^ 20 - 1), (F.SEQ_SCALAR_i_value, 32 * 5 + 3, 1), (F.SEQ_SCALAR_i_value, 32 * 5 + 4, 2 ^ 63)]

def brWord (cc t : Nat) : Nat := word [(0, 6), (4, 0x10), (10, cc), (29, 3), (34, 4), (64, t)]

/-- The word is a legal BR within the score whose condition answers b; the next index is i. -/
def BrWitness (cc t : Nat) (b : Bool) (i : Nat) : Prop :=
  Spells 5 6 0x10 [(13, 0), (38, 24), (83, 64)] (brWord cc t) (brState cc t) ∧ wbits (brWord cc t) 13 10 ≤ 10
    ∧ wbits (brWord cc t) 127 64 < scoreLength (brState cc t) 5
    ∧ condHolds (wbits (brWord cc t) 13 10) (scalar (brState cc t) 5 3) (scalar (brState cc t) 5 4) = b
    ∧ seqPc (after (.br 5) (brState cc t)) 5 = i

theorem test_branches :
    BrWitness 0 4095 true 4095 ∧ BrWitness 10 (2 ^ 20 - 1) true (2 ^ 20 - 1) ∧ BrWitness 3 9 false 1
      ∧ (pair (after (.br 5) (brState 0 4095)) 5).blocked = .none ∧ (pair (after (.br 5) (brState 0 4096)) 5).blocked = .refill
      ∧ Issues 5 (brWord 11 0) (brState 11 0) ∧ 11 ≤ wbits (brWord 11 0) 13 10 :=
  ⟨⟨spells_of (by decide), by decide⟩, ⟨spells_of (by decide), by decide⟩, ⟨spells_of (by decide), by decide⟩, by decide, by decide,
   issues_of (by decide), by decide⟩

/-- A LOOP on scalar 3, which holds v. -/
def loopState (v : Nat) : State :=
  runs 5 (word [(0, 6), (4, 0x11), (29, 3), (64, 2)]) {} [(F.SEQ_SCORE_length_m1, 5, 3), (F.SEQ_SCALAR_i_value, 32 * 5 + 3, v)]

theorem test_loop :
    Spells 5 6 0x11 [(9, 0), (38, 24), (83, 64)] (word [(0, 6), (4, 0x11), (29, 3), (64, 2)]) (loopState 1)
      ∧ Spells 5 6 0x11 [(9, 0), (38, 24), (83, 64)] (word [(0, 6), (4, 0x11), (29, 3), (64, 2)]) (loopState 0)
      ∧ seqPc (after (.loop 5) (loopState 1)) 5 = 1 ∧ seqPc (after (.loop 5) (loopState 0)) 5 = 2
      ∧ scalar (after (.loop 5) (loopState 0)) 5 3 = 2 ^ 64 - 1 :=
  ⟨spells_of (by decide), spells_of (by decide), by decide, by decide, by decide⟩

theorem test_refill :
    Clocked (unit 5 { blocked := .refill } []) ∧ (pair (unit 5 { blocked := .refill } []) 5).blocked = .refill :=
  ⟨⟨rfl, rfl⟩, by decide⟩

/-- A SLICE or an END with its quiet flag q. -/
def endState (op q : Nat) (x : PairS) : State := runs 5 (word [(0, 6), (4, op), (10, q)]) x []

def endWord (op q : Nat) : Nat := word [(0, 6), (4, op), (10, q)]

theorem test_slice_end :
    Spells 5 6 0x18 [(10, 0), (38, 24), (127, 64)] (endWord 0x18 1) (endState 0x18 1 {}) ∧ pairQuiet (endState 0x18 1 {}) 5 = true
      ∧ (pair (endState 0x18 1 {}) 5).owed = none ∧ seqState (after (.slice 5) (endState 0x18 1 {})) 5 = 3
      ∧ seqState (after (.slice 5) (endState 0x18 0 { pauseReq := true })) 5 = 4
      ∧ Spells 5 6 0x18 [(10, 0), (38, 24), (127, 64)] (endWord 0x18 0) (endState 0x18 0 { owed := some 9 })
      ∧ (pair (endState 0x18 0 { owed := some 9 }) 5).owed = some 9 ∧ (pair (endState 0x18 0 { owed := some 9 }) 5).pauseReq = false
      ∧ fld (endState 0x18 0 { owed := some 9 }) F.BREATH_STATUS_state ≠ 4
      ∧ (pair (after (.slice 5) (endState 0x18 0 { owed := some 9 })) 5).sliceBreath = 9 :=
  ⟨spells_of (by decide), by decide, by decide, by decide, by decide, spells_of (by decide), by decide, by decide, by decide, by decide⟩

theorem test_score_end :
    Spells 5 6 0x19 [(10, 0), (38, 24), (127, 64)] (endWord 0x19 0) (endState 0x19 0 {})
      ∧ seqState (after (.scoreEnd 5) (endState 0x19 0 {})) 5 = 5 :=
  ⟨spells_of (by decide), by decide⟩

theorem test_quiet_ends :
    Spells 5 6 0x18 [(10, 0), (38, 24), (127, 64)] (endWord 0x18 1) (endState 0x18 1 { vec := [{}] })
      ∧ pairQuiet (endState 0x18 1 { vec := [{}] }) 5 = false
      ∧ Spells 5 6 0x19 [(10, 0), (38, 24), (127, 64)] (endWord 0x19 1) (endState 0x19 1 { vec := [{}] })
      ∧ pairQuiet (endState 0x19 1 { vec := [{}] }) 5 = false
      ∧ seqState (after (.slice 5) (endState 0x18 1 { vec := [{}] })) 5 = 2 :=
  ⟨spells_of (by decide), by decide, spells_of (by decide), by decide, by decide⟩

/-- A wait of class cls on semaphore 63 for n, the count c. -/
def waitState (cls n c : Nat) : State :=
  runs 5 (word [(0, cls), (16, 63), (24, n)]) {} [(F.SEQ_SEM_i_count, 64 * 5 + 63, c)]

theorem test_waits :
    Spells 5 4 0 [(9, 0), (21, 16), (39, 24)] (word [(0, 4), (16, 63), (24, 65535)]) (waitState 4 65535 65535)
      ∧ wbits (word [(0, 4), (16, 63), (24, 65535)]) 39 24 ≠ 0
      ∧ semCount (after (.wait 5) (waitState 4 65535 65535)) 5 63 = 0
      ∧ (pair (after (.wait 5) (waitState 4 65535 65534)) 5).blocked = .sem 63 65535
      ∧ Spells 5 7 0 [(10, 0), (21, 16), (39, 24)] (word [(0, 7), (16, 63), (24, 1)]) (waitState 7 1 0)
      ∧ (pair (after (.hum 5) (waitState 7 1 0)) 5).blocked = .hum 63 1 false
      ∧ semCount (after (.hum 5) (waitState 7 1 1)) 5 63 = 0 :=
  ⟨spells_of (by decide), by decide, by decide, by decide, spells_of (by decide), by decide, by decide⟩

theorem test_wait_release :
    Clocked (unit 5 { blocked := .sem 3 2 } [(F.SEQ_SEM_i_count, 64 * 5 + 3, 2)])
      ∧ (pair (unit 5 { blocked := .sem 3 2 } [(F.SEQ_SEM_i_count, 64 * 5 + 3, 2)]) 5).blocked = .sem 3 2
      ∧ 2 ≤ semCount (unit 5 { blocked := .sem 3 2 } [(F.SEQ_SEM_i_count, 64 * 5 + 3, 2)]) 5 3
      ∧ (pair (unit 5 { blocked := .hum 3 2 true } [(F.SEQ_SEM_i_count, 64 * 5 + 3, 2)]) 5).blocked = .hum 3 2 true
      ∧ semCount (after (.waitRelease 5) (unit 5 { blocked := .hum 3 2 true } [(F.SEQ_SEM_i_count, 64 * 5 + 3, 2)])) 5 3 = 0 :=
  ⟨⟨rfl, rfl⟩, by decide, by decide, by decide, by decide⟩

/-- A SIGNAL of semaphore 9 of pair 40. -/
def signalWord : Nat := word [(0, 4), (4, 1), (16, 9), (24, 40)]

theorem test_signal :
    Spells 5 4 1 [(9, 0), (21, 16), (29, 24)] signalWord (runs 5 signalWord {} [(F.RL_HIVE_h_state, 2, 0)])
      ∧ hiveState (runs 5 signalWord {} [(F.RL_HIVE_h_state, 2, 0)]) (wbits signalWord 29 24 / 16) = 0
      ∧ semCount (runs 5 signalWord {} [(F.RL_HIVE_h_state, 2, 0)]) 40 9 ≠ 0xFFFFFFFF
      ∧ semCount (after (.signal 5) (runs 5 signalWord {} [(F.RL_HIVE_h_state, 2, 0)])) 40 9 = 1
      ∧ Spells 5 4 1 [(9, 0), (21, 16), (29, 24)] signalWord (runs 5 signalWord {} [(F.RL_HIVE_h_state, 2, 4)])
      ∧ hiveState (runs 5 signalWord {} [(F.RL_HIVE_h_state, 2, 4)]) (wbits signalWord 29 24 / 16) ≠ 0 :=
  ⟨spells_of (by decide), by decide, by decide, by decide, spells_of (by decide), by decide⟩

theorem test_quiet :
    Spells 5 4 2 [(9, 0)] (word [(0, 4), (4, 2)]) (runs 5 (word [(0, 4), (4, 2)]) {} [])
      ∧ (pair (after (.quiet 5) (runs 5 (word [(0, 4), (4, 2)]) {} [])) 5).blocked = .none
      ∧ Spells 5 4 2 [(9, 0)] (word [(0, 4), (4, 2)]) (runs 5 (word [(0, 4), (4, 2)]) { colls := [{}] } [])
      ∧ (pair (after (.quiet 5) (runs 5 (word [(0, 4), (4, 2)]) { colls := [{}] } [])) 5).blocked = .quiet :=
  ⟨spells_of (by decide), by decide, spells_of (by decide), by decide⟩

theorem test_quiet_release :
    Clocked (unit 5 { blocked := .quiet } []) ∧ pairQuiet (unit 5 { blocked := .quiet } []) 5 = true
      ∧ (pair (after (.quietRelease 5) (unit 5 { blocked := .quiet } [])) 5).blocked = .none
      ∧ pairQuiet (unit 5 { blocked := .sliceQuiet } []) 5 = true ∧ (pair (unit 5 { blocked := .sliceQuiet } []) 5).owed = none
      ∧ seqState (after (.quietRelease 5) (unit 5 { blocked := .sliceQuiet } [])) 5 = 3
      ∧ seqState (after (.quietRelease 5) (unit 5 { blocked := .endQuiet } [])) 5 = 5 :=
  ⟨⟨rfl, rfl⟩, by decide, by decide, by decide, by decide, by decide, by decide⟩

theorem test_pause_resume_clear :
    seqState (live [(F.SEQ_STATUS_state, 5, 2)]) 5 = 2 ∧ (pair (after (.seqPause 5) (live [(F.SEQ_STATUS_state, 5, 2)])) 5).pauseReq
      ∧ seqState (after (.seqPause 5) (live [(F.SEQ_STATUS_state, 5, 3)])) 5 = 4
      ∧ seqState (after (.seqResume 5) (live [(F.SEQ_STATUS_state, 5, 4)])) 5 = 3
      ∧ fld (live [(F.SEQ_STATUS_state, 5, 6), (F.SEQ_CTRL_fault_escalate, 5, 0)]) F.SEQ_CTRL_fault_escalate 5 = 0
      ∧ pairQuiet (live [(F.SEQ_STATUS_state, 5, 6), (F.SEQ_CTRL_fault_escalate, 5, 0)]) 5 = true
      ∧ seqState (after (.seqClear 5) (live [(F.SEQ_STATUS_state, 5, 6), (F.SEQ_CTRL_fault_escalate, 5, 0)])) 5 = 0 := by
  decide

theorem test_ignored_commands :
    seqState (live []) 5 = 0 ∧ fld (after (.seqPause 5) (live [])) F.SEQ_EVENTS_ignored_write 5 = 1
      ∧ fld (after (.seqResume 5) (live [])) F.SEQ_EVENTS_ignored_write 5 = 1
      ∧ fld (after (.seqClear 5) (live [(F.SEQ_STATUS_state, 5, 6), (F.SEQ_CTRL_fault_escalate, 5, 1)])) F.SEQ_EVENTS_ignored_write 5 = 1 := by
  decide

/-- Pairs 0 and 63 named for a start, locked, their hives in service. -/
def startState : State :=
  live ([(F.SCORE_MASK_pairs, 0, 2 ^ 63 + 1), (F.BOOT_STATUS_boot_lock, 0, 1)]
    ++ (List.range 4).map (fun h => (F.RL_HIVE_h_state, h, 0)))

theorem test_start_in_order :
    fld startState F.SCORE_MASK_pairs ≠ 0 ∧ fld startState F.BOOT_STATUS_boot_lock = 1
      ∧ (∀ p < 64, bitAt (fld startState F.SCORE_MASK_pairs) p = true →
          hiveState startState (p / 16) = 0 ∧ (seqState startState p = 0 ∨ seqState startState p = 5)
            ∧ fld startState F.SEQ_ENTRY_entry p < scoreLength startState p)
      ∧ (∀ p < 64, seqState startState p = 0 ∨ seqState startState p = 5 ∨ seqState startState p = 6)
      ∧ fld startState F.BREATH_START_start_tick = 0 ∧ fld (live []) F.SCORE_MASK_pairs = 0 := by
  decide

theorem test_starts :
    fld (after .startNew startState) F.SCORE_STATUS_result = 1 ∧ seqState (after .startNew startState) 63 = 1
      ∧ fld (after .startJoin { startState with breath := { newAccepted := true } }) F.SCORE_STATUS_result = 1
      ∧ fld (after .startNew (live [])) F.SCORE_STATUS_result = 3 := by
  decide

theorem test_score_start :
    seqState (unit 5 { startDue := true } [(F.SEQ_STATUS_state, 5, 1)]) 5 = 1
      ∧ (pair (unit 5 { startDue := true } [(F.SEQ_STATUS_state, 5, 1)]) 5).startDue = true
      ∧ seqState (after .scoreStart (unit 5 { startDue := true } [(F.SEQ_STATUS_state, 5, 1)])) 5 = 2 := by
  decide

/-- A word of class 9 names no operation; a score of one instruction whose index has gone past it; a poisoned word. -/
theorem test_score_faults :
    Issues 5 9 (runs 5 9 {} []) ∧ definedOp 9 = false
      ∧ Clocked (runs 5 0 {} [(F.SEQ_STATUS_pc, 5, 1)]) ∧ canIssue (runs 5 0 {} [(F.SEQ_STATUS_pc, 5, 1)]) 5 = true
      ∧ scoreLength (runs 5 0 {} [(F.SEQ_STATUS_pc, 5, 1)]) 5 ≤ seqPc (runs 5 0 {} [(F.SEQ_STATUS_pc, 5, 1)]) 5
      ∧ canIssue (unit 5 { ibuf := [(0, 1)] } [(F.SEQ_STATUS_state, 5, 2)]) 5 = true
      ∧ (fetchWord 5 0 (unit 5 { ibuf := [(0, 1)] } [(F.SEQ_STATUS_state, 5, 2)])).2.1 = true :=
  ⟨issues_of (by decide), by decide, ⟨rfl, rfl⟩, by decide, by decide, by decide, by decide⟩

/-! ## The array -/

theorem noFault_of {r : Issue} (h : (match r with | .fault _ => false | .reject _ _ => false | _ => true) = true) : NoFault r := by
  unfold NoFault
  cases r <;> simp_all

/-- An ACC of one step from both staging buffers, with its increment. -/
def accWord : Nat := word [(0, 1), (10, 1), (11, 1), (22, 1), (16, 3), (24, 1), (28, 1)]

/-- A SPLIT from the reed queues, a BPROD, a STAGE of one element, a CHKMUL, a DRAIN of all slices of bank 3. -/
def splitWord : Nat := word [(0, 1), (4, 1), (24, 1), (28, 1), (54, 3), (96, 1)]
def bprodWord : Nat := word [(0, 1), (4, 2), (24, 1), (28, 1), (42, 3)]
def stageWord : Nat := word [(0, 1), (4, 4), (24, 1)]
def chkmulWord : Nat := word [(0, 7), (4, 1), (46, 1)]
def drainWord : Nat := word [(0, 1), (4, 3), (28, 3), (30, 15), (47, 1), (22, 1)]

/-- Such a word on pair 5, scalar 3 a panel of 8,192 rows at comb offset 0, n instructions queued. -/
def arrayState (w n : Nat) : State :=
  runs 5 w { array := { queue := List.replicate n {} } } [(F.SEQ_SCALAR_i_value, 32 * 5 + 3, 1024 * 2 ^ 32)]

theorem test_array_issue :
    Issues 5 accWord (arrayState accWord 7) ∧ NoFault (issueAcc 5 accWord (fetched 5 (arrayState accWord 7)))
      ∧ (pair (after (.acc 5) (arrayState accWord 7)) 5).array.queue.length = 8
      ∧ Issues 5 splitWord (arrayState splitWord 7) ∧ NoFault (issueSplit 5 splitWord (fetched 5 (arrayState splitWord 7)))
      ∧ (pair (after (.split 5) (arrayState splitWord 7)) 5).array.queue.length = 8
      ∧ Issues 5 bprodWord (arrayState bprodWord 7) ∧ NoFault (issueBprod 5 bprodWord (fetched 5 (arrayState bprodWord 7)))
      ∧ (pair (after (.bprod 5) (arrayState bprodWord 7)) 5).array.queue.length = 8
      ∧ Issues 5 stageWord (arrayState stageWord 7) ∧ NoFault (issueStage 5 stageWord (fetched 5 (arrayState stageWord 7)))
      ∧ (pair (after (.stage 5) (arrayState stageWord 7)) 5).array.queue.length = 8
      ∧ Issues 5 chkmulWord (arrayState chkmulWord 7) ∧ NoFault (issueChkmul 5 chkmulWord (fetched 5 (arrayState chkmulWord 7)))
      ∧ (pair (after (.chkmul 5) (arrayState chkmulWord 7)) 5).array.queue.length = 8 :=
  ⟨issues_of (by decide), noFault_of (by decide), by decide, issues_of (by decide), noFault_of (by decide), by decide,
   issues_of (by decide), noFault_of (by decide), by decide, issues_of (by decide), noFault_of (by decide), by decide,
   issues_of (by decide), noFault_of (by decide), by decide⟩

theorem test_array_full :
    NoFault (issueAcc 5 accWord (fetched 5 (arrayState accWord 8))) ∧ NoFault (issueSplit 5 splitWord (fetched 5 (arrayState splitWord 8)))
      ∧ NoFault (issueBprod 5 bprodWord (fetched 5 (arrayState bprodWord 8)))
      ∧ NoFault (issueStage 5 stageWord (fetched 5 (arrayState stageWord 8)))
      ∧ NoFault (issueChkmul 5 chkmulWord (fetched 5 (arrayState chkmulWord 8)))
      ∧ seqPc (after (.acc 5) (arrayState accWord 8)) 5 = 0 :=
  ⟨noFault_of (by decide), noFault_of (by decide), noFault_of (by decide), noFault_of (by decide), noFault_of (by decide), by decide⟩

theorem test_drain_issue :
    Issues 5 drainWord (arrayState drainWord 0) ∧ NoFault (issueDrain 5 drainWord (fetched 5 (arrayState drainWord 0)))
      ∧ (pair (arrayState drainWord 0) 5).array.drains.length < 5
      ∧ (pair (after (.drain 5) (arrayState drainWord 0)) 5).array.drains.map (fun d => (d.bank, d.smask, d.rowStep, d.colStep)) = [(3, 15, 64, 4)] :=
  ⟨issues_of (by decide), noFault_of (by decide), by decide, by decide⟩

/-- An array instruction at the head of its queue, in mode m. -/
def headState (m : Nat) (o : UnitOp) (a : ArrayS) : State :=
  unit 5 { array := { a with queue := [o] } } [(F.ARRAY_STATUS_mode, 5, m), (F.SEQ_SEM_i_count, 64 * 5 + 3, 0xFFFFFFFE)]

theorem atHead_of {m cls op : Nat} {o : UnitOp} {a : ArrayS} {s : State} (hs : s = headState m o a)
    (h : (wbits o.word 3 0 == cls && wbits o.word 9 4 == op && arrayMode s 5 == m && (pair s 5).array.drains == []
      && semCount s 5 (wbits o.word 21 16) != 0xFFFFFFFF && (pair s 5).array.queue == [o] && s.inService && !s.thermTrip) = true) :
    AtHead 5 cls op m o [] s := by
  subst hs
  simp only [Bool.and_eq_true, beq_iff_eq, bne_iff_ne, ne_eq, Bool.not_eq_true'] at h
  obtain ⟨⟨⟨⟨⟨⟨⟨h1, h2⟩, h3⟩, h4⟩, h5⟩, h6⟩, h7⟩, h8⟩ := h
  exact ⟨⟨h7, h8⟩, h6, h1, h2, h3, h4, fun _ => h5⟩

theorem test_acc_done :
    AtHead 5 1 0 0 { word := accWord } [] (headState 0 { word := accWord } {})
      ∧ semCount (after (.accDone 5 {}) (headState 0 { word := accWord } {})) 5 3 = 0xFFFFFFFF
      ∧ sliceState (after (.accDone 5 {}) (headState 0 { word := accWord } {})) 5 3 = 1
      ∧ sliceState (after (.accDone 5 {}) (headState 0 { word := accWord } {})) 5 4 = 0 :=
  ⟨atHead_of rfl (by decide), by decide, by decide, by decide⟩

theorem test_split_done :
    AtHead 5 1 1 1 { word := splitWord + 2 ^ 10 } [] (headState 1 { word := splitWord + 2 ^ 10 } {})
      ∧ wbits (splitWord + 2 ^ 10) 10 10 = 1
      ∧ AtHead 5 1 1 1 { word := splitWord } [] (headState 1 { word := splitWord } { ended := 15 }) ∧ wbits splitWord 10 10 = 0
      ∧ (pair (headState 1 { word := splitWord } { ended := 15 }) 5).array.ended = 15
      ∧ (pair (after (.splitDone 5 {}) (headState 1 { word := splitWord } { ended := 15 })) 5).array.queue = [] :=
  ⟨atHead_of rfl (by decide), by decide, atHead_of rfl (by decide), by decide, by decide, by decide⟩

theorem test_bprod_done :
    AtHead 5 1 2 2 { word := bprodWord } [] (headState 2 { word := bprodWord } { ended := 15 })
      ∧ (pair (headState 2 { word := bprodWord } { ended := 15 }) 5).array.folds = []
      ∧ (pair (after (.bprodDone 5 {}) (headState 2 { word := bprodWord } { ended := 15 })) 5).array.ended = 0 :=
  ⟨atHead_of rfl (by decide), by decide, by decide⟩

theorem test_stage_done :
    AtHead 5 1 4 2 { word := stageWord } [] (headState 2 { word := stageWord } {}) ∧ wbits stageWord 12 11 ≠ 3
      ∧ (SMap.get {} (pair (after (.stageDone 5 [] false) (headState 2 { word := stageWord } {})) 5).array.tiles 0).valid = true :=
  ⟨atHead_of rfl (by decide), by decide, by decide⟩

theorem test_mode_change :
    (pair (headState 0 { word := bprodWord } {}) 5).array.queue = [{ word := bprodWord }] ∧ wbits bprodWord 3 0 = 1
      ∧ wbits bprodWord 9 4 ≤ 2 ∧ arrayMode (headState 0 { word := bprodWord } {}) 5 ≠ wbits bprodWord 9 4
      ∧ arrayMode (after (.modeChange 5 {}) (headState 0 { word := bprodWord } {})) 5 = 2
      ∧ SMap.get 0 (pair (after (.modeChange 5 {}) (headState 0 { word := bprodWord } { acc := [(7, 1)] })) 5).array.acc 7 = 0
      ∧ SMap.get 0 (pair (after (.modeChange 5 {}) (headState 0 { word := splitWord } { acc := [(7, 1)] })) 5).array.acc 7 = 1 := by
  decide

/-- The drain of bank 3 in progress, alone. -/
def drainState (keep : Bool) : State :=
  unit 5 { array := { drains := [{ bank := 3, smask := 15, rowStep := 64, colStep := 4, sig := true, sem := 63, keep := keep }] } }
    [(F.ARRAY_STATUS_slice_state, 5, 0xFF000000)]

theorem test_drain_done :
    Clocked (drainState false) ∧ (pair (drainState false) 5).array.queue = []
      ∧ (pair (drainState false) 5).array.drains.map DrainOp.keep = [false] ∧ semCount (drainState false) 5 63 ≠ 0xFFFFFFFF
      ∧ sliceState (drainState false) 5 15 = 3
      ∧ Clocked (drainState true) ∧ (pair (drainState true) 5).array.drains.map DrainOp.keep = [true]
      ∧ bitAt 15 3 = true ∧ semCount (drainState true) 5 63 ≠ 0xFFFFFFFF :=
  ⟨⟨rfl, rfl⟩, by decide, by decide, by decide, by decide, ⟨rfl, rfl⟩, by decide, by decide, by decide⟩

theorem test_chkmul_done :
    AtHead 5 7 1 0 { word := chkmulWord, vals := [combBytes - 32] } [] (headState 0 { word := chkmulWord, vals := [combBytes - 32] } {})
      ∧ nth 0 [combBytes - 32] 0 + 32 ≤ combBytes :=
  ⟨atHead_of rfl (by decide), by decide⟩

/-! ## The reeds -/

/-- Reed 3 with one entry before it. -/
def reedState (m : Nat) (o : UnitOp) (q : QEntry) (a : ArrayS) : State :=
  unit 5 { array := { a with queue := [o] }, queues := [(3, [q])] }
    [(F.ARRAY_STATUS_mode, 5, m), (F.SEQ_SEM_i_count, 64 * 5 + 3, 0xFFFFFFFE)]

/-- A SPLIT whose panel has one row of slots for one block. -/
def splitOp : UnitOp := { word := splitWord, vals := [0, 0, 0, 16 * 2 ^ 32], seq := 9 }

theorem atHead_reed {m cls op : Nat} {o : UnitOp} {q : QEntry} {a : ArrayS} {s : State} (hs : s = reedState m o q a)
    (h : (wbits o.word 3 0 == cls && wbits o.word 9 4 == op && arrayMode s 5 == m && (pair s 5).array.drains == []
      && semCount s 5 (wbits o.word 21 16) != 0xFFFFFFFF && (pair s 5).array.queue == [o] && s.inService && !s.thermTrip
      && SMap.get [] (pair s 5).queues 3 == [q]) = true) :
    AtHead 5 cls op m o [] s ∧ ReedAt 5 3 q [] s := by
  subst hs
  simp only [Bool.and_eq_true, beq_iff_eq, bne_iff_ne, ne_eq, Bool.not_eq_true'] at h
  obtain ⟨⟨⟨⟨⟨⟨⟨⟨h1, h2⟩, h3⟩, h4⟩, h5⟩, h6⟩, h7⟩, h8⟩, h9⟩ := h
  exact ⟨⟨⟨h7, h8⟩, h6, h1, h2, h3, h4, fun _ => h5⟩, h9⟩

theorem test_reed_block :
    (AtHead 5 1 1 1 splitOp [] (reedState 1 splitOp {} {}) ∧ ReedAt 5 3 {} [] (reedState 1 splitOp {} {}))
      ∧ bitAt (pair (reedState 1 splitOp {} {}) 5).array.ended 3 = false ∧ (0 : Nat) = widthCode (wbits splitOp.word 31 28)
      ∧ (0 + 1) * (16 / slotElems (wbits splitOp.word 31 28)) ≤ (splitPanel splitOp 3).2
      ∧ boundBank (reedState 1 splitOp {} {}) 5 3 0 = none ∧ spillOf (reedState 1 splitOp {} {}) 5 3 0 = none
      ∧ freeBank (reedState 1 splitOp {} {}) 5 3 = some 0 :=
  ⟨atHead_reed rfl (by decide), by decide, by decide, by decide, by decide, by decide, by decide⟩

theorem test_reed_close :
    (AtHead 5 1 1 1 splitOp [] (reedState 1 splitOp { kind := 1 } { bind := [(15, 1)] })
        ∧ ReedAt 5 3 { kind := 1 } [] (reedState 1 splitOp { kind := 1 } { bind := [(15, 1)] }))
      ∧ boundBank (reedState 1 splitOp { kind := 1 } { bind := [(15, 1)] }) 5 3 0 = some 3
      ∧ closeEnd (closeDrain splitOp 3 3 0) ≤ combBytes
      ∧ (pair (after (.reedClose 5 3 {}) (reedState 1 splitOp { kind := 1 } { bind := [(15, 1)] })) 5).array.drains.map DrainOp.smask = [8] :=
  ⟨atHead_reed rfl (by decide), by decide, by decide, by decide⟩

/-- A BPROD whose panel holds one block, its held operand at its own hive's near memory. -/
def bprodOp : UnitOp := { word := bprodWord, vals := [16 * 2 ^ 32, 0, 0], seq := 9 }

theorem test_reed_consumes :
    (AtHead 5 1 2 2 bprodOp [] (reedState 2 bprodOp { kind := 1 } {}) ∧ ReedAt 5 3 { kind := 1 } [] (reedState 2 bprodOp { kind := 1 } {}))
      ∧ (AtHead 5 1 2 2 bprodOp [] (reedState 2 bprodOp { kind := 2 } {})
        ∧ ReedAt 5 3 { kind := 2 } [] (reedState 2 bprodOp { kind := 2 } {}))
      ∧ (pair (after (.reedClose 5 3 {}) (reedState 2 bprodOp { kind := 1 } {})) 5).array.ended = 0
      ∧ (pair (after (.reedEnd 5 3 {}) (reedState 2 bprodOp { kind := 2 } {})) 5).array.ended = 8 :=
  ⟨atHead_reed rfl (by decide), atHead_reed rfl (by decide), by decide, by decide⟩

theorem test_reed_end :
    (AtHead 5 1 1 1 splitOp [] (reedState 1 splitOp { kind := 2 } {}) ∧ ReedAt 5 3 { kind := 2 } [] (reedState 1 splitOp { kind := 2 } {}))
      ∧ openColumns (reedState 1 splitOp { kind := 2 } {}) 5 3 = [] ∧ seqState (reedState 1 splitOp { kind := 2 } {}) 5 ≠ 6 :=
  ⟨atHead_reed rfl (by decide), List.mergeSort_nil, by decide⟩

theorem test_reed_task :
    (AtHead 5 1 2 2 bprodOp [] (reedState 2 bprodOp { kind := 3 } {}) ∧ ReedAt 5 3 { kind := 3 } [] (reedState 2 bprodOp { kind := 3 } {}))
      ∧ SMap.get false (pair (reedState 2 bprodOp { kind := 3 } {}) 5).array.slotFull (3 * 64 + 0) = false
      ∧ (0 + 1) * (16 / slotElems (wbits bprodOp.word 27 24)) ≤ bitsOf (nth 0 bprodOp.vals 0) 45 32 :=
  ⟨atHead_reed rfl (by decide), by decide, by decide⟩

theorem test_fold_done :
    (pair (unit 5 { array := { folds := [(7, 63)] } } []) 5).array.folds = [(7, 63)]
      ∧ (pair (unit 5 { array := { folds := [(0, 0)] } } []) 5).array.folds = [(0, 0)] := by
  decide

/-! ## The forager -/

/-- A FORAGE of the descriptor at comb offset 0, its semaphore 3 signalled. -/
def forageWord : Nat := word [(0, 2), (22, 1), (16, 3)]

/-- Pair 5 with a FORAGE of the descriptor ws, n walks and n list functions accepted. -/
def forageState (ws : List Nat) (n : Nat) : State :=
  pokeBytes (combAddr 5 0) (ws.flatMap (natLe 8)) (runs 5 forageWord { walks := List.replicate n {}, lists := List.replicate n {} } [])

theorem forages_of {w fn : Nat} {s : State}
    (h : (issuesB 5 w s && (wbits w 3 0 == 2 && wbits w 9 4 == 0 && onlyBits w [(9, 0), (22, 16), (58, 24)]) && semOk w
      && descOff w % 64 == 0 && inComb (descOff w) 64 && !poisoned s (combAddr 5 (descOff w)) 64
      && bitsOf (numAt s (combAddr 5 (descOff w)) 8) 63 60 == fn) = true) : Forages 5 w fn s := by
  simp only [Bool.and_eq_true, beq_iff_eq, Bool.not_eq_true'] at h
  obtain ⟨⟨⟨⟨⟨⟨h1, h2⟩, h3⟩, h4⟩, h5⟩, h6⟩, h7⟩ := h
  exact ⟨issues_of h1, ⟨h2.1.1, h2.1.2, h2.2⟩, h3, h4, h5, h6, h7⟩

/-- Descriptors at the start of the near memory of hive 0. -/
def walkDesc : List Nat := [2 ^ 60 + 1, nearBase, nearBase, 0, 0, 0, 0, 0]
def listDesc (fn : Nat) : List Nat := [fn * 2 ^ 60, nearBase, nearBase, nearBase, 16, 0, nearBase, combBytes - 64]

theorem test_walk_issue :
    Forages 5 forageWord 1 (forageState walkDesc 3) ∧ walkValid (descWords (forageState walkDesc 3) 5 forageWord 8) = true
      ∧ walkRange 5 (descWords (forageState walkDesc 3) 5 forageWord 8) = true
      ∧ (pair (forageState walkDesc 3) 5).walks.length < 4
      ∧ (pair (after (.walk 5) (forageState walkDesc 3)) 5).walks.length = 4
      ∧ (pair (after (.walk 5) (forageState walkDesc 0)) 5).walk.body = nearBase :=
  ⟨forages_of (by decide), by decide, by decide, by decide, by decide, by decide⟩

/-- The list function fn is accepted behind three others. -/
def ListWitness (c : Instr) (fn : Nat) (ws : List Nat) : Prop :=
  Forages 5 forageWord fn (forageState ws 3) ∧ descWords (forageState ws 3) 5 forageWord 8 = ws ∧ resultOff ws % 64 = 0
    ∧ resultOff ws + 64 ≤ combBytes ∧ (pair (forageState ws 3) 5).lists.length < 4
    ∧ (pair (after c (forageState ws 3)) 5).lists.length = 4

theorem test_list_issue :
    ListWitness (.merge 5) 2 [2 * 2 ^ 60, nearBase, nearBase, nearBase, 1, 0, 0, combBytes - 64]
      ∧ ListWitness (.prefixSum 5) 3 [3 * 2 ^ 60, nearBase, nearBase, 0, 0, 0, 0, 0]
      ∧ ListWitness (.sort 5) 4 [4 * 2 ^ 60 + 1, nearBase, nearBase, nearBase, 0, 0, nearBase, 64]
      ∧ ListWitness (.pack 5) 5 [5 * 2 ^ 60, nearBase, nearBase, 0, 0, 0, 0, 0] :=
  ⟨⟨forages_of (by decide), by decide⟩, ⟨forages_of (by decide), by decide⟩, ⟨forages_of (by decide), by decide⟩,
   ⟨forages_of (by decide), by decide⟩⟩

theorem test_list_issue_rest :
    ListWitness (.unpack 5) 6 [6 * 2 ^ 60, nearBase, nearBase, 0, 0, 0, 0, 0]
      ∧ ListWitness (.combine 5) 7 [7 * 2 ^ 60 + 1, nearBase, nearBase, 2 ^ 32 + 64, 0, 0, 0, 0]
      ∧ ListWitness (.encode 5) 8 [8 * 2 ^ 60 + 1, nearBase, nearBase, nearBase, 16, 0, 0, 0] :=
  ⟨⟨forages_of (by decide), by decide⟩, ⟨forages_of (by decide), by decide⟩, ⟨forages_of (by decide), by decide⟩⟩

/-- A walk of one entry of a list, for reed 3. -/
def walkState (x : PairS) : State :=
  pokeByte (nearBase + 3) 0xC0 (unit 5 { x with walks := [{ word := forageWord, desc := walkDesc }] } [])

theorem test_entry_send :
    (pair (walkState {}) 5).walks = [{ word := forageWord, desc := walkDesc }] ∧ (walkD walkDesc).form = 0
      ∧ (walkD walkDesc).dense = false ∧ (walkD walkDesc).tasks = false ∧ 0 < (walkD walkDesc).count
      ∧ poisoned (walkState {}) nearBase 4 = false ∧ bitsOf (numAt (walkState {}) nearBase 4) 31 30 = 3
      ∧ bitsOf (numAt (walkState {}) nearBase 4) 13 0 < (walkD walkDesc).kb
      ∧ bitsOf (numAt (walkState {}) nearBase 4) 27 14 < (walkD walkDesc).nb ∧ inRing (pair (walkState {}) 5) 3 = false
      ∧ (reedQueue (pair (after (.foragerEntrySend 5 0) (walkState {})) 5) 3).length = 1 := by
  decide

theorem test_ring_refill :
    (pair (unit 5 { ring := [{ reed := 3, addr := nearBase, size := 576, blockLen := 512 }] } []) 5).ring.length = 1
      ∧ poisoned (unit 5 { ring := [{ reed := 3, addr := nearBase, size := 576, blockLen := 512 }] } []) nearBase 8 = false
      ∧ (pair (after (.ringRefill 5 3 []) (unit 5 { ring := [{ reed := 3, addr := nearBase, size := 576, blockLen := 512 }] } [])) 5).ring = [] := by
  decide

theorem test_walk_done :
    (pair (walkState { walk := { ending := true, endReed := 4 } }) 5).walk.ending = true
      ∧ semCount (walkState { walk := { ending := true, endReed := 4 } }) 5 (wbits forageWord 21 16) ≠ 0xFFFFFFFF
      ∧ (pair (after (.walkDone 5) (walkState { walk := { ending := true, endReed := 4 } })) 5).walks = []
      ∧ semCount (after (.walkDone 5) (walkState { walk := { ending := true, endReed := 4 } })) 5 3 = 1 := by
  decide

/-- A PREFIX over one value, 5, whose sums go 64 bytes on. -/
def prefixOp : UnitOp := { word := forageWord, desc := [3 * 2 ^ 60, nearBase, nearBase + 64, 0, 0, 0, 0, 128] }
def prefixState : State := pokeByte nearBase 5 (unit 5 { lists := [prefixOp] } [])

theorem test_list_done :
    (pair prefixState 5).lists = [prefixOp] ∧ (runList 5 prefixOp prefixState).1.outside = false
      ∧ (runList 5 prefixOp prefixState).1.poison = false ∧ (runList 5 prefixOp prefixState).2.2 = false
      ∧ resultOff prefixOp.desc + 64 ≤ combBytes
      ∧ numAt (after (.listFunctionDone 5) prefixState) (nearBase + 68) 4 = 5
      ∧ semCount (after (.listFunctionDone 5) prefixState) 5 3 = 1 := by
  decide

/-! ## The vector engine -/

/-- A VEC word of one element whose four operands are scalar 1, and its other fields. -/
def vecWord (op : Nat) (fs : List (Nat × Nat)) : Nat := word ([(0, 3), (4, op), (39, 1), (44, 1), (49, 1), (54, 1)] ++ fs)

/-- Pair 5 with a VEC word, scalar 1 at offset a, n instructions queued. -/
def vecState (w a n : Nat) : State := runs 5 w { vec := List.replicate n {} } [(F.SEQ_SCALAR_i_value, 32 * 5 + 1, a)]

def vecLegalB (w op : Nat) (spec : Nat → List Nat → VecSpec) (s : State) : Bool :=
  issuesB 5 w s && (wbits w 3 0 == 3 && wbits w 9 4 == op && onlyBits w [(14, 0), (22, 16), (127, 24)]) && wbits w 21 16 == 0
    && decide (wbits w 27 24 ≤ 13 ∧ wbits w 31 28 ≤ 13 ∧ wbits w 35 32 ≤ 13) && decide (wbits w 38 36 ≠ 7 ∧ wbits w 14 13 ≠ 3)
    && decide (wbits w 127 112 &&& (spec w (vecVals s 5 w)).auxMask = wbits w 127 112) && !(spec w (vecVals s 5 w)).illegal
    && !(spec w (vecVals s 5 w)).operand

theorem vecLegal_of {w op : Nat} {spec : Nat → List Nat → VecSpec} {s : State} (h : vecLegalB w op spec s = true) :
    VecLegal 5 w op spec s := by
  simp only [vecLegalB, Bool.and_eq_true, beq_iff_eq, Bool.not_eq_true', decide_eq_true_eq] at h
  obtain ⟨⟨⟨⟨⟨⟨⟨h1, h2⟩, h3⟩, h4⟩, h5⟩, h6⟩, h7⟩, h8⟩ := h
  exact ⟨issues_of h1, ⟨h2.1.1, h2.1.2, h2.2⟩, .inr h3, h4, h5, h6, h7, h8⟩

/-- The word is accepted behind seven others at offset 64, waits behind eight, and is MISALIGNED at offset 32. -/
def VecWitness (c : Instr) (op : Nat) (spec : Nat → List Nat → VecSpec) (fs : List (Nat × Nat)) : Prop :=
  VecLegal 5 (vecWord op fs) op spec (vecState (vecWord op fs) 64 7)
    ∧ VecLegal 5 (vecWord op fs) op spec (vecState (vecWord op fs) 64 8)
    ∧ VecLegal 5 (vecWord op fs) op spec (vecState (vecWord op fs) 32 7)
    ∧ (∀ f ∈ (spec (vecWord op fs) [64, 64, 64, 64]).feet, f.1 % 64 = 0 ∧ f.1 < 2 ^ 23 ∧ f.1 + f.2 ≤ combBytes)
    ∧ (∃ f ∈ (spec (vecWord op fs) [32, 32, 32, 32]).feet, f.1 % 64 ≠ 0)
    ∧ vecVals (vecState (vecWord op fs) 64 7) 5 (vecWord op fs) = [64, 64, 64, 64]
    ∧ vecVals (vecState (vecWord op fs) 32 7) 5 (vecWord op fs) = [32, 32, 32, 32]
    ∧ (pair (after c (vecState (vecWord op fs) 64 7)) 5).vec.length = 8

theorem vecWitness_of {c : Instr} {op : Nat} {spec : Nat → List Nat → VecSpec} {fs : List (Nat × Nat)}
    (h : (vecLegalB (vecWord op fs) op spec (vecState (vecWord op fs) 64 7) && vecLegalB (vecWord op fs) op spec (vecState (vecWord op fs) 64 8)
      && vecLegalB (vecWord op fs) op spec (vecState (vecWord op fs) 32 7)
      && (spec (vecWord op fs) [64, 64, 64, 64]).feet.all (fun f => decide (f.1 % 64 = 0 ∧ f.1 < 2 ^ 23 ∧ f.1 + f.2 ≤ combBytes))
      && (spec (vecWord op fs) [32, 32, 32, 32]).feet.any (fun f => decide (f.1 % 64 ≠ 0))
      && decide (vecVals (vecState (vecWord op fs) 64 7) 5 (vecWord op fs) = [64, 64, 64, 64]
        ∧ vecVals (vecState (vecWord op fs) 32 7) 5 (vecWord op fs) = [32, 32, 32, 32]
        ∧ (pair (after c (vecState (vecWord op fs) 64 7)) 5).vec.length = 8)) = true) : VecWitness c op spec fs := by
  simp only [Bool.and_eq_true, decide_eq_true_eq, List.all_eq_true, List.any_eq_true] at h
  obtain ⟨⟨⟨⟨⟨h1, h2⟩, h3⟩, h4⟩, h5⟩, h6⟩ := h
  exact ⟨vecLegal_of h1, vecLegal_of h2, vecLegal_of h3, h4, h5, h6⟩

theorem test_vec_elementwise :
    VecWitness (.vecAdd 5) 0 (elemSpec 2 true) [] ∧ VecWitness (.vecSub 5) 1 (elemSpec 2 true) []
      ∧ VecWitness (.vecMul 5) 2 (elemSpec 2 true) [] ∧ VecWitness (.vecFma 5) 3 (elemSpec 3 true) []
      ∧ VecWitness (.vecMin 5) 4 (elemSpec 2 false) [] ∧ VecWitness (.vecMax 5) 5 (elemSpec 2 false) []
      ∧ VecWitness (.vecCvt 5) 6 (elemSpec 1 false) [] ∧ VecWitness (.vecAxpy 5) 7 (elemSpec 2 false) [] :=
  ⟨vecWitness_of (by decide), vecWitness_of (by decide), vecWitness_of (by decide), vecWitness_of (by decide),
   vecWitness_of (by decide), vecWitness_of (by decide), vecWitness_of (by decide), vecWitness_of (by decide)⟩

theorem test_vec_functions :
    VecWitness (.vecExp 5) 0x10 specialSpec [] ∧ VecWitness (.vecRecip 5) 0x11 specialSpec []
      ∧ VecWitness (.vecRsqrt 5) 0x12 specialSpec [] ∧ VecWitness (.vecSum 5) 0x18 (sumSpec 1) []
      ∧ VecWitness (.vecDot 5) 0x19 (sumSpec 2) [] ∧ VecWitness (.vecSumsq64 5) 0x1A sumSqSpec [(32, 13)] :=
  ⟨vecWitness_of (by decide), vecWitness_of (by decide), vecWitness_of (by decide), vecWitness_of (by decide),
   vecWitness_of (by decide), vecWitness_of (by decide)⟩

theorem test_vec_rows :
    VecWitness (.vecRmax 5) 0x20 rowSpec [] ∧ VecWitness (.vecRsum 5) 0x21 rowSpec []
      ∧ VecWitness (.vecSoftmax 5) 0x22 softmaxSpec [] ∧ VecWitness (.vecSelect 5) 0x23 selectSpec []
      ∧ VecWitness (.vecHstore 5) 0x2B hstoreSpec [] :=
  ⟨vecWitness_of (by decide), vecWitness_of (by decide), vecWitness_of (by decide), vecWitness_of (by decide),
   vecWitness_of (by decide)⟩

theorem test_vec_quant_grad :
    VecWitness (.vecQuant 5) 0x28 quantSpec [(32, 5)] ∧ VecWitness (.vecDequant 5) 0x29 dequantSpec [(24, 5)]
      ∧ VecWitness (.vecDqacc 5) 0x2A dqaccSpec [] ∧ VecWitness (.vecGenc 5) 0x30 gencSpec []
      ∧ VecWitness (.vecGdec 5) 0x31 gdecSpec [] ∧ VecWitness (.vecOptw 5) 0x32 optwSpec []
      ∧ VecWitness (.vecDigest 5) 0x33 digestSpec [] :=
  ⟨vecWitness_of (by decide), vecWitness_of (by decide), vecWitness_of (by decide), vecWitness_of (by decide),
   vecWitness_of (by decide), vecWitness_of (by decide), vecWitness_of (by decide)⟩

/-- A VEC instruction at the head of its queue, on the FP32 numbers 1.5 at offset 64 and 2.5 at offset 128. -/
def vecDoneState (op fd : Nat) (x : PairS) : State :=
  pokeBytes (combAddr 5 64) (natLe 4 0x3FC00000) (pokeBytes (combAddr 5 128) (natLe 4 0x40200000)
    (unit 5 { x with vec := [{ word := vecWord op [(32, fd), (22, 1), (16, 63)], vals := [0, 64, 128, 64] }] } []))

/-- Its hypotheses, and the number of k bytes it writes. -/
abbrev VecDoneWitness (op fd k v : Nat) : Prop :=
  (pair (vecDoneState op fd {}) 5).vec = [{ word := vecWord op [(32, fd), (22, 1), (16, 63)], vals := [0, 64, 128, 64], hub := none }]
    ∧ wbits (vecWord op [(32, fd), (22, 1), (16, 63)]) 9 4 = op ∧ semCount (vecDoneState op fd {}) 5 63 ≠ 0xFFFFFFFF
    ∧ wbits (vecWord op [(32, fd), (22, 1), (16, 63)]) 31 24 = 0
    ∧ numAt (after (.vecDone 5) (vecDoneState op fd {})) (combAddr 5 0) k = v
    ∧ semCount (after (.vecDone 5) (vecDoneState op fd {})) 5 63 = 1

/-- 1.5 + 2.5, 1.5 − 2.5, 1.5 × 2.5 and 1.5 × 2.5 + 1.5 in FP32 and BF16 (R195). -/
theorem test_vec_results :
    VecDoneWitness 0 0 4 0x40800000 ∧ VecDoneWitness 1 0 4 0xBF800000 ∧ VecDoneWitness 2 0 4 0x40700000
      ∧ VecDoneWitness 3 1 2 0x40A8 ∧ VecDoneWitness 0x18 0 4 0x3FC00000 :=
  ⟨by decide, by decide, by decide, by decide, by decide⟩

theorem test_hstore :
    VecDoneWitness 0x2B 0 4 0
      ∧ (∀ b < 64, SMap.get 0 (pair (vecDoneState 0x2B 0 { hist := [(0, 2 ^ 32 - 1)] }) 5).hist b < 2 ^ 32)
      ∧ numAt (after (.vecDone 5) (vecDoneState 0x2B 0 { hist := [(0, 2 ^ 32 - 1)] })) (combAddr 5 0) 4 = 2 ^ 32 - 1 :=
  ⟨by decide, by decide, by decide⟩

/-! ## Copies -/

/-- A COPY of the descriptor at comb offset 0. -/
def copyState (ws : List Nat) (n : Nat) : State :=
  pokeBytes (combAddr 5 0) (ws.flatMap (natLe 8)) (runs 5 0 { copies := List.replicate n {} } [])

theorem copies_of {fn : Nat} {s : State}
    (h : (issuesB 5 0 s && !poisoned s (combAddr 5 (descOff 0)) 128 && bitsOf (numAt s (combAddr 5 (descOff 0)) 8) 63 60 == fn) = true) :
    Copies 5 0 fn s := by
  simp only [Bool.and_eq_true, beq_iff_eq, Bool.not_eq_true'] at h
  obtain ⟨⟨h1, h2⟩, h3⟩ := h
  exact ⟨issues_of h1, ⟨by decide, by decide, by decide⟩, by decide, by decide, h2, h3⟩

/-- The descriptor is accepted behind seven copies; with its word 13 set it is invalid. -/
def CopyWitness (c : Instr) (fn : Nat) (ws : List Nat) : Prop :=
  Copies 5 0 fn (copyState ws 7)
    ∧ copyFault (copyState ws 7) 5 (descWords (copyState ws 7) 5 0 16) (copyOp (copyState ws 7) 5 (descWords (copyState ws 7) 5 0 16)) = none
    ∧ (pair (copyState ws 7) 5).copies.length < 8 ∧ (pair (after c (copyState ws 7)) 5).copies.length = 8
    ∧ Copies 5 0 fn (copyState (ws.set 13 1) 7)
    ∧ copyFault (copyState (ws.set 13 1) 7) 5 (descWords (copyState (ws.set 13 1) 7) 5 0 16)
        (copyOp (copyState (ws.set 13 1) 7) 5 (descWords (copyState (ws.set 13 1) 7) 5 0 16)) = some fDescInvalid

theorem test_copy_issue :
    CopyWitness (.copyShape 5) 8 [8 * 2 ^ 60, nearBase, nearBase + 1, 0, 0, 0, 0, 0, 0, 0, 0, 0, 0, 0, 0, 0]
      ∧ CopyWitness (.copyGather 5) 9 [9 * 2 ^ 60, nearBase, nearBase + 0x10000, nearBase + 0x20000, 1, 0, 32, 0, 0, 0, 0, 0, 0, 0, 0, 0]
      ∧ CopyWitness (.copyScatter 5) 10 [10 * 2 ^ 60, nearBase, nearBase + 0x10000, nearBase + 0x20000, 1, 0, 32, 0, 0, 0, 0, 0, 0, 0, 0, 0] :=
  ⟨⟨copies_of (by decide), by decide, by decide, by decide, copies_of (by decide), by decide⟩,
   ⟨copies_of (by decide), by decide, by decide, by decide, copies_of (by decide), by decide⟩,
   ⟨copies_of (by decide), by decide, by decide, by decide, copies_of (by decide), by decide⟩⟩

/-- A copy of two bytes within near memory, and one to part 7. -/
def localCopy (started : Bool) : CopyOp :=
  { kind := 8, unit := 1, src := nearBase, dst := nearBase + 64, ext := [1, 1, 1, 1], sstride := [0, 0, 0, 0], dstride := [0, 0, 0, 0]
    started := started, sem := 63 }
def remoteCopy (started : Bool) : CopyOp := { localCopy started with dst := 2 ^ 63 + 7 * 2 ^ 44 + nearBase, finished := started }

def copying (c : CopyOp) : State := pokeByte (nearBase + 1) 9 (unit 5 { copies := [c] } [(F.SEQ_CTRL_copy_inflight, 5, 1)])

theorem test_copy_start :
    (pair (copying (localCopy false)) 5).copies = [localCopy false] ∧ fld (copying (localCopy false)) F.SEQ_CTRL_copy_inflight 5 ≠ 0
      ∧ addrForm (copying (localCopy false)) (localCopy false).src = some (none, nearBase)
      ∧ addrForm (copying (localCopy false)) (localCopy false).dst = some (none, nearBase + 64)
      ∧ addrForm (copying (remoteCopy false)) (remoteCopy false).dst = some (some 7, nearBase) ∧ (remoteCopy false).inPlace = false
      ∧ (pair (after (.copyStart 5) (copying (localCopy false))) 5).copies = [localCopy true] := by
  decide

theorem test_copy_done :
    (localCopy true).units = 1 ∧ (localCopy true).u = 2 ∧ unitAddr nearBase [1, 1, 1, 1] [0, 0, 0, 0] 0 = nearBase
      ∧ poisoned (copying (localCopy true)) nearBase 2 = false ∧ poisoned (copying (localCopy true)) (nearBase + 64) 2 = false
      ∧ nearBase + 2 ≤ nearBase + 64 ∧ semCount (copying (localCopy true)) 5 63 ≠ 0xFFFFFFFF
      ∧ bytesAt (after (.copyDone 5 0) (copying (localCopy true))) (nearBase + 64) 2 = [0, 9]
      ∧ (remoteCopy true).finished = true ∧ semCount (after (.copyDone 5 0) (copying (remoteCopy true))) 5 63 = 1 := by
  decide

/-! ## Checks -/

/-- A CHKCMP of the signatures at the offsets in scalars 3 and 4. -/
def chkcmpState (b : Nat) : State :=
  pokeByte (combAddr 5 (combBytes - 1)) b (runs 5 (word [(0, 7), (4, 2), (24, 7), (29, 3), (34, 4)]) {}
    [(F.SEQ_SCALAR_i_value, 32 * 5 + 4, combBytes - 32)])

theorem test_chkcmp :
    Spells 5 7 2 [(9, 0), (38, 24)] (word [(0, 7), (4, 2), (24, 7), (29, 3), (34, 4)]) (chkcmpState 1)
      ∧ scalar (chkcmpState 1) 5 3 + 32 ≤ combBytes ∧ scalar (chkcmpState 1) 5 4 + 32 ≤ combBytes
      ∧ scalar (after (.chkcmp 5) (chkcmpState 0)) 5 7 = 0
      ∧ bytesAt (chkcmpState 1) (combAddr 5 (combBytes - 32)) 32 ≠ bytesAt (chkcmpState 1) (combAddr 5 0) 32 :=
  ⟨spells_of (by decide), by decide, by decide, by decide, by decide⟩

/-- Pair 5 runs hum as check units, its next unit 7; its own and its partner's kept signatures and its reruns. -/
def checkState (own partner : SMap Nat) (reruns : List (Nat × Nat × Nat × Nat)) : State :=
  { live [(F.PCC_CTRL_hum_mode, 0, 2), (F.SEQ_STATUS_state, 5, 2)] with
    pairs := [(5, { blocked := .hum 0 1 true, check := { units := 7, sigs := own, reruns := reruns } }), (37, { check := { sigs := partner } })] }

theorem checkRegs {own partner : SMap Nat} {reruns : List (Nat × Nat × Nat × Nat)} :
    (checkState own partner reruns).regs = (checkState [] [] []).regs := rfl

/-- What is a function of the registers alone is the same in states with the same registers. -/
theorem byRegs {s t : State} (h : s.regs = t.regs) :
    hiveState s 0 = hiveState t 0 ∧ seqState s 5 = seqState t 5 ∧ checkMode s = checkMode t ∧ humBank s 5 = humBank t 5 := by
  cases s; cases t; cases h
  exact ⟨rfl, rfl, rfl, rfl⟩

theorem checkState_runs {own partner : SMap Nat} {reruns : List (Nat × Nat × Nat × Nat)} :
    Clocked (checkState own partner reruns) ∧ checksUnits (checkState own partner reruns) 5 = true
      ∧ humRuns (checkState own partner reruns) 5 = true ∧ humBank (checkState own partner reruns) 5 = true := by
  obtain ⟨h1, h2, h3, h4⟩ := byRegs (checkRegs (own := own) (partner := partner) (reruns := reruns))
  have hb : (pair (checkState own partner reruns) 5).blocked = .hum 0 1 true := rfl
  refine ⟨⟨rfl, rfl⟩, ?_, ?_, h4.trans (by decide)⟩
  · simp [checksUnits, h3.trans (by decide : _ = true), hb]
  · simp [humRuns, hiveOf, h1.trans (by decide : _ = 0), h2.trans (by decide : _ = 2), hb]

theorem runsCheck_of {own partner : SMap Nat} : RunsCheck 5 7 (checkState own partner []) :=
  ⟨checkState_runs.1, checkState_runs.2.1, checkState_runs.2.2.1, checkState_runs.2.2.2, rfl, rfl, rfl, rfl⟩

theorem unitSignature_congr {s t : State} (h : s.regs = t.regs) (u err : Nat) : unitSignature s u err = unitSignature t u err := by
  simp only [unitSignature, fld, reg, h]

/-- The signature of unit 7 with no error. -/
def sig7 : Nat := unitSignature (checkState [] [] []) 7 0

theorem sig7_eq : sig7 = unitSignature (checkState [] [] []) 7 0 := by unfold sig7; rfl

theorem test_check_units :
    RunsCheck 5 7 (checkState [] [] []) ∧ RunsCheck 5 7 (checkState [] [(7, sig7)] [])
      ∧ (pair (checkState [] [(7, sig7)] []) 37).check.sigs = [(7, unitSignature (checkState [] [(7, sig7)] []) 7 0)]
      ∧ RunsCheck 5 7 (checkState [] [(7, sig7 + 1)] [])
      ∧ sig7 + 1 ≠ unitSignature (checkState [] [(7, sig7 + 1)] []) 7 0 ∧ (5 : Nat) < 5 ^^^ 32 := by
  refine ⟨runsCheck_of, runsCheck_of, ?_, runsCheck_of, ?_, by decide⟩
  · rw [unitSignature_congr (s := checkState [] [(7, sig7)] []) (t := checkState [] [] []) checkRegs, ← sig7_eq]; rfl
  · rw [unitSignature_congr (s := checkState [] [(7, sig7 + 1)] []) (t := checkState [] [] []) checkRegs, ← sig7_eq]
    generalize sig7 = n
    omega

theorem test_check_reruns :
    (pair (checkState [] [] [(7, 21, sig7, sig7)]) 5).check.reruns = [(7, 21, sig7, sig7)]
      ∧ sig7 = unitSignature (checkState [] [] [(7, 21, sig7, sig7)]) 7 0 := by
  refine ⟨rfl, ?_⟩
  unfold sig7
  exact (unitSignature_congr (s := checkState [] [] [(7, 21, sig7, sig7)]) (t := checkState [] [] []) checkRegs 7 0).symm

/-! ## Collectives -/

/-- A COLL operation of the descriptor at comb offset 0 on axis 0. -/
def collWord (op : Nat) : Nat := word [(0, 5), (4, op), (22, 1), (16, 63)]

/-- Pair 5 with such a word behind seven others, in a ring of two on axis 0 where this part is member 0. -/
def collState (op : Nat) (ws : List Nat) (x : PairS) (fs : List (Fld × Nat × Nat)) : State :=
  pokeBytes (combAddr 5 0) (ws.flatMap (natLe 8))
    (runs 5 (collWord op) { x with colls := List.replicate 7 {} } ((F.GROUP_RINGS_ring_m1, 0, 1) :: fs))

theorem colls_of {op : Nat} {s : State}
    (h : (issuesB 5 (collWord op) s
      && (wbits (collWord op) 3 0 == 5 && wbits (collWord op) 9 4 == op && onlyBits (collWord op) [(9, 0), (22, 16), (60, 24)])
      && wbits (collWord op) 22 22 == 1 && descOff (collWord op) % 128 == 0 && decide (descOff (collWord op) + 128 ≤ combBytes)
      && !poisoned s (combAddr 5 (descOff (collWord op))) 128 && decide ((pair s 5).colls.length < 8)
      && (pair s 5).colls.all (fun o => o.seq != (pair s 5).seq)) = true) : Colls 5 (collWord op) op s := by
  simp only [Bool.and_eq_true, beq_iff_eq, Bool.not_eq_true', decide_eq_true_eq, List.all_eq_true, bne_iff_ne] at h
  obtain ⟨⟨⟨⟨⟨⟨⟨h1, h2⟩, h3⟩, h4⟩, h5⟩, h6⟩, h7⟩, h8⟩ := h
  exact ⟨issues_of h1, ⟨h2.1.1, h2.1.2, h2.2⟩, .inl h3, h4, h5, h6, h7, h8⟩

/-- A ring collective of 64 elements or bytes within near memory, deadline 1, tag 15. -/
def ringDesc (root : Nat) : List Nat := [64 + 15 * 2 ^ 46 + 2 ^ 50 + root * 2 ^ 40, nearBase, nearBase + 4096, combBytes - 64]

theorem test_ring_issue :
    Colls 5 (collWord 0) 0 (collState 0 (ringDesc 0) {} [])
      ∧ ringFault 0 5 (collState 0 (ringDesc 0) {} []) (descWords (collState 0 (ringDesc 0) {} []) 5 (collWord 0) 16) 0 = none
      ∧ (collState 0 (ringDesc 0) {} []).collHeld = [] ∧ me (collState 0 (ringDesc 0) {} []) (collWord 0) = 0
      ∧ nextMember (collState 0 (ringDesc 0) {} []) 0 0 ≠ none
      ∧ Colls 5 (collWord 1) 1 (collState 1 (ringDesc 0) {} [])
      ∧ ringFault 1 5 (collState 1 (ringDesc 0) {} []) (descWords (collState 1 (ringDesc 0) {} []) 5 (collWord 1) 16) 0 = none
      ∧ (pair (after (.redscat 5) (collState 1 (ringDesc 0) {} [])) 5).rings.length = 1
      ∧ Colls 5 (collWord 3) 3 (collState 3 (ringDesc 1) {} [])
      ∧ ringFault 3 5 (collState 3 (ringDesc 1) {} []) (descWords (collState 3 (ringDesc 1) {} []) 5 (collWord 3) 16) 0 = none
      ∧ (ringOf4 (collState 3 (ringDesc 1) {} []) 5 (collWord 3) 3).root ≠ me (collState 3 (ringDesc 1) {} []) (collWord 3)
      ∧ excluded (collState 2 (ringDesc 0) {} [(F.GEX_EXCLUDE_x, 0, 1)]) 0 0 = true :=
  ⟨colls_of (by decide), by decide, by decide, by decide, by decide, colls_of (by decide), by decide, by decide, colls_of (by decide),
   by decide, by decide, by decide⟩

theorem test_ring_own_bytes :
    Colls 5 (collWord 2) 2 (collState 2 (ringDesc 0) {} [])
      ∧ ringFault 2 5 (collState 2 (ringDesc 0) {} []) (descWords (collState 2 (ringDesc 0) {} []) 5 (collWord 2) 16) 0 = none
      ∧ me (collState 2 (ringDesc 0) {} []) (collWord 2) ∈ activeMembers (collState 2 (ringDesc 0) {} []) 0
      ∧ poisoned (collState 2 (ringDesc 0) {} []) nearBase 64 = false
      ∧ poisoned (collState 2 (ringDesc 0) {} []) (nearBase + 4096) 64 = false
      ∧ Colls 5 (collWord 3) 3 (collState 3 (ringDesc 0) {} [])
      ∧ (ringOf4 (collState 3 (ringDesc 0) {} []) 5 (collWord 3) 3).root = me (collState 3 (ringDesc 0) {} []) (collWord 3)
      ∧ ringFault 3 5 (collState 3 (ringDesc 0) {} []) (descWords (collState 3 (ringDesc 0) {} []) 5 (collWord 3) 16) 0 = none :=
  ⟨colls_of (by decide), by decide, by decide, by decide, by decide, colls_of (by decide), by decide, by decide⟩

theorem arrives_of {m : Packet} {s : State} (h : (s.inService && decide (m.parts ≤ 1 ∧ m.age < 1000000 ∧ m.hops ≤ fld s F.LINK_CTRL_max_hops)) = true) :
    Arrives m s := by
  simp only [Bool.and_eq_true, decide_eq_true_eq] at h
  exact ⟨h.2.1, h.1, h.2.2.1, h.2.2.2⟩

/-- An ALLREDUCE of one element in progress on axis 0, and its packets at the ends of their lifetime. -/
def ringOp (parts : Nat) : RingOp :=
  { count := 1, src := nearBase, dst := nearBase + 4096, res := combBytes - 64, tag := 15, deadline := 1, seq := 3, parts := parts }
def ringPkt (phase : Nat) : Packet := { pair := 5, tag := 15, aux := [0, phase, 0, 3, 0, 0], data := natLe 4 0x40000000, age := 999999 }

/-- The pair of that ring, in a ring of n members, the present breath the one before the deadline. -/
def ringState (x : RingOp) (n : Nat) : State :=
  pokeBytes nearBase (natLe 4 0x3F800000) (unit 5 { rings := [x], colls := [{ word := collWord 0, seq := 3 }] }
    [(F.GROUP_RINGS_ring_m1, 0, n - 1), (F.BREATH_STATUS_state, 0, 2)])

theorem test_ring_segments :
    Arrives (ringPkt 1) (ringState (ringOp 0) 1) ∧ (pair (ringState (ringOp 0) 1) 5).rings = [ringOp 0]
      ∧ excluded (ringState (ringOp 0) 1) 0 0 = false ∧ (∀ b ∈ (ringPkt 1).data, b < 256)
      ∧ poisoned (ringState (ringOp 0) 1) (nearBase + 4096) 4 = false
      ∧ Arrives (ringPkt 0) (ringState (ringOp 0) 1) ∧ (pair (ringState (ringOp 0) 1) 5).vec = [] ∧ nextMember (ringState (ringOp 0) 1) 0 0 = none
      ∧ (ringPkt 0).data.length = 4 * (segRange 1 0).2 ∧ poisoned (ringState (ringOp 0) 1) nearBase 4 = false :=
  ⟨arrives_of (by decide), by decide, by decide, by decide, by decide, arrives_of (by decide), by decide, by decide, by decide, by decide⟩

/-- The pair of that ring with v in its vector queue. -/
def ringQueued (v : List UnitOp) : State :=
  pokeBytes nearBase (natLe 4 0x3F800000) (unit 5 { rings := [ringOp 0], vec := v } [(F.BREATH_STATUS_state, 0, 2)])

/-- A partial sum that comes behind a VEC instruction waits for it, and is then added: 1.0 + 2.0. -/
theorem test_ring_queued :
    Arrives (ringPkt 0) (ringQueued [{}]) ∧ (pair (ringQueued [{}]) 5).rings = [ringOp 0] ∧ excluded (ringQueued [{}]) 0 0 = false
      ∧ (pair (ringQueued [{}]) 5).vec ≠ [] ∧ (pair (after (.collSegmentReceive (ringPkt 0)) (ringQueued [{}])) 5).vec.length = 2
      ∧ Clocked (ringQueued [{ seq := 3, hub := some (ringPkt 0) }]) ∧ nextMember (ringQueued [{ seq := 3, hub := some (ringPkt 0) }]) 0 0 = none
      ∧ poisoned (ringQueued [{ seq := 3, hub := some (ringPkt 0) }]) nearBase 4 = false
      ∧ poisoned (ringQueued [{ seq := 3, hub := some (ringPkt 0) }]) (nearBase + 4096) 4 = false
      ∧ numAt (after (.vecDone 5) (ringQueued [{ seq := 3, hub := some (ringPkt 0) }])) (nearBase + 4096) 4 = 0x40400000 :=
  ⟨arrives_of (by decide), by decide, by decide, by decide, by decide, ⟨rfl, rfl⟩, by decide, by decide, by decide, by decide⟩

/-- 1.0 + 2.0 reduced; a final segment written. -/
theorem test_ring_effects :
    numAt (after (.collSegmentReceive (ringPkt 0)) (ringState (ringOp 0) 1)) (nearBase + 4096) 4 = 0x40400000
      ∧ numAt (after (.collSegmentReceive (ringPkt 1)) (ringState (ringOp 0) 1)) (nearBase + 4096) 4 = 0x40000000 := by
  decide

theorem collHead_of {p seq : Nat} {o : UnitOp} {s : State}
    (h : decide ((pair s p).colls = [o] ∧ o.seq = seq ∧ semCount s p (wbits o.word 21 16) ≠ 0xFFFFFFFF) = true) : CollHead p seq o [] s := by
  simp only [decide_eq_true_eq] at h
  exact ⟨h.1, h.2.1, by simp, h.2.2⟩

theorem test_coll_close :
    CollHead 5 3 { word := collWord 0, seq := 3 } [] (ringState (ringOp 1) 1) ∧ ringGoal (ringState (ringOp 1) 1) (ringOp 1) ≤ (ringOp 1).parts
      ∧ tickReached (ringState (ringOp 0) 1) ((ringOp 0).b0 + (ringOp 0).deadline) = true
      ∧ ¬ ringGoal (ringState (ringOp 0) 1) (ringOp 0) ≤ (ringOp 0).parts
      ∧ numAt (after (.collClose 5 0) (ringState (ringOp 1) 1)) (combAddr 5 (combBytes - 64)) 8 = 1
      ∧ semCount (after (.collClose 5 0) (ringState (ringOp 1) 1)) 5 63 = 1 :=
  ⟨collHead_of (by decide), by decide, by decide, by decide, by decide, by decide⟩

/-! ## PERMUTE -/

/-- A PERMUTE of one entry by the table at the start of near memory; an entry of 0 bytes is invalid. -/
def permDesc : List Nat := [1 + 15 * 2 ^ 46 + 2 ^ 50, nearBase, 0, combBytes - 64, 4096]

theorem test_permute_issue :
    Colls 5 (collWord 5) 5 (collState 5 permDesc {} [])
      ∧ permFault 5 (collState 5 permDesc {} []) (descWords (collState 5 permDesc {} []) 5 (collWord 5) 16) 0 = none
      ∧ permInvalid (collState 5 permDesc {} []) 5 (permNew (collState 5 permDesc {} []) 5 (collWord 5)) = true
      ∧ Colls 5 (collWord 5) 5 (collState 5 permDesc {} [(F.GEX_EXCLUDE_x, 0, 1)])
      ∧ excluded (collState 5 permDesc {} [(F.GEX_EXCLUDE_x, 0, 1)]) 0 0 = true
      ∧ (pair (after (.permute 5) (collState 5 permDesc {} [])) 5).perms.map (fun x => x.failed) = [true] :=
  ⟨colls_of (by decide), by decide, by decide, colls_of (by decide), by decide, by decide⟩

/-- A PERMUTE in progress, staging at far address 0, and its packets. -/
def permOp (ready outcome : Nat) : PermOp :=
  { seq := 3, tag := 15, table := nearBase, entries := 1, bytes := 4096, deadline := 1, res := combBytes - 64, ready := ready, outcome := outcome }
def permPkt (aux data : List Nat) : Packet := { pair := 5, tag := 15, aux := aux, data := data }

/-- The pair of that PERMUTE, whose one entry moves 64 bytes from its part to itself, into near memory. -/
def permState (x : PermOp) : State :=
  pokeBytes nearBase (natLe 8 (64 * 2 ^ 32) ++ natLe 8 0 ++ natLe 8 (nearBase + 4096) ++ natLe 8 0)
    (unit 5 { perms := [x], colls := [{ word := collWord 5, seq := 3 }] } [(F.BREATH_STATUS_state, 0, 2)])

theorem test_permute_receive :
    Arrives (permPkt [0, 0, 0, 64] [255]) (permState (permOp 0 0)) ∧ poisoned (permState (permOp 0 0)) 64 1 = false
      ∧ byteAt (after (.permuteDataReceive (permPkt [0, 0, 0, 64] [255])) (permState (permOp 0 0))) 64 = 255
      ∧ Arrives (permPkt [1] []) (permState (permOp 0 0))
      ∧ (pair (after (.permuteReadyReceive (permPkt [1] [])) (permState (permOp 0 0))) 5).perms.map (fun x => x.ready) = [1] :=
  ⟨arrives_of (by decide), by decide, by decide, arrives_of (by decide), by decide⟩

theorem test_permute_abort :
    CollHead 5 3 { word := collWord 5, seq := 3 } [] (permState (permOp 0 0)) ∧ tickReached (permState (permOp 0 0)) 1 = true
      ∧ excluded (permState (permOp 0 0)) 0 0 = false
      ∧ (∃ m ∈ activeMembers (permState (permOp 0 0)) 0, bitAt (permOp 0 0).ready m = false)
      ∧ numAt (after (.permuteCommit 5 0) (permState (permOp 0 0))) (combAddr 5 (combBytes - 64)) 8 = 2 :=
  ⟨collHead_of (by decide), by decide, by decide, by decide, by decide⟩

theorem test_permute_commit :
    (∀ m ∈ activeMembers (permState (permOp 1 0)) 0, bitAt (permOp 1 0).ready m = true) ∧ permIn (permState (permOp 1 0)) (permOp 1 0) = [0]
      ∧ (permEntry (permState (permOp 1 0)) nearBase 0).bytes = 64 ∧ (permEntry (permState (permOp 1 0)) nearBase 0).into = nearBase + 4096
      ∧ (permEntry (permState (permOp 1 0)) nearBase 0).stage = 0 ∧ 0 + 64 ≤ nearBase + 4096
      ∧ poisoned (permState (permOp 1 0)) 0 64 = false ∧ poisoned (permState (permOp 1 0)) (nearBase + 4096) 64 = false
      ∧ nearBase + 4096 + 64 ≤ combAddr 5 (combBytes - 64)
      ∧ (pair (after (.permuteCommit 5 0) (permState (permOp 1 0))) 5).perms.map (fun x => x.outcome) = [1] := by
  decide

theorem test_permute_outcome :
    Arrives (permPkt [2, 2, 0] []) (permState (permOp 1 1)) ∧ (permOp 1 1).outcome ≠ 0 ∧ (permOp 1 1).outcome ≠ 2
      ∧ byteAt (after (.permuteOutcomeReceive (permPkt [2, 2, 0] [])) (permState (permOp 1 1))) (combAddr 5 (combBytes - 64)) = 4
      ∧ Arrives (permPkt [2, 1, 0] []) (permState (permOp 1 1))
      ∧ byteAt (after (.permuteOutcomeReceive (permPkt [2, 1, 0] [])) (permState (permOp 1 1))) (combAddr 5 (combBytes - 64)) = 0 :=
  ⟨arrives_of (by decide), by decide, by decide, by decide, arrives_of (by decide), by decide⟩

/-! ## The gradient exchange -/

/-- A POST and a SEND of one FP32 entry, tag 15, deadline 1. -/
def postDesc : List Nat := [4 * 2 ^ 43 + 2 ^ 46 + 2 ^ 50 + 15 * 2 ^ 58, 128, 1024, combBytes - 64]
def sendDesc : List Nat := [4 * 2 ^ 43 + 2 ^ 50 + 15 * 2 ^ 58 + 2 ^ 62, 128, 1024, combBytes - 64, 1]

theorem test_exchange_issue :
    Colls 5 (collWord 6) 6 (collState 6 postDesc {} []) ∧ bitsOf (descWord (collState 6 postDesc {} []) 5 (collWord 6) 0) 63 62 = 0
      ∧ gexPostFault 5 (collState 6 postDesc {} []) (descWords (collState 6 postDesc {} []) 5 (collWord 6) 16) 0 = none
      ∧ (postRange (collState 6 postDesc {} []) (postNew (collState 6 postDesc {} []) 5 (collWord 6))).2 ≠ 0
      ∧ (pair (after (.gexchPost 5) (collState 6 postDesc {} [])) 5).posts.length = 1
      ∧ Colls 5 (collWord 6) 6 (collState 6 sendDesc {} []) ∧ bitsOf (descWord (collState 6 sendDesc {} []) 5 (collWord 6) 0) 63 62 = 1
      ∧ gexSendFault 5 (collState 6 sendDesc {} []) (descWords (collState 6 sendDesc {} []) 5 (collWord 6) 16) 0 = none
      ∧ gexOwners (collState 6 sendDesc {} []) 0 4 1 = [0] :=
  ⟨colls_of (by decide), by decide, by decide, by decide, by decide, colls_of (by decide), by decide, by decide, by decide⟩

/-- Member 1 of a ring of two has no range of one entry: its POST closes at issue with its sum +0. A form from 2 is a fault. -/
theorem test_exchange_empty :
    Colls 5 (collWord 6) 6 (collState 6 postDesc {} [(F.GROUP_STATUS_device_id, 0, 1)])
      ∧ gexPostFault 5 (collState 6 postDesc {} [(F.GROUP_STATUS_device_id, 0, 1)])
          (descWords (collState 6 postDesc {} [(F.GROUP_STATUS_device_id, 0, 1)]) 5 (collWord 6) 16) 0 = none
      ∧ (postRange (collState 6 postDesc {} [(F.GROUP_STATUS_device_id, 0, 1)])
          (postNew (collState 6 postDesc {} [(F.GROUP_STATUS_device_id, 0, 1)]) 5 (collWord 6))).2 = 0
      ∧ 128 + 4 * postStep (collState 6 postDesc {} [(F.GROUP_STATUS_device_id, 0, 1)])
          (postNew (collState 6 postDesc {} [(F.GROUP_STATUS_device_id, 0, 1)]) 5 (collWord 6)) ≤ combBytes - 64
      ∧ Colls 5 (collWord 6) 6 (collState 6 [3 * 2 ^ 62, 128, 1024, combBytes - 64] {} [])
      ∧ 2 ≤ bitsOf (descWord (collState 6 [3 * 2 ^ 62, 128, 1024, combBytes - 64] {} []) 5 (collWord 6) 0) 63 62 :=
  ⟨colls_of (by decide), by decide, by decide, by decide, colls_of (by decide), by decide⟩

/-- An open post of one FP32 entry, its members' messages that have come, the next to decode. -/
def postOp (mask next : Nat) : GexPost :=
  { tag := 15, b0 := 0, ahead := 1, deadline := 1, fmt := 4, n := 1, sum := 128, area := 1024, res := combBytes - 64, mask := mask
    counts := if mask = 0 then [] else [(0, 1)], next := next, seq := 3 }

/-- The pair of that post, in a ring of one, and the message of its member. -/
def postState (x : GexPost) : State :=
  pokeBytes (combAddr 5 1024) [1, 2, 3, 4] (unit 5 { posts := [(15, x)], colls := [{ word := collWord 6, seq := 3 }] } [])
def gexPkt : Packet := { pair := 5, data := gexHeader 4 15 0 0 1 0 1 1 0 4 ++ [255, 0, 0, 7] }

theorem test_exchange_receive :
    Arrives gexPkt (postState (postOp 0 0)) ∧ (gexHead gexPkt.data).tag = 15 ∧ (gexHead gexPkt.data).fmt = 4
      ∧ findPost (postState (postOp 0 0)) 5 15 = some (postOp 0 0) ∧ gexReject (postState (postOp 0 0)) (postOp 0 0) gexPkt (gexHead gexPkt.data) = none
      ∧ gexPkt.data.length = 32 + (gexHead gexPkt.data).bytes ∧ (∀ b ∈ gexPkt.data, b < 256)
      ∧ bytesAt (after (.gexMessageReceive gexPkt) (postState (postOp 0 0))) (combAddr 5 1024) 4 = [255, 0, 0, 7] :=
  ⟨arrives_of (by decide), by decide, by decide, by decide, by decide, by decide, by decide, by decide⟩

theorem test_exchange_decode :
    findPost (postState (postOp 1 0)) 5 15 = some (postOp 1 0) ∧ (postOp 1 0).next < ringSizeOf (postState (postOp 1 0)) 0
      ∧ bitAt (postOp 1 0).mask 0 = true ∧ (postOp 1 0).wrote = false
      ∧ elem32 (after (.gexDecode 5 15) (postState (postOp 1 0))) 5 128 0 = 0x04030201 := by
  decide

theorem test_exchange_close :
    CollHead 5 3 { word := collWord 6, seq := 3 } [] (postState (postOp 1 1)) ∧ postFull (postState (postOp 1 1)) (postOp 1 1) = true
      ∧ ringSizeOf (postState (postOp 1 1)) 0 ≤ (postOp 1 1).next ∧ (postRange (postState (postOp 1 1)) (postOp 1 1)).2 ≠ 0
      ∧ (postOp 1 1).counts.foldl (fun a e => a + e.2) 0 ≠ 0 :=
  ⟨collHead_of (by decide), by decide, by decide, by decide, by decide⟩

/-- A send that waits for the owners of a mask, and the mask packet of owner 0. -/
def sendOp (await : Nat) : GexSend := { tag := 15, deadline := 1, await := await, res := combBytes - 64, seq := 3 }
def sendState (x : GexSend) : State :=
  unit 5 { sends := [(15, x)], colls := [{ word := collWord 6, seq := 3 }] } [(F.BREATH_STATUS_state, 0, 2), (F.BREATH_SCHED_sched_breath, 0, 1)]
def maskPkt : Packet := { pair := 5, tag := 15, aux := [1, 1, 0] }

theorem test_masks :
    Arrives maskPkt (sendState (sendOp 3)) ∧ findSend (sendState (sendOp 3)) 5 15 = some (sendOp 3)
      ∧ bitAt (sendOp 3).await (coordOf maskPkt.src 0) = true ∧ bitAt 1 (memberOf (sendState (sendOp 3)) 0) = true
      ∧ clearBitN (sendOp 3).await 0 ≠ 0 ∧ clearBitN (sendOp 1).await 0 = 0
      ∧ CollHead 5 3 { word := collWord 6, seq := 3 } [] (sendState (sendOp 1))
      ∧ (findSend (after (.maskReceive maskPkt) (sendState (sendOp 3))) 5 15).map (fun x => (x.await, x.got)) = some (2, 1)
      ∧ numAt (after (.maskReceive maskPkt) (sendState (sendOp 1))) (combAddr 5 (combBytes - 64)) 8 = 1 :=
  ⟨arrives_of (by decide), by decide, by decide, by decide, by decide, by decide, collHead_of (by decide), by decide, by decide⟩

theorem test_mask_timeout :
    tickReached (sendState (sendOp 1)) ((sendOp 1).b0 + (sendOp 1).deadline + 1) = true ∧ (sendOp 1).await ≠ 0
      ∧ numAt (after (.maskTimeout 5 15) (sendState (sendOp 1))) (combAddr 5 (combBytes - 64)) 8 = 65536 := by
  decide

theorem test_exclude :
    ({ live [] with exclPending := some 3#64 }).exclPending = some 3#64
      ∧ reg (after .excludeApply { live [] with exclPending := some 3#64 }) .GEX_EXCLUDE 0 = 3#64 := by
  decide

/-! ## The norm and the digests -/

/-- A NORM64 over axis 0 of pairs 5 and 63, its list at 128, its output at 1024. -/
def normDesc : List Nat := [1 + 2 ^ 4 + 15 * 2 ^ 18, 128, 0, 1024, 2 ^ 5 + 2 ^ 63]

theorem test_norm_issue :
    Colls 5 (collWord 7) 7 (collState 7 normDesc {} [])
      ∧ normFault 5 (collState 7 normDesc {} []) (descWords (collState 7 normDesc {} []) 5 (collWord 7) 16) 0 = none
      ∧ (collState 7 normDesc {} []).norms = [] ∧ bitAt (descWord (collState 7 normDesc {} []) 5 (collWord 7) 4) 63 = true
      ∧ (after (.norm64 5) (collState 7 normDesc {} [])).norms.map (fun n => (n.tag, n.pairs, n.vals)) = [(15, 2 ^ 5 + 2 ^ 63, [(5, 2 * (1 + 2 ^ 4 + 15 * 2 ^ 18))])] :=
  ⟨colls_of (by decide), by decide, by decide, by decide, by decide⟩

def reportPkt : Packet := { tag := 15, aux := [0, 1, 1, 0, 10] }

theorem test_norm_report :
    Arrives reportPkt (live []) ∧ schedBreath (live []) < 0 + 1 ∧ (live []).normRoots = []
      ∧ (after (.normReportReceive reportPkt) (live [])).normRoots.map (fun r => r.reports) = [[(0, 10)]] :=
  ⟨arrives_of (by decide), by decide, by decide, by decide⟩

/-- The root of a scope of one part, which has reported. -/
def rootState (formed : Bool) : State :=
  { live [] with normRoots := [{ axes := 1, deadline := 1, reports := [(0, 10)], formed := formed }] }

theorem test_norm_total :
    expectedParts (rootState false) 1 = [0] ∧ scopeParts (rootState false) 1 = [deviceId (rootState false)]
      ∧ (after (.normTotal 0 false) (rootState false)).normRoots.map NormRoot.formed = [true]
      ∧ (after (.normTotal 0 false) (rootState false)).out.length = 1 := by
  decide

/-- A report that comes once the total has gone out. -/
theorem test_norm_stale :
    Arrives { aux := [0, 1, 1, 0, 10] } (rootState true) ∧ (rootState true).normRoots.map NormRoot.formed = [true]
      ∧ (after (.normReportReceive { aux := [0, 1, 1, 0, 10] }) (rootState true)).out = []
      ∧ fld (after (.normReportReceive { aux := [0, 1, 1, 0, 10] }) (rootState true)) F.LINK_EVENTS_stale = 1 :=
  ⟨arrives_of (by decide), by decide, by decide, by decide⟩

/-- A NORM64 whose one pair waits for the total, in the breath before its deadline; the total 4.0. -/
def normState : State :=
  { unit 5 { colls := [{ word := collWord 7, seq := 3 }] } [(F.BREATH_STATUS_state, 0, 2)] with
    norms := [{ tag := 15, axes := 1, deadline := 1, outs := [(5, 1024, 0, 3)] }] }
def totalPkt : Packet := { tag := 15, aux := [1, 0, 2 * 0x4010000000000000, 1, 1] }

theorem test_norm_total_receive :
    Arrives totalPkt normState ∧ CollHead 5 3 { word := collWord 7, seq := 3 } [] normState ∧ (0x4010000000000000 : Nat) < 0x7FF0000000000000
      ∧ numAt (after (.normTotalReceive totalPkt) normState) (combAddr 5 1024) 4 = 0x3F800000
      ∧ reg (after (.normTotalReceive totalPkt) normState) .GEX_NORM 0 = 0x4010000000000000#64 :=
  ⟨arrives_of (by decide), collHead_of (by decide), by decide, by decide, by decide⟩

theorem test_norm_timeout :
    tickReached normState (0 + 1) = true ∧ normState.norms.map (fun n => n.outs) = [[(5, 1024, 0, 3)]] := by
  decide

/-- A DIGCMP of the digests at 128, deadline 1. -/
def digDesc : List Nat := [15 * 2 ^ 46 + 2 ^ 50, 128, 0, combBytes - 64]

theorem test_digcmp_issue :
    Colls 5 (collWord 8) 8 (collState 8 digDesc {} [])
      ∧ digFault (collState 8 digDesc {} []) (descWords (collState 8 digDesc {} []) 5 (collWord 8) 16) 0 = none
      ∧ (collState 8 digDesc {} []).collHeld = []
      ∧ (pair (after (.digcmp 5) (collState 8 digDesc {} [])) 5).digs.map (fun x => x.tag) = [15] :=
  ⟨colls_of (by decide), by decide, by decide, by decide⟩

/-- A DIGCMP in progress in a ring of one, and its member's vector. -/
def digOp (got : Nat) : DigOp := { tag := 15, deadline := 1, res := combBytes - 64, got := got, seq := 3, vals := if got = 0 then [] else [(0, 9)] }
def digState (x : DigOp) : State := unit 5 { digs := [x], colls := [{ word := collWord 8, seq := 3 }] } []
def digPkt : Packet := { pair := 5, tag := 15, aux := [0, 9] }

theorem test_digcmp_receive :
    Arrives digPkt (digState (digOp 0)) ∧ (pair (digState (digOp 0)) 5).digs = [digOp 0] ∧ excluded (digState (digOp 0)) 0 0 = false
      ∧ (pair (after (.digcmpVectorReceive digPkt) (digState (digOp 0))) 5).digs.map (fun x => (x.got, x.vals)) = [(1, [(0, 9)])] :=
  ⟨arrives_of (by decide), by decide, by decide, by decide⟩

theorem test_digcmp_close :
    CollHead 5 3 { word := collWord 8, seq := 3 } [] (digState (digOp 1)) ∧ activeMembers (digState (digOp 1)) 0 = [0]
      ∧ bitAt (digOp 1).got 0 = true ∧ ringSizeOf (digState (digOp 1)) 0 = 1 ∧ SMap.get 0 (digOp 1).vals (0 * 16 + 0) = 9
      ∧ numAt (after (.digcmpClose 5 0) (digState (digOp 1))) (combAddr 5 (combBytes - 32)) 8 = 65536 :=
  ⟨collHead_of (by decide), by decide, by decide, by decide, by decide, by decide⟩

/-! ## The all-to-all -/

theorem clean_of {s : State} (hp : s.poison = []) (hs : ∀ h < 4, underReset s h = false ∧ fld s F.MEM_STATUS_chan_failed h = 0) : Clean s := by
  intro a n
  simp only [poisoned, List.any_eq_false, Bool.or_eq_true, not_or, Bool.not_eq_true]
  intro x _
  refine ⟨by simp [marked, hp, SMap.get], ?_⟩
  unfold offline tierOf
  split
  · rename_i h _
    have hh : h < 4 := by
      rename_i he
      revert he
      simp only [nearBase, combBase, hiveBytes, combBytes, regBase]
      split_ifs <;> intro he <;> cases he <;> omega
    have hf : channelFailed s (x * 64) = false := by
      unfold channelFailed
      split
      · rename_i g hg
        have hg4 : g < 4 := by
          revert hg
          simp only [tierOf, nearBase, combBase, hiveBytes, combBytes, regBase]
          split_ifs <;> intro he <;> cases he <;> omega
        simp [(hs g hg4).2, bitAt]
      · rfl
    simp [(hs h hh).1, hf]
  · rename_i h he
    have hh : h < 4 := by
      revert he
      simp only [nearBase, combBase, hiveBytes, combBytes, regBase]
      split_ifs <;> intro he <;> cases he <;> omega
    exact (hs h hh).1
  · rfl

/-- The forms of ALLTOALL with one expert per part, one slot, rows of 64 bytes, tag 15. -/
def a2aPostDesc : List Nat := [1 + 2 ^ 46 + 2 ^ 50 + 15 * 2 ^ 58, nearBase, 0, 64, nearBase, nearBase, nearBase, 0, combBytes - 64]
def a2aDispDesc : List Nat :=
  [1 + 2 ^ 50 + 15 * 2 ^ 58 + 2 ^ 62, nearBase, nearBase, 64 + 64 * 2 ^ 32, nearBase, nearBase, nearBase, nearBase, combBytes - 64]
def a2aRetDesc : List Nat := [2 * 2 ^ 62, nearBase, 0, 64, nearBase, nearBase, 0, 0, combBytes - 64]
def a2aCancelDesc : List Nat := [3 * 2 ^ 62 + 15 * 2 ^ 58]

theorem test_alltoall_post :
    Colls 5 (collWord 4) 4 (collState 4 a2aPostDesc {} []) ∧ bitsOf (descWord (collState 4 a2aPostDesc {} []) 5 (collWord 4) 0) 63 62 = 0
      ∧ a2aPostFault 5 (collState 4 a2aPostDesc {} []) (descWords (collState 4 a2aPostDesc {} []) 5 (collWord 4) 16) 0 = none
      ∧ (pair (after (.alltoallPost 5) (collState 4 a2aPostDesc {} [])) 5).a2a.length = 1 :=
  ⟨colls_of (by decide), by decide, by decide, by decide⟩

theorem test_alltoall_dispatch :
    Colls 5 (collWord 4) 4 (collState 4 a2aDispDesc {} []) ∧ bitsOf (descWord (collState 4 a2aDispDesc {} []) 5 (collWord 4) 0) 63 62 = 1
      ∧ a2aDispatchFault 5 (collState 4 a2aDispDesc {} []) (descWords (collState 4 a2aDispDesc {} []) 5 (collWord 4) 16) 0 = none
      ∧ Clean (collState 4 a2aDispDesc {} []) :=
  ⟨colls_of (by decide), by decide, by decide, clean_of (by decide) (by decide)⟩

theorem test_alltoall_return :
    Colls 5 (collWord 4) 4 (collState 4 a2aRetDesc {} []) ∧ bitsOf (descWord (collState 4 a2aRetDesc {} []) 5 (collWord 4) 0) 63 62 = 2
      ∧ a2aReturnFault 5 (collState 4 a2aRetDesc {} []) (descWords (collState 4 a2aRetDesc {} []) 5 (collWord 4) 16) 0 = none
      ∧ Clean (collState 4 a2aRetDesc {} []) ∧ semCount (collState 4 a2aRetDesc {} []) 5 63 ≠ 0xFFFFFFFF
      ∧ semCount (after (.alltoallReturn 5) (collState 4 a2aRetDesc {} [])) 5 63 = 1 :=
  ⟨colls_of (by decide), by decide, by decide, clean_of (by decide) (by decide), by decide, by decide⟩

theorem test_alltoall_cancel :
    Colls 5 (collWord 4) 4 (collState 4 a2aCancelDesc { batches := [(15, {})] } [])
      ∧ bitsOf (descWord (collState 4 a2aCancelDesc { batches := [(15, {})] } []) 5 (collWord 4) 0) 63 62 = 3
      ∧ a2aCancelFault (collState 4 a2aCancelDesc { batches := [(15, {})] } [])
          (descWords (collState 4 a2aCancelDesc { batches := [(15, {})] } []) 5 (collWord 4) 16) 0 = none
      ∧ findBatch (collState 4 a2aCancelDesc { batches := [(15, {})] } []) 5 15 = some {}
      ∧ (pair (after (.alltoallCancel 5) (collState 4 a2aCancelDesc { batches := [(15, {})] } [])) 5).batches = [] :=
  ⟨colls_of (by decide), by decide, by decide, by decide, by decide⟩

/-- An open post of one expert and one slot, its rows, headers, gates and table apart in near memory. -/
def a2aOp (counted : Nat) (filled : SMap Bool) : A2aPost :=
  { tag := 15, b0 := 0, ahead := 1, deadline := 1, epp := 1, c := 1, near := nearBase, far := 0, rowBytes := 64, hdr := nearBase + 4096
    table := nearBase + 8192, gate := nearBase + 16384, n := 1, res := combBytes - 64, counted := counted, filled := filled
    counts := if counted = 0 then [] else [(0, 1)], seq := 3 }
def a2aState (x : A2aPost) : State := unit 5 { a2a := [(15, x)], colls := [{ word := collWord 4, seq := 3 }] } []
def a2aPkt (aux data : List Nat) : Packet := { pair := 5, tag := 15, generation := 1, aux := aux, data := data }

theorem toPost_of {m : Packet} {x : A2aPost} {s : State}
    (h : (s.inService && decide (m.parts ≤ 1 ∧ m.age < 1000000 ∧ m.hops ≤ fld s F.LINK_CTRL_max_hops)
      && decide (findA2a s m.pair m.tag = some x) && decide (x.gen = m.generation ∧ nth 0 m.aux 1 = x.axis) && onRing s x.axis m.src
      && !underReset s (hiveOf m.pair)) = true) : ToPost m x s := by
  simp only [Bool.and_eq_true, decide_eq_true_eq, Bool.not_eq_true'] at h
  obtain ⟨⟨⟨⟨⟨h1, h2⟩, h3⟩, h4⟩, h5⟩, h6⟩ := h
  exact ⟨⟨h2.1, h1, h2.2.1, h2.2.2⟩, h3, h4.1, h4.2, h5, h6⟩

theorem test_alltoall_receive :
    ToPost (a2aPkt [0, 0, 1] []) (a2aOp 0 []) (a2aState (a2aOp 0 [])) ∧ [1].length = (a2aOp 0 []).epp
      ∧ (findA2a (after (.alltoallRowReceive (a2aPkt [0, 0, 1] [])) (a2aState (a2aOp 0 []))) 5 15).map (fun y => y.counts) = some [(0, 1)]
      ∧ ToPost (a2aPkt [1, 0, 0, 0, 7, 1, 2, 3] (List.replicate 64 255)) (a2aOp 0 []) (a2aState (a2aOp 0 []))
      ∧ rowPlace nearBase 0 1 (a2aSlots (a2aState (a2aOp 0 [])) (a2aOp 0 [])) 64 0 0 = nearBase
      ∧ poisoned (a2aState (a2aOp 0 [])) nearBase 64 = false ∧ poisoned (a2aState (a2aOp 0 [])) (nearBase + 4096) 16 = false
      ∧ poisoned (a2aState (a2aOp 0 [])) (nearBase + 16384) 4 = false
      ∧ numAt (after (.alltoallRowReceive (a2aPkt [1, 0, 0, 0, 7, 1, 2, 3] (List.replicate 64 255))) (a2aState (a2aOp 0 []))) (nearBase + 4096) 8
        = 7 + 2 ^ 32 + 2 ^ 35 :=
  ⟨toPost_of (by decide), by decide, by decide, toPost_of (by decide), by decide, by decide, by decide, by decide, by decide⟩

/-- A post that has closed, and one with an earlier post's generation 0 beside its own. -/
def a2aClosed : A2aPost := { a2aOp 0 [] with closed := true, refused := 7, past := [0] }

theorem test_alltoall_late :
    ToPost (a2aPkt [0, 0, 1] []) a2aClosed (a2aState a2aClosed) ∧ a2aClosed.closed = true
      ∧ numAt (after (.alltoallRowReceive (a2aPkt [0, 0, 1] [])) (a2aState a2aClosed)) (combAddr 5 (combBytes - 40)) 8 = 8
      ∧ fld (after (.alltoallRowReceive (a2aPkt [0, 0, 1] [])) (a2aState a2aClosed)) F.ROUTE_COUNTS_stale = 1
      ∧ Arrives { a2aPkt [0, 0, 1] [] with generation := 0 } (a2aState a2aClosed) ∧ a2aClosed.gen ≠ 0 ∧ (0 : Nat) ∈ a2aClosed.past
      ∧ schedBreath (a2aState a2aClosed) < 0 + 65536 :=
  ⟨toPost_of (by decide), by decide, by decide, by decide, arrives_of (by decide), by decide, by decide, by decide⟩

/-- A row for a pair whose hive is in QUIESCE. -/
theorem test_alltoall_reset :
    Arrives (a2aPkt [0, 0, 1] []) (unit 5 {} [(F.RL_HIVE_h_state, 0, 1)]) ∧ underReset (unit 5 {} [(F.RL_HIVE_h_state, 0, 1)]) (hiveOf 5) = true :=
  ⟨arrives_of (by decide), by decide⟩

theorem test_alltoall_close :
    CollHead 5 3 { word := collWord 4, seq := 3 } [] (a2aState (a2aOp 1 [(0, true)]))
      ∧ (∀ m < ringSizeOf (a2aState (a2aOp 1 [(0, true)])) 0, arrivedFrom (a2aState (a2aOp 1 [(0, true)])) (a2aOp 1 [(0, true)]) m = true)
      ∧ (∀ t < a2aSlots (a2aState (a2aOp 1 [(0, true)])) (a2aOp 1 [(0, true)]), SMap.get false (a2aOp 1 [(0, true)]).filled (0 * 2 ^ 20 + t) = true)
      ∧ poisoned (a2aState (a2aOp 1 [(0, true)])) (nearBase + 8192) 196 = false ∧ nearBase + 8192 + 196 ≤ combAddr 5 (combBytes - 64)
      ∧ numAt (after (.alltoallReceiveClose 5 15) (a2aState (a2aOp 1 [(0, true)]))) (combAddr 5 (combBytes - 64)) 8 = 1 :=
  ⟨collHead_of (by decide), by decide, by decide, by decide, by decide, by decide⟩

theorem test_dispatch_done :
    CollHead 5 3 { word := collWord 4, desc := [2 ^ 62], seq := 3 } [] (unit 5 { colls := [{ word := collWord 4, desc := [2 ^ 62], seq := 3 }] } [])
      ∧ wbits (collWord 4) 9 4 = 4 ∧ bitsOf (nth 0 [2 ^ 62] 0) 63 62 = 1
      ∧ (unit 5 { colls := [{ word := collWord 4, desc := [2 ^ 62], seq := 3 }] } []).requests = []
      ∧ semCount (after (.dispatchDone 5 3) (unit 5 { colls := [{ word := collWord 4, desc := [2 ^ 62], seq := 3 }] } [])) 5 63 = 1 :=
  ⟨collHead_of (by decide), by decide, by decide, by decide, by decide⟩

/-- A batch of one row, from position 7 of expert 0. -/
def batchOp (filled : SMap Bool) : Batch :=
  { tag := 15, generation := 1, total := 1, ret := nearBase, rowBytes := 64, list := nearBase + 4096, sem := 63, res := combBytes - 64
    slots := [(0, 7)], acked := [(0, true)], filled := filled }
def batchState (b : Batch) : State := unit 5 { batches := [(15, b)] } []

theorem test_batches :
    Arrives (a2aPkt [1, 0, 0] (List.replicate 64 255)) (batchState (batchOp [])) ∧ findBatch (batchState (batchOp [])) 5 15 = some (batchOp [])
      ∧ SMap.get false (batchOp []).filled 0 = false ∧ poisoned (batchState (batchOp [])) nearBase 64 = false
      ∧ (findBatch (after (.returnRowReceive (a2aPkt [1, 0, 0] (List.replicate 64 255))) (batchState (batchOp []))) 5 15).map (fun b => b.filled)
        = some [(0, true)]
      ∧ batchFull (batchState (batchOp [(0, true)])) 5 (batchOp [(0, true)]) = true
      ∧ semCount (batchState (batchOp [(0, true)])) 5 63 ≠ 0xFFFFFFFF
      ∧ numAt (after (.batchClose 5 15) (batchState (batchOp [(0, true)]))) (nearBase + 4100) 4 = 7
      ∧ semCount (after (.batchClose 5 15) (batchState (batchOp [(0, true)]))) 5 63 = 1 :=
  ⟨arrives_of (by decide), by decide, by decide, by decide, by decide, by decide, by decide, by decide, by decide⟩

/-! ## The breath -/

/-- The breath unit b of a part with two ports up, and further register fields. -/
def breathing (b : BreathS) (fs : List (Fld × Nat × Nat)) : State :=
  { live ([(F.PORT_STATUS_state, 0, 2), (F.PORT_STATUS_state, 7, 2)] ++ fs) with breath := b, ports := [(7, { hopValid := true })] }

theorem test_tick_timer :
    (fld (breathing { streaming := true, emitted := 6 } [(F.BREATH_CTRL_tick_source, 0, 1)]) F.BREATH_CTRL_tick_source = 1)
      ∧ (after .masterTickEmit (breathing { streaming := true, emitted := 6 } [(F.BREATH_CTRL_tick_source, 0, 1)])).breath.emitted = 7
      ∧ (after .masterTickEmit (breathing { streaming := true, emitted := 6 } [(F.BREATH_CTRL_tick_source, 0, 1)])).out.length = 4
      ∧ (breathing { streaming := true, ending := true } []).breath.ending = true := by
  decide

theorem test_tick_pin :
    fld (breathing { streaming := true } [(F.BREATH_CTRL_tick_source, 0, 2)]) F.BREATH_CTRL_tick_source = 2
      ∧ (after (.tickInEdge false) (breathing { streaming := true } [(F.BREATH_CTRL_tick_source, 0, 2)])).breath.pinRef = true
      ∧ fld (after (.tickInEdge false) (breathing { streaming := true, pinRef := true } [(F.BREATH_CTRL_tick_source, 0, 2)]))
          F.BREATH_TICKIN_reject_count = 1
      ∧ fld (breathing { streaming := true, pinRef := true } [(F.BREATH_CTRL_tick_source, 0, 2), (F.BREATH_TICKIN_consec_miss, 0, 2)])
          F.BREATH_TICKIN_consec_miss < 3
      ∧ (after .tickInMiss (breathing { streaming := true, pinRef := true }
          [(F.BREATH_CTRL_tick_source, 0, 2), (F.BREATH_TICKIN_consec_miss, 0, 2)])).breath.ending = true := by
  decide

/-- Tick 9 of part 1, and the state in which it comes. -/
def tick9 : Tick := { master := 1, number := 9, period := 100, delay := 10 }
def ticking (b : BreathS) (st parent : Nat) : State :=
  breathing b [(F.BREATH_STATUS_state, 0, st), (F.BREATH_COMP_parent_port, 0, parent), (F.BREATH_COMP_tick_budget, 0, 30),
    (F.PORT_STATUS_hop_delay, 7, 20), (F.GROUP_RINGS_ring_m1, 0, 1)]

theorem takesTick_of {s : State}
    (h : (s.inService && crc16Ok tick9.body && decide (tickOf tick9.body = tick9) && decide (fld s F.BREATH_CTRL_tick_source = 0)
      && (portS s 7).hopValid && !s.breath.seen.contains tick9.key && decide (10 + fld s F.PORT_STATUS_hop_delay 7 ≤ fld s F.BREATH_COMP_tick_budget)) = true) :
    TakesTick 7 tick9.body tick9 s := by
  simp only [Bool.and_eq_true, decide_eq_true_eq, Bool.not_eq_true'] at h
  obtain ⟨⟨⟨⟨⟨⟨h1, h2⟩, h3⟩, h4⟩, h5⟩, h6⟩, h7⟩ := h
  exact ⟨h1, by decide, h2, h3, h4, h5, h6, rfl, h7⟩

theorem test_tick_receive :
    TakesTick 7 tick9.body tick9 (ticking { follows := some 1 } 2 7) ∧ breathState (ticking { follows := some 1 } 2 7) = 2
      ∧ fld (ticking { follows := some 1 } 2 7) F.BREATH_COMP_parent_port = 7
      ∧ (after (.tickReceive 7 tick9.body 0) (ticking { follows := some 1 } 2 7)).breath.due = [tick9]
      ∧ TakesTick 7 tick9.body tick9 (ticking { follows := some 1 } 2 0)
      ∧ (after (.tickReceive 7 tick9.body 0) (ticking { follows := some 1 } 2 0)).breath.cands = [(7, tick9)]
      ∧ TakesTick 7 tick9.body tick9 (ticking {} 1 0) ∧ breathState (ticking {} 1 0) = 1
      ∧ (after (.tickReceive 7 tick9.body 0) (ticking {} 1 0)).breath.follows = some 1
      ∧ crc16Ok (tick9.body + 2 ^ 64) = false
      ∧ fld (after (.tickReceive 7 (tick9.body + 2 ^ 64) 0) (ticking {} 1 0)) F.PORT_OSET_bad 7 = 1 :=
  ⟨takesTick_of (by decide), by decide, by decide, by decide, takesTick_of (by decide), by decide, takesTick_of (by decide), by decide,
   by decide, by decide, by decide⟩

theorem test_tick_reroute_hold :
    10 + fld (ticking { follows := some 1, cands := [(7, tick9)] } 2 0) F.PORT_STATUS_hop_delay 7
        ≤ fld (ticking { follows := some 1, cands := [(7, tick9)] } 2 0) F.BREATH_COMP_tick_budget
      ∧ fld (after (.tickReroute 0) (ticking { follows := some 1, cands := [(7, tick9)] } 2 0)) F.BREATH_STATUS_reroute_active = 1
      ∧ breathState (ticking { due := [{ tick9 with hold := true }] } 2 0) = 2
      ∧ fld (after .localTickFire (ticking { due := [{ tick9 with hold := true }] } 2 0)) F.BREATH_TICK_tick_number = 9 := by
  decide

/-- A RUNNING breath unit with pair 5 late in its slice. -/
def lateState : State :=
  { unit 5 { inSlice := true } [(F.BREATH_STATUS_state, 0, 2), (F.SEQ_STATUS_state, 5, 2), (F.BREATH_STRETCH_stretch_limit, 0, 1)] with breath := {} }

theorem test_guard_point :
    breathState (breathing {} [(F.BREATH_STATUS_state, 0, 2)]) ≠ 3 ∧ guardOpen (breathing {} [(F.BREATH_STATUS_state, 0, 2)]) = true
      ∧ latePairs (breathing {} [(F.BREATH_STATUS_state, 0, 2)]) = [] ∧ (breathing {} [(F.BREATH_STATUS_state, 0, 2)]).host.notices = []
      ∧ (after .guardPoint (breathing {} [(F.BREATH_STATUS_state, 0, 2)])).breath.guarded = true
      ∧ guardOpen lateState = true ∧ latePairs lateState = [5] ∧ fld lateState F.BREATH_CTRL_overrun_policy = 0
      ∧ fld lateState F.BREATH_STRETCH_consecutive < fld lateState F.BREATH_STRETCH_stretch_limit := by
  decide

/-- The late pair under the HIVE_FAULT policy, past its limit, and in TICK_LOST. -/
theorem test_guard_faults :
    underReset lateState 0 = false ∧ breathState lateState = 2
      ∧ (after .guardPoint (setFld F.BREATH_CTRL_overrun_policy 0 1 lateState)).pendingFaults = [{ hive := 0, cause := 2, pair := 5 }]
      ∧ fld (setFld F.BREATH_STRETCH_consecutive 0 1 lateState) F.BREATH_STRETCH_stretch_limit = 1
      ∧ fld (after .guardPoint (setFld F.BREATH_STRETCH_consecutive 0 1 lateState)) F.BREATH_EVENTS_stretch_limit = 1
      ∧ latePairs (setFld F.BREATH_STATUS_state 0 3 lateState) = [5]
      ∧ (after .guardPoint (setFld F.BREATH_STATUS_state 0 3 lateState)).breath.holds = [] := by
  decide

/-- A stretch request of part 1 for tick 2. -/
def stretch2 : Nat := stretchBody 1 2

theorem test_stretch_receive :
    crc16Ok stretch2 = true ∧ breathState (breathing {} [(F.BREATH_STATUS_state, 0, 2)]) = 2
      ∧ tickNumber (breathing {} [(F.BREATH_STATUS_state, 0, 2)]) < bitsOf stretch2 111 64
      ∧ (after (.stretchReceive 0 stretch2) (breathing {} [(F.BREATH_STATUS_state, 0, 2)])).breath.holds = [2]
      ∧ (after (.stretchReceive 0 stretch2) (breathing {} [(F.BREATH_STATUS_state, 0, 2)])).out.length = 2
      ∧ bitsOf stretch2 111 64 ≤ tickNumber (breathing {} [(F.BREATH_STATUS_state, 0, 2), (F.BREATH_TICK_tick_number, 0, 2)])
      ∧ breathState (after (.stretchReceive 0 stretch2) (breathing {} [(F.BREATH_STATUS_state, 0, 2), (F.BREATH_TICK_tick_number, 0, 2)])) = 4
      ∧ (breathing { stretches := [(1, 2)] } []).breath.stretches.contains (bitsOf stretch2 127 112, bitsOf stretch2 111 64) = true := by
  decide

theorem test_slack_echo :
    schedBreath (live [(F.BREATH_SCHED_sched_breath, 0, 256)]) % 256 = 0 ∧ schedBreath (live [(F.BREATH_SCHED_sched_breath, 0, 256)]) ≠ 0
      ∧ fld (after (.slackRecord 77 63) (live [(F.BREATH_SCHED_sched_breath, 0, 256)])) F.BREATH_SLACK_min_pair = 63
      ∧ echoes (breathing {} []) 7 = true ∧ (after (.echoSend 7 0) (breathing {} [])).out.length = 2
      ∧ crc16Ok (withCrc16 (2 ^ 107)) = true ∧ bitAt (withCrc16 (2 ^ 107)) 107 = true ∧ bitAt (withCrc16 0) 107 = false
      ∧ crc16Ok (withCrc16 0) = true ∧ (after (.echoReceive 7 (withCrc16 0) 0 9) (breathing {} [])).out.length = 2
      ∧ fld (after (.echoReceive 7 (withCrc16 (2 ^ 107)) 100 0) (breathing {} [])) F.PORT_STATUS_hop_delay 7 = 50 := by
  decide

theorem test_breath_arm :
    fld (breathing {} []) F.BOOT_STATUS_state ≠ 3 ∧ breathState (breathing {} []) = 0 ∧ fld (breathing {} []) F.BREATH_CTRL_tick_source = 0
      ∧ breathState (after .breathArm (breathing {} [])) = 1
      ∧ fld (breathing {} [(F.BREATH_CTRL_tick_source, 0, 1)]) F.BREATH_CTRL_tick_source ≠ 0
      ∧ (after .breathArm (breathing {} [(F.BREATH_CTRL_tick_source, 0, 1)])).breath.streaming = true := by
  decide

theorem test_breath_control :
    breathState (after .breathResume (breathing {} [(F.BREATH_STATUS_state, 0, 4)])) = 1
      ∧ breathState (breathing {} [(F.BREATH_STATUS_state, 0, 3)]) = 3
      ∧ (after .breathCease (breathing { streaming := true } [(F.BREATH_CTRL_tick_source, 0, 1)])).breath.ending = true
      ∧ breathState (breathing {} [(F.BREATH_STATUS_state, 0, 2)]) = 2
      ∧ isQueen (breathing {} [(F.GROUP_STATUS_role, 0, 1)]) = true
      ∧ fld (after (.tickSourceWrite 2) (breathing {} [(F.GROUP_STATUS_role, 0, 1)])) F.BREATH_CTRL_tick_source = 2 := by
  decide


/-! ## Memory -/

/-- The granule of an address is filled. -/
def filledAt (a : Nat) (fs : List (Fld × Nat × Nat)) : State := { live fs with filled := [(granuleOf a, true)] }

theorem test_memory_read :
    offline (filledAt (nearBase - 64) []) (nearBase - 64) = false ∧ isMemory (nearBase - 64) = true ∧ FarAt (nearBase - 64) 3
      ∧ marked (filledAt (nearBase - 64) []) ((nearBase - 64) / 64) = false ∧ dirFull (filledAt (nearBase - 64) []) (nearBase - 64) = false
      ∧ SMap.get false (filledAt (nearBase - 64) []).filled (granuleOf (nearBase - 64)) = true
      ∧ after (.memoryRead (nearBase - 64) 0 .none) (live []) = live []
      ∧ fld (after (.memoryRead (nearBase - 64) 0 .corrected) (filledAt (nearBase - 64) [])) F.MEM_ECC_FAR_corrected 3 = 1
      ∧ SMap.get false (live []).filled (granuleOf (nearBase - 64)) = false
      ∧ after (.memoryRead (nearBase - 64) 0 .uncorrectable) (live []) = live []
      ∧ offline (live [(F.RL_HIVE_h_state, 3, 2)]) (nearBase - 64) = true := by
  decide

theorem test_memory_write :
    offline (live []) (nearBase + 63) = false ∧ isMemory (nearBase + 63) = true ∧ (nearBase + 63) % 64 + [255].length ≤ 64
      ∧ (∀ b ∈ [255], b < 256)
      ∧ dirFull (live []) (nearBase + 63) = false ∧ byteAt (after (.memoryWrite (nearBase + 63) 0 [255] true .none) (live [])) (nearBase + 63) = 255
      ∧ marked (after (.memoryWrite (nearBase + 63) 0 [255] true .none) (live [])) (nearBase / 64) = true
      ∧ offline (live [(F.RL_HIVE_h_state, 0, 2)]) (nearBase + 63) = true
      ∧ isMemory (combBase + 64 * combBytes) = false
      ∧ (after (.memoryWrite (combBase + 64 * combBytes) 0 [255] true .none) (live [])).mem = [] := by
  decide

def chansUp : State := live [(F.MEM_STATUS_far_ready, 3, 1), (F.MEM_CTRL_retrain_guard, 3, 0)]

theorem test_channels :
    chanRuns chansUp 31 = true ∧ fld chansUp F.MEM_STATUS_chan_retraining 3 = 0
      ∧ fld chansUp F.MEM_CTRL_retrain_guard 3 = 0
      ∧ (chanS (after (.eyeTrack 31 [7]) chansUp) 31).track = [7]
      ∧ fld (after (.channelRetrain 31) chansUp) F.MEM_STATUS_chan_retraining 3 = 128
      ∧ fld (live [(F.MEM_STATUS_chan_retraining, 3, 128)]) F.MEM_STATUS_chan_retraining 3 = 2 ^ (31 % 8)
      ∧ fld (after (.channelRetrainDone 31 255) (live [(F.MEM_STATUS_chan_retraining, 3, 128)])) F.MEM_CHAN_j_eye_width 31 = 255
      ∧ fld (after (.deviceTempRead 31 86 0) (live [])) F.MEM_STATUS_chan_hot 3 = 128 := by
  decide

theorem test_scrub :
    FarAt 0 0 ∧ offline (filledAt 0 [(F.MEM_CTRL_scrub_en, 0, 1)]) 0 = false
      ∧ fld (filledAt 0 [(F.MEM_CTRL_scrub_en, 0, 1)]) F.MEM_CTRL_scrub_en 0 = 1
      ∧ fld (filledAt 0 [(F.MEM_CTRL_scrub_en, 0, 1)]) F.MEM_STATUS_self_refresh 0 = 0
      ∧ SMap.get false (filledAt 0 [(F.MEM_CTRL_scrub_en, 0, 1)]).filled (granuleOf 0) = true
      ∧ fld (after (.patrolScrub 0 .corrected) (filledAt 0 [(F.MEM_CTRL_scrub_en, 0, 1)])) F.MEM_ECC_FAR_corrected 0 = 1 := by
  decide

theorem test_near_fill :
    fld (live [(F.MEM_STATUS_near_ready, 3, 1)]) F.MEM_STATUS_self_refresh 3 = 0 ∧ fld (live [(F.MEM_STATUS_near_ready, 3, 1)]) F.MEM_STATUS_near_ready 3 = 1
      ∧ SMap.get false (live [(F.MEM_STATUS_near_ready, 3, 1)]).filled ((8 * 3 + 7) * 2 ^ 18) = false
      ∧ (after (.backgroundFill 3 (some 7) .none) (live [(F.MEM_STATUS_near_ready, 3, 1)])).filled = [(31 * 2 ^ 18, true)] := by
  decide

theorem test_memory_training :
    fld (live [(F.BOOT_STATUS_state, 0, 1)]) F.BOOT_STATUS_state = 1 ∧ (live [(F.BOOT_STATUS_state, 0, 1)]).memUp = false
      ∧ (after .memoryBringup (live [(F.BOOT_STATUS_state, 0, 1)])).memTraining = true ∧ bitsOf (2 ^ 24 - 1) 31 24 = 0
      ∧ hiveState (after (.memoryTrainDone (2 ^ 24 - 1) []) { live [(F.BOOT_STOP_hive_en, 0, 15)] with memTraining := true }) 3 = 0
      ∧ hiveState (after (.memoryTrainDone (2 ^ 24 - 1) []) { live [(F.BOOT_STOP_hive_en, 0, 7)] with memTraining := true }) 3 = 7 := by
  decide

/-! ## The bias loop -/

/-- The loop on, windows of one breath, updates one breath behind, one router of two experts at the end of the table. -/
def biasState (x : PairS) (fs : List (Fld × Nat × Nat)) : State :=
  unit 5 x ([(F.ROUTE_CTRL_loop_en, 0, 1), (F.ROUTE_CTRL_period, 0, 1), (F.ROUTE_CTRL_lag, 0, 1), (F.ROUTER_r_experts, 15, 2),
    (F.ROUTER_r_base, 15, 4094), (F.BREATH_STATUS_state, 0, 2), (F.BREATH_SCHED_sched_breath, 0, 2), (F.ROUTE_LOOP_gamma, 0, 0x3F800000),
    (F.ROUTE_LOOP_bias_max, 0, 0x40000000)] ++ fs)

theorem test_bias_window :
    fld (biasState {} []) F.ROUTE_CTRL_loop_en = 1 ∧ (biasState {} []).winClosed = []
      ∧ tickReached (biasState {} []) ((0 + 1) * fld (biasState {} []) F.ROUTE_CTRL_period) = true
      ∧ (after .biasWindowClose (biasState {} [])).winClosed = [(0, true)]
      ∧ (biasState {} []).winNext ≤ 0 ∧ (biasState {} []).winTotals = []
      ∧ Arrives { aux := [16, 0, 4095, 9], src := 65535, age := 999999 } (biasState {} [])
      ∧ (after (.windowTotalsReceive { aux := [16, 0, 4095, 9], src := 65535 }) (biasState {} [])).winTotals = [(65535, [(4095, 9)])] :=
  ⟨by decide, by decide, by decide, by decide, by decide, by decide, arrives_of (by decide), by decide⟩

theorem test_bias_update :
    tickReached (biasState {} []) ((0 + 1) * fld (biasState {} []) F.ROUTE_CTRL_period + fld (biasState {} []) F.ROUTE_CTRL_lag) = true
      ∧ windowLate (biasState {} []) 0 = false ∧ scopePeers (biasState {} []) = [] ∧ (biasState {} []).biasHost = []
      ∧ routers (biasState {} []) = [15] ∧ 1 < routerN (biasState {} []) 15
      ∧ routerBase (biasState {} []) 15 + routerN (biasState {} []) 15 ≤ 4096
      ∧ windowLate (biasState { inSlice := true } []) 0 = true
      ∧ fld (after .biasUpdate { biasState { inSlice := true } [] with winClosed := [(0, false)] }) F.ROUTE_EVENTS_update_lost = 1
      ∧ biasOf (after .biasShadowApply { live [] with biasShadow := [(4095, 2 ^ 32 + 1)] }) 4095 = 1 := by
  decide

/-- A load above its share lowers the bias by gamma, one below raises it, to the largest at most. -/
theorem test_bias_rule :
    newBias (biasState {} []) 2 12 9 0 = some 0xBF800000 ∧ newBias (biasState {} []) 2 12 3 0x40000000 = some 0x40000000
      ∧ newBias (biasState {} []) 2 12 6 0 = none := by
  decide

/-! ## The link ports -/

/-- Port 8 UP with the unit x. -/
def linked (x : PortS) (fs : List (Fld × Nat × Nat)) : State :=
  { live ((F.PORT_STATUS_state, 8, 2) :: fs) with ports := [(8, x)] }

/-- A flit of number 4095 with no packet in it, then its CRC. -/
def flitBody : List Nat := natLe 4 (4095 * 2 ^ 18) ++ List.replicate 248 0
def flit4095 : List Nat := flitBody ++ natLe 4 (crc32 flitBody)
def unacked : List (Nat × List Nat) := [(6, List.replicate 248 0), (5, List.replicate 248 0)]

set_option maxRecDepth 100000 in
theorem test_flits :
    GoodFlit flit4095 4095 ∧ portState (linked { rxNext := 4095 } []) 8 = 2
      ∧ (portS (after (.dataFlitReceive 8 flit4095 2 false 0 0 0) (linked { rxNext := 4095, discarding := true } [])) 8).rxNext = 0
      ∧ crc32 (flitBody.take 252) ≠ leNat (flitBody.drop 252)
      ∧ (portS (linked { rxNext := 4095 } []) 8).discarding = false
      ∧ fld (after (.dataFlitReceive 8 (flitBody ++ [0, 0, 0, 0]) 2 false 0 0 0) (linked {} [])) F.PORT_EVENTS_crc 8 = 1 :=
  ⟨⟨by decide, by decide, by decide, by decide, by decide⟩, by decide, by decide, by decide, by decide, by decide⟩

/-- A CONTROL flit with one stretch request of part 1 for tick 2, and an IDLE flit that acknowledges up to number 5. -/
def controlFlit : List Nat :=
  natLe 4 (2 ^ 30) ++ controlBody 2 (stretchBody 1 2) ++ natLe 4 (crc32 (natLe 4 (2 ^ 30) ++ controlBody 2 (stretchBody 1 2)))
def ackBody : List Nat := natLe 4 (2 * 2 ^ 30 + 5 * 2 ^ 6 + 32) ++ List.replicate 248 0
def ackFlit : List Nat := ackBody ++ natLe 4 (crc32 ackBody)

set_option maxRecDepth 100000 in
theorem test_control_flit :
    controlFlit.length = 256 ∧ crc32 (controlFlit.take 252) = leNat (controlFlit.drop 252) ∧ flitKind controlFlit = 1
      ∧ controlClean controlFlit = true ∧ bitsOf (leNat (controlFlit.take 4)) 5 0 = 0 ∧ slotOf controlFlit 0 = (2, stretchBody 1 2)
      ∧ (∀ j < 13, 0 < j → (slotOf controlFlit j).1 = 0) ∧ crc16Ok (stretchBody 1 2) = true := by
  decide

set_option maxRecDepth 100000 in
theorem test_idle_flit :
    ackFlit.length = 256 ∧ crc32 (ackFlit.take 252) = leNat (ackFlit.drop 252) ∧ flitKind ackFlit = 2
      ∧ bitsOf (leNat (ackFlit.take 4)) 5 0 = 32 ∧ (linked { unacked := unacked } []).hubHeld = []
      ∧ (portS (after (.dataFlitReceive 8 ackFlit 0 false 0 0 0) (linked { unacked := unacked } [])) 8).unacked.length = 1 := by
  decide

theorem test_naks :
    portState (linked { unacked := unacked } []) 8 = 2 ∧ (portS (linked { unacked := unacked } []) 8).unacked ≠ []
      ∧ (∀ f ∈ (portS (linked { unacked := unacked } []) 8).unacked, seqUpTo f.1 4 = false)
      ∧ (portS (linked { unacked := unacked, resends := 6 } []) 8).resends < 7 ∧ (linked {} []).hubHeld = []
      ∧ (after (.nakReceive 8 4) (linked { unacked := unacked, resends := 6 } [])).out.length = 2
      ∧ portState (after (.nakReceive 8 4) (linked { unacked := unacked, resends := 7 } [])) 8 = 3
      ∧ portState (after (.replayTimeout 8) (linked { unacked := unacked } [])) 8 = 3
      ∧ portState (after (.portHang 8) (linked {} [])) 8 = 3 := by
  decide

theorem test_lanes :
    fld (after (.eqAdapt 8 7 255 1 true none) (live [])) F.PORT_LANE_k_snr 71 = 255 ∧ crc16Ok (withCrc16 0) = true
      ∧ after (.eqReceive 8 4 (withCrc16 0)) (live []) = live [] ∧ after (.eqReceive 8 0 1) (live []) = live []
      ∧ (portS (after (.eqReceive 8 5 (withCrc16 0)) (live [])) 8).eqSteps = [0]
      ∧ (portS (linked {} []) 8).eqAt = 0 ∧ (after (.eqAdapt 8 7 255 1 true (some 9)) (linked {} [])).out.length = 2 ∧ crc16Ok (withCrc16 0 + 2 ^ 64) = false
      ∧ fld (after (.eqReceive 8 6 (withCrc16 0)) (live [])) F.PORT_OSET_bad 8 = 1
      ∧ fld (linked {} [(F.PORT_LANE_k_snr, 71, 0), (F.PORT_CTRL_snr_min, 8, 1)]) F.PORT_LANE_k_snr 71
        < fld (linked {} [(F.PORT_LANE_k_snr, 71, 0), (F.PORT_CTRL_snr_min, 8, 1)]) F.PORT_CTRL_snr_min 8
      ∧ portState (after (.laneFail 8 7) (linked {} [(F.PORT_LANE_k_snr, 71, 0), (F.PORT_CTRL_snr_min, 8, 1)])) 8 = 3
      ∧ fld (linked {} [(F.PORT_LANE_k_cdr_lock, 71, 0)]) F.PORT_LANE_k_cdr_lock 71 = 0 := by
  decide

/-- Port 7 in the state st, with the partner x. -/
def training (st : Nat) (x : PortS) (fs : List (Fld × Nat × Nat)) : State :=
  { live ((F.PORT_STATUS_state, 7, st) :: fs) with ports := [(7, x)] }

theorem test_training :
    portState (training 3 { unacked := unacked } []) 7 = 3 ∧ keptWidth (training 3 { unacked := unacked } []) 7 ≠ 1
      ∧ keptWidth (training 3 { unacked := unacked } []) 7 ≠ 2 ∧ (training 3 {} []).hubHeld = []
      ∧ fld (training 3 { unacked := unacked } []) F.PORT_CTRL_fec 7 = 0
      ∧ (after (.retrainEnd 7 255 0) (training 3 { unacked := unacked } [])).out.length = 2
      ∧ fld (after (.retrainEnd 7 255 1) (training 3 { unacked := unacked } [])) F.PORT_EVENTS_fec_mismatch 7 = 1
      ∧ portState (after (.retrainEnd 7 0 0) (training 3 { unacked := unacked } [])) 7 = 4
      ∧ portState (training 1 {} []) 7 = 1 ∧ portState (after (.portTrainingDone 7 65535 6 0 255) (training 1 {} [])) 7 = 2
      ∧ 15 ≠ 7 ^^^ 1 ∧ portState (after (.portTrainingDone 7 65535 15 0 255) (training 1 {} [])) 7 = 4
      ∧ portState (after (.trainFail 7) (training 1 {} [])) 7 = 4 ∧ portState (after (.portDown 7) (training 1 {} [])) 7 = 0 := by
  decide

theorem test_link_bringup :
    drioreDown (live [(F.BOOT_STATUS_state, 0, 1)]) = false
      ∧ ({ live [(F.BOOT_STATUS_state, 0, 1)] with memUp := true } : State).memUp = true
      ∧ portState (after .linkBringup { live [(F.BOOT_STATUS_state, 0, 1), (F.GROUP_STATUS_role, 0, 1)] with
          boot := { plan := [0, 64, 0, 0] }, memUp := true }) 7 = 1
      ∧ fld (live [(F.PORT_CTRL_mode, 8, 1)]) F.PORT_CTRL_mode 8 = 1
      ∧ portState (after (.retrain 8) (live [(F.PORT_CTRL_mode, 8, 1)])) 8 = 1 ∧ fld (live []) F.PORT_CTRL_mode 8 ≠ 1
      ∧ fld (after (.retrain 8) (live [])) F.LINK_EVENTS_ignored_write = 1 := by
  decide

/-! ## Packets -/

/-- Part 0 of a ring of 16 on axis 3, its ports 6 and 7 UP, and further register fields. -/
def routing (fs : List (Fld × Nat × Nat)) : State :=
  live ([(F.GROUP_RINGS_ring_m1, 0, 0xF000), (F.PORT_STATUS_state, 6, 2), (F.PORT_STATUS_state, 7, 2)] ++ fs)

def farPkt : Packet := { dst := 0xF000, dir := 8, age := 999998, data := [1] }

theorem test_forwarding :
    farPkt.dst ≠ deviceId (routing []) ∧ outlived (routing []) (aged (routing []) 6 1 farPkt) = false
      ∧ routeHop (routing []) (some (6 / 2)) (aged (routing []) 6 1 farPkt) = some (7, { aged (routing []) 6 1 farPkt with vc := true })
      ∧ portRoom (routing []) 7 { aged (routing []) 6 1 farPkt with vc := true } = true ∧ (routing []).hubHeld = []
      ∧ (after (.packetForward 6 1 farPkt) (routing [])).out.length = 2
      ∧ outlived (routing []) (aged (routing []) 6 2 farPkt) = true
      ∧ fld (after (.packetForward 6 2 farPkt) (routing [])) F.LINK_COUNTS_lifetime = 1
      ∧ nextAxis (routing []) 0xF000 = some 3 ∧ portState (routing []) (2 * 3 + b2n (bitAt farPkt.dir 3)) = 2 := by
  decide

/-- A packet at the ends of its fields. -/
def fullPkt : Packet :=
  { ptype := 1, dst := 65535, src := 65535, pair := 63, rsem := 63, cls := 3, age := 2 ^ 20 - 1, hops := 63, dir := 15, rev := 15, tag := 15
    generation := 65535, addr := 2 ^ 44 - 1, poison := 2 ^ 64 - 1, data := List.replicate 64 255 }

theorem test_packet_encoding :
    FitsHeader fullPkt ∧ (packetBytes fullPkt).length = 96 ∧ (decodePacket (packetBytes fullPkt)).map Packet.poison = some (2 ^ 64 - 1) :=
  ⟨⟨by decide, by decide, by decide, by decide, by decide, by decide⟩, by decide, by decide⟩

/-- The first of two packets of a message waits for the other. -/
theorem test_parts :
    PacketRow { parts := 2 } (.ackReceive { parts := 2 }) ∧ (routing []).partsIn = [] ∧ 2 ≤ ({ parts := 2 } : Packet).parts
      ∧ (0 : Nat) ≤ fld (routing []) F.LINK_CTRL_max_hops
      ∧ (after (.ackReceive { parts := 2 }) (routing [])).partsIn = [{ parts := 2 }] :=
  ⟨by simp [PacketRow], by decide, by decide, by decide, by decide⟩

theorem test_lifetime :
    PacketRow { age := 1000000 } (.putReceive { age := 1000000 })
      ∧ fld (after (.putReceive { age := 1000000 }) (routing [])) F.LINK_EVENTS_lifetime = 1
      ∧ fld (routing [(F.LINK_CTRL_max_hops, 0, 7)]) F.LINK_CTRL_max_hops < 8
      ∧ fld (after (.ackReceive { hops := 8 }) (routing [(F.LINK_CTRL_max_hops, 0, 7)])) F.LINK_EVENTS_lifetime = 1
      ∧ (after .spurRouteSwitch { routing [] with spurRoute := 1 }).spurRoute = 2 :=
  ⟨by simp [PacketRow], by decide, by decide, by decide, by decide⟩

/-- A packet for one byte at the end of a sector, its footprint that byte. -/
def bytePkt (kind : Nat) : Packet :=
  { ptype := kind, src := 0xF000, aux := [nearBase + 63, 1], addr := nearBase + 63, data := [255], pieces := [(nearBase + 63, 1)], age := 999999, req := 7 }

theorem test_puts_and_gets :
    Arrives (bytePkt 0) (routing []) ∧ footOk (footOf (bytePkt 0)) = true ∧ (bytePkt 0).rsig = false ∧ (nearBase + 63) % 64 + 1 ≤ 64
      ∧ (∀ b ∈ (bytePkt 0).data, b < 256) ∧ offline (routing []) (nearBase + 63) = false
      ∧ byteAt (after (.putReceive (bytePkt 0)) (routing [])) (nearBase + 63) = 255
      ∧ (after (.putReceive (bytePkt 0)) (routing [])).out.length = 2
      ∧ fld (routing []) F.CTR_P_SAMPLE_en 63 = 0
      ∧ (after (.getReqReceive (bytePkt 2)) (routing [])).out.length = 2 :=
  ⟨arrives_of (by decide), by decide, by decide, by decide, by decide, by decide, by decide, by decide, by decide, by decide⟩

/-- Pair 63 with one copy of one unit of 64 bytes to near memory, and its request, of a kind. -/
def oneCopy : CopyOp := { unit := 6, dst := nearBase, ext := [], seq := 4, index := 2 ^ 20 - 1 }
def oneReq (kind : Nat) : Request := { id := 7, pair := 63, kind := kind, ref := 4, sent := 3 }
def answering (kind us st : Nat) : State :=
  { unit 63 { copies := [oneCopy] } [(F.SEQ_STATUS_state, 63, st), (F.LINK_TIMEOUT_req_us, 0, 9)] with requests := [oneReq kind], us := us }
def dataPkt : Packet := { ptype := 3, req := 7, data := List.replicate oneCopy.u 9 }

theorem test_copy_answers :
    Arrives dataPkt (answering 1 0 2) ∧ findRequest (answering 1 0 2) dataPkt.req = some (oneReq 1)
      ∧ (pair (answering 1 0 2) (oneReq 1).pair).copies.find? (fun x => x.seq = (oneReq 1).ref) = some oneCopy
      ∧ oneCopy.dstSide (answering 1 0 2) = some (none, nearBase) ∧ oneCopy.units = 1
      ∧ oneCopy.inPlace = false ∧ dataPkt.part = 0 ∧ 0 < oneCopy.u ∧ nearBase % 64 + oneCopy.u ≤ 64
      ∧ dataPkt.data.length = oneCopy.u ∧ (∀ b ∈ dataPkt.data, b < 256) ∧ offline (answering 1 0 2) nearBase = false
      ∧ byteAt (after (.getDataReceive dataPkt) (answering 1 0 2)) nearBase = 9
      ∧ findRequest (answering 0 0 2) 7 = some (oneReq 0) ∧ (after (.ackReceive { req := 7 }) (answering 0 0 2)).requests = []
      ∧ findRequest (answering 0 0 2) 8 = none ∧ fld (after (.ackReceive { req := 8 }) (answering 0 0 2)) F.LINK_COUNTS_stale = 1 :=
  ⟨arrives_of (by decide), by decide, by decide, by decide, by decide, by decide, by decide, by decide, by decide, by decide, by decide, by decide, by decide,
   by decide, by decide, by decide, by decide⟩

theorem test_copy_rejected :
    Arrives { req := 7, aux := [0x1F] } (answering 0 12 2) ∧ ({ req := 7, aux := [0x1F] } : Packet).aux.head? ≠ some 0x20
      ∧ seqState (answering 0 12 2) 63 ≠ 6
      ∧ (pair (answering 0 12 2) 63).copies.find? (fun x => x.seq = (oneReq 0).ref) = some oneCopy
      ∧ (oneReq 0).sent + fld (answering 0 12 2) F.LINK_TIMEOUT_req_us ≤ (answering 0 12 2).us :=
  ⟨arrives_of (by decide), by decide, by decide, by decide, by decide⟩

/-- A queen whose event ring is open. -/
def queening (fs : List (Fld × Nat × Nat)) : State :=
  { routing ([(F.GROUP_STATUS_role, 0, 1), (F.HOST_CTRL_evq_en, 0, 1), (F.HOST_EVQ_BASE_size_log2, 0, 8), (F.BOOT_STATUS_state, 0, 2)] ++ fs)
    with pcieUp := true }

theorem test_event_record :
    Arrives { ptype := 6, data := List.replicate 32 0 } (queening []) ∧ isQueen (queening []) = true
      ∧ recItem { ptype := 6, data := List.replicate 32 0 } ≠ 0x0E41 ∧ recItem { ptype := 6, data := List.replicate 32 0 } ≠ 0x0E42
      ∧ (queening []).heldEvents = [] ∧ ringOpen (queening []) = true
      ∧ fld (after (.eventReceive { ptype := 6, data := List.replicate 32 0 }) (queening [])) F.HOST_EVQ_PTR_tail = 1 :=
  ⟨arrives_of (by decide), by decide, by decide, by decide, by decide, by decide, by decide⟩

/-- A relayed write of one byte by another part's host. -/
def hostPkt : Packet := { ptype := 0x20, cls := 1, aux := [1, 1, 1, 0, 1], addr := nearBase + 63, data := [255], req := 2 }

theorem test_relayed_write :
    Arrives hostPkt (routing []) ∧ hostPkt.dst = deviceId (routing []) ∧ hostPkt.aux = [1, hostPkt.data.length, 1, 0, hostPkt.data.length]
      ∧ inOneMemory (nearBase + 63) hostPkt.data.length = true ∧ (nearBase + 63) % 64 + hostPkt.data.length ≤ 64
      ∧ (∀ b ∈ hostPkt.data, b < 256) ∧ offline (routing []) (nearBase + 63) = false
      ∧ byteAt (after (.hostPacketReceive hostPkt) (routing [])) (nearBase + 63) = 255 :=
  ⟨arrives_of (by decide), by decide, by decide, by decide, by decide, by decide, by decide, by decide⟩

/-! ## Groups -/

/-- A token of the queen at coordinate 1 on the ring of axis 3, from it through its N port, at part 0xF001's P port. -/
def tok (confirm : Bool) : Token :=
  { origin := 1, group := 65535, sender := 1, base := 0, ext := 0xFFFF, ring := 0xFFFF, epoch := 255, port := 7, confirm := confirm }

theorem tokenAt_of {s : State} {b : Bool}
    (h : (s.inService && crc16Ok (tok b).body && decide (tokenOf (tok b).body = tok b) && decide (impliedCoord 6 (tok b) = 0xF001)
      && inBox 0xF001 0 0xFFFF 0xFFFF && !isQueen s) = true) : TokenAt 6 (tok b).body (tok b) 0xF001 s := by
  simp only [Bool.and_eq_true, decide_eq_true_eq, Bool.not_eq_true'] at h
  obtain ⟨⟨⟨⟨⟨h1, h2⟩, h3⟩, h4⟩, h5⟩, h6⟩ := h
  exact ⟨h1, by decide, h2, h3, rfl, h4, h5, h6⟩

/-- Part 0xF001, which has adopted that token and is in the state st. -/
def member (st : Nat) (us : Nat) : State :=
  { routing [(F.GROUP_STATUS_role, 0, 2), (F.GROUP_STATUS_state, 0, st), (F.GROUP_STATUS_queen_id, 0, 1), (F.GROUP_STATUS_epoch, 0, 255),
      (F.GROUP_STATUS_device_id, 0, 0xF001)] with adopted := true, us := us }

theorem test_tokens :
    TokenAt 6 (tok false).body (tok false) 0xF001 (routing []) ∧ groupState (routing []) = 0 ∧ (routing []).groups.confirmed = false
      ∧ TokenAt 6 (tok true).body (tok true) 0xF001 (member 2 0) ∧ groupState (member 2 0) = 2
      ∧ (tok true).origin = fld (member 2 0) F.GROUP_STATUS_queen_id ∧ (tok true).epoch = fld (member 2 0) F.GROUP_STATUS_epoch
      ∧ 0xF001 = deviceId (member 2 0) ∧ groupState (after (.addressReceive 6 (tok true).body) (member 2 0)) = 3 :=
  ⟨tokenAt_of (by decide), by decide, by decide, tokenAt_of (by decide), by decide, by decide, by decide, by decide, by decide⟩

theorem test_epoch_commands :
    groupState (queening []) ≠ 1 ∧ (queening []).groups.takeover = false ∧ groupState (after .enumStart (queening [])) = 1
      ∧ fld (after .enumDemote (queening [(F.GROUP_STATUS_state, 0, 4)])) F.GROUP_STATUS_role = 2
      ∧ fld (member 3 0) F.GROUP_STATUS_role = 2 ∧ (member 3 0).adopted = true ∧ deviceId (after .enumPromote (member 3 0)) = 0xF001
      ∧ isQueen (member 3 0) = false ∧ fld (after .enumStart (member 3 0)) F.ENUM_EVENTS_ignored_write = 1
      ∧ fld (after .enumStart (queening [(F.GROUP_STATUS_state, 0, 1)])) F.ENUM_EVENTS_ignored_write = 1 := by
  decide

/-- The record of a JOIN of part 0x0001 with serial 5, and of a conflict. -/
def recPkt (item d : Nat) : Packet := { ptype := 6, src := 1, data := natLe 8 (item * 2 ^ 16) ++ List.replicate 16 0 ++ natLe 8 d }

/-- A CONFIRMED queen of a box of 16 by 16 with a roster. -/
def joined (roster : SMap Nat) : State :=
  { queening [(F.GROUP_STATUS_state, 0, 3), (F.GROUP_CFG_box_ext_m1, 0, 0xF00F), (F.GROUP_RINGS_ring_m1, 0, 0xF00F)] with
    groups := { roster := roster } }

theorem test_joins :
    Arrives (recPkt 0x0E41 5) (queening [(F.GROUP_STATUS_state, 0, 1), (F.GROUP_CFG_box_ext_m1, 0, 0xF00F), (F.GROUP_RINGS_ring_m1, 0, 0xF00F)])
      ∧ drioreDown (queening []) = false ∧ recItem (recPkt 0x0E41 5) = 0x0E41
      ∧ inBox 1 0 0xF00F 0xF00F = true ∧ SMap.get 0 (queening []).groups.roster 1 = 0
      ∧ (after (.joinReceive (recPkt 0x0E41 5))
          (queening [(F.GROUP_STATUS_state, 0, 1), (F.GROUP_CFG_box_ext_m1, 0, 0xF00F), (F.GROUP_RINGS_ring_m1, 0, 0xF00F)])).groups.roster = [(1, 6)]
      ∧ Arrives (recPkt 0x0E41 5) (joined [(1, 9)])
      ∧ groupState (joined [(1, 9)]) ≠ 0 ∧ 9 % 2 ^ 65 ≠ recData (recPkt 0x0E41 5) + 1
      ∧ SMap.get 0 (joined [(1, 9)]).groups.roster 1 = 9
      ∧ Arrives (recPkt 0x0E42 4) (queening []) ∧ recItem (recPkt 0x0E42 4) = 0x0E42
      ∧ fld (after (.conflictReceive (recPkt 0x0E42 4)) (queening [])) F.ENUM_CONFLICT_code = 4 :=
  ⟨arrives_of (by decide), by decide, by decide, by decide, by decide, by decide, arrives_of (by decide), by decide, by decide, by decide,
   arrives_of (by decide), by decide, by decide⟩

/-- A queen alone in its box, its epoch open since 0, its own JOIN in or not. -/
def closing (roster : SMap Nat) : State :=
  { live [(F.GROUP_STATUS_role, 0, 1), (F.GROUP_STATUS_state, 0, 1), (F.BOOT_STATUS_state, 0, 2), (F.GROUP_RINGS_window_ms, 0, 2)] with
    groups := { roster := roster }, us := 2000 }

theorem alone (roster : SMap Nat) : ∀ c ∈ boxPositions (closing roster), c = 0 := by
  intro c hc
  have hr : fld (closing roster) F.GROUP_RINGS_ring_m1 = 0 := (by decide : fld (closing []) F.GROUP_RINGS_ring_m1 = 0)
  simp only [boxPositions, List.mem_filter, List.mem_range, Bool.and_eq_true, List.all_eq_true, decide_eq_true_eq, hr] at hc
  obtain ⟨hc, h, -⟩ := hc
  have h0 := h 0 (by decide)
  have h1 := h 1 (by decide)
  have h2 := h 2 (by decide)
  have h3 := h 3 (by decide)
  simp only [coordOf, bitsOf] at h0 h1 h2 h3
  omega

theorem test_epoch_close :
    groupState (closing [(0, 6)]) = 1 ∧ drioreDown (closing [(0, 6)]) = false
      ∧ (closing [(0, 6)]).groups.started + 1000 * fld (closing [(0, 6)]) F.GROUP_RINGS_window_ms ≤ (closing [(0, 6)]).us
      ∧ (∀ c ∈ boxPositions (closing [(0, 6)]), SMap.get 0 (closing [(0, 6)]).groups.roster c ≠ 0)
      ∧ (closing [(0, 6)]).groups.conflict = false
      ∧ (∃ c ∈ boxPositions (closing []), SMap.get 0 (closing []).groups.roster c = 0) := by
  refine ⟨by decide, by decide, by decide, fun c hc => ?_, by decide, 0, ?_, by decide⟩
  · rw [alone _ c hc]
    decide
  · simp only [boxPositions, List.mem_filter, List.mem_range]
    exact ⟨by decide, by decide⟩

/-- A queen that was CONFIRMED goes on repeating its copy while it floods anew. -/
theorem test_keepalive_orphan :
    ({ queening [(F.GROUP_STATUS_state, 0, 1)] with us := 1000, groups := { copy := some 0 } } : State).groups.kept + 1000 ≤ 1000
      ∧ (after .keepalive { queening [(F.GROUP_STATUS_state, 0, 1)] with us := 1000, groups := { copy := some 0 } }).groups.kept = 1000
      ∧ groupState (member 3 10000) = 3 ∧ (member 3 10000).groups.kept + 10000 ≤ (member 3 10000).us
      ∧ groupState (after .orphan (member 3 10000)) = 5 := by
  decide

/-! ## The host -/

theorem hostOpen_of {s : State}
    (h : (s.inService && s.pcieUp && !s.pcieD3 && isQueen s && decide (fld s F.BOOT_STATUS_state ≠ 3)) = true) : HostOpen s := by
  simp only [Bool.and_eq_true, decide_eq_true_eq, Bool.not_eq_true'] at h
  exact ⟨h.1.1.1.1, h.1.1.1.2, h.1.1.2, h.1.2, h.2⟩

theorem test_endpoint :
    (queening []).pcieUp = true ∧ (after .pcieLinkDown (queening [])).pcieUp = false ∧ (after .flr { queening [] with pcieD3 := true }).pcieD3 = false
      ∧ hasEndpoint { queening [(F.PORT_STATUS_state, 8, 5)] with pcieUp := false } = true
      ∧ (after .pcieLinkUp { queening [(F.PORT_STATUS_state, 8, 5)] with pcieUp := false }).pcieUp = true
      ∧ (after (.pciePowerState true none) (queening [])).pcieD3 = true
      ∧ (after (.pciePowerState false (some (true, false))) (queening [])).host.aer.ecrcGen = true
      ∧ HostOpen (queening []) ∧ (queening []).host.coalesced = none
      ∧ bitAt (msixByte (queening []) 28) 0 = true
      ∧ (after .eventInterrupt { queening [] with newRecords := true }).host.pba = 2
      ∧ bitAt (msixByte { queening [] with host := { msixArea := [(16, 5), (28, 1)] } } 28) 0 = false
      ∧ (after .eventInterrupt { queening [] with newRecords := true, host := { msixArea := [(16, 5), (28, 1)] } }).out = [.msix 1 5 0] :=
  ⟨by decide, by decide, by decide, by decide, by decide, by decide, by decide, hostOpen_of (by decide), by decide, by decide, by decide, by decide,
   by decide⟩

/-- The same with the last window and aperture open on the part's own registers and near memory. -/
def opened : State :=
  queening [(F.HOST_WIN_n_valid, 7, 1), (F.HOST_APT_n_valid, 15, 1), (F.HOST_APT_n_base, 15, nearBase / 2 ^ 32)]

theorem test_windows :
    fldB opened F.HOST_WIN_n_valid 7 = true ∧ fld opened F.HOST_WIN_n_device 7 = deviceId opened
      ∧ (after (.hostWindowAccess 7 0x1FFFFF8 8 false 0 9 {}) opened).out.length = 1 ∧ fldB opened F.HOST_WIN_n_valid 0 = false
      ∧ (after (.hostWindowAccess 0 0 8 false 0 9 {}) opened).out = [.completion 9 (List.replicate 8 0) true]
      ∧ (after (.hostWindowAccess 0 0x20000F8 8 false 0 9 { bar0 := true }) opened).out = [.completion 9 [0, 0, 0, 0, 1, 0, 0, 0] false]
      ∧ (after (.hostWindowAccess 7 0x60 8 true 1 9 { ep := true }) opened).host.aer.poisoned = true := by
  decide

theorem alone_byte : ∀ i < 1, offline opened (nearBase + 63 + i) = false := by
  intro i hi
  obtain rfl : i = 0 := by omega
  exact (by decide : offline opened (nearBase + 63) = false)

theorem test_apertures :
    HostOpen opened ∧ fldB opened F.HOST_APT_n_valid 15 = true ∧ fld opened F.HOST_APT_n_device 15 = deviceId opened
      ∧ nearBase + 63 = fld opened F.HOST_APT_n_base 15 * 2 ^ 32 + 63 ∧ inOneMemory (nearBase + 63) 1 = true
      ∧ poisoned opened (nearBase + 63) 1 = false ∧ (∀ i < 1, offline opened (nearBase + 63 + i) = false)
      ∧ dirFull opened (nearBase + 63) = false
      ∧ (∀ q, tierOf (nearBase + 63) ≠ .comb q)
      ∧ byteAt (after (.hostApertureAccess 15 63 1 true [255] 9 {}) opened) (nearBase + 63) = 255 :=
  ⟨hostOpen_of (by decide), by decide, by decide, by decide, by decide, by decide, alone_byte, by decide,
   fun _ h => (by cases h), by decide⟩

theorem test_read_completion :
    Arrives { ptype := 0x20, aux := [3, b2n true, 1], req := 7, data := [9] } { opened with requests := [oneReq 5] }
      ∧ findRequest { opened with requests := [oneReq 5] } 7 = some (oneReq 5) ∧ (oneReq 5).kind = 5
      ∧ (after (.hostReadCompletion { ptype := 0x20, aux := [3, b2n true, 1], req := 7, data := [9] })
          { opened with requests := [oneReq 5] }).out = [.completion 4 [9] true] :=
  ⟨arrives_of (by decide), by decide, by decide, by decide⟩

/-! ## The mailbox -/

/-- A command of an opcode and payload, and the part that serves it with the fields fs. -/
def mcmd (op : Nat) (payload : List Nat) : MboxCmd := { opcode := op, seq := 65535, payload := payload }
def asked (c : MboxCmd) (fs : List (Fld × Nat × Nat)) : State :=
  { queening fs with host := { queue := [c], accepted := 1, busy := true }, boot := { identified := true } }

theorem commanded_of {op : Nat} {payload : List Nat} {s : State}
    (h : (s.inService && mboxServed s && decide (s.host.queue = [mcmd op payload]) && (turnedAway s (mcmd op payload)).isNone) = true) :
    Commanded (mcmd op payload) op s := by
  simp only [Bool.and_eq_true, decide_eq_true_eq, Option.isNone_iff_eq_none] at h
  exact ⟨h.1.1.1, h.1.1.2, h.1.2, rfl, rfl, rfl, rfl, h.2⟩

/-- A FLASH_WRITE payload. -/
def flashPay (op len off : Nat) (data : List Nat) : List Nat := natLe 8 (op + len * 2 ^ 32) ++ natLe 8 off ++ data

theorem flash_of {op n : Nat} {payload : List Nat} {s : State}
    (h : (s.inService && mboxServed s && decide (s.host.queue = [mcmd 0x0012 payload]) && (turnedAway s (mcmd 0x0012 payload)).isNone
      && decide (flashOpOf (mcmd 0x0012 payload) = op) && s.boot.identified && s.boot.flashOp.isNone && decide (payload.length = n)) = true) :
    FlashCommand (mcmd 0x0012 payload) op n s := by
  simp only [Bool.and_eq_true, decide_eq_true_eq, Option.isNone_iff_eq_none] at h
  obtain ⟨⟨⟨⟨h1, h2⟩, h3⟩, h4⟩, h5⟩ := h
  exact ⟨commanded_of (by simp [h1]), h2, h3, h4, h5⟩

theorem test_flash_commands :
    FlashCommand (mcmd 0x0012 (flashPay 0 65536 65536 [])) 0 16 (asked (mcmd 0x0012 (flashPay 0 65536 65536 [])) [])
      ∧ flashOff (mcmd 0x0012 (flashPay 0 65536 65536 [])) % 65536 = 0 ∧ flashLen (mcmd 0x0012 (flashPay 0 65536 65536 [])) = 65536
      ∧ FlashCommand (mcmd 0x0012 (flashPay 1 256 256 (List.replicate 256 7))) 1 (16 + 256)
          (asked (mcmd 0x0012 (flashPay 1 256 256 (List.replicate 256 7))) [])
      ∧ flashOff (mcmd 0x0012 (flashPay 1 256 256 (List.replicate 256 7))) % 256 = 0
      ∧ flashLen (mcmd 0x0012 (flashPay 1 256 256 (List.replicate 256 7))) = 256
      ∧ FlashCommand (mcmd 0x0012 (flashPay 2 4064 1 [])) 2 16 (asked (mcmd 0x0012 (flashPay 2 4064 1 [])) [])
      ∧ flashLen (mcmd 0x0012 (flashPay 2 4064 1 [])) = 4064 ∧ flashLen (mcmd 0x0012 (flashPay 2 1 1 [])) = 1
      ∧ FlashCommand (mcmd 0x0012 (flashPay 3 0 0 [])) 3 16 (asked (mcmd 0x0012 (flashPay 3 0 0 [])) [])
      ∧ FlashCommand (mcmd 0x0012 (flashPay 4 0 0 [])) 4 16 (asked (mcmd 0x0012 (flashPay 4 0 0 [])) []) :=
  ⟨flash_of (by decide), by decide, by decide, flash_of (by decide), by decide, by decide, flash_of (by decide), by decide, by decide,
   flash_of (by decide), flash_of (by decide)⟩

theorem test_flash_done :
    (asked {} []).inService = true
      ∧ ({ live [] with boot := { flashOp := some { op := 0, off := 65536, bytes := [] } } } : State).boot.flashOp = some { op := 0, off := 65536, bytes := [] }
      ∧ ({ live [] with boot := { flash := [(65536, 3)], flashOp := some { op := 1, off := 65536, bytes := [5] } } } : State).boot.flashOp
        = some { op := 1, off := 65536, bytes := [5] }
      ∧ SMap.get 0xFF (after (.flashOpDone true)
          { live [] with boot := { flash := [(65536, 3)], flashOp := some { op := 1, off := 65536, bytes := [5] } } }).boot.flash 65536 = 5 := by
  decide

theorem test_identify :
    Commanded (mcmd 1 []) 1 (asked (mcmd 1 []) []) ∧ (after .identify (asked (mcmd 1 []) [])).host.queue = []
      ∧ SMap.get 0 (after .identify (asked (mcmd 1 []) [])).host.rsp 40 = 1 :=
  ⟨commanded_of (by decide), by decide, by decide⟩

/-- A stop switch to stop 3 at breath 2^48 − 1, and one that cancels. -/
theorem test_stop_switch :
    Commanded (mcmd 0x10 (natLe 8 3 ++ natLe 8 (2 ^ 48 - 1))) 0x10 (asked (mcmd 0x10 (natLe 8 3 ++ natLe 8 (2 ^ 48 - 1))) [(F.BREATH_STATUS_state, 0, 2)])
      ∧ bitAt (payNum (mcmd 0x10 (natLe 8 3 ++ natLe 8 (2 ^ 48 - 1))) 0 8) 2 = false
      ∧ breathState (asked (mcmd 0x10 (natLe 8 3 ++ natLe 8 (2 ^ 48 - 1))) [(F.BREATH_STATUS_state, 0, 2)]) ≠ 0
      ∧ (after .stopSwitch (asked (mcmd 0x10 (natLe 8 3 ++ natLe 8 (2 ^ 48 - 1))) [(F.BREATH_STATUS_state, 0, 2)])).boot.switch = some (3, 2 ^ 48 - 1)
      ∧ Commanded (mcmd 0x10 (natLe 8 4 ++ natLe 8 0)) 0x10 (asked (mcmd 0x10 (natLe 8 4 ++ natLe 8 0)) [])
      ∧ bitAt (payNum (mcmd 0x10 (natLe 8 4 ++ natLe 8 0)) 0 8) 2 = true :=
  ⟨commanded_of (by decide), by decide, by decide, by decide, commanded_of (by decide), by decide⟩

theorem test_attest :
    Commanded (mcmd 0x11 (List.replicate 40 0)) 0x11 (asked (mcmd 0x11 (List.replicate 40 0)) [])
      ∧ attestOp (mcmd 0x11 (List.replicate 40 0)) = 0
      ∧ Commanded (mcmd 0x11 (natLe 8 1 ++ natLe 4 0 ++ natLe 2 4064)) 0x11 (asked (mcmd 0x11 (natLe 8 1 ++ natLe 4 0 ++ natLe 2 4064)) [])
      ∧ attestOp (mcmd 0x11 (natLe 8 1 ++ natLe 4 0 ++ natLe 2 4064)) = 1
      ∧ (natLe 8 1 ++ natLe 4 0 ++ natLe 2 4064).length = 14 ∧ payNum (mcmd 0x11 (natLe 8 1 ++ natLe 4 0 ++ natLe 2 4064)) 12 2 = 4064 :=
  ⟨commanded_of (by decide), by decide, commanded_of (by decide), by decide, by decide, by decide⟩

/-- A package of one pattern, version 1. -/
def package : List Nat := natLe 4 0x4E525450 ++ natLe 4 1 ++ natLe 2 1 ++ List.replicate 182 0

theorem test_pattern_push :
    Commanded (mcmd 0x20 package) 0x20 (asked (mcmd 0x20 package) []) ∧ payNum (mcmd 0x20 package) 8 2 = 1 ∧ package.length = 128 + 64 * 1
      ∧ payNum (mcmd 0x20 package) 0 4 = 0x4E525450 ∧ (asked (mcmd 0x20 package) []).libVersion < payNum (mcmd 0x20 package) 4 4
      ∧ (after .patternLibraryReplace { live [] with libPending := some (1, []) }).libVersion = 1 :=
  ⟨commanded_of (by decide), by decide, by decide, by decide, by decide, by decide⟩

theorem test_dump_read :
    Commanded (mcmd 0x21 (natLe 8 3 ++ natLe 8 0x1FFFFFFF ++ natLe 8 1)) 0x21 (asked (mcmd 0x21 (natLe 8 3 ++ natLe 8 0x1FFFFFFF ++ natLe 8 1)) [])
      ∧ payNum (mcmd 0x21 (natLe 8 3 ++ natLe 8 0x1FFFFFFF ++ natLe 8 1)) 16 8 = 1
      ∧ payNum (mcmd 0x21 (natLe 8 3 ++ natLe 8 0x1FFFFFFF ++ natLe 8 1)) 8 8 + 1 ≤ 0x20000000
      ∧ payNum (mcmd 0x21 (natLe 8 3 ++ natLe 8 0x1FFFFFFF ++ natLe 8 1)) 0 8 % 4 * hiveBytes + 0x1FE0000000 + 0x1FFFFFFF = nearBase - 1
      ∧ poisoned (asked {} []) (nearBase - 1) 1 = false ∧ offline (asked {} []) (nearBase - 1) = false :=
  ⟨commanded_of (by decide), by decide, by decide, by decide, by decide, by decide⟩

theorem test_hive_reset :
    Commanded (mcmd 0x22 (natLe 8 7)) 0x22 (asked (mcmd 0x22 (natLe 8 7)) [(F.BREATH_STATUS_state, 0, 2)])
      ∧ hiveState (asked (mcmd 0x22 (natLe 8 7)) [(F.BREATH_STATUS_state, 0, 2)]) (payNum (mcmd 0x22 (natLe 8 7)) 0 8 % 4) = 0
      ∧ (after .hiveReset (asked (mcmd 0x22 (natLe 8 7)) [(F.BREATH_STATUS_state, 0, 2)])).pendingFaults = [{ hive := 3, cause := 0x0B, pair := 255 }] :=
  ⟨commanded_of (by decide), by decide, by decide⟩

/-- A notice for pair 63, at the end of its comb, that has made its writes; and one of one write, of BREATH_CTRL, at breath 8. -/
def noted : Notice := { pairs := 2 ^ 63, off := combBytes - 64, sem := 63, deliver := true, bytes := List.replicate 32 9, applied := true }
def noteWrite : Notice := { breath := 8, writes := [(regBase + 0x1FFFFF8, 1)] }

theorem test_notify :
    Commanded (mcmd 0x30 (List.replicate 120 0)) 0x30 (asked (mcmd 0x30 (List.replicate 120 0)) [])
      ∧ noticeBad (noticeOf (mcmd 0x30 (List.replicate 120 0))) = false ∧ (asked (mcmd 0x30 (List.replicate 120 0)) []).host.notices.length < 4
      ∧ (after .notify (asked (mcmd 0x30 (List.replicate 120 0)) [])).host.notices.length = 1
      ∧ guardOpen (queening [(F.BREATH_STATUS_state, 0, 2)]) = true ∧ barsOpen (queening [(F.BREATH_STATUS_state, 0, 2)]) = true
      ∧ noteWrite.breath = comingBreath (queening [(F.BREATH_STATUS_state, 0, 2), (F.BREATH_SCHED_sched_breath, 0, 8)])
      ∧ hiveState (live []) (63 / 16) = 0 ∧ noted.off % 64 = 0 ∧ noted.off < combBytes ∧ semCount (live []) 63 noted.sem ≠ 0xFFFFFFFF
      ∧ semCount (after .notifyDeliver { live [] with host := { notices := [noted] } }) 63 63 = 1 :=
  ⟨commanded_of (by decide), by decide, by decide, by decide, by decide, by decide, by decide, by decide, by decide, by decide, by decide, by decide⟩

theorem test_relays :
    drioreDown (queening []) = false
      ∧ (after (.mailboxRelayTimeout 4) { queening [] with host := { relayed := [(mcmd 1 [], 4, 2, 5)], busy := true }, us := 100002 }).host.relayed = []
      ∧ Arrives { ptype := 0x20, aux := [4, 32], req := 4, data := List.replicate 64 1 }
          { queening [] with host := { relayed := [(mcmd 1 [], 4, 2, 5)] } }
      ∧ SMap.get 0 (after (.relayResponseReceive { ptype := 0x20, aux := [4, 32], req := 4, data := List.replicate 64 1 })
          { queening [] with host := { relayed := [(mcmd 1 [], 4, 2, 5)] } }).host.rsp 31 = 1 :=
  ⟨by decide, by decide, arrives_of (by decide), by decide⟩

/-! ## Power, clocks and heat -/

/-- The power controller x, a stop selected, its loop started, and further register fields. -/
def powered (x : PowerS) (fs : List (Fld × Nat × Nat)) : State :=
  { live ([(F.PCC_CAP_cap, 0, 1000), (F.PCC_VOLT_v_min, 0, 20), (F.PCC_LOOP_hyst_w, 0, 10), (F.PCC_CLOCK_f_max, 0, 70),
      (F.PCC_CLOCK_f_floor, 0, 50), (F.PCC_VOLT_v_request, 0, 99), (F.BOOT_STATUS_state, 0, 2)] ++ fs) with power := { x with started := true } }

theorem test_voltage_loop :
    stopLoaded (powered { v := 21 } []) = true ∧ fld (powered { v := 21 } []) F.PCC_CAP_cap < 1001 ∧ fld (powered { v := 21 } []) F.PCC_VOLT_v_min < (powered { v := 21 } []).power.v
      ∧ (after (.voltageLoop 1001 [] true) (powered { v := 21 } [])).power.v = 20
      ∧ (powered { v := 20 } []).power.v ≤ fld (powered { v := 20 } []) F.PCC_VOLT_v_min
      ∧ fld (powered { v := 20 } []) F.PCC_CLOCK_f_floor < (powered { v := 20 } []).power.ceilPwr
      ∧ (after (.voltageLoop 1001 [] true) (powered { v := 20 } [])).power.ceilPwr = 69
      ∧ 989 + fld (powered { v := 20, ceilPwr := 69 } []) F.PCC_LOOP_hyst_w < fld (powered { v := 20, ceilPwr := 69 } []) F.PCC_CAP_cap
      ∧ (powered { v := 20, ceilPwr := 69 } []).power.ceilPwr < fld (powered { v := 20, ceilPwr := 69 } []) F.PCC_CLOCK_f_max
      ∧ requestOf (powered { v := 20 } []) 20 false ≠ fld (powered { v := 20 } []) F.PCC_VOLT_v_request
      ∧ (after (.voltageLoop 989 [] false) (powered { v := 20, ceilPwr := 69 } [])).power.frozen = some 20
      ∧ fld (after (.voltageLoop 1001 (List.replicate 64 640) true) (powered { v := 21 } [(F.PCC_PAIR_p_age, 63, 31)])) F.PCC_PAIR_p_f_rep 63 = 570
      ∧ fld (after (.avsRetry true) (powered { frozen := some 255 } [])) F.PCC_VOLT_v_request = 255 := by
  decide

theorem test_limits :
    fld (powered {} [(F.PCC_CAP_i_limit, 0, 1600)]) F.PCC_CAP_i_limit < 1601
      ∧ (after (.currentSample 1601) (powered {} [(F.PCC_CAP_i_limit, 0, 1600)])).power.clDuty = 7
      ∧ 16 * 1499 < 15 * fld (powered {} [(F.PCC_CAP_i_limit, 0, 1600)]) F.PCC_CAP_i_limit
      ∧ (after (.currentSample 1499) (powered { clDuty := 7, below := 19 } [(F.PCC_CAP_i_limit, 0, 1600)])).power.clDuty = 8
      ∧ 4 * fld (powered {} [(F.PCC_THERM_t_throttle, 0, 90)]) F.PCC_THERM_t_throttle = 360
      ∧ (after .thermalLoop (powered { hot := 360, ceilTherm := 70 } [(F.PCC_THERM_t_throttle, 0, 90)])).power.ceilTherm = 69
      ∧ (after .thermalLoop (powered { hot := 353, ceilTherm := 60, cool := 9 } [(F.PCC_THERM_t_throttle, 0, 90)])).power.ceilTherm = 60
      ∧ (after .thermalLoop (powered { hot := 352, ceilTherm := 60, cool := 9 } [(F.PCC_THERM_t_throttle, 0, 90)])).power.ceilTherm = 61 := by
  decide

theorem test_brake :
    (powered {} []).power.braked = false ∧ (after .brakeAsserted (powered {} [])).power.braked = true
      ∧ (after .brakeRelease (powered { braked := true } [])).power.ramping = true
      ∧ (after .brakeReleaseStep (powered { ramping := true, brakeDuty := 6 } [])).power.brakeDuty = 7
      ∧ (after .brakeReleaseStep (powered { ramping := true, brakeDuty := 7 } [])).power.ramping = false
      ∧ SMap.get none (powered { ramps := [(3, some 69)] } []).power.ramps 3 = some 69
      ∧ SMap.get none (after (.clockRamp 3) (powered { ramps := [(3, some 68)] } [])).power.ramps 3 = some 69 := by
  decide

theorem test_sensors :
    (List.replicate 70 (some 419)).length = 70 ∧ (∀ k < 70, (sensorS (powered {} []) k).stale < 99)
      ∧ (∀ k < 70, ∃ c < 420, (List.replicate 70 (some 419))[k]? = some (some c))
      ∧ (List.replicate 70 (some 420))[69]? = some (some 420) ∧ 1 ≤ (sensorS (powered { sensors := [(69, { hot := 1 })] } []) 69).hot
      ∧ (∀ k < 70, (sensorS (powered { sensors := [(69, { hot := 1 })] } []) k).stale < 99) := by
  refine ⟨by decide, by decide, fun k hk => ⟨419, by decide, ?_⟩, by decide, by decide, by decide⟩
  rw [List.getElem?_replicate, if_pos hk]

theorem test_ageing_hum :
    fld (after (.ageingMeasure [32]) (powered {} [])) F.PCC_PAIR_p_age 0 = 31
      ∧ (after (.ageingMeasure [1]) (powered { aged := true } [])).power.aged = true
      ∧ fld (powered {} [(F.PCC_CTRL_hum_mode, 0, 1)]) F.PCC_CTRL_hum_mode ≠ 0
      ∧ pairRuns (unit 5 { blocked := .hum 63 1 false } [(F.SEQ_STATUS_state, 5, 2)]) 5 = true
      ∧ (pair (unit 5 { blocked := .hum 63 1 false } [(F.SEQ_STATUS_state, 5, 2)]) 5).blocked = .hum 63 1 false
      ∧ breathState (unit 5 { blocked := .hum 63 1 false } []) ≠ 3 ∧ (unit 5 { blocked := .hum 63 1 false } []).power.humStop = 0
      ∧ (unit 5 { blocked := .hum 63 1 false } []).power.braked = false ∧ (unit 5 { blocked := .hum 63 1 false } []).power.ramping = false
      ∧ fld (after (.telemetryRead (some (5, 65535, false))) (powered {} [])) F.PCC_STATUS_i_core = 65535
      ∧ fld (after (.telemetryRead none) (powered {} [])) F.PCC_EVENTS_tele_lost = 1 := by
  decide

theorem test_energy :
    (powered {} []).power.energyMode = 0 ∧ (after (.energyIntegrate 5 []) (powered {} [])).us = 1 ∧ State.reset.inService = false
      ∧ fld (after .jobTagApply (powered { energyMode := 1, tagDue := some 9 } [(F.PCC_ENERGY_energy_uj, 0, 7)])) F.PCC_JOB_LAST_energy_uj = 7 := by
  decide

/-- Counter 6 of pair 63 counts event 3. -/
def counting : State :=
  powered {} [(F.CTR_GLOBAL_run, 0, 1), (F.CTR_P_CTRL_en, 63, 64), (F.CTR_P_SEL_event, 63, 3 * 2 ^ 48), (F.CTR_P_n_count, 510, 2 ^ 48 - 1)]

theorem test_counts :
    ctrRuns counting 63 = true ∧ bitAt (fld counting F.CTR_P_CTRL_en 63) 6 = true ∧ ctrSel counting 63 6 = 3
      ∧ chained counting 63 6 = false ∧ isTraffic 3 = false
      ∧ fld (after (.energyIntegrate 5 [(63, 3, 2)]) counting) F.CTR_P_n_count 510 = 1 := by
  decide

theorem test_margin_window :
    fld (powered {} [(F.RL_TWIN_length, 0, 1)]) F.RL_TWIN_length ≠ 0
      ∧ fld (powered {} [(F.RL_TWIN_length, 0, 1)]) F.RL_TWIN_start = comingBreath (powered {} [(F.RL_TWIN_length, 0, 1)])
      ∧ (after .testWindowBegin (powered {} [(F.RL_TWIN_length, 0, 1)])).power.window = some 0
      ∧ (after .marginClockApply (powered { window := some 0 } [])).power.clockOn = true
      ∧ 0 + fld (powered { window := some 0 } [(F.RL_TWIN_length, 0, 1), (F.BREATH_SCHED_sched_breath, 0, 1)]) F.RL_TWIN_length
        ≤ comingBreath (powered { window := some 0 } [(F.RL_TWIN_length, 0, 1), (F.BREATH_SCHED_sched_breath, 0, 1)])
      ∧ (after .testWindowEnd (powered { window := some 0 } [(F.RL_TWIN_length, 0, 1), (F.BREATH_SCHED_sched_breath, 0, 1)])).power.window = none := by
  decide

theorem test_clock_losses :
    fld (after .refclkCoreLoss (live [])) F.RL_STATUS_device_fault = 1 ∧ portState (after .refclkLinkLoss (linked {} [])) 8 = 4 := by
  decide

/-! ## The performance counters -/

theorem test_freezes :
    fld (after .freezeNow (live [])) F.CTR_FREEZE_STATUS_pending = 1
      ∧ ({ live [] with counters := { freezeNext := true } } : State).counters.freezeNext = true
      ∧ fld (live [(F.CTR_FREEZE_at, 0, 5), (F.BREATH_SCHED_sched_breath, 0, 5)]) F.CTR_FREEZE_at
        ≤ comingBreath (live [(F.CTR_FREEZE_at, 0, 5), (F.BREATH_SCHED_sched_breath, 0, 5)])
      ∧ comingBreath (live [(F.BREATH_SCHED_sched_breath, 0, 32)])
        % max (live [(F.BREATH_SCHED_sched_breath, 0, 32)]).counters.length 1 = 0 := by
  decide

theorem test_counter_clear :
    fld (after (.counterClear 63 0x880) (live [(F.CTR_P_n_count, 511, 7), (F.CTR_P_SLOT_k_count, 255, 7)])) F.CTR_P_n_count 511 = 0
      ∧ fld (after (.counterClear 63 0x880) (live [(F.CTR_P_n_count, 511, 7), (F.CTR_P_SLOT_k_count, 255, 7)])) F.CTR_P_SLOT_k_count 255 = 0
      ∧ fld (live [(F.CTR_USER_en, 0, 0)]) F.CTR_USER_en = 0 := by
  decide

/-- Selectors: traffic in slots 0 and 1, the last plain event elsewhere. -/
def selectors : Nat := 0x0F0F0F0F0F0F0F20

theorem test_user_alias :
    (∀ j < 8, (bitsOf selectors (8 * j + 7) (8 * j) ≤ 15 ∧ bitsOf selectors (8 * j + 7) (8 * j) ≠ 2)
        ∨ (j % 2 = 0 ∧ isTraffic (bitsOf selectors (8 * j + 7) (8 * j)) = true))
      ∧ fld (live [(F.CTR_USER_en, 0, 1)]) F.CTR_USER_en = 1
      ∧ fld (after (.userAliasWrite 63 0x60 selectors) (live [(F.CTR_USER_en, 0, 1)])) F.CTR_P_SEL_event 63 = selectors
      ∧ fld (after (.userAliasWrite 63 0x68 0xFFFF) (live [(F.CTR_USER_en, 0, 1)])) F.CTR_P_CTRL_en 63 = 0xFFF
      ∧ fld (after (.userAliasWrite 63 0x70 0x800) (live [(F.CTR_USER_en, 0, 1), (F.CTR_P_OVF_ovf, 63, 0xFFF)])) F.CTR_P_OVF_ovf 63 = 0x7FF := by
  decide

/-! ## Faults -/

/-- The hives' unit h with the record y, in the state st. -/
def hived (h st : Nat) (y : HiveS) (fs : List (Fld × Nat × Nat)) : State :=
  { live ([(F.RL_HIVE_h_state, h, st), (F.BREATH_STATUS_state, 0, 2)] ++ fs) with hives := [(h, y)], us := 3000000 }

theorem test_hive_fault :
    ({ hived 3 0 {} [(F.RL_CTRL_dump_en, 0, 0)] with pendingFaults := [{ hive := 3, cause := 10, pair := 63 }] } : State).pendingFaults
        = [{ hive := 3, cause := 10, pair := 63 }]
      ∧ fld (hived 3 0 {} [(F.RL_CTRL_dump_en, 0, 0)]) F.RL_CTRL_dump_en = 0 ∧ fld (hived 3 0 {} [(F.RL_CTRL_dump_en, 0, 1)]) F.RL_CTRL_dump_en = 1
      ∧ (3 + 1) % 4 = 0 ∧ hiveState (hived 3 0 {} []) 0 = 0 ∧ fld (hived 3 0 {} []) F.MEM_STATUS_chan_failed 0 = 0
      ∧ fld (hived 3 0 {} []) F.RL_DUMP_SLOT_g_occupied 0 = 0 := by
  decide

theorem test_quiesce_end :
    (hiveS (hived 3 1 { since := 2998000 } []) 3).since + 2000 ≤ (hived 3 1 { since := 2998000 } []).us
      ∧ hiveState (hived 3 1 { since := 2998000 } []) 3 = 1
      ∧ hiveState (after (.quiesceEnd 3) (hived 3 1 { since := 2998000 } [(F.RL_CTRL_auto_reset, 0, 7)])) 3 = 4
      ∧ bitAt (fld (hived 3 1 { since := 2998000 } [(F.RL_CTRL_auto_reset, 0, 8)]) F.RL_CTRL_auto_reset) 3 = true := by
  decide

theorem no_dump_to : ∀ x, (hiveS (hived 3 1 { since := 2998000 } [(F.RL_CTRL_auto_reset, 0, 8)]) x).dumpTo ≠ some 3 := by
  intro x
  simp only [hiveS, hived, SMap.get]
  repeat' split
  all_goals simp

theorem test_dumps :
    dumping (hived 3 2 { dumpTo := some 0 } []) 3 = true ∧ (hiveS (hived 3 2 { dumpTo := some 0 } []) 3).records = 0
      ∧ SMap.get 0 (hiveS (after (.dumpReadTimeout 3 1 9) (hived 3 2 { dumpTo := some 0 } [])) 3).cuts 1 = 9
      ∧ (hiveS (hived 3 2 { dumpTo := some 0 } []) 3).dumpAt + 1000 * fld (hived 3 2 { dumpTo := some 0 } []) F.RL_DUMP_CFG_budget_ms
        ≤ (hived 3 2 { dumpTo := some 0 } []).us
      ∧ bitAt (fld (hived 3 2 { dumpTo := some 0 } [(F.RL_CTRL_auto_reset, 0, 7)]) F.RL_CTRL_auto_reset) 3 = false
      ∧ fld (hived 3 2 { dumpTo := some 0 } []) F.MEM_STATUS_chan_failed 0 = 0
      ∧ (∀ x < 4, x ≠ 3 → hiveState (hived 3 2 { dumpTo := some 0 } []) x = 0 ∧ (hiveS (hived 3 2 { dumpTo := some 0 } []) x).waitReset = false) := by
  decide

theorem test_hive_release :
    fld (hived 3 3 {} [(F.MEM_STATUS_self_refresh, 3, 1)]) F.MEM_STATUS_self_refresh 3 = 1
      ∧ (hiveS (hived 3 3 {} []) 3).resetAt + 1000 ≤ (hived 3 3 {} []).us
      ∧ (after (.hiveRelease 3) (hived 3 3 {} [(F.MEM_STATUS_self_refresh, 3, 1)])).hives.length = 1
      ∧ hiveState (after (.hiveRelease 3) (hived 3 3 { storm := true } [(F.MEM_STATUS_self_refresh, 3, 1)])) 3 = 5
      ∧ hiveState (after (.hiveReady 3) (hived 3 3 { released := true, on := true } [])) 3 = 0
      ∧ fld (after (.dumpSlotRelease 3) (hived 3 3 {} [(F.RL_DUMP_SLOT_g_occupied, 3, 1)])) F.RL_DUMP_SLOT_g_occupied 3 = 0 := by
  decide

theorem test_watchdog :
    seqState (unit 63 { inSlice := true } [(F.SEQ_STATUS_state, 63, 2)]) 63 = 2
      ∧ (pair (unit 63 { inSlice := true } [(F.SEQ_STATUS_state, 63, 2)]) 63).inSlice = true
      ∧ breathState (unit 63 { inSlice := true } [(F.SEQ_STATUS_state, 63, 2)]) ≠ 3
      ∧ hiveState (unit 63 { inSlice := true } [(F.SEQ_STATUS_state, 63, 2)]) (63 / 16) = 0 := by
  decide

/-- Driore serving, its last resets at the times ts. -/
def serving (ts : List Nat) : State :=
  { live [(F.BOOT_STATUS_state, 0, 2), (F.RL_CTRL_hb_timeout_ms, 0, 3)] with mp := { resets := ts }, us := 3600000000 }

theorem no_dumps (ts : List Nat) : ∀ h, dumping (serving ts) h = false := by
  intro h
  simp only [dumping, Bool.and_eq_false_iff, decide_eq_false_iff_not]
  refine .inl (.inl ?_)
  rcases Nat.lt_or_ge h 4 with h4 | h4
  · exact (by decide : ∀ h < 4, ¬hiveState (serving []) h = hsDump) h h4
  · show ¬fld (sets _ _) F.RL_HIVE_h_state h = hsDump
    simp only [sets, List.cons_append, List.nil_append, List.foldl]
    rw [fld_setFld_ne _ _ (.inl (by decide)), fld_setFld_ne _ _ (.inl (by decide)), fld_setFld_ne _ _ (.inr (by omega)),
      fld_setFld_ne _ _ (.inr (by omega)), fld_setFld_ne _ _ (.inr (by omega)), fld_setFld_ne _ _ (.inr (by omega))]
    exact (by decide : ¬getField F.RL_HIVE_h_state (Reg.resetValue .RL_HIVE_h 0) = hsDump)

theorem test_management :
    drioreDown (serving []) = false ∧ (after .heartbeat (serving [])).mp.beat = 3600000000 ∧ mpResetsHour (serving [1, 2]) < 3
      ∧ (serving []).mp.beat + 1000 * fld (serving []) F.RL_CTRL_hb_timeout_ms ≤ (serving []).us
      ∧ 3 ≤ mpResetsHour (serving [1, 2, 3]) ∧ mpResetsHour (serving [0, 2, 3]) < 3
      ∧ ({ serving [] with mp := { down := true } } : State).mp.down = true ∧ (serving []).mpHeldReset = false
      ∧ (after (.mpRestart true) { serving [] with mp := { down := true } }).mp.down = false
      ∧ (after (.mpRestart false) { serving [] with mp := { down := true } }).mpHeldReset = true := by
  decide

/-- Every dump has records. -/
theorem test_dump_plan (s : State) (h : Nat) : 0 < (dumpPlan s h).length := by
  simp only [dumpPlan, List.append_assoc, List.length_append, List.length_singleton]
  omega

/-! ## Boot and pins -/

theorem test_boot_verify :
    fld (live []) F.BOOT_STATUS_state = 0 ∧ ({ live [] with us := 1500000 } : State).boot.released + 1500000 ≤ 1500000
      ∧ fld (after .bootTimeLimit { live [] with us := 1500000 }) F.BOOT_STATUS_fail_code = 11
      ∧ fld (after (.bootVerify false true true) (live [])) F.BOOT_STATUS_fail_code = 12
      ∧ fld (after (.bootVerify true false true) (live [])) F.BOOT_STATUS_fail_code = 1 := by
  decide

/-- Every fault an image can have but a bad signature leaves the part in RECOVERY: an empty flash holds none. -/
theorem test_boot_empty_flash : imageCode false true (live []) ≠ 0 := by decide

theorem test_boot_complete :
    fld (live [(F.BOOT_STATUS_state, 0, 1), (F.GROUP_STATUS_state, 0, 3), (F.BOOT_STOP_hive_en, 0, 8)]) F.BOOT_STATUS_boot_lock = 0
      ∧ drioreDown (live [(F.BOOT_STATUS_state, 0, 1), (F.GROUP_STATUS_state, 0, 3), (F.BOOT_STOP_hive_en, 0, 8)]) = false
      ∧ bitAt (fld (live [(F.BOOT_STATUS_state, 0, 1), (F.GROUP_STATUS_state, 0, 3), (F.BOOT_STOP_hive_en, 0, 8)]) F.BOOT_STOP_hive_en) 3 = true
      ∧ (after (.bootComplete true 0)
          { live [(F.BOOT_STATUS_state, 0, 1), (F.GROUP_STATUS_state, 0, 3), (F.BOOT_STOP_hive_en, 0, 8)] with boot := { enrol := some 9 } }).boot.owner = 9 := by
  decide

theorem test_stop_switch_apply :
    ({ live [] with boot := { switch := some (3, 8) } } : State).boot.switch = some (3, 8) ∧ breathState (live []) = 0
      ∧ (∀ h < 4, hiveQuiesced (live []) h = true) := by
  decide

theorem test_hive_enable :
    (hiveS (hived 3 0 { enable := some false } []) 3).enable = some false ∧ hiveState (hived 3 0 { enable := some false } []) 3 = 0
      ∧ hiveState (after (.hiveEnablePending 3) (hived 3 0 { enable := some false } [])) 3 = 7
      ∧ hiveState (after (.hiveEnablePending 3) (hived 3 7 { enable := some true } [])) 3 = 0 := by
  decide

/-- The part in full device reset, its pins' levels and times. -/
def held (b : BootS) (us : Nat) : State := { State.reset with boot := b, us := us }

theorem test_pins :
    (held {} 0).boot.pwrOk = false ∧ (after .pwrOkRise (held { resetLow := false } 5)).boot.due = some 1005
      ∧ (held { pwrOk := true } 10).boot.resetLow = true ∧ (held { pwrOk := true } 10).boot.lowSince + 10 ≤ (held { pwrOk := true } 10).us
      ∧ (after (.resetNRelease true 3 false) (held { pwrOk := true } 10)).inService = true
      ∧ (held { pwrOk := true } 9).us < (held { pwrOk := true } 9).boot.lowSince + 10
      ∧ (after (.resetNRelease true 3 false) (held { pwrOk := true } 9)).boot.due = some 10
      ∧ (after (.releaseAfterPwrOk true 3 false) (held { pwrOk := true, resetLow := false, due := some 10 } 10)).inService = true
      ∧ (after .resetNAssert (live [])).inService = false := by
  decide

/-! ## The register space -/

theorem hostMay_of {s : State} (h : (s.inService && s.pcieUp && !s.pcieD3) = true) : HostMay s := by
  simp only [Bool.and_eq_true, Bool.not_eq_true'] at h
  exact ⟨h.1.1, h.1.2, h.2⟩

theorem test_register_writes :
    HostMay (queening []) ∧ regWord (after (.registerWrite 0xE138 8 (2 ^ 64 - 1) 0) (queening [])) 0xE138 = 2 ^ 63 + 65535
      ∧ fld (after (.registerWrite 0x50010 8 1 0) (queening [])) F.RL_EVENTS_hive_fault = 0
      ∧ fld (queening [(F.BOOT_STATUS_boot_lock, 0, 1)]) F.BOOT_STATUS_boot_lock = 1
      ∧ bitsOf 0x40 7 6 ≠ fld (queening [(F.BOOT_STATUS_boot_lock, 0, 1)]) F.PORT_CTRL_mode 7
      ∧ fld (after (.registerWrite 0x31700 4 0x40 0) (queening [(F.BOOT_STATUS_boot_lock, 0, 1)])) F.LINK_EVENTS_ignored_write = 1 :=
  ⟨hostMay_of (by decide), by decide, by decide, by decide, by decide, by decide⟩

theorem test_register_ranges :
    (1601 % 2048 < 200 ∨ 1600 < 1601 % 2048) ∧ 1601 % 2048 ≠ fld (queening []) F.PCC_CAP_cap
      ∧ fld (after (.registerWrite 0x20018 8 1601 0) (queening [])) F.PCC_EVENTS_ignored_write = 1
      ∧ bitsOf (200 + 2400 * 2 ^ 32) 43 32 = 2400
      ∧ fld (after (.registerWrite 0x20018 8 (200 + 2400 * 2 ^ 32) 0) (queening [])) F.PCC_CAP_i_limit = 2400
      ∧ bitsOf (100 * 2 ^ 32) 47 40 < bitsOf (100 * 2 ^ 32) 39 32 ∧ bitsOf (100 * 2 ^ 32) 39 32 ≤ 100
      ∧ bitsOf (100 * 2 ^ 32) 39 32 ≠ fld (queening []) F.PCC_VOLT_v_min := by
  decide

theorem test_register_waits :
    regWord (after (.registerWrite 0xC008 8 (2 ^ 63 + 1) 0) (queening [])) 0xC008 = 2 ^ 63 + 1
      ∧ reg (after (.registerWrite 0xC008 8 1 0) (queening [])) .GEX_EXCLUDE 0 = reg (queening []) .GEX_EXCLUDE 0
      ∧ regWord (after (.registerWrite (0x4000 + 8 * 2047) 8 (2 ^ 64 - 2) 0) (queening [])) (0x4000 + 8 * 2047) = 2 ^ 64 - 2 := by
  decide

theorem test_register_wholes :
    fld (queening []) F.ROUTE_CTRL_loop_en = 0 ∧ bitsOf (4095 * 2 ^ 16 + 2) 12 0 = 2 ∧ 4096 < bitsOf (4095 * 2 ^ 16 + 2) 27 16 + 2
      ∧ 2 ≠ fld (queening []) F.ROUTER_r_experts 15
      ∧ fld (after (.registerWrite (0x900 + 8 * 15) 8 (4095 * 2 ^ 16 + 2) 0) (queening [])) F.ROUTE_EVENTS_ignored_write = 1
      ∧ fld (after (.registerWrite (0x900 + 8 * 15) 8 (4095 * 2 ^ 16 + 2) 0) (queening [])) F.ROUTER_r_experts 15 = fld (queening []) F.ROUTER_r_experts 15
      ∧ groupOpen (queening []) = true ∧ (queening []).groups.confirmed = false ∧ fld (queening []) F.BOOT_STATUS_boot_lock = 0
      ∧ boxOk 2 0 (fld (queening []) F.GROUP_RINGS_ring_m1) 0 = false ∧ 2 * 2 ^ 16 ≠ (reg (queening []) .GROUP_CFG 0).toNat
      ∧ fld (after (.registerWrite 0xD000 8 (2 * 2 ^ 16) 0) (queening [])) F.ENUM_EVENTS_ignored_write = 1 := by
  decide

theorem test_register_commands :
    seqState (queening [(F.SEQ_STATUS_state, 63, 3)]) 63 = 3
      ∧ seqState (after (.registerWrite (pairOff 63 0x30) 8 1 0) (queening [(F.SEQ_STATUS_state, 63, 3)])) 63 = 4
      ∧ 7 ∈ [3, 5, 6, 7] ∧ fld (after (.registerWrite (pairOff 63 0x30) 8 7 0) (queening [])) F.SEQ_EVENTS_ignored_write 63 = 1 := by
  decide

theorem test_register_holes :
    regAt 0x40FF8 = none ∧ 0x40FF8 < 0x41000 ∧ 0x40FF8 % 8 = 0 ∧ after (.registerWrite 0x40FF8 8 1 0) (queening []) = queening []
      ∧ drioreDown (queening []) = false
      ∧ (bufferCmd (queening [])).remote = none
      ∧ (turnedAway { queening [] with host := { cmd := [(0, 1)] } } (bufferCmd { queening [] with host := { cmd := [(0, 1)] } })) = none
      ∧ (after (.registerWrite 0x2012000 8 1 0) { queening [] with host := { cmd := [(0, 1)] } }).host.busy = true
      ∧ fld (after (.registerWrite 0x2012000 8 1 0) { queening [] with host := { busy := true } }) F.HOST_EVENTS_mbox_busy = 1 := by
  decide

/-! ## The board -/

/-- Released at 0, a millisecond ago. -/
def boarded (fs : List (Fld × Nat × Nat)) : State := { live fs with us := 1000, boot := { resetLow := false } }

theorem onI3c (fs : List (Fld × Nat × Nat)) (h : (boarded fs).inService = true) : OnI3c (boarded fs) := ⟨h, Nat.le_refl 1000⟩

theorem test_i3c :
    OnI3c (boarded []) ∧ (after (.i3cRead (regBase + 0x1FFFFF8)) (boarded [])).pins.i3cResult = 0 :: List.replicate 8 0
      ∧ ({ boarded [] with us := 999 } : State).us < ({ boarded [] with us := 999 } : State).boot.released + 1000
      ∧ (after (.i3cWrite (regBase + 0x20018) 200) (boarded [])).pins.i3cResult = [0]
      ∧ (after (.i3cWrite (regBase + 8) 200) (boarded [])).pins.i3cResult = [1]
      ∧ (after (.i3cAddressAssign 127) (boarded [])).pins.i3cAddr = some 127 :=
  ⟨onI3c [] (by decide), by decide, by decide, by decide, by decide, by decide⟩

theorem test_tap :
    (after .idcode State.reset).out = [.tdo 0x04800C6B] ∧ State.reset.boot.resetLow = true ∧ (after (.extest 8 255) State.reset).pins.drive = 1
      ∧ (after (.clamp 2 1) State.reset).pins.tapIr = 4 ∧ (after (.highz 2 1) State.reset).pins.drive = 2
      ∧ (boarded []).boot.resetLow = false ∧ fld (boarded []) F.BOOT_STATUS_state ≠ 3 ∧ (after (.highz 2 1) (boarded [])).pins.drive = 0
      ∧ (after (.bypass 2 3) (boarded [])).out = [.tdo 2]
      ∧ (after (.regaccRead (regBase + 0x1FFFFF8)) (boarded [])).pins.regacc = (regBase + 0x1FFFFF8) * 2 ^ 64
      ∧ (after (.regaccRead nearBase) (boarded [])).pins.regacc = nearBase * 2 ^ 64 + 3 * 2 ^ 108 ∧ nearBase < combBase + 64 * combBytes := by
  decide

/-! ## The machine -/

theorem test_steps :
    ({ State.reset with pending := [.refresh 31, .idcode] } : State).pending = .refresh 31 :: [.idcode] ∧ State.reset.pending = []
      ∧ step { State.reset with pending := [.refresh 31, .idcode] } = .next { State.reset with pending := [.idcode] } :=
  ⟨rfl, rfl, rfl⟩

theorem test_stopped :
    State.reset.inService = false ∧ ¬BoardRow .breathArm ∧ ({ live [] with thermTrip := true } : State).thermTrip = true ∧ ClockedRow 63 (.vecDone 63) := by
  refine ⟨rfl, by simp [BoardRow], rfl, ?_⟩
  simp [ClockedRow]

theorem test_reset_kept :
    InReset { State.reset with pending := [.pwrOkRise] } ∧ step { State.reset with pending := [.pwrOkRise] }
      = .next { State.reset with boot := { pwrOk := true } } :=
  ⟨fun _ => ⟨rfl, fun h => absurd rfl h⟩, rfl⟩

/-! ## Ill-formed commands -/

/-- A packet with an address past 44 bits. -/
def badPacket : Packet := { addr := 2 ^ 44 }

theorem test_well_formed :
    (Instr.registerWrite (2 ^ 44 - 1) 8 (2 ^ 64 - 1) 0).wf = true ∧ (Instr.putReceive {}).wf = true
      ∧ (Instr.dataFlitReceive 8 (List.replicate 256 255) 0 false 0 0 0).wf = true ∧ (Instr.sensorSample (List.replicate 70 none)).wf = true := by
  decide

theorem test_ill_formed_registers :
    (Instr.registerWrite (2 ^ 44) 8 0 0).wf = false ∧ (Instr.registerWrite 0 8 (2 ^ 64) 0).wf = false ∧ (Instr.tickSourceWrite (2 ^ 64)).wf = false
      ∧ (Instr.i3cRead (2 ^ 44)).wf = false ∧ (Instr.i3cWrite (2 ^ 44) 0).wf = false ∧ (Instr.i3cWrite 0 (2 ^ 64)).wf = false
      ∧ (Instr.i3cAddressAssign 128).wf = false ∧ (Instr.regaccRead (2 ^ 44)).wf = false ∧ (Instr.regaccWrite (2 ^ 44) 0).wf = false
      ∧ (Instr.regaccWrite 0 (2 ^ 64)).wf = false ∧ (Instr.userAliasWrite 0 0x60 (2 ^ 64)).wf = false ∧ (Instr.counterClear 0 4096).wf = false := by
  decide

theorem test_ill_formed_pins :
    (Instr.resetNRelease true 4 false).wf = false ∧ (Instr.releaseAfterPwrOk true 4 false).wf = false
      ∧ (Instr.sensorSample (List.replicate 69 none)).wf = false := by
  decide

theorem test_ill_formed_links :
    (Instr.tickReceive 0 (2 ^ 128) 0).wf = false ∧ (Instr.stretchReceive 0 (2 ^ 128)).wf = false ∧ (Instr.echoReceive 0 (2 ^ 128) 0 0).wf = false
      ∧ (Instr.addressReceive 0 (2 ^ 128)).wf = false ∧ (Instr.eqReceive 0 256 0).wf = false ∧ (Instr.eqReceive 0 0 (2 ^ 128)).wf = false
      ∧ (Instr.eqAdapt 0 8 0 0 true none).wf = false ∧ (Instr.eqAdapt 0 7 0 0 true (some (2 ^ 112))).wf = false ∧ (Instr.laneFail 0 8).wf = false ∧ (Instr.nakReceive 0 4096).wf = false
      ∧ (Instr.retrainEnd 0 256 0).wf = false ∧ (Instr.retrainEnd 0 0 2).wf = false ∧ (Instr.portTrainingDone 0 (2 ^ 16) 0 0 0).wf = false ∧ (Instr.portTrainingDone 0 0 16 0 0).wf = false
      ∧ (Instr.portTrainingDone 0 0 0 2 0).wf = false ∧ (Instr.portTrainingDone 0 0 0 0 256).wf = false
      ∧ (Instr.dataFlitReceive 0 (List.replicate 255 0) 0 false 0 0 0).wf = false ∧ (Instr.dataFlitReceive 0 (256 :: List.replicate 255 0) 0 false 0 0 0).wf = false := by
  decide

theorem test_ill_formed_memory :
    (Instr.memoryRead (2 ^ 44) 0 .none).wf = false ∧ (Instr.memoryWrite (2 ^ 44) 0 [] false .none).wf = false
      ∧ (Instr.memoryWrite 0 0 [256] false .none).wf = false ∧ (Instr.patrolScrub (2 ^ 44) .none).wf = false
      ∧ (Instr.channelRetrainDone 0 256).wf = false ∧ (Instr.memoryTrainDone (2 ^ 32) []).wf = false ∧ (Instr.stageDone 0 [256] false).wf = false ∧ (Instr.accDone 0 { errs := [.accumulator 3 511 64] }).wf = false
      ∧ (Instr.energyIntegrate 0 [(64, 1, 1)]).wf = false
      ∧ (Instr.reedTask 0 0 [256] false {}).wf = false ∧ (Instr.hostWindowAccess 0 0 8 true (2 ^ 64) 0 {}).wf = false
      ∧ (Instr.hostApertureAccess 0 0 1 true [256] 0 {}).wf = false := by
  decide

theorem test_ill_formed_tags :
    (Instr.alltoallReceiveClose 0 16).wf = false ∧ (Instr.batchClose 0 16).wf = false ∧ (Instr.gexDecode 0 16).wf = false
      ∧ (Instr.gexPostClose 0 16).wf = false ∧ (Instr.maskTimeout 0 16).wf = false := by
  decide

/-- Each field of a packet too wide for its place. -/
theorem test_ill_formed_packets :
    (({ ptype := 256 } : Packet).wf || ({ dst := 65536 } : Packet).wf || ({ src := 65536 } : Packet).wf || ({ pair := 64 } : Packet).wf
      || ({ rsem := 64 } : Packet).wf || ({ cls := 4 } : Packet).wf || ({ age := 2 ^ 20 } : Packet).wf || ({ hops := 64 } : Packet).wf
      || ({ dir := 16 } : Packet).wf || ({ rev := 16 } : Packet).wf || ({ tag := 16 } : Packet).wf || ({ generation := 65536 } : Packet).wf
      || badPacket.wf || ({ poison := 2 ^ 64 } : Packet).wf || ({ data := [256] } : Packet).wf) = false := by
  decide

theorem test_ill_formed_payload : ({ data := List.replicate 4097 0 } : Packet).wf = false := by
  refine Bool.and_eq_false_iff.mpr (.inr (decide_eq_false fun h => ?_))
  rw [List.length_replicate] at h
  omega

/-- A row at which a packet arrives is as well formed as its packet. -/
theorem test_packet_rows {m : Packet} {c : Instr} (h : PacketRow m c) : c.wf = m.wf := by
  rcases h with h | h | h | h | h | h | h | h | h | h | h | h | h | h | h | h | h | h | h | h | h | h | h <;> subst h <;> rfl

end Sys2Proof.Tests
end

/-! SUPPORT. Sparse maps: what an insertion adds, and what it lets a search find. -/

namespace Sys2Proof.SMap

variable {α : Type}

theorem mem_insert_self (m : SMap α) (k : Nat) (v : α) : (k, v) ∈ insert m k v := by
  induction m with
  | nil => simp [insert]
  | cons e m ih =>
    unfold insert
    split
    · simp
    · split
      · simp
      · simp [ih]

/-- A key just inserted is the first found. -/
theorem find?_insert_self (m : SMap α) (k : Nat) (v : α) :
    (insert m k v).find? (fun x => decide (x.1 = k)) = some (k, v) := by
  induction m with
  | nil => simp [insert]
  | cons e m ih =>
    unfold insert
    split
    · simp
    · split
      · simp
      · rename_i h; simp [h, ih]

theorem find?_insert_ne (m : SMap α) {k j : Nat} (v : α) (h : j ≠ k) :
    (insert m k v).find? (fun x => decide (x.1 = j)) = m.find? (fun x => decide (x.1 = j)) := by
  have h' : k ≠ j := h.symm
  induction m with
  | nil => simp [insert, h']
  | cons e m ih =>
    unfold insert
    split
    · simp [h']
    · split
      · rename_i he; subst he; simp [h']
      · by_cases he : e.1 = j
        · rw [List.find?_cons_of_pos (by simpa using he), List.find?_cons_of_pos (by simpa using he)]
        · rw [List.find?_cons_of_neg (by simpa using he), List.find?_cons_of_neg (by simpa using he), ih]

end Sys2Proof.SMap

/-! SUPPORT. Writes of the register space: what a write does to each field of a register by its access code (R6, R8, R13), which
register an offset names (R447), and what a REGISTER_WRITE of it does. -/

namespace Sys2Proof.Machine

/-! ## Bits and fields of a word -/

theorem bitAt_eq_testBit (w k : Nat) : bitAt w k = w.testBit k := by
  rw [bitAt, Nat.testBit_eq_decide_div_mod_eq]

theorem testBit_bitsOf (w hi lo k : Nat) : (bitsOf w hi lo).testBit k = (decide (k < hi + 1 - lo) && w.testBit (k + lo)) := by
  rw [bitsOf, Nat.testBit_mod_two_pow, Nat.testBit_div_two_pow]

theorem testBit_getField (f : Fld) (w : Word) (k : Nat) :
    (getField f w).testBit k = (w.getLsbD (f.lo + k) && decide (f.lo + k ≤ f.hi)) := by
  rw [getField, BitVec.testBit_toNat, BitVec.getLsbD_ushiftRight, BitVec.getLsbD_and, getLsbD_maskW]
  by_cases h : f.lo + k < 64
  · simp [h]
  · simp [BitVec.getLsbD_of_ge w _ (Nat.le_of_not_lt h)]

/-- Two words that agree in the bits of a field agree in the field. -/
theorem getField_congr {f : Fld} {w x : Word} (h : ∀ k, f.lo ≤ k → k ≤ f.hi → w.getLsbD k = x.getLsbD k) : getField f w = getField f x := by
  refine Nat.eq_of_testBit_eq fun k => ?_
  rw [testBit_getField, testBit_getField]
  by_cases hk : f.lo + k ≤ f.hi
  · rw [h _ (by omega) hk]
  · simp [hk]

/-- Two words that agree in a field agree in each of its bits. -/
theorem getLsbD_of_getField_eq {f : Fld} {w x : Word} (h : getField f w = getField f x) {k : Nat} (h1 : f.lo ≤ k) (h2 : k ≤ f.hi) :
    w.getLsbD k = x.getLsbD k := by
  have hb := congrArg (fun n => n.testBit (k - f.lo)) h
  simpa [testBit_getField, Nat.add_sub_cancel' h1, h2] using hb

theorem getField_ofNat {f : Fld} (h : f.hi < 64) (v : Nat) : getField f (BitVec.ofNat 64 v) = bitsOf v f.hi f.lo := by
  refine Nat.eq_of_testBit_eq fun k => ?_
  rw [testBit_getField, testBit_bitsOf, BitVec.getLsbD_ofNat, Nat.add_comm k]
  by_cases hk : f.lo + k ≤ f.hi
  · simp [hk, show f.lo + k < 64 by omega, show k < f.hi + 1 - f.lo by omega]
  · simp [hk, show ¬ k < f.hi + 1 - f.lo by omega]

/-- The reserved bits of a register are in none of its fields. -/
theorem getField_and_fieldMask {f : Fld} (h : f.ok = true) (w : Word) : getField f (w &&& f.reg.fieldMask) = getField f w :=
  getField_congr fun k h1 h2 => by rw [BitVec.getLsbD_and, Fld.mask_bit h h1 h2, Bool.and_true]

theorem fld_setReg_self {f : Fld} (h : f.ok = true) (i : Nat) (w : Word) (s : State) : fld (setReg f.reg i w s) f i = getField f w := by
  rw [fld, reg_setReg_self, getField_and_fieldMask h]

theorem fld_raise_self {f : Fld} (h : f.ok = true) (h1 : f.hi = f.lo) (i : Nat) (s : State) : fld (raise f i s) f i = 1 := by
  rw [raise, fld_setFld_self h, Fld.width, h1, Nat.add_sub_cancel_left]
  rfl

/-! ## The fields of a register -/

/-- A field's bits. -/
def FieldInfo.Covers (f : FieldInfo) (k : Nat) : Prop := f.lo ≤ k ∧ k ≤ f.hi

/-- The rows of the register table run from high bits to low, and no two share a bit (R6). -/
theorem Reg.fields_apart (r : Reg) : r.fields.Pairwise (fun f g => g.hi < f.lo) := by
  cases r <;> decide

theorem Reg.fields_ok (r : Reg) : ∀ f ∈ r.fields, (fieldAt r f).ok = true := by
  cases r <;> decide

theorem Reg.field_bounds {r : Reg} {f : FieldInfo} (h : f ∈ r.fields) : f.lo ≤ f.hi ∧ f.hi < 64 := by
  have ho := r.fields_ok f h
  simp only [Fld.ok, Bool.and_eq_true, decide_eq_true_eq] at ho
  exact ho.1

/-- A bit outside every row is reserved (R9). -/
theorem Reg.covered_of_fieldMask {r : Reg} {k : Nat} (h : r.fieldMask.getLsbD k = true) : ∃ f ∈ r.fields, f.Covers k := by
  have fold : ∀ (l : List FieldInfo) (w : Word), (l.foldl (fun w f => w ||| maskW f.hi f.lo) w).getLsbD k = true →
      w.getLsbD k = true ∨ ∃ f ∈ l, f.Covers k := by
    intro l
    induction l with
    | nil => exact fun w h => .inl h
    | cons g l ih =>
      intro w h
      rcases ih _ h with h | ⟨f, hf, hc⟩
      · rw [BitVec.getLsbD_or, Bool.or_eq_true, getLsbD_maskW] at h
        rcases h with h | h
        · exact .inl h
        · simp only [Bool.and_eq_true, decide_eq_true_eq] at h
          exact .inr ⟨g, by simp, h.1.2, h.2⟩
      · exact .inr ⟨f, by simp [hf], hc⟩
  rcases fold _ _ h with h | h
  · simp at h
  · exact h

/-- Two words that agree in every field agree in every bit that is not reserved. -/
theorem and_fieldMask_congr {r : Reg} {w x : Word} (h : ∀ f ∈ r.fields, getField (fieldAt r f) w = getField (fieldAt r f) x) :
    w &&& r.fieldMask = x &&& r.fieldMask := by
  refine BitVec.eq_of_getLsbD_eq fun k _ => ?_
  rw [BitVec.getLsbD_and, BitVec.getLsbD_and]
  by_cases hk : r.fieldMask.getLsbD k = true
  · obtain ⟨f, hf, h1, h2⟩ := r.covered_of_fieldMask hk
    rw [getLsbD_of_getField_eq (h f hf) h1 h2]
  · simp [hk]

/-! ## The write of one field (R6, R8, R13) -/

section
variable (r : Reg) (i : Nat) (w new bits : Word) (q : Nat) (s : State) (f : FieldInfo)

/-- The three words that a field's write can make. -/
theorem fieldWrite_cases :
    (fieldWrite r i w new bits q s f).1 = w ∨ (fieldWrite r i w new bits q s f).1 = w &&& ~~~(bits &&& maskW f.hi f.lo)
      ∨ (fieldWrite r i w new bits q s f).1 = putField (fieldAt r f) (getField (fieldAt r f) new) w := by
  unfold fieldWrite
  cases f.acc with
  | ro => exact .inl rfl
  | w1c => exact .inr (.inl rfl)
  | wo => exact .inl rfl
  | rw =>
    dsimp only
    split
    · exact .inl rfl
    · split
      · exact .inr (.inr rfl)
      · exact .inl rfl
  | rwl =>
    dsimp only
    split
    · exact .inl rfl
    · split
      · exact .inr (.inr rfl)
      · exact .inl rfl

/-- A field's write leaves every other bit of the word alone. -/
theorem fieldWrite_outside {k : Nat} (h : ¬f.Covers k) : (fieldWrite r i w new bits q s f).1.getLsbD k = w.getLsbD k := by
  by_cases hk : k < 64
  · have hm : (maskW f.hi f.lo).getLsbD k = false := by
      rw [getLsbD_maskW, Bool.and_assoc, Bool.and_eq_false_iff, ← Bool.decide_and]
      exact .inr (decide_eq_false h)
    rcases fieldWrite_cases r i w new bits q s f with e | e | e
    · rw [e]
    · rw [e, BitVec.getLsbD_and, BitVec.getLsbD_not, BitVec.getLsbD_and, hm, Bool.and_false, decide_eq_true hk]
      exact Bool.and_true _
    · rw [e, getLsbD_putField _ _ _ hk]
      exact if_neg h
  · rw [BitVec.getLsbD_of_ge _ _ (Nat.le_of_not_lt hk), BitVec.getLsbD_of_ge _ _ (Nat.le_of_not_lt hk)]

/-- What a field's write does to the field hangs on that field of the word alone. -/
theorem fieldWrite_congr {w x : Word} (h : getField (fieldAt r f) w = getField (fieldAt r f) x) :
    getField (fieldAt r f) (fieldWrite r i w new bits q s f).1 = getField (fieldAt r f) (fieldWrite r i x new bits q s f).1
      ∧ (fieldWrite r i w new bits q s f).2 = (fieldWrite r i x new bits q s f).2 := by
  have hput : ∀ v, getField (fieldAt r f) (putField (fieldAt r f) v w) = getField (fieldAt r f) (putField (fieldAt r f) v x) := fun v =>
    getField_congr fun k h1 h2 => by
      by_cases hk : k < 64
      · rw [getLsbD_putField _ _ _ hk, getLsbD_putField _ _ _ hk, if_pos ⟨h1, h2⟩, if_pos ⟨h1, h2⟩]
      · rw [BitVec.getLsbD_of_ge _ _ (Nat.le_of_not_lt hk), BitVec.getLsbD_of_ge _ _ (Nat.le_of_not_lt hk)]
  have hclear : ∀ m : Word, getField (fieldAt r f) (w &&& m) = getField (fieldAt r f) (x &&& m) := fun m =>
    getField_congr fun k h1 h2 => by rw [BitVec.getLsbD_and, BitVec.getLsbD_and, getLsbD_of_getField_eq h h1 h2]
  unfold fieldWrite
  cases f.acc with
  | ro => exact ⟨h, rfl⟩
  | w1c => exact ⟨hclear _, rfl⟩
  | wo => exact ⟨h, rfl⟩
  | rw =>
    dsimp only
    rw [h]
    split
    · exact ⟨h, rfl⟩
    · split
      · exact ⟨hput _, rfl⟩
      · exact ⟨h, rfl⟩
  | rwl =>
    dsimp only
    rw [h]
    split
    · exact ⟨h, rfl⟩
    · split
      · exact ⟨hput _, rfl⟩
      · exact ⟨h, rfl⟩

end

/-- The register's rules let requester q set the field to its value in `new` (R6, R8, R13). -/
def FieldTakes (r : Reg) (i : Nat) (new : Word) (q : Nat) (s : State) (f : FieldInfo) : Prop :=
  (f.acc = .rw ∧ ownWrite r f.lo = false ∨ f.acc = .rwl ∧ fldB s F.BOOT_STATUS_boot_lock = false)
    ∧ fieldOk r i f.lo (getField (fieldAt r f) new) q s = true

/-- The rules keep requester q from it: the field is locked, or its value is out of place. -/
def FieldRefuses (r : Reg) (i : Nat) (new : Word) (q : Nat) (s : State) (f : FieldInfo) : Prop :=
  f.acc = .rw ∧ ownWrite r f.lo = false ∧ fieldOk r i f.lo (getField (fieldAt r f) new) q s = false
    ∨ f.acc = .rwl ∧ fldB s F.BOOT_STATUS_boot_lock = true

/-- The write of the register leaves the field as it is and is not ignored: the field is read-only, taken by an operation of its
own, or a command that may be given. -/
def FieldStays (r : Reg) (i q : Nat) (s : State) (f : FieldInfo) : Prop :=
  f.acc = .ro ∨ f.acc = .rw ∧ ownWrite r f.lo = true ∨ f.acc = .wo ∧ ∀ v, fieldOk r i f.lo v q s = true

section
variable {r : Reg} {i : Nat} {w new bits : Word} {q : Nat} {s : State} {f : FieldInfo}

theorem fieldWrite_takes (hf : f ∈ r.fields) (h : FieldTakes r i new q s f) :
    getField (fieldAt r f) (fieldWrite r i w new bits q s f).1 = getField (fieldAt r f) new
      ∧ (fieldWrite r i w new bits q s f).2 = false := by
  have hput : getField (fieldAt r f) (putField (fieldAt r f) (getField (fieldAt r f) new) w) = getField (fieldAt r f) new := by
    refine getField_congr fun k h1 h2 => ?_
    have h2' : k ≤ f.hi := h2
    have hk : k < 64 := by have := (r.field_bounds hf).2; omega
    rw [getLsbD_putField _ _ _ hk, if_pos ⟨h1, h2⟩, testBit_getField, Nat.add_sub_cancel' h1]
    simp [h2]
  unfold fieldWrite
  obtain ⟨⟨ha, ho⟩ | ⟨ha, hl⟩, hok⟩ := h
  · rw [ha]
    dsimp only
    rw [ho, Bool.false_or, if_pos hok]
    split
    · rename_i he; exact ⟨(of_decide_eq_true he).symm, rfl⟩
    · exact ⟨hput, rfl⟩
  · rw [ha]
    dsimp only
    split
    · rename_i he; exact ⟨he.symm, rfl⟩
    · rw [hl, hok]; exact ⟨hput, rfl⟩

theorem fieldWrite_refuses (h : FieldRefuses r i new q s f) (hne : getField (fieldAt r f) new ≠ getField (fieldAt r f) w) :
    fieldWrite r i w new bits q s f = (w, true) := by
  unfold fieldWrite
  obtain ⟨ha, ho, hok⟩ | ⟨ha, hl⟩ := h
  · rw [ha]
    dsimp only
    rw [ho, decide_eq_false hne, hok]
    rfl
  · rw [ha]
    dsimp only
    rw [if_neg hne, hl]
    rfl

theorem fieldWrite_stays (h : FieldStays r i q s f) : fieldWrite r i w new bits q s f = (w, false) := by
  unfold fieldWrite
  obtain ha | ⟨ha, ho⟩ | ⟨ha, hok⟩ := h
  · rw [ha]
  · rw [ha, ho]; rfl
  · simp [ha, hok]

theorem fieldWrite_w1c (h : f.acc = .w1c) : fieldWrite r i w new bits q s f = (w &&& ~~~(bits &&& maskW f.hi f.lo), false) := by
  unfold fieldWrite
  rw [h]

end

/-! ## Every field of a write -/

/-- The bits of a fold over rows that share none: each row's own are as its write alone leaves them; and whether any was ignored. -/
theorem foldFields_spec (r : Reg) (i : Nat) (new bits : Word) (q : Nat) (s : State) (l : List FieldInfo)
    (hl : l.Pairwise (fun f g => g.hi < f.lo)) (x : Word × Bool) :
    let y := l.foldl (fun x f =>
      let y := fieldWrite r i x.1 new bits q s f
      (y.1, x.2 || y.2)) x
    (∀ f ∈ l, getField (fieldAt r f) y.1 = getField (fieldAt r f) (fieldWrite r i x.1 new bits q s f).1)
      ∧ (∀ k, (∀ f ∈ l, ¬f.Covers k) → y.1.getLsbD k = x.1.getLsbD k)
      ∧ y.2 = (x.2 || l.any (fun f => (fieldWrite r i x.1 new bits q s f).2)) := by
  induction l generalizing x with
  | nil => exact ⟨by simp, fun _ _ => rfl, by simp⟩
  | cons g l ih =>
    obtain ⟨hg, hl⟩ := List.pairwise_cons.mp hl
    obtain ⟨ih1, ih2, ih3⟩ := ih hl ((fieldWrite r i x.1 new bits q s g).1, x.2 || (fieldWrite r i x.1 new bits q s g).2)
    have first : ∀ f ∈ l, getField (fieldAt r f) (fieldWrite r i x.1 new bits q s g).1 = getField (fieldAt r f) x.1 := fun f hf =>
      getField_congr fun k _ h2 => fieldWrite_outside r i x.1 new bits q s g fun c =>
        absurd c.1 (by have := hg f hf; simp only [fieldAt] at h2; omega)
    refine ⟨fun f hf => ?_, fun k hk => ?_, ?_⟩
    · rcases List.mem_cons.mp hf with rfl | hf
      · exact getField_congr fun k h1 _ => ih2 k fun c hc hcov => absurd hcov.2 (by have := hg c hc; simp only [fieldAt] at h1; omega)
      · exact (ih1 f hf).trans (fieldWrite_congr r i new bits q s f (first f hf)).1
    · rw [List.foldl_cons, ih2 k fun f hf => hk f (by simp [hf])]
      exact fieldWrite_outside r i x.1 new bits q s g (hk g (by simp))
    · rw [List.foldl_cons, ih3, List.any_cons, Bool.or_assoc]
      congr 2
      have : ∀ f ∈ l, (fieldWrite r i (fieldWrite r i x.1 new bits q s g).1 new bits q s f).2 = (fieldWrite r i x.1 new bits q s f).2 :=
        fun f hf => (fieldWrite_congr r i new bits q s f (first f hf)).2
      rw [Bool.eq_iff_iff, List.any_eq_true, List.any_eq_true]
      constructor
      · rintro ⟨f, hf, h⟩; exact ⟨f, hf, (this f hf) ▸ h⟩
      · rintro ⟨f, hf, h⟩; exact ⟨f, hf, (this f hf).symm ▸ h⟩

section
variable {r : Reg} {i : Nat} {old new bits : Word} {q : Nat} {s : State}

/-- A field after a register's write is as its own write of the old word leaves it. -/
theorem getField_fieldsWrite {f : FieldInfo} (hf : f ∈ r.fields) :
    getField (fieldAt r f) (fieldsWrite r i old new bits q s).1 = getField (fieldAt r f) (fieldWrite r i old new bits q s f).1 :=
  (foldFields_spec r i new bits q s r.fields r.fields_apart (old, false)).1 f hf

theorem fieldsWrite_ignored :
    (fieldsWrite r i old new bits q s).2 = r.fields.any (fun f => (fieldWrite r i old new bits q s f).2) :=
  (foldFields_spec r i new bits q s r.fields r.fields_apart (old, false)).2.2

theorem fieldsWrite_field_takes {f : FieldInfo} (hf : f ∈ r.fields) (h : FieldTakes r i new q s f) :
    getField (fieldAt r f) (fieldsWrite r i old new bits q s).1 = getField (fieldAt r f) new := by
  rw [getField_fieldsWrite hf, (fieldWrite_takes hf h).1]

/-- A field whose write is refused keeps its value, and the write is noted (R13). -/
theorem fieldsWrite_field_refuses {f : FieldInfo} (hf : f ∈ r.fields) (h : FieldRefuses r i new q s f)
    (hne : getField (fieldAt r f) new ≠ getField (fieldAt r f) old) :
    getField (fieldAt r f) (fieldsWrite r i old new bits q s).1 = getField (fieldAt r f) old
      ∧ (fieldsWrite r i old new bits q s).2 = true := by
  rw [getField_fieldsWrite hf, fieldsWrite_ignored, fieldWrite_refuses h hne]
  exact ⟨rfl, List.any_eq_true.mpr ⟨f, hf, by rw [fieldWrite_refuses h hne]⟩⟩

/-- A write that every field takes. -/
theorem fieldsWrite_takes (h : ∀ f ∈ r.fields, FieldTakes r i new q s f) :
    (fieldsWrite r i old new bits q s).1 &&& r.fieldMask = new &&& r.fieldMask ∧ (fieldsWrite r i old new bits q s).2 = false := by
  refine ⟨and_fieldMask_congr fun f hf => fieldsWrite_field_takes hf (h f hf), ?_⟩
  rw [fieldsWrite_ignored, List.any_eq_false]
  exact fun f hf => by rw [(fieldWrite_takes hf (h f hf)).2]; exact Bool.false_ne_true

/-- A write of a register whose fields it all leaves to the units. -/
theorem fieldsWrite_stays (h : ∀ f ∈ r.fields, FieldStays r i q s f) : fieldsWrite r i old new bits q s = (old, false) := by
  unfold fieldsWrite
  generalize r.fields = l at h
  induction l with
  | nil => rfl
  | cons g l ih =>
    obtain ⟨hg, hl⟩ := List.forall_mem_cons.mp h
    rw [List.foldl_cons, fieldWrite_stays hg]
    exact ih hl

/-- A write of an event register clears the bits written as 1 (R6). -/
theorem fieldsWrite_w1c (h : r.fields.all (fun f => f.acc = .w1c) = true) :
    (fieldsWrite r i old new bits q s).1 &&& r.fieldMask = old &&& ~~~bits &&& r.fieldMask
      ∧ (fieldsWrite r i old new bits q s).2 = false := by
  have ha : ∀ f ∈ r.fields, f.acc = .w1c := by simpa using h
  constructor
  · refine and_fieldMask_congr fun f hf => ?_
    rw [getField_fieldsWrite hf, fieldWrite_w1c (ha f hf)]
    refine getField_congr fun k h1 h2 => ?_
    simp only [fieldAt] at h1 h2
    have hk : k < 64 := by have := (r.field_bounds hf).2; omega
    rw [BitVec.getLsbD_and, BitVec.getLsbD_and, BitVec.getLsbD_not, BitVec.getLsbD_not, BitVec.getLsbD_and, getLsbD_maskW]
    simp [hk, h1, h2]
  · rw [fieldsWrite_ignored, List.any_eq_false]
    exact fun f hf => by rw [fieldWrite_w1c (ha f hf)]; exact Bool.false_ne_true

end

/-! ## The write of a register -/

theorem noteIgnored_eq {r : Reg} {i j : Nat} {f : Fld} (h : ignoredBit r i = some (f, j)) (s : State) : noteIgnored r i s = raise f j s := by
  rw [noteIgnored, h]

/-- The word written, its unwritten bits from the register (R5). -/
def mergedWord (r : Reg) (i : Nat) (v mask : Word) (s : State) : Word := (reg s r i &&& ~~~mask) ||| (v &&& mask)

/-- What a write of the masked bits makes of a register's word, and whether any field of it was ignored. -/
def writtenFields (r : Reg) (i : Nat) (v mask : Word) (q : Nat) (s : State) : Word × Bool :=
  fieldsWrite r i (reg s r i) (mergedWord r i v mask s) (v &&& mask) q s

section
variable {r : Reg} {i : Nat} {v mask : Word} {q : Nat} {s : State}

theorem writeReg_refused (h : wholeRefused r i (writtenFields r i v mask q s).1 (v &&& mask) s = true) :
    writeReg r i v mask q s = noteIgnored r i s := if_pos h

/-- A write that the register takes: its word, the note of an ignored field, and what the write sets off. -/
theorem writeReg_taken (h : wholeRefused r i (writtenFields r i v mask q s).1 (v &&& mask) s = false) (ha : actAllowed r q s = true) :
    writeReg r i v mask q s = writeActs r i (mergedWord r i v mask s).toNat (v &&& mask).toNat mask.toNat s
      (if (writtenFields r i v mask q s).2 then noteIgnored r i (setReg r i (writtenFields r i v mask q s).1 s)
        else setReg r i (writtenFields r i v mask q s).1 s) :=
  (if_neg (ne_true_of_eq_false h)).trans (if_pos ha)

/-- A register without a joint check and no aperture refuses no write as a whole. -/
theorem wholeRefused_eq_false {w bits : Word} (hj : jointOk r i w s = true) (hr : r ≠ .HOST_APT_n) : wholeRefused r i w bits s = false := by
  simp [wholeRefused, hj, hr]

/-- A changed word that does not pass the joint check is refused. -/
theorem wholeRefused_of_joint {w bits : Word} (hw : w ≠ reg s r i) (hj : jointOk r i w s = false) : wholeRefused r i w bits s = true := by
  simp [wholeRefused, hj, hw]

end

/-- The reserved bits of a word given to a register do not count (R9). -/
theorem setReg_congr {r : Reg} {w x : Word} (h : w &&& r.fieldMask = x &&& r.fieldMask) (i : Nat) (s : State) :
    setReg r i w s = setReg r i x s := by
  rw [setReg, setReg, h]

section
variable {r : Reg} {i : Nat} {v mask : Word} {q : Nat} {s : State}

/-- A write that every field takes gives the register the word written. -/
theorem writeReg_takes (hr : wholeRefused r i (writtenFields r i v mask q s).1 (v &&& mask) s = false) (ha : actAllowed r q s = true)
    (h : ∀ f ∈ r.fields, FieldTakes r i (mergedWord r i v mask s) q s f) :
    writeReg r i v mask q s
      = writeActs r i (mergedWord r i v mask s).toNat (v &&& mask).toNat mask.toNat s (setReg r i (mergedWord r i v mask s) s) := by
  obtain ⟨hw, hn⟩ := fieldsWrite_takes (old := reg s r i) (bits := v &&& mask) h
  rw [writeReg_taken hr ha, writtenFields, hn, if_neg Bool.false_ne_true, setReg_congr hw]

/-- A write of a register whose fields it leaves to the units sets off what it sets off. -/
theorem writeReg_stays (hr : r ≠ .HOST_APT_n) (ha : actAllowed r q s = true) (h : ∀ f ∈ r.fields, FieldStays r i q s f) :
    writeReg r i v mask q s
      = writeActs r i (mergedWord r i v mask s).toNat (v &&& mask).toNat mask.toNat s (setReg r i (reg s r i) s) := by
  have hw : writtenFields r i v mask q s = (reg s r i, false) := fieldsWrite_stays h
  rw [writeReg_taken (by simp [hw, wholeRefused, hr]) ha, hw, if_neg Bool.false_ne_true]

/-- A write of an event register clears the bits written as 1 (R6). -/
theorem writeReg_w1c (hr : wholeRefused r i (writtenFields r i v mask q s).1 (v &&& mask) s = false) (ha : actAllowed r q s = true)
    (h : r.fields.all (fun f => f.acc = .w1c) = true) :
    writeReg r i v mask q s = writeActs r i (mergedWord r i v mask s).toNat (v &&& mask).toNat mask.toNat s
      (setReg r i (reg s r i &&& ~~~(v &&& mask)) s) := by
  obtain ⟨hw, hn⟩ := fieldsWrite_w1c (i := i) (old := reg s r i) (new := mergedWord r i v mask s) (bits := v &&& mask) (q := q) (s := s) h
  rw [writeReg_taken hr ha, writtenFields, hn, if_neg Bool.false_ne_true, setReg_congr hw]

end

/-- A write of 8 bytes covers the whole word. -/
theorem writeMask_eight (off : Nat) : writeMask off 8 = BitVec.allOnes 64 := by
  rw [writeMask, if_pos rfl]
  decide

theorem writeValue_eight (off v : Nat) : writeValue off 8 v = BitVec.ofNat 64 v := if_pos rfl

theorem mergedWord_allOnes (r : Reg) (i : Nat) (v : Word) (s : State) : mergedWord r i v (BitVec.allOnes 64) s = v := by
  rw [mergedWord, BitVec.and_allOnes, BitVec.not_allOnes, BitVec.and_zero, BitVec.zero_or]

/-- A register whose bits are all in fields takes back its own word unchanged. -/
theorem setReg_own_keeps {r : Reg} (h : r.fieldMask = BitVec.allOnes 64) (i : Nat) (s : State) : Aside [] [] s (setReg r i (reg s r i) s) := by
  refine ⟨rfl, fun q j _ _ => ?_⟩
  by_cases hq : r = q ∧ i = j
  · obtain ⟨rfl, rfl⟩ := hq
    rw [reg_setReg_self, h, BitVec.and_allOnes]
  · exact reg_setReg_ne _ s (by tauto)

/-! ## Where registers lie (R447, R448) -/

/-- No other row of the register table shares an offset of its space with this one. -/
def RegPlace.alone (x : RegPlace) : Bool :=
  regPlaces.contains x && regPlaces.all (fun y =>
    y = x || y.space ≠ x.space || y.off + 8 * y.count ≤ x.off || x.off + 8 * x.count ≤ y.off)

theorem placeIn_alone {x : RegPlace} (h : x.alone = true) {off : Nat} (h1 : x.off ≤ off) (h2 : off < x.off + 8 * x.count) (u : Nat) :
    placeIn x.space off u = some (x.reg, u * x.count + (off - x.off) / 8) := by
  simp only [RegPlace.alone, Bool.and_eq_true, List.contains_iff_mem, List.all_eq_true, Bool.or_eq_true, decide_eq_true_eq] at h
  obtain ⟨hx, ho⟩ := h
  unfold placeIn
  cases hf : regPlaces.reverse.find? (fun r => r.space = x.space && r.off ≤ off && off < r.off + 8 * r.count) with
  | none => exact absurd (List.find?_eq_none.mp hf x (List.mem_reverse.mpr hx)) (by simp [h1, h2])
  | some y =>
    have hy := List.find?_some hf
    simp only [Bool.and_eq_true, decide_eq_true_eq] at hy
    have : y = x := by
      rcases ho y (List.mem_reverse.mp (List.mem_of_find?_eq_some hf)) with ((e | e) | e) | e
      · exact e
      · exact absurd hy.1.1 e
      · omega
      · omega
    rw [this]
    rfl

/-- An aligned offset at which a register path finds place i of a register, and neither the mailbox, the log nor the user alias. -/
structure IsRegister (off : Nat) (r : Reg) (i : Nat) : Prop where
  aligned : off % 8 = 0
  notMailbox : ¬(0x41000 ≤ off ∧ off < 0x43010)
  notLog : ¬(0x58000 ≤ off ∧ off < 0x60000)
  notAlias : ¬(0x6C000 ≤ off ∧ off < 0x70000)
  found : regAt off = some (r, i)

theorem IsRegister.inSpace {off : Nat} {r : Reg} {i : Nat} (h : IsRegister off r i) : ¬off ≥ 0x2000000 := by
  intro c
  have hf := h.found
  rw [regAt, if_pos c] at hf
  cases hf

/-- A device register that overlaps no other row, nor any area of another kind. -/
def RegPlace.plain (x : RegPlace) : Bool :=
  x.alone && x.space = .device && x.off % 8 = 0
    && (x.off + 8 * x.count ≤ 0x31000 || (0x50000 ≤ x.off && x.off + 8 * x.count ≤ 0x58000))

theorem isRegister_device {x : RegPlace} (h : x.plain = true) {i : Nat} (hi : i < x.count) : IsRegister (x.off + 8 * i) x.reg i := by
  simp only [RegPlace.plain, Bool.and_eq_true, Bool.or_eq_true, decide_eq_true_eq] at h
  obtain ⟨⟨⟨ha, hs⟩, h8⟩, hr⟩ := h
  have hp := placeIn_alone ha (off := x.off + 8 * i) (by omega) (by omega) 0
  rw [hs] at hp
  refine ⟨by omega, by omega, by omega, by omega, ?_⟩
  unfold regAt
  rw [if_neg (by omega), if_neg (by omega), if_neg (by simp; omega), if_neg (by simp; omega), if_neg (by simp; omega), hp]
  simp

theorem isRegister_single {x : RegPlace} (h : x.plain = true) (hc : x.count = 1) : IsRegister x.off x.reg 0 :=
  isRegister_device h (i := 0) (by omega)

/-- A register of a pair's window (R78, R176). -/
theorem isRegister_pair {x : RegPlace} (h : x.alone = true) (hs : x.space = .pair) (hc : x.count = 1) (h8 : x.off % 8 = 0)
    (hb : x.off < 0x20000) (p : Pair) : IsRegister (pairOff p x.off) x.reg p := by
  have hp := placeIn_alone h le_rfl (by omega) p
  have hlt := p.isLt
  rw [hs, hc, Nat.sub_self, Nat.zero_div, Nat.mul_one, Nat.add_zero] at hp
  unfold pairOff
  refine ⟨by omega, by omega, by omega, by omega, ?_⟩
  unfold regAt
  dsimp only
  rw [if_neg (by omega), if_pos (by omega), if_pos (by omega)]
  convert hp using 2 <;> omega

/-- A register of a port (R447). -/
theorem isRegister_port {x : RegPlace} (h : x.alone = true) (hs : x.space = .port) (hc : x.count = 1) (h8 : x.off % 8 = 0)
    (hb : x.off < 0x100) {n : Nat} (hn : n < 9) : IsRegister (0x31000 + 0x100 * n + x.off) x.reg n := by
  have hp := placeIn_alone h le_rfl (by omega) n
  rw [hs, hc, Nat.sub_self, Nat.zero_div, Nat.mul_one, Nat.add_zero] at hp
  refine ⟨by omega, by omega, by omega, by omega, ?_⟩
  unfold regAt
  rw [if_neg (by omega), if_neg (by omega), if_pos (by simp; omega)]
  convert hp using 2 <;> omega

/-! ## Register accesses (R5, R330) -/

section
variable {off size v q : Nat} {s : State} {r : Reg} {i : Nat}

theorem regWord_register (h : IsRegister off r i) (s : State) : regWord s off = (readReg r i s).toNat := by
  have h1 := h.notMailbox
  have h2 := h.notLog
  have h3 := h.notAlias
  unfold regWord
  rw [if_neg (by simp; omega), if_neg (by simp; omega), if_neg (by simp; omega), h.found]

theorem writeAt_register (h : IsRegister off r i) :
    writeAt off size v q s = writeReg r i (writeValue off size v) (writeMask off size) q s := by
  have h1 := h.notMailbox
  have h3 := h.notAlias
  have h8 := h.aligned
  unfold writeAt
  dsimp only
  rw [if_neg (by simp; omega), if_neg (by simp; omega), show off / 8 * 8 = off by omega, h.found]

theorem accessOk_eight (h : off % 8 = 0) : accessOk off 8 = true := by
  simp [accessOk, h]

theorem accessOk_four (h : off % 4 = 0) : accessOk off 4 = true := by
  simp [accessOk, h]

theorem barsOpen_host (h : HostMay s) : barsOpen s = true := by
  rw [barsOpen, h.released, h.up, h.on]
  rfl

/-- A write by the host below the end of the register space (R330). -/
theorem registerWrite_host (h : HostMay s) (ho : off < 0x2000000) : registerWrite off size v 0 s = regWrite off size v 0 s := by
  have hs : s.inService = true := h.released
  rw [registerWrite, if_neg (by simp [hs]), if_pos rfl, if_neg (by simp [barsOpen_host h]), if_neg (Nat.not_le.mpr ho)]

/-- A write by the host above it (R331). -/
theorem registerWrite_hostUpper (h : HostMay s) (ho : 0x2000000 ≤ off) : registerWrite off size v 0 s = bar0Upper off size v s := by
  have hs : s.inService = true := h.released
  rw [registerWrite, if_neg (by simp [hs]), if_pos rfl, if_neg (by simp [barsOpen_host h]), if_pos ho]

/-- An accepted write by the host of a register. -/
theorem registerWrite_register (hm : HostMay s) (h : IsRegister off r i) (hk : accessOk off size = true) :
    registerWrite off size v 0 s = writeReg r i (writeValue off size v) (writeMask off size) rqHost s := by
  rw [registerWrite_host hm (Nat.lt_of_not_le h.inSpace), regWrite, if_neg h.inSpace, if_neg (by simp [hk]), writeAt_register h]

/-- A REGISTER_WRITE that leaves the release and the queue alone completes as its meaning says. -/
theorem completes_registerWrite {u : State} {P : State → Prop} (hs : Released s) (hu : registerWrite off size v q s = u)
    (h1 : u.inService = s.inService) (h2 : u.pending = s.pending) (hp : P u) : Completes (.registerWrite off size v q) s P := by
  subst hu
  exact ⟨_, congrArg Host.Outcome.next (whenReleased_self hs h1 h2), hp⟩

/-- One that writes registers, the log and event records alone. -/
theorem completes_registerWrite_aside {u : State} {P : State → Prop} {rs : List Reg} {ks : List (Reg × Nat)} (hs : Released s)
    (hu : registerWrite off size v q s = u) (ha : Aside rs ks s u) (hp : P u) : Completes (.registerWrite off size v q) s P :=
  completes_registerWrite hs hu ha.inService ha.pending hp

/-- A write of 8 bytes by the host of a register. -/
theorem registerWrite_eight (hm : HostMay s) (h : IsRegister off r i) :
    registerWrite off 8 v 0 s = writeReg r i (BitVec.ofNat 64 v) (BitVec.allOnes 64) rqHost s := by
  rw [registerWrite_register hm h (accessOk_eight h.aligned), writeMask_eight, writeValue_eight]

/-! ## Refused and ignored writes (R13) -/

theorem raise_aside (f : Fld) (i : Nat) (s : State) : Aside [] [(f.reg, i)] s (raise f i s) := Aside.refl.raise (.inr (by simp))

theorem raise_ignored {f : Fld} (h : f.ok = true) (h1 : f.hi = f.lo) (s : State) : Ignored f s (raise f 0 s) :=
  ⟨fld_raise_self h h1 0 s, (raise_aside f 0 s).2, rfl⟩

/-- A write of 8 bytes by the host that fails its register's joint check is ignored, and noted in the block's event register. -/
theorem completes_refused {f : Fld} (hm : HostMay s) (h : IsRegister off r i) (hi : ignoredBit r i = some (f, 0)) (hf : f.ok = true)
    (h1 : f.hi = f.lo)
    (hw : (writtenFields r i (BitVec.ofNat 64 v) (BitVec.allOnes 64) rqHost s).1 ≠ reg s r i)
    (hj : jointOk r i (writtenFields r i (BitVec.ofNat 64 v) (BitVec.allOnes 64) rqHost s).1 s = false) :
    Completes (.registerWrite off 8 v 0) s fun u => Ignored f s u := by
  refine completes_registerWrite_aside hm.released ?_ (raise_aside f 0 s) (raise_ignored hf h1 s)
  rw [registerWrite_eight hm h, writeReg_refused (wholeRefused_of_joint hw hj), noteIgnored_eq hi]

end

/-! ## The error log (R383) -/

/-- A new entry records its facts in the present schedule breath. -/
theorem logNew_mem (f : LogFacts) (s : State) : ∃ ke ∈ (logNew f s).log, logMatch s f ke.2 = true :=
  ⟨_, SMap.mem_insert_self _ _ _, by simp [logMatch]⟩

/-- An event changes the log: it adds an entry or counts a repeat. -/
theorem logEvent_log_ne (f : LogFacts) (s : State) : (logEvent f s).log ≠ s.log := by
  unfold logEvent
  split
  · rename_i h
    obtain ⟨ke, hm, hk⟩ := List.any_eq_true.mp h
    intro e
    have hke := List.map_inj_left.mp (e.trans (List.map_id _).symm) ke hm
    rw [if_pos hk] at hke
    exact absurd (congrArg (fun x : Nat × LogEntry => x.2.repeats) hke) (Nat.succ_ne_self _)
  · rename_i h
    intro e
    obtain ⟨ke, hm, hk⟩ := logNew_mem f s
    rw [e] at hm
    exact h (List.any_eq_true.mpr ⟨ke, hm, hk⟩)

/-! ## Registers that hold what is written -/

/-- A register that takes every field of what the host writes, and nothing else. -/
theorem completes_takes {off v i : Nat} {r : Reg} {s : State} {P : State → Prop} (hm : HostMay s) (h : IsRegister off r i)
    (hj : ∀ w, jointOk r i w s = true) (hr : r ≠ .HOST_APT_n) (ha : actAllowed r rqHost s = true)
    (hf : ∀ f ∈ r.fields, FieldTakes r i (BitVec.ofNat 64 v) rqHost s f)
    {u : State} {rs : List Reg} {ks : List (Reg × Nat)}
    (hu : writeActs r i (BitVec.ofNat 64 v).toNat (BitVec.ofNat 64 v).toNat (BitVec.allOnes 64).toNat s (setReg r i (BitVec.ofNat 64 v) s) = u)
    (hA : Aside rs ks s u) (hp : P u) : Completes (.registerWrite off 8 v 0) s P := by
  refine completes_registerWrite_aside hm.released ?_ hA hp
  rw [registerWrite_eight hm h, writeReg_takes (wholeRefused_eq_false (hj _) hr) ha (by rwa [mergedWord_allOnes]), mergedWord_allOnes,
    BitVec.and_allOnes, hu]

theorem hostWin_word (v : Nat) :
    (BitVec.ofNat 64 v &&& Reg.HOST_WIN_n.fieldMask).toNat = bitsOf v 63 63 * 2 ^ 63 + v % 65536 := by
  have hm : Reg.HOST_WIN_n.fieldMask = 0 ||| maskW 63 63 ||| maskW 15 0 := rfl
  refine Nat.eq_of_testBit_eq fun k => ?_
  rw [BitVec.testBit_toNat, BitVec.getLsbD_and, hm, BitVec.getLsbD_or, BitVec.getLsbD_or, getLsbD_maskW, getLsbD_maskW, BitVec.getLsbD_ofNat,
    Nat.mul_comm, Nat.testBit_two_pow_mul_add _ (show v % 65536 < 2 ^ 63 by omega), testBit_bitsOf,
    show (65536 : Nat) = 2 ^ 16 from rfl, Nat.testBit_mod_two_pow]
  rcases Nat.lt_trichotomy k 63 with h | rfl | h
  · simp [h, show k < 64 by omega, show ¬63 ≤ k by omega, Nat.lt_succ_iff, Bool.and_comm]
  · simp
  · simp [show ¬k < 64 by omega, show ¬k < 63 by omega, show ¬k - 63 < 1 by omega]

/-- A window register of the host keeps its fields and no reserved bit (R9, R342). -/
theorem hostWin_write (n : Fin 8) (v : Nat) (s : State) (hm : HostMay s) :
    Completes (.registerWrite (0xE100 + 8 * n.val) 8 v 0) s fun u =>
      fld u F.HOST_WIN_n_valid n = bitsOf v 63 63 ∧ fld u F.HOST_WIN_n_device n = v % 65536
        ∧ regWord u (0xE100 + 8 * n.val) = bitsOf v 63 63 * 2 ^ 63 + v % 65536 ∧ Keeps [] [(.HOST_WIN_n, n.val)] s u ∧ u.still = s.still := by
  have h : IsRegister (0xE100 + 8 * n.val) .HOST_WIN_n n := isRegister_device (x := ⟨.HOST_WIN_n, .device, 0xE100, 8⟩) (by decide) n.isLt
  have hA : Aside [] [(.HOST_WIN_n, n.val)] s (setReg .HOST_WIN_n n (BitVec.ofNat 64 v) s) := Aside.refl.setReg _ (.inr (by simp))
  refine completes_takes (u := setReg .HOST_WIN_n n (BitVec.ofNat 64 v) s) hm h (fun _ => rfl) (by decide) rfl
    (by simp [Reg.fields, FieldTakes, ownWrite, fieldOk]) rfl hA ⟨?_, ?_, ?_, hA.2, hA.1⟩
  · rw [fld_setReg_self (f := F.HOST_WIN_n_valid) (by decide), getField_ofNat (by decide)]
  · rw [fld_setReg_self (f := F.HOST_WIN_n_device) (by decide), getField_ofNat (by decide)]
    simp [bitsOf]
  · rw [regWord_register h]
    show (reg _ _ _).toNat = _
    rw [reg_setReg_self, hostWin_word]

/-- RL_EVENTS: bits written as 1 are cleared (R6, R399). -/
theorem rlEvents_write (v : Nat) (s : State) (hm : HostMay s) :
    Completes (.registerWrite 0x50010 8 v 0) s fun u =>
      (∀ j < 16, bitAt (reg u .RL_EVENTS 0).toNat j = (bitAt (reg s .RL_EVENTS 0).toNat j && !bitAt v j))
        ∧ Keeps [] [(.RL_EVENTS, 0)] s u ∧ u.still = s.still := by
  have h : IsRegister 0x50010 .RL_EVENTS 0 := isRegister_single (x := ⟨.RL_EVENTS, .device, 0x50010, 1⟩) (by decide) rfl
  have hA : Aside [] [(.RL_EVENTS, 0)] s (setReg .RL_EVENTS 0 (reg s .RL_EVENTS 0 &&& ~~~BitVec.ofNat 64 v) s) :=
    Aside.refl.setReg _ (.inr (by simp))
  refine completes_registerWrite_aside hm.released ?_ hA ⟨fun j hj => ?_, hA.2, hA.1⟩
  · rw [registerWrite_eight hm h, writeReg_w1c (wholeRefused_eq_false rfl (by decide)) rfl (by decide), BitVec.and_allOnes]
    rfl
  · have hk : Reg.RL_EVENTS.fieldMask.getLsbD j = true := by
      have : Reg.RL_EVENTS.fieldMask = BitVec.ofNat 64 (2 ^ 16 - 1) := by decide
      rw [this, BitVec.getLsbD_ofNat, Nat.testBit_two_pow_sub_one]
      simp [hj, show j < 64 by omega]
    rw [reg_setReg_self, bitAt_eq_testBit, bitAt_eq_testBit, bitAt_eq_testBit, BitVec.testBit_toNat, BitVec.testBit_toNat,
      BitVec.getLsbD_and, BitVec.getLsbD_and, hk, BitVec.getLsbD_not, BitVec.getLsbD_ofNat]
    simp [show j < 64 by omega]

/-- PCC_ENERGY is read-only (R6). -/
theorem energy_write (v : Nat) (s : State) (hm : HostMay s) :
    Completes (.registerWrite 0x20060 8 v 0) s fun u => Keeps [] [] s u ∧ u.still = s.still := by
  have h : IsRegister 0x20060 .PCC_ENERGY 0 := isRegister_single (x := ⟨.PCC_ENERGY, .device, 0x20060, 1⟩) (by decide) rfl
  have hA := setReg_own_keeps (r := .PCC_ENERGY) (by decide) 0 s
  refine completes_registerWrite_aside hm.released ?_ hA ⟨hA.2, hA.1⟩
  rw [registerWrite_eight hm h, writeReg_stays (by decide) rfl (by simp [Reg.fields, FieldStays])]
  rfl

/-! ## Registers whose write waits for a tick -/

/-- GEX_EXCLUDE takes effect at a tick, and reads back at once (R6, R279). -/
theorem gexExclude_write (v : Nat) (s : State) (hm : HostMay s) :
    Completes (.registerWrite 0xC008 8 v 0) s fun u =>
      regWord u 0xC008 = v % 2 ^ 64 ∧ Keeps [] [] s u ∧ u.still = { s.still with exclPending := some (BitVec.ofNat 64 v) } := by
  have h : IsRegister 0xC008 .GEX_EXCLUDE 0 := isRegister_single (x := ⟨.GEX_EXCLUDE, .device, 0xC008, 1⟩) (by decide) rfl
  have hA := setReg_own_keeps (r := .GEX_EXCLUDE) (by decide) 0 s
  refine completes_registerWrite (u := { setReg .GEX_EXCLUDE 0 (reg s .GEX_EXCLUDE 0) s with exclPending := some (BitVec.ofNat 64 v) })
    hm.released ?_ rfl rfl ⟨?_, hA.2, ?_⟩
  · rw [registerWrite_eight hm h, writeReg_stays (by decide) rfl (by simp [Reg.fields, FieldStays, ownWrite]), mergedWord_allOnes]
    have h0 : bitAt (BitVec.allOnes 64).toNat 0 = true := by decide
    have h32 : bitAt (BitVec.allOnes 64).toNat 32 = true := by decide
    simp only [writeActs, h0, h32, if_true, BitVec.ofNat_toNat, BitVec.setWidth_eq]
  · rw [regWord_register h]
    exact BitVec.toNat_ofNat v 64
  · exact congrArg (fun t : State => { t with exclPending := some (BitVec.ofNat 64 v) }) hA.1

/-- Both biases of a word in the shadow read back as the word written (R6, R233). -/
theorem biasWritten_insert (m : SMap Nat) (i v : Nat) (w : Word) (s : State)
    (h : s.biasShadow = SMap.insert (SMap.insert m (2 * i) (bitsOf v 31 0)) (2 * i + 1) (bitsOf v 63 32)) :
    (biasWritten s i w).toNat = v % 2 ^ 64 := by
  unfold biasWritten
  rw [h]
  simp only [SMap.find?_insert_self, SMap.find?_insert_ne _ _ (show 2 * i ≠ 2 * i + 1 by omega), Option.map_some, Option.getD_some,
    BitVec.toNat_ofNat, bitsOf]
  norm_num
  omega

/-- ROUTE_BIAS goes to the shadow, and reads back at once (R233). -/
theorem routeBias_write (i : Fin 2048) (v : Nat) (s : State) (hm : HostMay s) :
    Completes (.registerWrite (0x4000 + 8 * i.val) 8 v 0) s fun u =>
      regWord u (0x4000 + 8 * i.val) = v % 2 ^ 64 ∧ Keeps [] [] s u ∧ MemSame s u ∧ u.pairs = s.pairs := by
  have h : IsRegister (0x4000 + 8 * i.val) .ROUTE_BIAS_i i := isRegister_device (x := ⟨.ROUTE_BIAS_i, .device, 0x4000, 2048⟩) (by decide) i.isLt
  have hA := setReg_own_keeps (r := .ROUTE_BIAS_i) (by decide) i s
  refine completes_registerWrite (u := { setReg .ROUTE_BIAS_i i (reg s .ROUTE_BIAS_i i) s with
      biasShadow := SMap.insert (SMap.insert s.biasShadow (2 * i) (bitsOf (BitVec.ofNat 64 v).toNat 31 0)) (2 * i + 1)
        (bitsOf (BitVec.ofNat 64 v).toNat 63 32) }) hm.released ?_ rfl rfl ⟨?_, hA.2, hA.memSame, rfl⟩
  · rw [registerWrite_eight hm h, writeReg_stays (by decide) rfl (by simp [Reg.fields, FieldStays, ownWrite]), mergedWord_allOnes]
    have h0 : bitAt (BitVec.allOnes 64).toNat 0 = true := by decide
    have h32 : bitAt (BitVec.allOnes 64).toNat 32 = true := by decide
    simp only [writeActs, biasWrite, h0, h32, if_true]
    rfl
  · rw [regWord_register h]
    exact (biasWritten_insert s.biasShadow i _ _ _ rfl).trans (by rw [BitVec.toNat_ofNat, Nat.mod_mod])

/-! ## Values out of place (R13) -/

/-- The word that a write of 8 bytes by the host makes, in a field it may set. -/
theorem getField_writtenFields {r : Reg} {i v : Nat} {s : State} {f : FieldInfo} (hf : f ∈ r.fields)
    (h : FieldTakes r i (BitVec.ofNat 64 v) rqHost s f) :
    getField (fieldAt r f) (writtenFields r i (BitVec.ofNat 64 v) (BitVec.allOnes 64) rqHost s).1 = bitsOf v f.hi f.lo := by
  rw [writtenFields, mergedWord_allOnes, fieldsWrite_field_takes hf h]
  exact getField_ofNat (r.field_bounds hf).2 v

/-- A word whose field differs from the register's is another word. -/
theorem word_ne_of_getField_ne {f : Fld} {w : Word} {i : Nat} {s : State} (h : getField f w ≠ fld s f i) : w ≠ reg s f.reg i :=
  fun e => h (congrArg (getField f) e)

theorem fldB_eq_false {f : Fld} {i : Nat} {s : State} (h : fld s f i = 0) : fldB s f i = false := by simp [fldB, h]

/-- A router beyond the expert space is ignored (R251). -/
theorem router_write (r : Fin 16) (v : Nat) (s : State) (hm : HostMay s) (hl : fld s F.ROUTE_CTRL_loop_en = 0) (h0 : bitsOf v 12 0 ≠ 0)
    (hb : 4096 < bitsOf v 27 16 + bitsOf v 12 0) (hn : bitsOf v 12 0 ≠ fld s F.ROUTER_r_experts r) :
    Completes (.registerWrite (0x900 + 8 * r.val) 8 v 0) s fun u => Ignored F.ROUTE_EVENTS_ignored_write s u := by
  have h : IsRegister (0x900 + 8 * r.val) .ROUTER_r r := isRegister_device (x := ⟨.ROUTER_r, .device, 0x900, 16⟩) (by decide) r.isLt
  have hf : ∀ f ∈ Reg.ROUTER_r.fields, FieldTakes .ROUTER_r r (BitVec.ofNat 64 v) rqHost s f := by
    simp [Reg.fields, FieldTakes, ownWrite, fieldOk, fldB_eq_false hl]
  have he := getField_writtenFields (f := ⟨12, 0, .rw, 0⟩) (by decide) (hf _ (by decide))
  have hbase := getField_writtenFields (f := ⟨27, 16, .rw, 0⟩) (by decide) (hf _ (by decide))
  refine completes_refused hm h rfl (by decide) rfl (word_ne_of_getField_ne (f := F.ROUTER_r_experts) (he.trans_ne hn)) ?_
  show routerFits s r _ = false
  unfold routerFits
  rw [show getField F.ROUTER_r_experts _ = bitsOf v 12 0 from he, show getField F.ROUTER_r_base _ = bitsOf v 27 16 from hbase]
  simp [h0, Nat.not_le.mpr hb]

/-- Group fields that describe no box are ignored (R323). -/
theorem groupCfg_write (v : Nat) (s : State) (hm : HostMay s) (hl : fld s F.BOOT_STATUS_boot_lock = 0) (ho : groupOpen s = true)
    (hc : s.groups.confirmed = false)
    (hb : boxOk (bitsOf v 31 16) (bitsOf v 15 0) (fld s F.GROUP_RINGS_ring_m1) (bitsOf v 47 32) = false)
    (hv : v % 2 ^ 64 ≠ (reg s .GROUP_CFG 0).toNat) :
    Completes (.registerWrite 0xD000 8 v 0) s fun u => Ignored F.ENUM_EVENTS_ignored_write s u := by
  have h : IsRegister 0xD000 .GROUP_CFG 0 := isRegister_single (x := ⟨.GROUP_CFG, .device, 0xD000, 1⟩) (by decide) rfl
  have hf : ∀ f ∈ Reg.GROUP_CFG.fields, FieldTakes .GROUP_CFG 0 (BitVec.ofNat 64 v) rqHost s f := by
    simp [Reg.fields, FieldTakes, fieldOk, fldB_eq_false hl, ho, hc]
  have hw : (writtenFields .GROUP_CFG 0 (BitVec.ofNat 64 v) (BitVec.allOnes 64) rqHost s).1 = BitVec.ofNat 64 v := by
    have hmask : Reg.GROUP_CFG.fieldMask = BitVec.allOnes 64 := by decide
    have ht := (fieldsWrite_takes (old := reg s .GROUP_CFG 0) (bits := BitVec.ofNat 64 v &&& BitVec.allOnes 64) hf).1
    rw [hmask, BitVec.and_allOnes, BitVec.and_allOnes] at ht
    rw [writtenFields, mergedWord_allOnes]
    exact ht
  refine completes_refused hm h rfl (by decide) rfl ?_ ?_
  · rw [hw]
    exact fun e => hv (by rw [← e, BitVec.toNat_ofNat])
  · show boxOk _ _ _ _ = false
    rw [hw, getField_ofNat (f := F.GROUP_CFG_box_base) (by decide), getField_ofNat (f := F.GROUP_CFG_box_ext_m1) (by decide),
      getField_ofNat (f := F.GROUP_CFG_queen_coord) (by decide)]
    exact hb

/-- Voltage bounds out of order are ignored (R13, R368). -/
theorem volt_write (v : Nat) (s : State) (hm : HostMay s) (hlt : bitsOf v 47 40 < bitsOf v 39 32) (hle : bitsOf v 39 32 ≤ 100)
    (hn : bitsOf v 39 32 ≠ fld s F.PCC_VOLT_v_min ∨ bitsOf v 47 40 ≠ fld s F.PCC_VOLT_v_max) :
    Completes (.registerWrite 0x20008 8 v 0) s fun u => Ignored F.PCC_EVENTS_ignored_write s u := by
  have h : IsRegister 0x20008 .PCC_VOLT 0 := isRegister_single (x := ⟨.PCC_VOLT, .device, 0x20008, 1⟩) (by decide) rfl
  have takes : ∀ f ∈ Reg.PCC_VOLT.fields, f.acc = .rw → f.lo ≠ 24 → bitsOf v f.hi f.lo ≤ 100 →
      FieldTakes .PCC_VOLT 0 (BitVec.ofNat 64 v) rqHost s f := fun f hf ha hlo hv => by
    refine ⟨.inl ⟨ha, rfl⟩, ?_⟩
    rw [getField_ofNat (Reg.field_bounds hf).2]
    simp [fieldOk, hlo, fieldAt, hv]
  have hmin := getField_writtenFields (f := ⟨39, 32, .rw, 0⟩) (by decide) (takes _ (by decide) rfl (by decide) hle)
  have hmax := getField_writtenFields (f := ⟨47, 40, .rw, 100⟩) (by decide) (takes _ (by decide) rfl (by decide) (hlt.le.trans hle))
  refine completes_refused hm h rfl (by decide) rfl ?_ ?_
  · rcases hn with hn | hn
    · exact word_ne_of_getField_ne (f := F.PCC_VOLT_v_min) (hmin.trans_ne hn)
    · exact word_ne_of_getField_ne (f := F.PCC_VOLT_v_max) (hmax.trans_ne hn)
  · refine decide_eq_false ?_
    rw [show getField F.PCC_VOLT_v_min _ = bitsOf v 39 32 from hmin, show getField F.PCC_VOLT_v_max _ = bitsOf v 47 40 from hmax]
    exact Nat.not_le.mpr hlt

/-! ## Fields that are locked or out of range (R8, R13) -/

/-- A write of the low 4 bytes of a register by the host. -/
theorem registerWrite_four {off v i : Nat} {r : Reg} {s : State} (hm : HostMay s) (h : IsRegister off r i) :
    registerWrite off 4 v 0 s = writeReg r i (BitVec.ofNat 64 (v % 2 ^ 32)) (maskW 31 0) rqHost s := by
  have h8 := h.aligned
  have hv : writeValue off 4 v = BitVec.ofNat 64 (v % 2 ^ 32) := by simp [writeValue, h8]
  have hk : writeMask off 4 = maskW 31 0 := by simp [writeMask, h8]
  rw [registerWrite_register hm h (accessOk_four (by omega)), hv, hk]

/-- It gives a field of the low 32 bits its value. -/
theorem getField_mergedWord_low {f : Fld} (hf : f.hi < 32) (r : Reg) (i v : Nat) (s : State) :
    getField f (mergedWord r i (BitVec.ofNat 64 (v % 2 ^ 32)) (maskW 31 0) s) = bitsOf v f.hi f.lo := by
  refine Nat.eq_of_testBit_eq fun k => ?_
  rw [testBit_getField, testBit_bitsOf, mergedWord, BitVec.getLsbD_or, BitVec.getLsbD_and, BitVec.getLsbD_and, BitVec.getLsbD_not,
    getLsbD_maskW, BitVec.getLsbD_ofNat, Nat.testBit_mod_two_pow, Nat.add_comm k]
  by_cases hk : f.lo + k ≤ f.hi
  · simp [hk, show f.lo + k < 64 by omega, show f.lo + k < 32 by omega, show f.lo + k ≤ 31 by omega, show k < f.hi + 1 - f.lo by omega]
  · simp [hk, show ¬k < f.hi + 1 - f.lo by omega]

/-- With the boot lock set a port keeps its mode, and the write is noted (R8, R13). -/
theorem portCtrl_write (n : Fin 8) (v : Nat) (s : State) (hm : HostMay s) (hl : fld s F.BOOT_STATUS_boot_lock = 1)
    (hn : bitsOf v 7 6 ≠ fld s F.PORT_CTRL_mode n) :
    Completes (.registerWrite (0x31000 + 0x100 * n.val) 4 v 0) s fun u =>
      fld u F.PORT_CTRL_mode n = fld s F.PORT_CTRL_mode n ∧ fld u F.LINK_EVENTS_ignored_write = 1
        ∧ Keeps [] [(.PORT_CTRL, n.val), (.LINK_EVENTS, 0)] s u ∧ u.still = s.still := by
  have h : IsRegister (0x31000 + 0x100 * n.val) .PORT_CTRL n :=
    isRegister_port (x := ⟨.PORT_CTRL, .port, 0x0, 1⟩) (by decide) rfl rfl rfl (by decide) (by have := n.isLt; omega)
  obtain ⟨hmode, hnoted⟩ : getField F.PORT_CTRL_mode (writtenFields .PORT_CTRL n (BitVec.ofNat 64 (v % 2 ^ 32)) (maskW 31 0) rqHost s).1
        = fld s F.PORT_CTRL_mode n
      ∧ (writtenFields .PORT_CTRL n (BitVec.ofNat 64 (v % 2 ^ 32)) (maskW 31 0) rqHost s).2 = true :=
    fieldsWrite_field_refuses (f := ⟨7, 6, .rwl, 0⟩) (by decide) (.inr ⟨rfl, by simp [fldB, hl]⟩)
      ((getField_mergedWord_low (by decide) _ _ _ _).trans_ne hn)
  have hA : Aside [] [(.PORT_CTRL, n.val), (.LINK_EVENTS, 0)] s (raise F.LINK_EVENTS_ignored_write 0
      (setReg .PORT_CTRL n (writtenFields .PORT_CTRL n (BitVec.ofNat 64 (v % 2 ^ 32)) (maskW 31 0) rqHost s).1 s)) :=
    (Aside.refl.setReg _ (.inr (by simp))).raise (.inr (by simp))
  refine completes_registerWrite_aside hm.released ?_ hA ⟨?_, fld_raise_self (by decide) rfl _ _, hA.2, hA.1⟩
  · rw [registerWrite_four hm h, writeReg_taken (wholeRefused_eq_false rfl (by decide)) rfl, if_pos hnoted, noteIgnored_eq rfl]
    rfl
  · rw [raise, fld_setFld_ne _ _ (.inl (by decide)), fld_setReg_self (f := F.PORT_CTRL_mode) (by decide), hmode]

/-- The status that follows the loops: PCC_STATUS is written, and where a reason starts its event is raised and reported (R363). -/
theorem powerStatus_cases (s : State) : ∃ t, Aside [] [(.PCC_STATUS, 0)] s t
    ∧ (powerStatus s = t ∨ Aside eventRegs [] (raise F.PCC_EVENTS_throttle 0 t) (powerStatus s)) := by
  unfold powerStatus
  extract_lets was s1 s2 now s3
  have hset : ∀ {t : State}, Aside [] [(.PCC_STATUS, 0)] s t → ∀ f : Fld, f.reg = .PCC_STATUS → ∀ v,
      Aside [] [(.PCC_STATUS, 0)] s (setFld f 0 v t) := fun h f hf v => h.setFld v (.inr (by simp [hf]))
  refine ⟨s3, hset (hset (hset (hset .refl _ rfl _) _ rfl _) _ rfl _) _ rfl _, ?_⟩
  split
  · exact .inr ((sendEventOpen_aside _ _ _ _).emit _)
  · exact .inl rfl

/-- The registers that the power controller's status may write (R363). -/
abbrev powerRegs : List Reg := .PCC_STATUS :: .PCC_EVENTS :: eventRegs

theorem powerStatus_aside (s : State) : Aside powerRegs [] s (powerStatus s) := by
  obtain ⟨t, ht, hp | hp⟩ := powerStatus_cases s
  · exact hp ▸ ht.mono (by simp) (by simp)
  · exact ((ht.mono (by simp) (by simp)).raise (.inl (by simp))).trans (hp.mono (by simp) (by simp))

/-- The note of an ignored write outlives it. -/
theorem powerStatus_ignored (s : State) : fld (powerStatus s) F.PCC_EVENTS_ignored_write = fld s F.PCC_EVENTS_ignored_write := by
  obtain ⟨t, ht, hp | hp⟩ := powerStatus_cases s
  · rw [hp, ht.fld (by simp) (by simp)]
  · rw [hp.fld (by decide) (by simp), raise, fld_setFld_same (f := F.PCC_EVENTS_throttle) (g := F.PCC_EVENTS_ignored_write) rfl (by decide) (by decide),
      ht.fld (by simp) (by simp)]

theorem bitsOf_low_eleven (v : Nat) : bitsOf v 10 0 = v % 2048 := by simp [bitsOf]

theorem isRegister_cap : IsRegister 0x20018 .PCC_CAP 0 :=
  isRegister_single (x := ⟨.PCC_CAP, .device, 0x20018, 1⟩) (by decide) rfl

/-- A cap out of its range is ignored, and the write noted (R13, R368). -/
theorem cap_write_ignored (v : Nat) (s : State) (hm : HostMay s) (hv : v % 2048 < 200 ∨ 1600 < v % 2048) (hn : v % 2048 ≠ fld s F.PCC_CAP_cap) :
    Completes (.registerWrite 0x20018 8 v 0) s fun u =>
      fld u F.PCC_CAP_cap = fld s F.PCC_CAP_cap ∧ fld u F.PCC_EVENTS_ignored_write = 1 ∧ MemSame s u ∧ u.pairs = s.pairs := by
  have hval : getField F.PCC_CAP_cap (BitVec.ofNat 64 v) = v % 2048 := (getField_ofNat (by decide) v).trans (bitsOf_low_eleven v)
  have hout : fieldOk .PCC_CAP 0 0 (v % 2048) rqHost s = false := by
    simp only [fieldOk, inR, Nat.zero_ne_add_one]
    simp
    omega
  obtain ⟨hcap, hnoted⟩ : getField F.PCC_CAP_cap (writtenFields .PCC_CAP 0 (BitVec.ofNat 64 v) (BitVec.allOnes 64) rqHost s).1
        = fld s F.PCC_CAP_cap
      ∧ (writtenFields .PCC_CAP 0 (BitVec.ofNat 64 v) (BitVec.allOnes 64) rqHost s).2 = true := by
    unfold writtenFields
    rw [mergedWord_allOnes]
    exact fieldsWrite_field_refuses (f := ⟨10, 0, .rw, 1600⟩) (by decide)
      (.inl ⟨rfl, rfl, by rw [← hval] at hout; exact hout⟩) (hval.trans_ne hn)
  set t := raise F.PCC_EVENTS_ignored_write 0
    (setReg .PCC_CAP 0 (writtenFields .PCC_CAP 0 (BitVec.ofNat 64 v) (BitVec.allOnes 64) rqHost s).1 s) with htdef
  have ht : Aside powerRegs [(.PCC_CAP, 0)] s t := (Aside.refl.setReg _ (.inr (by simp))).raise (.inl (by simp))
  have hA := ht.trans ((powerStatus_aside t).mono (fun _ h => h) (by simp))
  refine completes_registerWrite_aside hm.released ?_ hA ⟨?_, ?_, hA.memSame, hA.pairs⟩
  · rw [registerWrite_eight hm isRegister_cap, writeReg_taken (wholeRefused_eq_false rfl (by decide)) rfl, if_pos hnoted, noteIgnored_eq rfl]
    rfl
  · rw [(powerStatus_aside t).fld (by decide) (by simp), htdef, raise, fld_setFld_ne _ _ (.inl (by decide)),
      fld_setReg_self (f := F.PCC_CAP_cap) (by decide), hcap]
  · rw [powerStatus_ignored, htdef, fld_raise_self (by decide) rfl]

/-- A cap and a current limit in their ranges are set (R368). -/
theorem cap_write (v : Nat) (s : State) (hm : HostMay s) (h1 : 200 ≤ v % 2048) (h2 : v % 2048 ≤ 1600) (h3 : 1000 ≤ bitsOf v 43 32)
    (h4 : bitsOf v 43 32 ≤ 2400) :
    Completes (.registerWrite 0x20018 8 v 0) s fun u =>
      fld u F.PCC_CAP_cap = v % 2048 ∧ fld u F.PCC_CAP_i_limit = bitsOf v 43 32 ∧ MemSame s u ∧ u.pairs = s.pairs := by
  have hcap : getField F.PCC_CAP_cap (BitVec.ofNat 64 v) = v % 2048 := (getField_ofNat (by decide) v).trans (bitsOf_low_eleven v)
  have hlim : getField F.PCC_CAP_i_limit (BitVec.ofNat 64 v) = bitsOf v 43 32 := getField_ofNat (by decide) v
  set t := setReg .PCC_CAP 0 (BitVec.ofNat 64 v) s with htdef
  have ht : Aside powerRegs [(.PCC_CAP, 0)] s t := Aside.refl.setReg _ (.inr (by simp))
  have hA := ht.trans ((powerStatus_aside t).mono (fun _ h => h) (by simp))
  have hf : ∀ f ∈ Reg.PCC_CAP.fields, FieldTakes .PCC_CAP 0 (BitVec.ofNat 64 v) rqHost s f := by
    simp [Reg.fields, FieldTakes, ownWrite, fieldOk, fieldAt, inR, hcap, hlim, h1, h2, h3, h4]
  refine completes_takes hm isRegister_cap (fun _ => rfl) (by decide) rfl hf rfl hA ⟨?_, ?_, hA.memSame, hA.pairs⟩
  · exact ((powerStatus_aside t).fld (by decide) (by simp)).trans ((fld_setReg_self (f := F.PCC_CAP_cap) (by decide) _ _ _).trans hcap)
  · exact ((powerStatus_aside t).fld (by decide) (by simp)).trans ((fld_setReg_self (f := F.PCC_CAP_i_limit) (by decide) _ _ _).trans hlim)

/-! ## Commands (R159, R176) -/

theorem isRegister_seqCmd (p : Pair) : IsRegister (pairOff p 0x30) .SEQ_CMD p :=
  isRegister_pair (x := ⟨.SEQ_CMD, .pair, 0x30, 1⟩) (by decide) rfl rfl rfl (by decide) p

/-- A write of SEQ_CMD runs its command. -/
theorem registerWrite_seqCmd {v : Nat} {s : State} (hm : HostMay s) (p : Pair) :
    registerWrite (pairOff p 0x30) 8 v 0 s = seqCmd p (v % 2 ^ 64) (setReg .SEQ_CMD p (reg s .SEQ_CMD p) s) := by
  rw [registerWrite_eight hm (isRegister_seqCmd p), writeReg_stays (by decide) rfl (by simp [Reg.fields, FieldStays, fieldOk]),
    BitVec.and_allOnes]
  rfl

/-- A pause of a WAITING pair pauses it, where it is. -/
theorem seqCmd_pause (p : Pair) (s : State) (hm : HostMay s) (hs : seqState s p = 3) :
    Completes (.registerWrite (pairOff p 0x30) 8 1 0) s fun u =>
      seqState u p = 4 ∧ seqPc u p = seqPc s p ∧ (∀ q, q ≠ p.val → seqState u q = seqState s q) ∧ MemSame s u ∧ u.pairs = s.pairs := by
  set t := setReg .SEQ_CMD p (reg s .SEQ_CMD p) s with ht
  have hother : ∀ {f : Fld} (j : Nat), f.reg = .SEQ_STATUS → fld t f j = fld s f j := fun j hf => by
    rw [fld, fld, ht, reg_setReg_ne _ _ (.inl (by rw [hf]; decide))]
  have hw : seqState t p = 3 := (hother p rfl).trans hs
  have hA : Aside [] [(.SEQ_CMD, p.val), (.SEQ_STATUS, p.val)] s (setFld F.SEQ_STATUS_state p sqPaused t) :=
    (Aside.refl.setReg _ (.inr (by simp))).setFld _ (.inr (by simp))
  refine completes_registerWrite_aside hm.released ?_ hA ⟨?_, ?_, fun q hq => ?_, hA.memSame, hA.pairs⟩
  · rw [registerWrite_seqCmd hm]
    show seqPause p t = _
    rw [seqPause, hw]
    rfl
  · exact fld_setFld_self (f := F.SEQ_STATUS_state) (by decide) _ _ _
  · exact (fld_setFld_same (f := F.SEQ_STATUS_state) (g := F.SEQ_STATUS_pc) rfl (by decide) (by decide) _ _ _).trans (hother p rfl)
  · exact (fld_setFld_ne (f := F.SEQ_STATUS_state) (g := F.SEQ_STATUS_state) _ _ (.inr (Ne.symm hq))).trans (hother q rfl)

/-- Two commands at once are ignored. -/
theorem seqCmd_ignored (p : Pair) (v : Nat) (s : State) (hm : HostMay s) (hv : v ∈ [3, 5, 6, 7]) :
    Completes (.registerWrite (pairOff p 0x30) 8 v 0) s fun u =>
      fld u F.SEQ_EVENTS_ignored_write p = 1 ∧ (∀ q, seqState u q = seqState s q) ∧ MemSame s u ∧ u.pairs = s.pairs := by
  have hA : Aside [] [(.SEQ_CMD, p.val), (.SEQ_EVENTS, p.val)] s (seqIgnored p (setReg .SEQ_CMD p (reg s .SEQ_CMD p) s)) :=
    (Aside.refl.setReg _ (.inr (by simp))).raise (.inr (by simp))
  refine completes_registerWrite_aside hm.released ?_ hA
    ⟨fld_raise_self (by decide) rfl _ _, fun q => hA.fld (by simp) (by simp), hA.memSame, hA.pairs⟩
  rw [registerWrite_seqCmd hm]
  simp only [List.mem_cons, List.not_mem_nil, or_false] at hv
  rcases hv with rfl | rfl | rfl | rfl <;> rfl

/-! ## Offsets without a register, and accesses that are not one (R5, R9, R206) -/

/-- An unassigned offset reads 0 and takes no write. -/
theorem hole_write (off v : Nat) (s : State) (hm : HostMay s) (hr : regAt off = none) (ho : off < 0x41000) (h8 : off % 8 = 0) :
    regWord s off = 0 ∧ Completes (.registerWrite off 8 v 0) s fun u => u = s := by
  constructor
  · unfold regWord
    rw [if_neg (by simp; omega), if_neg (by simp; omega), if_neg (by simp; omega), hr]
  · refine completes_registerWrite hm.released ?_ rfl rfl rfl
    rw [registerWrite_host hm (by omega), regWrite, if_neg (by omega), if_neg (by simp [accessOk_eight h8]), writeAt,
      if_neg (by simp; omega), if_neg (by simp; omega), show off / 8 * 8 = off by omega, hr]

/-- An access that is only logged. -/
theorem completes_logged {off size v q : Nat} {s : State} (hs : Released s)
    (hu : ∃ f, registerWrite off size v q s = logEvent f s) :
    Completes (.registerWrite off size v q) s fun u => u.log ≠ s.log ∧ Keeps logRegs [] s u ∧ MemSame s u ∧ u.pairs = s.pairs := by
  obtain ⟨f, hu⟩ := hu
  have hA := logEvent_aside f s
  exact completes_registerWrite_aside hs hu hA ⟨logEvent_log_ne f s, hA.2, hA.memSame, hA.pairs⟩

/-- An access of a wrong size or alignment is logged. -/
theorem misaligned_write (off size v : Nat) (s : State) (hm : HostMay s) (ho : off < 0x2000000)
    (h : size ≠ 4 ∧ size ≠ 8 ∨ size = 8 ∧ off % 8 ≠ 0 ∨ size = 4 ∧ off % 4 ≠ 0) :
    Completes (.registerWrite off size v 0) s fun u => u.log ≠ s.log ∧ Keeps logRegs [] s u ∧ MemSame s u ∧ u.pairs = s.pairs := by
  have hk : accessOk off size = false := by
    rw [accessOk, Bool.or_eq_false_iff, Bool.and_eq_false_iff, Bool.and_eq_false_iff]
    simp only [decide_eq_false_iff_not]
    omega
  have hu : registerWrite off size v 0 s = accessFault off size 0 true s := by
    rw [registerWrite_host hm ho, regWrite, if_neg (Nat.not_le.mpr ho), if_pos (by simp [hk])]
  exact completes_logged hm.released ⟨_, hu⟩

/-- An access of Driore past the register space is logged. -/
theorem unmapped_write (off v : Nat) (s : State) (hs : Released s) (hd : drioreDown s = false) (ho : 0x2000000 ≤ off) :
    Completes (.registerWrite off 8 v 1) s fun u => u.log ≠ s.log ∧ Keeps logRegs [] s u ∧ MemSame s u ∧ u.pairs = s.pairs := by
  have hi : s.inService = true := hs
  have hu : registerWrite off 8 v 1 s = unmappedAccess (regBase + off) 8 1 true s := by
    rw [registerWrite, if_neg (by simp [hi]), if_neg (by decide), if_pos rfl, if_neg (by simp [hd]), regWrite, if_pos ho]
  exact completes_logged hs ⟨_, hu⟩

/-- With the link down or in D3hot the host's write does nothing (R330). -/
theorem closed_write (off size v : Nat) (s : State) (hs : Released s) (h : s.pcieUp = false ∨ s.pcieD3 = true) :
    Completes (.registerWrite off size v 0) s fun u => u = s := by
  have hi : s.inService = true := hs
  have hb : barsOpen s = false := by
    rcases h with h | h <;> simp [barsOpen, h]
  refine completes_registerWrite hs ?_ rfl rfl rfl
  rw [registerWrite, if_neg (by simp [hi]), if_pos rfl, if_pos (by simp [hb])]

/-! ## The doorbell (R337) -/

theorem registerWrite_doorbell {v : Nat} {s : State} (hm : HostMay s) : registerWrite 0x2012000 8 v 0 s = doorbell v s := by
  rw [registerWrite_hostUpper hm (by decide), bar0Upper, if_neg (by decide), if_neg (by decide), if_pos (by decide), mboxWrite,
    if_neg (by decide), if_pos (by decide)]

/-- A command at the front that is neither turned away nor remote waits for its own row. -/
theorem mboxGo_waits {s : State} {c : MboxCmd} {rest : List MboxCmd} (hq : s.host.queue = c :: rest) (ht : turnedAway s c = none)
    (hr : c.remote = none) : mboxGo s = s := by
  unfold mboxGo mboxRun
  rw [hq]
  dsimp only
  rw [ht, hr]
  split <;> rfl

/-- With no command in progress the command in the buffer is accepted, and waits for its own row. -/
theorem doorbell_accepts (v : Nat) (s : State) (hm : HostMay s) (hb : s.host.busy = false) (hq : s.host.queue = [])
    (hr : (bufferCmd s).remote = none) (ht : turnedAway s (bufferCmd s) = none) :
    Completes (.registerWrite 0x2012000 8 v 0) s fun u =>
      u = { s with host := { s.host with accepted := v % 65536, busy := true, queue := [bufferCmd s] } } := by
  let u : State := { s with host := { s.host with accepted := v % 65536, busy := true, queue := [bufferCmd s] } }
  refine completes_registerWrite (u := u) hm.released ?_ rfl rfl rfl
  have hgo : mboxGo u = u := mboxGo_waits rfl ht hr
  rw [registerWrite_doorbell hm, doorbell, if_neg (by simp [hb]), modHost, hq]
  exact hgo

/-- With one in progress the bell is ignored. -/
theorem doorbell_busy (v : Nat) (s : State) (hm : HostMay s) (hb : s.host.busy = true) :
    Completes (.registerWrite 0x2012000 8 v 0) s fun u => Ignored F.HOST_EVENTS_mbox_busy s u := by
  refine completes_registerWrite_aside hm.released ?_ (raise_aside _ 0 s) (raise_ignored (by decide) rfl s)
  rw [registerWrite_doorbell hm, doorbell, if_pos hb]

/-! ## The statement -/

/-- Settles O54: each clause is the write of one kind of register or access. -/
theorem registerWrites : Obligations.RegisterWrites :=
  ⟨hostWin_write, gexExclude_write, routeBias_write, router_write, groupCfg_write, rlEvents_write, energy_write, portCtrl_write,
    cap_write_ignored, cap_write, volt_write, seqCmd_pause, seqCmd_ignored, hole_write, misaligned_write, unmapped_write, doorbell_accepts,
    doorbell_busy, closed_write⟩

end Sys2Proof.Machine

/-! SUPPORT. Fields and counts read after writes, changes that reach memory, and commands that leave the queue alone. -/

namespace Sys2Proof.Machine

/-! ## Commands of the released part -/

/-- A command of the released part that leaves the release and the queue alone completes as its meaning says. -/
theorem completes_kept {c : Instr} {f : State → State} {s u : State} {P : State → Prop} (hs : Released s)
    (he : exec c s = .next (whenReleased f s)) (hu : f s = u) (h1 : u.inService = s.inService) (h2 : u.pending = s.pending) (hp : P u) :
    Completes c s P := by
  subst hu
  exact ⟨_, he.trans (congrArg Host.Outcome.next (whenReleased_self hs h1 h2)), hp⟩

/-! ## Fields -/

/-- A field read after the write of another, whatever instances of their registers they stand in. -/
theorem fld_setFld_apart {f g : Fld} (h : g.ok = true) (hd : f.reg = g.reg → f.hi < g.lo ∨ g.hi < f.lo) (i j v : Nat) (s : State) :
    fld (setFld f i v s) g j = fld s g j := by
  by_cases hr : f.reg = g.reg
  · by_cases hi : i = j
    · subst hi; exact fld_setFld_same hr h (hd hr) i v s
    · exact fld_setFld_ne v s (.inr hi)
  · exact fld_setFld_ne v s (.inl hr)

theorem fld_raise_apart {f g : Fld} (h : g.ok = true) (hd : f.reg = g.reg → f.hi < g.lo ∨ g.hi < f.lo) (i j : Nat) (s : State) :
    fld (raise f i s) g j = fld s g j := fld_setFld_apart h hd i j 1 s

theorem fld_satAddFld_apart {f g : Fld} (h : g.ok = true) (hd : f.reg = g.reg → f.hi < g.lo ∨ g.hi < f.lo) (i j n : Nat) (s : State) :
    fld (satAddFld f i n s) g j = fld s g j := fld_setFld_apart h hd i j _ s

theorem satAdd_mod (n a b : Nat) : satAdd n a b % 2 ^ n = satAdd n a b := by
  have := Nat.two_pow_pos n
  exact Nat.mod_eq_of_lt (by unfold satAdd; omega)

/-- A saturating count read after it is raised. -/
theorem fld_satAddFld_self {f : Fld} (h : f.ok = true) (i n : Nat) (s : State) :
    fld (satAddFld f i n s) f i = satAdd f.width (fld s f i) n := by
  rw [satAddFld, fld_setFld_self h, satAdd_mod]

/-- A field read after its own write of a value that fits it. -/
theorem fld_setFld_fits {f : Fld} (h : f.ok = true) (i : Nat) {v : Nat} (hv : v < 2 ^ f.width) (s : State) :
    fld (setFld f i v s) f i = v := (fld_setFld_self h i v s).trans (Nat.mod_eq_of_lt hv)

/-! ## Changes that reach memory -/

/-- From s to u only memory, its marks, its zero maps, the registers of rs and ks and what Aside allows have changed. -/
def BesideMem (rs : List Reg) (ks : List (Reg × Nat)) (s u : State) : Prop :=
  Aside rs ks { s with mem := u.mem, poison := u.poison, filled := u.filled } u

section
variable {rs rs' : List Reg} {ks ks' : List (Reg × Nat)} {s t u : State}

theorem Aside.besideMem (h : Aside rs ks s u) : BesideMem rs ks s u :=
  ⟨h.1.trans (by rw [h.mem, h.poison, show u.filled = s.filled from (congrArg State.filled h.1 :)]), h.2⟩

theorem BesideMem.trans (h1 : BesideMem rs ks s t) (h2 : BesideMem rs ks t u) : BesideMem rs ks s u :=
  ⟨h2.1.trans (congrArg (fun x : State => { x with mem := u.mem, poison := u.poison, filled := u.filled }) h1.1), Keeps.trans h1.2 h2.2⟩

theorem BesideMem.mono (h : BesideMem rs ks s u) (h1 : ∀ r ∈ rs, r ∈ rs') (h2 : ∀ k ∈ ks, k.1 ∈ rs' ∨ k ∈ ks') : BesideMem rs' ks' s u :=
  Aside.mono h h1 h2

/-- A change of memory, its marks and its zero maps alone. -/
theorem BesideMem.of_mem (h : u = { s with mem := u.mem, poison := u.poison, filled := u.filled }) : BesideMem rs ks s u :=
  ⟨(congrArg State.still h :), fun r i _ _ => (congrArg (fun x => Machine.reg x r i) h :)⟩

theorem BesideMem.keeps (h : BesideMem rs ks s u) : Keeps rs ks s u := h.2

theorem BesideMem.fld (h : BesideMem rs ks s u) {f : Fld} {i : Nat} (h1 : f.reg ∉ rs) (h2 : (f.reg, i) ∉ ks) :
    Machine.fld u f i = Machine.fld s f i := h.keeps.fld h1 h2

theorem BesideMem.pairs (h : BesideMem rs ks s u) : u.pairs = s.pairs := (congrArg State.pairs h.1 :)
theorem BesideMem.us (h : BesideMem rs ks s u) : u.us = s.us := (congrArg State.us h.1 :)
theorem BesideMem.inService (h : BesideMem rs ks s u) : u.inService = s.inService := (congrArg State.inService h.1 :)
theorem BesideMem.pending (h : BesideMem rs ks s u) : u.pending = s.pending := (congrArg State.pending h.1 :)
theorem BesideMem.hives (h : BesideMem rs ks s u) : u.hives = s.hives := (congrArg State.hives h.1 :)
theorem BesideMem.requests (h : BesideMem rs ks s u) : u.requests = s.requests := (congrArg State.requests h.1 :)

/-- What every step of a fold changes beside memory, the fold does. -/
theorem foldl_besideMem {α : Type} {f : State → α → State} (h : ∀ t a, BesideMem rs ks t (f t a)) (l : List α) (s : State) :
    BesideMem rs ks s (l.foldl f s) := by
  induction l generalizing s with
  | nil => exact Aside.refl.besideMem
  | cons a l ih => exact (h s a).trans (ih _)

theorem setMark_besideMem (x : Nat) (v : Bool) (s : State) : BesideMem rs ks s (setMark x v s) := .of_mem rfl

theorem pokeByte_besideMem (a v : Nat) (s : State) : BesideMem rs ks s (pokeByte a v s) := .of_mem rfl

theorem pokeBytes_besideMem (a : Nat) (bs : List Nat) (s : State) : BesideMem rs ks s (pokeBytes a bs s) := by
  induction bs generalizing a s with
  | nil => exact Aside.refl.besideMem
  | cons b bs ih => exact (pokeByte_besideMem a b s).trans (ih _ _)

theorem fillGranule_besideMem (a : Nat) (s : State) : BesideMem rs ks s (fillGranule a s) := by
  unfold fillGranule
  split
  · exact .of_mem rfl
  · exact Aside.refl.besideMem

end

/-! ## Marks -/

@[simp] theorem marked_setMark_self (x : Nat) (v : Bool) (s : State) : marked (setMark x v s) x = v := by
  simp [marked, setMark]

theorem marked_setMark_ne {x y : Nat} (v : Bool) (s : State) (h : y ≠ x) : marked (setMark x v s) y = marked s y := by
  simp only [marked, setMark, SMap.get_set_ne h]

theorem pokeBytes_poison (a : Nat) (bs : List Nat) (s : State) : (pokeBytes a bs s).poison = s.poison := by
  induction bs generalizing a s with
  | nil => rfl
  | cons b bs ih => exact ih _ _

theorem fillGranule_poison (a : Nat) (s : State) : (fillGranule a s).poison = s.poison := by unfold fillGranule; split <;> rfl

end Sys2Proof.Machine

/-! SUPPORT. The reads and writes of memory and what they meet (R20, R211, R218–R221). -/

namespace Sys2Proof.Machine

variable {a rq h : Nat} {s : State}

/-! ## Where an address lies -/

theorem isMemory_of_far (hf : FarAt a h) : isMemory a = true := by simp [isMemory, hf]

theorem hasCells_far (hf : FarAt a h) : hasCells s a = SMap.get false s.filled (granuleOf a) := by simp [hasCells, hf]

theorem isMemory_of_offline (ho : offline s a = true) : isMemory a = true := by
  unfold offline at ho
  unfold isMemory
  cases ht : tierOf a <;> simp [ht] at ho ⊢

theorem underReset_of_online (hf : FarAt a h) (ho : offline s a = false) : underReset s h = false := by
  simp only [offline, hf, Bool.or_eq_false_iff] at ho
  exact ho.1

theorem underReset_congr {t : State} (h1 : hiveState t h = hiveState s h) (h2 : fld t F.MEM_STATUS_near_ready h = fld s F.MEM_STATUS_near_ready h) :
    underReset t h = underReset s h := by
  simp only [underReset, fldB, h1, h2]

/-- The channels of a hive are numbered from 8 times its number. -/
theorem farChannel_hive (hf : FarAt a h) : farChannel a / 8 = h := by
  have hc : channelOf a < 2 ^ 3 := Nat.xor_lt_two_pow (Nat.mod_lt _ (by decide)) (Nat.mod_lt _ (by decide))
  have hh : a / hiveBytes = h := by
    unfold FarAt tierOf at hf
    split at hf
    · exact Tier.far.inj hf
    · split_ifs at hf
  unfold farChannel
  omega

/-! ## Reads -/

theorem memoryRead_online {e : MemErr} (hm : isMemory a = true) (ho : offline s a = false) :
    memoryRead a rq e s = readMeets a rq e s := by
  simp [memoryRead, hm, ho]

theorem memoryRead_offline {e : MemErr} (ho : offline s a = true) : memoryRead a rq e s = noteOffline a rq true s := by
  simp [memoryRead, isMemory_of_offline ho, ho]

/-- An escalation of a hive in service waits for its tick (R372). -/
theorem escalate_waits (hu : underReset s h = false) (cause pr : Nat) :
    ∃ fs, escalate h cause pr s = { s with pendingFaults := fs } := ⟨_, by simp only [escalate, hu, Bool.false_eq_true, if_false]; rfl⟩

/-- The counts of an uncorrectable error of far memory of hive h (R220, R221). -/
def farCounted (h : Nat) (s : State) : State :=
  satAddFld F.MEM_POISON_REC_far 0 1 (satAddFld F.MEM_ECC_FAR_uncorrected h 1 (raise F.MEM_EVENTS_far_ue h s))

theorem farCounted_aside (h : Nat) (s : State) : Aside [] [(.MEM_POISON_REC, 0), (.MEM_ECC_FAR, h), (.MEM_EVENTS, h)] s (farCounted h s) :=
  ((Aside.refl.raise (.inr (by simp))).satAddFld _ (.inr (by simp))).satAddFld _ (.inr (by simp))

theorem fld_farCounted_event (h : Nat) (s : State) : fld (farCounted h s) F.MEM_EVENTS_far_ue h = 1 := by
  rw [farCounted, fld_satAddFld_apart (by decide) (by decide), fld_satAddFld_apart (by decide) (by decide), fld_raise_self (by decide) rfl]

theorem fld_farCounted_ecc (h : Nat) (s : State) :
    fld (farCounted h s) F.MEM_ECC_FAR_uncorrected h = satAdd F.MEM_ECC_FAR_uncorrected.width (fld s F.MEM_ECC_FAR_uncorrected h) 1 := by
  rw [farCounted, fld_satAddFld_apart (by decide) (by decide), fld_satAddFld_self (by decide), fld_raise_apart (by decide) (by decide)]

theorem fld_farCounted_rec (h : Nat) (s : State) : fld (farCounted h s) F.MEM_POISON_REC_far = satAdd 16 (fld s F.MEM_POISON_REC_far) 1 := by
  rw [farCounted, fld_satAddFld_self (by decide), fld_satAddFld_apart (by decide) (by decide), fld_raise_apart (by decide) (by decide)]
  rfl

/-- An uncorrectable error of far memory in service is counted and logged, and its escalation waits. -/
theorem noteUncorrectable_far (hf : FarAt a h) (hu : underReset s h = false) :
    ∃ f fs, noteUncorrectable a rq s = { logEvent f (farCounted h s) with pendingFaults := fs } := by
  unfold noteUncorrectable
  rw [hf]
  dsimp only
  split
  · refine ⟨_, escalate_waits ?_ _ _⟩
    refine (underReset_congr ?_ ?_).trans hu
    · exact ((logEvent_aside _ _).fld (by decide) (by simp)).trans ((farCounted_aside h s).fld (by decide) (by simp))
    · exact ((logEvent_aside _ _).fld (by decide) (by simp)).trans ((farCounted_aside h s).fld (by decide) (by simp))
  · exact ⟨_, _, rfl⟩

/-- A channel of a hive in service that fails: its mark and event, and an escalation that waits; the log is as before. -/
theorem failChannel_waits {c : Nat} (hc : c / 8 = h) (hu : underReset s h = false) :
    Aside [] [(.MEM_STATUS, h), (.MEM_EVENTS, h)] s (failChannel c s) ∧ (failChannel c s).log = s.log
      ∧ fld (failChannel c s) F.MEM_EVENTS_far_ue h = fld s F.MEM_EVENTS_far_ue h := by
  unfold failChannel
  rw [hc]
  dsimp only
  split
  · exact ⟨.refl, rfl, rfl⟩
  · generalize setBitN _ _ = v
    have hA : Aside [] [(.MEM_STATUS, h), (.MEM_EVENTS, h)] s (raise F.MEM_EVENTS_chan_fail h (setFld F.MEM_STATUS_chan_failed h v s)) :=
      (Aside.refl.setFld _ (.inr (by simp))).raise (.inr (by simp))
    have hkept : ∀ {g : Fld} (j : Nat), g.ok = true → (F.MEM_EVENTS_chan_fail.reg = g.reg → F.MEM_EVENTS_chan_fail.hi < g.lo ∨ g.hi < F.MEM_EVENTS_chan_fail.lo) →
        (F.MEM_STATUS_chan_failed.reg = g.reg → F.MEM_STATUS_chan_failed.hi < g.lo ∨ g.hi < F.MEM_STATUS_chan_failed.lo) →
        fld (raise F.MEM_EVENTS_chan_fail h (setFld F.MEM_STATUS_chan_failed h v s)) g j = fld s g j := fun j hg h1 h2 =>
      (fld_raise_apart hg h1 _ _ _).trans (fld_setFld_apart hg h2 _ _ _ _)
    obtain ⟨fs, he⟩ := escalate_waits ((underReset_congr (hkept _ (by decide) (by decide) (by decide))
      (hkept _ (by decide) (by decide) (by decide))).trans hu) 0x06 255
    rw [he]
    exact ⟨hA.trans (.of_still rfl rfl), rfl, hkept _ (by decide) (by decide) (by decide)⟩

/-- A far transfer that fails in service changes the channel's own records, and may fail the channel; the log is as before. -/
theorem noteFailed_far (hf : FarAt a h) (hu : underReset s h = false) :
    (∃ x, Aside [] [(.MEM_STATUS, h), (.MEM_EVENTS, h)] { s with chans := x } (noteFailed a s)) ∧ (noteFailed a s).log = s.log
      ∧ fld (noteFailed a s) F.MEM_EVENTS_far_ue h = fld s F.MEM_EVENTS_far_ue h := by
  unfold noteFailed modChan
  dsimp only
  generalize SMap.set (α := ChanS) _ _ _ _ = x
  have ht : underReset { s with chans := x } h = false := hu
  split
  · obtain ⟨hA, hl, he⟩ := failChannel_waits (farChannel_hive hf) ht
    exact ⟨⟨x, hA⟩, hl, he⟩
  · exact ⟨⟨x, .refl⟩, rfl, rfl⟩

/-- An offline access that is no read is not counted. -/
theorem noteOffline_write_aside (a rq : Nat) (s : State) :
    Aside [.MEM_EVENTS, .RL_LOG_PTR, .RL_EVENTS] [] s (noteOffline a rq false s) := by
  unfold noteOffline
  simp only [Bool.false_eq_true, if_false]
  split
  · exact (Aside.refl.raise (.inl (by decide))).trans ((logEvent_aside _ _).mono (by simp) (by simp))
  · exact .refl

theorem noteOffline_read (a rq : Nat) (s : State) :
    noteOffline a rq true s = noteOffline a rq false (satAddFld F.MEM_POISON_REC_offline 0 1 s) := rfl

/-! ## Writes -/

theorem writeBytes_nil (n a : Nat) (bad : Bool) (s : State) : writeBytes n a [] bad s = s := by cases n <;> rfl

/-- A write within one sector is one part. -/
theorem memWrite_sector {bs : List Nat} {bad : Bool} (hb : bs ≠ []) (hl : a % 64 + bs.length ≤ 64) :
    memWrite a bs bad s = writeSector a bs bad s := by
  have hk : bs.length ≤ 64 - a % 64 := by omega
  obtain ⟨b, l, rfl⟩ := List.exists_cons_of_ne_nil hb
  rw [memWrite, writeBytes, List.take_of_length_le hk, List.drop_of_length_le hk, writeBytes_nil]

/-- A sector's bytes in place, its granule filled, its mark as it was. -/
def sectorPoked (a : Nat) (bs : List Nat) (s : State) : State := pokeBytes a bs (fillGranule a s)

theorem writeSector_online {bs : List Nat} {bad : Bool} (ho : offline s a = false) (hd : dirFull s a = false) :
    writeSector a bs bad s = if bad then setMark (a / 64) true (sectorPoked a bs s)
      else if bs.length = 64 then setMark (a / 64) false (sectorPoked a bs s) else sectorPoked a bs s := by
  simp only [writeSector, ho, hd, Bool.and_false, Bool.false_eq_true, if_false, sectorPoked]

theorem marked_sectorPoked (bs : List Nat) (x : Nat) : marked (sectorPoked a bs s) x = marked s x := by
  simp only [marked, sectorPoked, pokeBytes_poison, fillGranule_poison]

theorem writeSector_besideMem {bs : List Nat} {bad : Bool} (ho : offline s a = false) (hd : dirFull s a = false) :
    BesideMem [] [] s (writeSector a bs bad s) := by
  have hp : BesideMem [] [] s (sectorPoked a bs s) := (fillGranule_besideMem a s).trans (pokeBytes_besideMem a bs _)
  rw [writeSector_online ho hd]
  split_ifs
  · exact hp.trans (setMark_besideMem _ _ _)
  · exact hp.trans (setMark_besideMem _ _ _)
  · exact hp

theorem writeSector_mem {bs : List Nat} {bad : Bool} (ho : offline s a = false) (hd : dirFull s a = false) :
    (writeSector a bs bad s).mem = (sectorPoked a bs s).mem := by
  rw [writeSector_online ho hd]
  split_ifs <;> rfl

/-- The mark of the sector written (R218). -/
theorem marked_writeSector_self {bs : List Nat} {bad : Bool} (ho : offline s a = false) (hd : dirFull s a = false) :
    marked (writeSector a bs bad s) (a / 64) = (bad || (marked s (a / 64) && decide (bs.length ≠ 64))) := by
  rw [writeSector_online ho hd]
  cases bad with
  | true => simp
  | false => by_cases hl : bs.length = 64 <;> simp [hl, marked_sectorPoked]

theorem marked_writeSector_ne {bs : List Nat} {bad : Bool} (ho : offline s a = false) (hd : dirFull s a = false) {x : Nat} (hx : x ≠ a / 64) :
    marked (writeSector a bs bad s) x = marked s x := by
  rw [writeSector_online ho hd]
  split_ifs
  · rw [marked_setMark_ne _ _ hx, marked_sectorPoked]
  · rw [marked_setMark_ne _ _ hx, marked_sectorPoked]
  · exact marked_sectorPoked _ _

theorem bytesAt_sectorPoked {bs : List Nat} (hb : ∀ b ∈ bs, b < 256) : bytesAt (sectorPoked a bs s) a bs.length = bs := by
  refine List.ext_getElem (by simp [bytesAt]) fun i h1 h2 => ?_
  simp only [bytesAt, List.getElem_map, List.getElem_range]
  rw [sectorPoked, byteAt_pokeBytes_in _ h2, Nat.mod_eq_of_lt (hb _ (List.getElem_mem h2))]

/-! ## The clauses of O36 -/

theorem read_clean (a rq : Nat) (s : State) (hs : Released s) (hm : isMemory a = true) (ho : offline s a = false) :
    Completes (.memoryRead a rq .none) s fun u => u = s :=
  completes_kept hs rfl (memoryRead_online hm ho) rfl rfl rfl

theorem read_corrected (a rq h : Nat) (s : State) (hs : Released s) (ho : offline s a = false) (hf : FarAt a h)
    (hc : SMap.get false s.filled (granuleOf a) = true) :
    Completes (.memoryRead a rq .corrected) s fun u =>
      fld u F.MEM_ECC_FAR_corrected h = satAdd F.MEM_ECC_FAR_corrected.width (fld s F.MEM_ECC_FAR_corrected h) 1 ∧ fld u F.MEM_EVENTS_far_ce h = 1
        ∧ Keeps [] [(.MEM_ECC_FAR, h), (.MEM_EVENTS, h)] s u ∧ u.still = s.still := by
  have hA : Aside [] [(.MEM_ECC_FAR, h), (.MEM_EVENTS, h)] s (satAddFld F.MEM_ECC_FAR_corrected h 1 (raise F.MEM_EVENTS_far_ce h s)) :=
    (Aside.refl.raise (.inr (by simp))).satAddFld _ (.inr (by simp))
  have hu : memoryRead a rq .corrected s = satAddFld F.MEM_ECC_FAR_corrected h 1 (raise F.MEM_EVENTS_far_ce h s) := by
    rw [memoryRead_online (isMemory_of_far hf) ho]
    simp [readMeets, hasCells_far hf, hc, noteCorrected, hf]
  refine completes_kept hs rfl hu hA.inService hA.pending ⟨?_, ?_, hA.2, hA.1⟩
  · rw [fld_satAddFld_self (by decide), fld_raise_apart (by decide) (by decide)]
  · rw [fld_satAddFld_apart (by decide) (by decide), fld_raise_self (by decide) rfl]

theorem read_uncorrectable (a rq h : Nat) (s : State) (hs : Released s) (ho : offline s a = false) (hf : FarAt a h)
    (hm : marked s (a / 64) = false) (hd : dirFull s a = false) (hc : SMap.get false s.filled (granuleOf a) = true) :
    Completes (.memoryRead a rq .uncorrectable) s fun u =>
      marked u (a / 64) = true ∧ (∀ x, x ≠ a / 64 → marked u x = marked s x) ∧ (∀ b, byteAt u b = byteAt s b)
        ∧ fld u F.MEM_ECC_FAR_uncorrected h = satAdd F.MEM_ECC_FAR_uncorrected.width (fld s F.MEM_ECC_FAR_uncorrected h) 1 ∧ fld u F.MEM_EVENTS_far_ue h = 1
        ∧ fld u F.MEM_POISON_REC_far = satAdd 16 (fld s F.MEM_POISON_REC_far) 1 ∧ u.log ≠ s.log := by
  have hu := underReset_of_online hf ho
  set p := setMark (a / 64) true s with hp
  obtain ⟨f, fs, hn⟩ := noteUncorrectable_far (rq := rq) (s := p) hf hu
  set t : State := { logEvent f (farCounted h p) with pendingFaults := fs }
  have hA : Aside logRegs [] (farCounted h p) t := (logEvent_aside f _).trans (.of_still rfl rfl)
  have hB := farCounted_aside h p
  have hut : underReset t h = false :=
    (underReset_congr ((hA.fld (by decide) (by simp)).trans (hB.fld (by decide) (by simp)))
      ((hA.fld (by decide) (by simp)).trans (hB.fld (by decide) (by simp)))).trans hu
  obtain ⟨⟨x, hC⟩, hlog, hev⟩ := noteFailed_far hf hut
  have hr : memoryRead a rq .uncorrectable s = noteFailed a t := by
    rw [memoryRead_online (isMemory_of_far hf) ho, ← hn]
    simp [readMeets, hasCells_far hf, hc, hf, hm, poisonSector, hd, hp]
  have hmem : (noteFailed a t).mem = s.mem := hC.mem.trans (hA.mem.trans hB.mem)
  have hpoison : (noteFailed a t).poison = p.poison := hC.poison.trans (hA.poison.trans hB.poison)
  have hmark : ∀ y, marked (noteFailed a t) y = marked p y := fun y => by simp only [marked, hpoison]
  refine completes_released hs rfl ?_
  rw [hr]
  simp only [keepQueue_marked, keepQueue_byteAt, keepQueue_fld, keepQueue_log]
  refine ⟨?_, fun y hy => ?_, byteAt_congr hmem, ?_, ?_, ?_, ?_⟩
  · exact (hmark _).trans (marked_setMark_self _ _ _)
  · exact (hmark y).trans (marked_setMark_ne _ _ hy)
  · exact (hC.fld (by simp) (by simp)).trans ((hA.fld (by decide) (by simp)).trans (fld_farCounted_ecc h p))
  · exact hev.trans ((hA.fld (by decide) (by simp)).trans (fld_farCounted_event h p))
  · exact (hC.fld (by simp) (by simp)).trans ((hA.fld (by decide) (by simp)).trans (fld_farCounted_rec h p))
  · exact fun e => logEvent_log_ne f (farCounted h p) (hlog.symm.trans e)

theorem read_unfilled (a rq h : Nat) (e : MemErr) (s : State) (hs : Released s) (ho : offline s a = false) (hf : FarAt a h)
    (hc : SMap.get false s.filled (granuleOf a) = false) (hz : ∀ gs, e ≠ .zeroMap gs) (hn : ∀ off, e ≠ .alwaysOn off) :
    Completes (.memoryRead a rq e) s fun u => u = s := by
  refine completes_kept (u := s) hs rfl ?_ rfl rfl rfl
  rw [memoryRead_online (isMemory_of_far hf) ho]
  have hcells : hasCells s a = false := (hasCells_far hf).trans hc
  cases e with
  | zeroMap gs => exact absurd rfl (hz gs)
  | alwaysOn off => exact absurd rfl (hn off)
  | none => rfl
  | corrected | uncorrectable | retried n | flagSplit => simp [readMeets, hcells]

theorem read_offline (a rq : Nat) (e : MemErr) (s : State) (hs : Released s) (ho : offline s a = true) :
    Completes (.memoryRead a rq e) s fun u =>
      fld u F.MEM_POISON_REC_offline = satAdd 12 (fld s F.MEM_POISON_REC_offline) 1 ∧ MemSame s u := by
  refine completes_released hs rfl ?_
  rw [memoryRead_offline ho]
  refine ⟨?_, (noteOffline_aside a rq true s).memSame⟩
  rw [keepQueue_fld, noteOffline_read, (noteOffline_write_aside _ _ _).fld (by decide) (by simp), fld_satAddFld_self (by decide)]
  rfl

theorem write_sector (a rq : Nat) (bs : List Nat) (bad : Bool) (s : State) (hs : Released s) (hm : isMemory a = true)
    (ho : offline s a = false) (hne : bs ≠ []) (hl : a % 64 + bs.length ≤ 64) (hb : ∀ b ∈ bs, b < 256) (hd : dirFull s a = false) :
    Completes (.memoryWrite a rq bs bad .none) s fun u =>
      bytesAt u a bs.length = bs ∧ Wrote a bs.length s u
        ∧ marked u (a / 64) = (bad || (marked s (a / 64) && decide (bs.length ≠ 64))) ∧ (∀ x, x ≠ a / 64 → marked u x = marked s x)
        ∧ Keeps [] [] s u ∧ u.pairs = s.pairs := by
  have hu : memoryWrite a rq bs bad .none s = writeSector a bs bad s := by
    have ht : bs.take (64 - a % 64) = bs := List.take_of_length_le (by omega)
    simp [memoryWrite, hm, ho, ht, memWrite_sector hne hl]
  have hB := writeSector_besideMem (bs := bs) (bad := bad) ho hd
  refine completes_kept hs rfl hu hB.inService hB.pending ⟨?_, fun b hx => byteAt_writeSector_out bad s hx, marked_writeSector_self ho hd,
    fun x hx => marked_writeSector_ne ho hd hx, hB.keeps, hB.pairs⟩
  have hbytes : bytesAt (writeSector a bs bad s) a bs.length = bytesAt (sectorPoked a bs s) a bs.length := by
    simp only [bytesAt, byteAt_congr (writeSector_mem ho hd)]
  rw [hbytes, bytesAt_sectorPoked hb]

theorem write_offline (a rq : Nat) (bs : List Nat) (bad : Bool) (s : State) (hs : Released s) (ho : offline s a = true) :
    Completes (.memoryWrite a rq bs bad .none) s fun u => MemSame s u ∧ u.pairs = s.pairs := by
  have hu : memoryWrite a rq bs bad .none s = noteOffline a rq false s := by
    simp [memoryWrite, isMemory_of_offline ho, ho]
  have hA := noteOffline_write_aside a rq s
  exact completes_kept hs rfl hu hA.inService hA.pending ⟨hA.memSame, hA.pairs⟩

/-- An access to no memory is logged, and nothing of memory or the pairs changes. -/
theorem unmappedAccess_logs (a n q : Nat) (w : Bool) (s : State) :
    MemSame s (unmappedAccess a n q w s) ∧ (unmappedAccess a n q w s).pairs = s.pairs ∧ (unmappedAccess a n q w s).log ≠ s.log := by
  unfold unmappedAccess
  cases w with
  | true =>
    have hA := fun f : LogFacts => logEvent_aside f s
    exact ⟨(hA _).memSame, (hA _).pairs, logEvent_log_ne _ _⟩
  | false =>
    have hA := fun f : LogFacts => logEvent_aside f (satAddFld F.MEM_POISON_REC_offline 0 (sectorsOf a n).length s)
    exact ⟨(hA _).memSame, (hA _).pairs, logEvent_log_ne _ _⟩

theorem access_unmapped (a rq : Nat) (bs : List Nat) (bad : Bool) (e : MemErr) (s : State) (hs : Released s) (hm : isMemory a = false) :
    (Completes (.memoryRead a rq e) s fun u => MemSame s u ∧ u.pairs = s.pairs ∧ u.log ≠ s.log)
      ∧ Completes (.memoryWrite a rq bs bad e) s fun u => MemSame s u ∧ u.pairs = s.pairs ∧ u.log ≠ s.log := by
  have hr : memoryRead a rq e s = unmappedAccess a 64 (hostOf rq) false s := by simp [memoryRead, hm]
  have hw : memoryWrite a rq bs bad e s = unmappedAccess a (bs.take (64 - a % 64)).length (hostOf rq) true s := by simp [memoryWrite, hm]
  constructor
  · refine completes_released hs rfl ?_
    rw [hr]
    exact unmappedAccess_logs _ _ _ _ s
  · refine completes_released hs rfl ?_
    rw [hw]
    exact unmappedAccess_logs _ _ _ _ s

/-- Settles O36: each clause is one kind of access. -/
theorem memoryAccess : Obligations.MemoryAccess :=
  ⟨read_clean, read_corrected, read_uncorrectable, read_unfilled, read_offline, write_sector, write_offline, access_unmapped⟩

end Sys2Proof.Machine

/-! SUPPORT. What sending, logging and the loops' status leave of the faults that wait for a tick, and the hives' records. -/

namespace Sys2Proof.SMap

variable {α : Type}

/-- Dropped keys read as unlisted ones, the others as before. -/
theorem get_dropKeys (d : α) (m : SMap α) (q : Nat → Bool) (k : Nat) : get d (dropKeys m q) k = if q k then d else get d m k := by
  induction m with
  | nil => simp [dropKeys, get]
  | cons e m ih =>
    obtain ⟨a, v⟩ := e
    rw [dropKeys] at ih ⊢
    by_cases hq : q a = true
    · rw [List.filter_cons_of_neg (by simp [hq]), ih]
      by_cases ha : a = k
      · subst ha; simp [hq]
      · simp [get, ha]
    · rw [List.filter_cons_of_pos (by simp [hq])]
      by_cases ha : a = k
      · subst ha; simp [get, hq]
      · simp [get, ha, ih]

end Sys2Proof.SMap

namespace Sys2Proof.Machine

/-! ## Faults that wait for a tick -/

section
variable (s : State)

theorem foldl_pendingFaults {α : Type} {f : State → α → State} (h : ∀ t a, (f t a).pendingFaults = t.pendingFaults) (l : List α) :
    (l.foldl f s).pendingFaults = s.pendingFaults :=
  foldl_invariant (P := fun t : State => t.pendingFaults = s.pendingFaults) (fun t a ht => (h t a).trans ht) l rfl

@[simp] theorem msix_pendingFaults (v : Nat) : (msix v s).pendingFaults = s.pendingFaults := by
  unfold msix
  split_ifs <;> rfl

@[simp] theorem countPort_pendingFaults (lo hi : Fld) (port n : Nat) : (countPort lo hi port n s).pendingFaults = s.pendingFaults := by
  unfold countPort
  split_ifs <;> rfl

@[simp] theorem sendPacket_pendingFaults (port : Nat) (p : Packet) : (sendPacket port p s).pendingFaults = s.pendingFaults := by
  unfold sendPacket
  exact (countPort_pendingFaults _ _ _ _ _).trans (foldl_pendingFaults (f := sendData port) _ (fun _ _ => rfl) _)

@[simp] theorem servePort_pendingFaults (k n : Nat) : (servePort k n s).pendingFaults = s.pendingFaults := by
  induction k generalizing s with
  | zero => rfl
  | succ k ih =>
    unfold servePort
    split
    · rfl
    · split
      · rfl
      · rw [ih]
        split
        · rfl
        · exact sendPacket_pendingFaults _ _ _

@[simp] theorem transmit_pendingFaults (port input : Nat) (p : Packet) : (transmit port input p s).pendingFaults = s.pendingFaults :=
  servePort_pendingFaults _ _ _

@[simp] theorem sendOn_pendingFaults {fromAxis : Option Nat} {input : Nat} {p : Packet} {back : State → State}
    (hb : ∀ t, (back t).pendingFaults = t.pendingFaults) : (sendOn fromAxis input p back s).pendingFaults = s.pendingFaults := by
  unfold sendOn
  split
  · rw [transmit_pendingFaults]
    split_ifs <;> rfl
  · exact hb _

@[simp] theorem injectOne_pendingFaults (p : Packet) : (injectOne p s).pendingFaults = s.pendingFaults := by
  unfold injectOne
  dsimp only
  split
  · rfl
  · split
    · exact transmit_pendingFaults _ _ _ _
    · exact sendOn_pendingFaults s fun t => by split_ifs <;> rfl

@[simp] theorem inject_pendingFaults (p : Packet) : (inject p s).pendingFaults = s.pendingFaults :=
  foldl_pendingFaults s (fun t m => injectOne_pendingFaults t m) _

@[simp] theorem queenTake_pendingFaults (e : EventRec) : (queenTake e s).pendingFaults = s.pendingFaults := by
  unfold queenTake
  split
  · rfl
  · split
    · rfl
    · exact msix_pendingFaults _ _

@[simp] theorem sendEvent_pendingFaults (block item pr data : Nat) : (sendEvent block item pr data s).pendingFaults = s.pendingFaults := by
  unfold sendEvent sendRec
  dsimp only
  split
  · rfl
  · split
    · rfl
    · unfold deliverRec
      split
      · exact queenTake_pendingFaults _ _
      · exact inject_pendingFaults _ _

@[simp] theorem sendEventOpen_pendingFaults (block item pr : Nat) : (sendEventOpen block item pr s).pendingFaults = s.pendingFaults :=
  sendEvent_pendingFaults _ _ _ _ _

@[simp] theorem powerStatus_pendingFaults : (powerStatus s).pendingFaults = s.pendingFaults := by
  unfold powerStatus
  extract_lets was s1 s2 now s3
  split
  · exact sendEventOpen_pendingFaults _ _ _ _
  · rfl

@[simp] theorem clockStatus_pendingFaults : (clockStatus s).pendingFaults = s.pendingFaults := by
  unfold clockStatus
  split
  · exact powerStatus_pendingFaults s
  · rfl

@[simp] theorem logNew_pendingFaults (f : LogFacts) : (logNew f s).pendingFaults = s.pendingFaults := by
  unfold logNew
  dsimp only
  split_ifs <;> rfl

@[simp] theorem noteFault_pendingFaults (before : State) : (noteFault before s).pendingFaults = s.pendingFaults := by
  unfold noteFault
  split
  · dsimp only
    split
    · exact msix_pendingFaults _ _
    · rfl
  · rfl

theorem noteFault_aside (before : State) : Aside [] [] s (noteFault before s) := by
  unfold noteFault
  split
  · exact (Aside.refl.emit _).trans (Aside.ite (msix_aside _ _) .refl)
  · exact .refl

theorem clockStatus_aside : Aside powerRegs [] s (clockStatus s) := Aside.ite (powerStatus_aside s) .refl

end

/-! ## The hives' records -/

@[simp] theorem hiveS_modHive_self (h : Nat) (f : HiveS → HiveS) (s : State) : hiveS (modHive h f s) h = f (hiveS s h) := by
  simp [hiveS, modHive]

theorem hiveS_modHive_ne {h x : Nat} (f : HiveS → HiveS) (s : State) (hx : x ≠ h) : hiveS (modHive h f s) x = hiveS s x := by
  simp only [hiveS, modHive, SMap.get_set_ne hx]

theorem hiveS_congr {s u : State} (h : u.hives = s.hives) (x : Nat) : hiveS u x = hiveS s x := by simp only [hiveS, h]

/-- From s to u only hives' records, the registers of rs and ks and what Aside allows have changed. -/
def BesideHives (rs : List Reg) (ks : List (Reg × Nat)) (s u : State) : Prop := Aside rs ks { s with hives := u.hives } u

section
variable {rs rs' : List Reg} {ks ks' : List (Reg × Nat)} {s t u : State}

theorem Aside.hives (h : Aside rs ks s u) : u.hives = s.hives := (congrArg State.hives h.1 :)

theorem Aside.besideHives (h : Aside rs ks s u) : BesideHives rs ks s u := ⟨h.1.trans (by rw [h.hives]), h.2⟩

theorem BesideHives.trans (h1 : BesideHives rs ks s t) (h2 : BesideHives rs ks t u) : BesideHives rs ks s u :=
  ⟨h2.1.trans (congrArg (fun x : State => { x with hives := u.hives }) h1.1), Keeps.trans h1.2 h2.2⟩

theorem BesideHives.mono (h : BesideHives rs ks s u) (h1 : ∀ r ∈ rs, r ∈ rs') (h2 : ∀ k ∈ ks, k.1 ∈ rs' ∨ k ∈ ks') : BesideHives rs' ks' s u :=
  Aside.mono h h1 h2

theorem modHive_besideHives (h : Nat) (f : HiveS → HiveS) (s : State) : BesideHives rs ks s (modHive h f s) :=
  ⟨rfl, fun _ _ _ _ => rfl⟩

theorem BesideHives.keeps (h : BesideHives rs ks s u) : Keeps rs ks s u := h.2
theorem BesideHives.fld (h : BesideHives rs ks s u) {f : Fld} {i : Nat} (h1 : f.reg ∉ rs) (h2 : (f.reg, i) ∉ ks) :
    Machine.fld u f i = Machine.fld s f i := h.keeps.fld h1 h2
theorem BesideHives.mem (h : BesideHives rs ks s u) : u.mem = s.mem := (congrArg State.mem h.1 :)
theorem BesideHives.poison (h : BesideHives rs ks s u) : u.poison = s.poison := (congrArg State.poison h.1 :)
theorem BesideHives.pairs (h : BesideHives rs ks s u) : u.pairs = s.pairs := (congrArg State.pairs h.1 :)
theorem BesideHives.us (h : BesideHives rs ks s u) : u.us = s.us := (congrArg State.us h.1 :)

end

end Sys2Proof.Machine

/-! SUPPORT. A fault takes effect (R370, R372, R373). -/

namespace Sys2Proof.Machine

/-! ## A hive leaves service -/

/-- A RUNNING pair of a hive that leaves service is FAULTED. -/
def faultRunning (t : State) (p : Nat) : State :=
  if seqState t p = sqRunning then setFld F.SEQ_STATUS_state p sqFaulted (modPair p PairS.faulted t) else t

theorem leaveService_eq (h : Nat) (s : State) :
    leaveService h s = clockStatus ((pairsOf h).foldl faultRunning
      (setFld F.RL_HIVE_h_state h hsQuiesce (modHive h (fun x => { x with on := hiveState s h = hsInService }) s))) := rfl

/-- What it leaves of the rest: everything but the pairs and the register of its state. -/
theorem faultRunning_rest (t : State) (p : Nat) :
    (faultRunning t p).apart = t.apart ∧ (faultRunning t p).pendingFaults = t.pendingFaults ∧ Keeps [.SEQ_STATUS] [] t (faultRunning t p) := by
  unfold faultRunning
  split
  · exact ⟨rfl, rfl, Keeps.setFld (t := modPair p PairS.faulted t) sqFaulted (fun _ _ _ _ => rfl) (.inl (by simp))⟩
  · exact ⟨rfl, rfl, .refl⟩

theorem seqState_faultRunning_self {t : State} {p : Nat} (h : seqState t p = 2) : seqState (faultRunning t p) p = 6 := by
  rw [faultRunning, if_pos h]
  exact fld_setFld_fits (by decide) _ (by decide) _

theorem faultRunning_kept {t : State} {p q : Nat} (h : q ≠ p ∨ seqState t q ≠ 2) :
    seqState (faultRunning t p) q = seqState t q ∧ pair (faultRunning t p) q = pair t q := by
  unfold faultRunning
  split
  · rename_i hr
    have hq : q ≠ p := h.elim id fun hn e => hn (e ▸ hr)
    exact ⟨fld_setFld_ne (f := F.SEQ_STATUS_state) (g := F.SEQ_STATUS_state) _ _ (.inr (Ne.symm hq)), pair_modPair_ne _ _ hq⟩
  · exact ⟨rfl, rfl⟩

theorem foldl_faultRunning_rest (l : List Nat) (s : State) :
    (l.foldl faultRunning s).apart = s.apart ∧ (l.foldl faultRunning s).pendingFaults = s.pendingFaults
      ∧ Keeps [.SEQ_STATUS] [] s (l.foldl faultRunning s) :=
  foldl_invariant (P := fun t : State => t.apart = s.apart ∧ t.pendingFaults = s.pendingFaults ∧ Keeps [.SEQ_STATUS] [] s t)
    (fun t p ⟨h1, h2, h3⟩ => by
      obtain ⟨k1, k2, k3⟩ := faultRunning_rest t p
      exact ⟨k1.trans h1, k2.trans h2, h3.trans k3⟩) l ⟨rfl, rfl, .refl⟩

theorem foldl_faultRunning_kept {l : List Nat} {s : State} {q : Nat} (h : q ∉ l ∨ seqState s q ≠ 2) :
    seqState (l.foldl faultRunning s) q = seqState s q ∧ pair (l.foldl faultRunning s) q = pair s q := by
  induction l generalizing s with
  | nil => exact ⟨rfl, rfl⟩
  | cons p l ih =>
    obtain ⟨h1, h2⟩ := faultRunning_kept (t := s) (p := p) (q := q) (h.imp_left List.ne_of_not_mem_cons)
    obtain ⟨k1, k2⟩ := ih (s := faultRunning s p) (h.imp List.not_mem_of_not_mem_cons (fun hn => by rwa [h1]))
    exact ⟨k1.trans h1, k2.trans h2⟩

theorem foldl_faultRunning_faulted {l : List Nat} {s : State} {q : Nat} (hq : q ∈ l) (h : seqState s q = 2) :
    seqState (l.foldl faultRunning s) q = 6 := by
  induction l generalizing s with
  | nil => exact absurd hq List.not_mem_nil
  | cons p l ih =>
    by_cases hp : q = p
    · subst hp
      have h6 := seqState_faultRunning_self h
      exact (foldl_faultRunning_kept (s := faultRunning s q) (.inr (by rw [h6]; decide))).1.trans h6
    · exact ih ((List.mem_cons.mp hq).resolve_left hp) ((faultRunning_kept (.inl hp)).1.trans h)

theorem mem_pairsOf {h p : Nat} : p ∈ pairsOf h ↔ p / 16 = h := by
  simp only [pairsOf, List.mem_map, List.mem_range]
  constructor
  · rintro ⟨i, hi, rfl⟩; omega
  · exact fun hp => ⟨p % 16, by omega, by omega⟩

/-- The registers that a hive's leaving service may write beside that of its own state. -/
abbrev leaveRegs : List Reg := .SEQ_STATUS :: powerRegs

/-- A hive that leaves service: its state, its RUNNING pairs, the loops' status, and its own record. -/
theorem leaveService_spec (h : Nat) (s : State) :
    (leaveService h s).apart = { s.apart with hives := (leaveService h s).hives }
      ∧ (leaveService h s).pendingFaults = s.pendingFaults ∧ Keeps leaveRegs [(.RL_HIVE_h, h)] s (leaveService h s)
      ∧ hiveState (leaveService h s) h = 1
      ∧ (∀ p, p / 16 = h → seqState s p = 2 → seqState (leaveService h s) p = 6)
      ∧ ∀ p, p / 16 ≠ h ∨ seqState s p ≠ 2 → seqState (leaveService h s) p = seqState s p ∧ pair (leaveService h s) p = pair s p := by
  rw [leaveService_eq]
  generalize (fun x : HiveS => { x with on := hiveState s h = hsInService }) = y
  set t := setFld F.RL_HIVE_h_state h hsQuiesce (modHive h y s) with ht
  have hseq : ∀ p, seqState t p = seqState s p := fun p => fld_setFld_ne (f := F.RL_HIVE_h_state) _ _ (.inl (by decide))
  have hk : Keeps leaveRegs [(.RL_HIVE_h, h)] s t := Keeps.setFld (t := modHive h y s) _ (fun _ _ _ _ => rfl) (.inr (by simp))
  have hst : hiveState t h = 1 := fld_setFld_fits (by decide) _ (by decide) _
  obtain ⟨h1, h2, h3⟩ := foldl_faultRunning_rest (pairsOf h) t
  set v := (pairsOf h).foldl faultRunning t
  have hA := clockStatus_aside v
  have hApart : (clockStatus v).apart = v.apart := (congrArg (fun x : State => { x with pairs := [] }) hA.1 :)
  refine ⟨?_, ?_, ?_, ?_, fun p hp hr => ?_, fun p hp => ?_⟩
  · rw [hApart, h1, hA.hives, show v.hives = t.hives from (congrArg State.hives h1 :)]
    rfl
  · rw [clockStatus_pendingFaults, h2]
    rfl
  · exact (hk.trans (h3.mono (by simp) (by simp))).trans (hA.2.mono (by simp) (by simp))
  · exact (hA.fld (f := F.RL_HIVE_h_state) (by decide) (by simp)).trans ((h3.fld (f := F.RL_HIVE_h_state) (by decide) (by simp)).trans hst)
  · exact (hA.fld (f := F.SEQ_STATUS_state) (by decide) (by simp)).trans
      (foldl_faultRunning_faulted (mem_pairsOf.mpr hp) ((hseq p).trans hr))
  · obtain ⟨k1, k2⟩ := foldl_faultRunning_kept (l := pairsOf h) (s := t) (q := p)
      (hp.imp (fun hn hm => hn (mem_pairsOf.mp hm)) (fun hn => (hseq p).trans_ne hn))
    exact ⟨((hA.fld (f := F.SEQ_STATUS_state) (by decide) (by simp)).trans k1).trans (hseq p), (hA.pair p).trans k2⟩

/-! ## Its cause is recorded and its slot taken -/

/-- The cause is logged and recorded, and the sequence of the hive's fault begins. -/
def causeNoted (breath tick h : Nat) (f : PendingFault) (s : State) : State :=
  modHive h (fun x =>
    { resets := x.resets, enable := x.enable, on := x.on, pair := f.pair, entry := lastEntry (logCause f s) (fld s F.RL_LOG_PTR_ring_next)
      breath := breath, tick := tick, since := s.us })
    (setFld F.RL_HIVE_h_cause h f.cause (setFld F.RL_HIVE_h_fault_breath h breath (logCause f s)))

/-- A dump is wanted of a hive that one fault takes: dumps are enabled, and the command that asked for the fault does not forgo it. -/
def dumpWanted (h : Nat) (f : PendingFault) (s : State) : Bool :=
  fldB s F.RL_CTRL_dump_en && !((hiveS s h).skipDump && decide (f.cause = 0x0B))

theorem logCause_aside (f : PendingFault) (s : State) : Aside logRegs [] s (logCause f s) := logNew_aside _ s

theorem causeNoted_besideHives (breath tick h : Nat) (f : PendingFault) (s : State) :
    BesideHives logRegs [(.RL_HIVE_h, h)] s (causeNoted breath tick h f s) := by
  have hA : Aside logRegs [(.RL_HIVE_h, h)] s (setFld F.RL_HIVE_h_cause h f.cause (setFld F.RL_HIVE_h_fault_breath h breath (logCause f s))) :=
    (((logCause_aside f s).mono (fun _ x => x) (by simp)).setFld _ (.inr (by simp))).setFld _ (.inr (by simp))
  exact hA.besideHives.trans (modHive_besideHives _ _ _)

theorem causeNoted_pendingFaults (breath tick h : Nat) (f : PendingFault) (s : State) :
    (causeNoted breath tick h f s).pendingFaults = s.pendingFaults := by
  have hl : (causeNoted breath tick h f s).pendingFaults = (logCause f s).pendingFaults := rfl
  rw [hl, logCause, logNew_pendingFaults]

/-- What the hive's register holds once its cause is recorded. -/
theorem fld_causeNoted (breath tick h : Nat) (f : PendingFault) (s : State) :
    fld (causeNoted breath tick h f s) F.RL_HIVE_h_cause h = f.cause % 256
      ∧ fld (causeNoted breath tick h f s) F.RL_HIVE_h_fault_breath h = breath % 2 ^ 32
      ∧ hiveState (causeNoted breath tick h f s) h = hiveState s h := by
  have hreg : ∀ g : Fld, fld (causeNoted breath tick h f s) g h
      = fld (setFld F.RL_HIVE_h_cause h f.cause (setFld F.RL_HIVE_h_fault_breath h breath (logCause f s))) g h := fun _ => rfl
  refine ⟨?_, ?_, ?_⟩
  · rw [hreg, fld_setFld_self (by decide)]
    rfl
  · rw [hreg, fld_setFld_apart (by decide) (by decide), fld_setFld_self (by decide)]
    rfl
  · rw [hiveState, hreg, fld_setFld_apart (by decide) (by decide), fld_setFld_apart (by decide) (by decide),
      (logCause_aside f s).fld (by decide) (by simp), hiveState]

/-- One fault takes effect. -/
theorem takeFault_one (breath tick h : Nat) (f : PendingFault) (s : State) :
    takeFault breath tick h [f] s
      = sendEvent 0x0C 0 f.pair f.cause
          (raise F.RL_EVENTS_hive_fault 0 (chooseSlot h (dumpWanted h f s) (causeNoted breath tick h f s))) := by
  have hus : (logCause f s).us = s.us := (logCause_aside f s).us
  have hh : hiveS (logCause f s) h = hiveS s h := hiveS_congr (logCause_aside f s).hives h
  have hd : fldB (causeNoted breath tick h f s) F.RL_CTRL_dump_en = fldB s F.RL_CTRL_dump_en := by
    rw [fldB, fldB, (causeNoted_besideHives breath tick h f s).fld (by decide) (by simp)]
  rw [dumpWanted, ← hd, ← hh]
  simp only [takeFault, causeNoted, List.foldl_nil, List.erase_cons_head, List.all_cons, List.all_nil, Bool.and_true, ← hus]
  rfl

/-- One fault takes effect at a hive, whose dump goes to d after the slots' registers are as v has them. -/
theorem takeFault_spec {breath tick h : Nat} {f : PendingFault} {s v : State} {d : Option Nat}
    (hv : Aside [.RL_DUMP_SLOT_g] [] (causeNoted breath tick h f s) v)
    (hp : v.pendingFaults = (causeNoted breath tick h f s).pendingFaults)
    (hc : chooseSlot h (dumpWanted h f s) (causeNoted breath tick h f s) = modHive h (fun x => { x with dumpTo := d }) v) :
    BesideHives (.RL_DUMP_SLOT_g :: logRegs ++ eventRegs) [(.RL_HIVE_h, h)] s (takeFault breath tick h [f] s)
      ∧ (takeFault breath tick h [f] s).pendingFaults = s.pendingFaults
      ∧ fld (takeFault breath tick h [f] s) F.RL_HIVE_h_cause h = f.cause % 256
      ∧ fld (takeFault breath tick h [f] s) F.RL_HIVE_h_fault_breath h = breath % 2 ^ 32
      ∧ hiveState (takeFault breath tick h [f] s) h = hiveState s h
      ∧ fld (takeFault breath tick h [f] s) F.RL_EVENTS_hive_fault = 1
      ∧ (hiveS (takeFault breath tick h [f] s) h).since = s.us ∧ (hiveS (takeFault breath tick h [f] s) h).dumpTo = d
      ∧ Keeps (logRegs ++ eventRegs) [] v (takeFault breath tick h [f] s) := by
  rw [takeFault_one, hc]
  set n := causeNoted breath tick h f s with hn
  set r := raise F.RL_EVENTS_hive_fault 0 (modHive h (fun x => { x with dumpTo := d }) v)
  have hvr : BesideHives (logRegs ++ eventRegs) [] v r :=
    (modHive_besideHives h _ v).trans (Aside.refl.raise (.inl (by decide))).besideHives
  have hE := sendEvent_aside 0x0C 0 f.pair f.cause r
  set u := sendEvent 0x0C 0 f.pair f.cause r
  have hvu : BesideHives (logRegs ++ eventRegs) [] v u := hvr.trans (hE.besideHives.mono (by simp) (by simp))
  have hreg : ∀ {g : Fld}, g.reg = .RL_HIVE_h → fld u g h = fld n g h := fun hg =>
    (hvu.fld (by rw [hg]; decide) (by simp)).trans (hv.fld (by rw [hg]; decide) (by simp))
  have hh : hiveS u h = { hiveS n h with dumpTo := d } := by
    rw [hiveS_congr hE.hives]
    show hiveS (modHive h (fun x => { x with dumpTo := d }) v) h = _
    rw [hiveS_modHive_self, hiveS_congr hv.hives]
  obtain ⟨hcause, hbreath, hstate⟩ := fld_causeNoted breath tick h f s
  refine ⟨?_, ?_, ?_, ?_, ?_, ?_, ?_, ?_, hvu.keeps⟩
  · exact (((causeNoted_besideHives breath tick h f s).mono (by simp) (by simp)).trans (hv.besideHives.mono (by simp) (by simp))).trans
      (hvu.mono (by simp) (by simp))
  · rw [sendEvent_pendingFaults]
    exact hp.trans (causeNoted_pendingFaults breath tick h f s)
  · exact (hreg (g := F.RL_HIVE_h_cause) rfl).trans hcause
  · exact (hreg (g := F.RL_HIVE_h_fault_breath) rfl).trans hbreath
  · exact (hreg (g := F.RL_HIVE_h_state) rfl).trans hstate
  · exact (hE.fld (by decide) (by simp)).trans (fld_raise_self (by decide) rfl _ _)
  · rw [hh, hn, causeNoted, hiveS_modHive_self]
  · rw [hh]

/-! ## The clauses of O50 on the fault itself -/

theorem filter_hive_singleton {h : Nat} (hh : h < 4) : (List.range 4).filter (fun x => decide (h = x)) = [h] := by
  interval_cases h <;> rfl

/-- One fault of a hive that serves, at a boundary tick. -/
theorem hiveFault_one {f : PendingFault} {s : State} (hb : breathState s = 2) (hf : s.pendingFaults = [f]) (hh : f.hive < 4)
    (hs : hiveState s f.hive = 0) :
    hiveFault s = noteFault { s with pendingFaults := [] }
      (takeFault (comingBreath s) (comingTick s) f.hive [f] (leaveService f.hive { s with pendingFaults := [] })) := by
  have hserve : hiveServes { s with pendingFaults := [] } f.hive = true := by
    simp only [hiveServes, Bool.or_eq_true, decide_eq_true_eq]
    exact .inl hs
  rw [hiveFault, if_pos hb, faultsTake, hf]
  generalize ({ s with pendingFaults := [] } : State) = t at hserve ⊢
  have hone : (List.range 4).filter (fun h => hiveServes t h && [f].any (fun f => decide (f.hive = h))) = [f.hive] := by
    rw [← filter_hive_singleton hh]
    refine List.filter_congr fun x _ => ?_
    by_cases hx : f.hive = x
    · subst hx; simp [hserve]
    · simp [hx]
  have hnone : [f].filter (fun f => !hiveServes t f.hive) = [] := by simp [hserve]
  have hall : [f].filter (fun x => decide (x.hive = f.hive)) = [f] := by simp
  rw [hnone, List.foldl_nil, hone]
  simp only [List.foldl_cons, List.foldl_nil, hall, withFault]

end Sys2Proof.Machine

namespace Sys2Proof.Machine

/-- The state at the tick, its waiting faults taken up. -/
def faultsTakenUp (s : State) : State := { s with pendingFaults := [] }

/-- The hive of a fault has left service. -/
def hiveLeft (f : PendingFault) (s : State) : State := leaveService f.hive (faultsTakenUp s)

/-- One fault takes effect: what every such fault does, and where the dump is to go. -/
theorem hiveFault_taken {f : PendingFault} {s v : State} {d : Option Nat} (q : List Instr) (hb : breathState s = 2) (hf : s.pendingFaults = [f])
    (hh : f.hive < 4) (hs : hiveState s f.hive = 0)
    (hv : Aside [.RL_DUMP_SLOT_g] [] (causeNoted (comingBreath s) (comingTick s) f.hive f (hiveLeft f s)) v)
    (hp : v.pendingFaults = (causeNoted (comingBreath s) (comingTick s) f.hive f (hiveLeft f s)).pendingFaults)
    (hc : chooseSlot f.hive (dumpWanted f.hive f (hiveLeft f s)) (causeNoted (comingBreath s) (comingTick s) f.hive f (hiveLeft f s))
      = modHive f.hive (fun x => { x with dumpTo := d }) v) :
    FaultTaken f s (keepQueue q (hiveFault s)) ∧ (hiveS (hiveFault s) f.hive).dumpTo = d
      ∧ Keeps (logRegs ++ eventRegs) [] v (hiveFault s) := by
  obtain ⟨hrest, hpend, hkeep, hout, hrun, hother⟩ := leaveService_spec f.hive (faultsTakenUp s)
  obtain ⟨hB, hpendT, hcause, hbreath, hstate, hevent, hsince, hdump, hslots⟩ := takeFault_spec hv hp hc
  rw [hiveFault_one hb hf hh hs]
  have hN := noteFault_aside (takeFault (comingBreath s) (comingTick s) f.hive [f] (hiveLeft f s)) (faultsTakenUp s)
  have hpendN := noteFault_pendingFaults (takeFault (comingBreath s) (comingTick s) f.hive [f] (hiveLeft f s)) (faultsTakenUp s)
  change FaultTaken f s (keepQueue q (noteFault (faultsTakenUp s) (takeFault (comingBreath s) (comingTick s) f.hive [f] (hiveLeft f s))))
    ∧ (hiveS (noteFault (faultsTakenUp s) (takeFault (comingBreath s) (comingTick s) f.hive [f] (hiveLeft f s))) f.hive).dumpTo = d
    ∧ Keeps (logRegs ++ eventRegs) [] v (noteFault (faultsTakenUp s) (takeFault (comingBreath s) (comingTick s) f.hive [f] (hiveLeft f s)))
  generalize noteFault (faultsTakenUp s) (takeFault (comingBreath s) (comingTick s) f.hive [f] (hiveLeft f s)) = u at hN hpendN ⊢
  generalize takeFault (comingBreath s) (comingTick s) f.hive [f] (hiveLeft f s) = t at *
  have hL : ∀ {g : Fld} {i : Nat}, g.reg ∉ leaveRegs → (g.reg, i) ∉ [(Reg.RL_HIVE_h, f.hive)] → fld (hiveLeft f s) g i = fld s g i :=
    fun h1 h2 => hkeep.fld h1 h2
  have hseq : ∀ p, seqState u p = seqState (hiveLeft f s) p := fun p =>
    (hN.fld (f := F.SEQ_STATUS_state) (by simp) (by simp)).trans (hB.fld (f := F.SEQ_STATUS_state) (by decide) (by simp))
  have hpair : ∀ p, pair u p = pair (hiveLeft f s) p := fun p => (hN.pair p).trans (by simp only [pair, hB.pairs])
  have hmem : u.mem = s.mem := (hN.mem.trans hB.mem).trans (congrArg State.mem hrest :)
  have hpoison : u.poison = s.poison := (hN.poison.trans hB.poison).trans (congrArg State.poison hrest :)
  have hus : (hiveLeft f s).us = s.us := (congrArg State.us hrest :)
  refine ⟨⟨?_, ?_, ?_, ?_, ?_, fun p _ h1 h2 => ?_, fun p _ hp => ?_, fun g _ hg => ?_, ?_, ?_⟩, ?_, hslots.trans (hN.2.mono (by simp) (by simp))⟩
  · exact hpendN.trans (hpendT.trans hpend)
  · exact (hN.fld (f := F.RL_HIVE_h_state) (by simp) (by simp)).trans (hstate.trans hout)
  · exact (hN.fld (f := F.RL_HIVE_h_cause) (by simp) (by simp)).trans hcause
  · exact (hN.fld (f := F.RL_HIVE_h_fault_breath) (by simp) (by simp)).trans hbreath
  · exact (hN.fld (f := F.RL_EVENTS_hive_fault) (by simp) (by simp)).trans hevent
  · exact (hseq p).trans (hrun p h1 h2)
  · exact ⟨(hseq p).trans (hother p hp).1, (hpair p).trans (hother p hp).2⟩
  · exact (hN.fld (f := F.RL_HIVE_h_state) (by simp) (by simp)).trans
      ((hB.fld (f := F.RL_HIVE_h_state) (by decide) (by simpa using hg)).trans (hL (g := F.RL_HIVE_h_state) (by decide) (by simpa using hg)))
  · exact (congrArg HiveS.since (hiveS_congr hN.hives f.hive)).trans (hsince.trans hus)
  · exact ⟨byteAt_congr hmem, fun x => by simp only [marked, hpoison, keepQueue_poison]⟩
  · exact (congrArg HiveS.dumpTo (hiveS_congr hN.hives f.hive)).trans hdump

/-- A register that neither the leaving of service nor the note of its cause touches. -/
theorem fld_causeNoted_left {f : PendingFault} {s : State} {g : Fld} {i : Nat} (h1 : g.reg ∉ .RL_HIVE_h :: logRegs ++ leaveRegs) :
    fld (causeNoted (comingBreath s) (comingTick s) f.hive f (hiveLeft f s)) g i = fld s g i
      ∧ fld (hiveLeft f s) g i = fld s g i := by
  simp only [List.cons_append, List.mem_cons, List.mem_append, not_or] at h1
  obtain ⟨hr, h1⟩ := h1
  obtain ⟨-, -, hkeep, -⟩ := leaveService_spec f.hive (faultsTakenUp s)
  have hL : fld (hiveLeft f s) g i = fld s g i := hkeep.fld (by simp only [List.mem_cons]; tauto) (by simp [hr])
  exact ⟨((causeNoted_besideHives _ _ _ _ _).fld (by simp; tauto) (by simp [hr])).trans hL, hL⟩

/-- With dumps disabled a fault takes no slot. -/
theorem hiveFault_noDump (f : PendingFault) (s : State) (hs : Released s) (hb : breathState s = 2) (hf : s.pendingFaults = [f]) (hh : f.hive < 4)
    (hst : hiveState s f.hive = 0) (hd : fld s F.RL_CTRL_dump_en = 0) :
    Completes .hiveFault s fun u => FaultTaken f s u ∧ (hiveS u f.hive).dumpTo = none := by
  have hw : dumpWanted f.hive f (hiveLeft f s) = false := by
    rw [dumpWanted, fldB, (fld_causeNoted_left (by decide)).2, hd]
    rfl
  obtain ⟨h1, h2, -⟩ := hiveFault_taken (d := none) s.pending hb hf hh hst .refl rfl (by rw [hw]; rfl)
  exact completes_released hs rfl ⟨h1, h2⟩

/-- Slot g is taken for the dump of hive h (R373). -/
def slotTaken (h g : Nat) (s : State) : State :=
  setFld F.RL_DUMP_SLOT_g_status g 0 (setFld F.RL_DUMP_SLOT_g_size_4k g 0
    (setFld F.RL_DUMP_SLOT_g_occupied g 1 (setFld F.RL_DUMP_SLOT_g_source g h s)))

theorem slotTaken_aside (h g : Nat) (s : State) : Aside [.RL_DUMP_SLOT_g] [] s (slotTaken h g s) :=
  (((Aside.refl.setFld _ (.inl (by simp))).setFld _ (.inl (by simp))).setFld _ (.inl (by simp))).setFld _ (.inl (by simp))

theorem fld_slotTaken {h : Nat} (hh : h < 4) (g : Nat) (s : State) :
    fld (slotTaken h g s) F.RL_DUMP_SLOT_g_occupied g = 1 ∧ fld (slotTaken h g s) F.RL_DUMP_SLOT_g_source g = h
      ∧ fld (slotTaken h g s) F.RL_DUMP_SLOT_g_status g = 0 := by
  refine ⟨?_, ?_, ?_⟩
  · rw [slotTaken, fld_setFld_apart (by decide) (by decide), fld_setFld_apart (by decide) (by decide), fld_setFld_fits (by decide) _ (by decide)]
  · rw [slotTaken, fld_setFld_apart (by decide) (by decide), fld_setFld_apart (by decide) (by decide),
      fld_setFld_apart (by decide) (by decide), fld_setFld_fits (by decide) _ hh]
  · rw [slotTaken, fld_setFld_fits (by decide) _ (by decide)]

/-- The first choice for a dump is the next hive, where it serves and its slot is usable (R373). -/
theorem dumpDest_next {s : State} {h : Nat} (h1 : hiveServes s ((h + 1) % 4) = true) (h2 : slotUsable s ((h + 1) % 4) = true) :
    dumpDest s h = some ((h + 1) % 4) := by
  simp [dumpDest, h1, h2]

theorem chooseSlot_some {s : State} {h g : Nat} (hd : dumpDest s h = some g) :
    chooseSlot h true s = modHive h (fun x => { x with dumpTo := some g }) (slotTaken h g s) := by
  simp only [chooseSlot, Bool.not_true, Bool.false_eq_true, if_false, hd, slotTaken]

/-- With dumps enabled a fault takes the free slot of the next hive. -/
theorem hiveFault_dump (f : PendingFault) (g : Nat) (s : State) (hs : Released s) (hb : breathState s = 2) (hf : s.pendingFaults = [f])
    (hh : f.hive < 4) (hst : hiveState s f.hive = 0) (hd : fld s F.RL_CTRL_dump_en = 1) (hcause : f.cause ≠ 0x0B) (hg : g = (f.hive + 1) % 4)
    (hgs : hiveState s g = 0) (hgf : fld s F.MEM_STATUS_chan_failed g = 0) (hgo : fld s F.RL_DUMP_SLOT_g_occupied g = 0) :
    Completes .hiveFault s fun u =>
      FaultTaken f s u ∧ (hiveS u f.hive).dumpTo = some g ∧ fld u F.RL_DUMP_SLOT_g_occupied g = 1
        ∧ fld u F.RL_DUMP_SLOT_g_source g = f.hive ∧ fld u F.RL_DUMP_SLOT_g_status g = 0 := by
  have hw : dumpWanted f.hive f (hiveLeft f s) = true := by
    rw [dumpWanted, fldB, (fld_causeNoted_left (by decide)).2, hd, decide_eq_false hcause, Bool.and_false]
    rfl
  set n := causeNoted (comingBreath s) (comingTick s) f.hive f (hiveLeft f s) with hn
  have hne : (Reg.RL_HIVE_h, g) ∉ [(Reg.RL_HIVE_h, f.hive)] := by
    simp only [List.mem_singleton, Prod.mk.injEq, true_and]
    omega
  have hstate : hiveState n g = 0 := by
    obtain ⟨-, -, hkeep, -⟩ := leaveService_spec f.hive (faultsTakenUp s)
    exact ((causeNoted_besideHives _ _ _ _ _).fld (f := F.RL_HIVE_h_state) (by decide) hne).trans
      ((hkeep.fld (f := F.RL_HIVE_h_state) (by decide) hne).trans hgs)
  have hdest : dumpDest n f.hive = some g := by
    rw [hg] at hstate hgf hgo ⊢
    refine dumpDest_next (by simp [hiveServes, hstate]) ?_
    rw [slotUsable, fldB, (fld_causeNoted_left (by decide)).1, (fld_causeNoted_left (by decide)).1, hgf, hgo]
    rfl
  obtain ⟨h1, h2, h3⟩ := hiveFault_taken s.pending hb hf hh hst (slotTaken_aside f.hive g n) rfl (by rw [hw, chooseSlot_some hdest])
  obtain ⟨k1, k2, k3⟩ := fld_slotTaken hh g n
  exact completes_released hs rfl ⟨h1, h2, (h3.fld (by decide) (by simp)).trans k1, (h3.fld (by decide) (by simp)).trans k2,
    (h3.fld (by decide) (by simp)).trans k3⟩

/-! ## Single steps of the phases -/

/-- A read of a dump that takes too long is noted (R381). -/
theorem dumpRead_noted (h : Hive) (k n : Nat) (s : State) (hs : Released s) (hd : dumping s h = true) (hr : (hiveS s h).records = 0) :
    Completes (.dumpReadTimeout h k n) s fun u =>
      u = { s with hives := SMap.set {} s.hives h { hiveS s h with cuts := SMap.insert (hiveS s h).cuts k n } } :=
  have hu : dumpReadTimeout h k n s = modHive h (fun x => { x with cuts := SMap.insert x.cuts k n }) s := if_pos (by simp [hd, hr])
  completes_kept hs rfl hu rfl rfl rfl

/-- A slot is free again when its register says so. -/
theorem slot_released (g : Hive) (s : State) (hs : Released s) :
    Completes (.dumpSlotRelease g) s fun u =>
      fld u F.RL_DUMP_SLOT_g_occupied g = 0 ∧ HubTo [(.RL_DUMP_SLOT_g, g.val)] s u ∧ u.still = s.still := by
  have hA : Aside [] [(.RL_DUMP_SLOT_g, g.val)] s (dumpSlotRelease g s) := Aside.refl.setFld _ (.inr (by simp))
  exact completes_kept hs rfl rfl hA.inService hA.pending
    ⟨fld_setFld_fits (by decide) _ (by decide) _, ⟨hA.2, hA.memSame, hA.pairs, rfl⟩, hA.1⟩

/-- The storm limit holds a hive at its release (R376). -/
theorem hive_held (h : Hive) (s : State) (hs : Released s) (hst : hiveState s h = 3) (hr : (hiveS s h).released = false)
    (hf : fld s F.MEM_STATUS_self_refresh h = 1) (ht : (hiveS s h).resetAt + 1000 ≤ s.us) (hstorm : (hiveS s h).storm = true) :
    Completes (.hiveRelease h) s fun u =>
      hiveState u h = 5 ∧ fld u F.RL_EVENTS_hive_held = 1 ∧ HubTo [(.RL_HIVE_h, h.val), (.RL_EVENTS, 0)] s u := by
  have hin : s.inService = true := hs
  set v := modHive h (fun x => { x with storm := false }) s
  have hu : hiveRelease h s = raise F.RL_EVENTS_hive_held 0 (setFld F.RL_HIVE_h_state h hsHeld v) := by
    simp [hiveRelease, hst, hin, hr, fldB, hf, ht, hstorm, v]
  have hA : Aside [] [(.RL_HIVE_h, h.val), (.RL_EVENTS, 0)] v (raise F.RL_EVENTS_hive_held 0 (setFld F.RL_HIVE_h_state h hsHeld v)) :=
    (Aside.refl.setFld _ (.inr (by simp))).raise (.inr (by simp))
  refine completes_kept hs rfl hu hA.inService hA.pending ⟨?_, fld_raise_self (by decide) rfl _ _, ⟨hA.2, hA.memSame, hA.pairs, rfl⟩⟩
  exact (fld_raise_apart (f := F.RL_EVENTS_hive_held) (g := F.RL_HIVE_h_state) (by decide) (by decide) _ _ _).trans
    (fld_setFld_fits (by decide) _ (by decide) _)

end Sys2Proof.Machine

/-! SUPPORT. A dump's layout lies within its slot, and what its writing leaves alone (R373, R378–R381). -/

namespace Sys2Proof.Machine

/-! ## Bytes of a record -/

@[simp] theorem natLe_length (n v : Nat) : (natLe n v).length = n := by
  induction n generalizing v with
  | zero => rfl
  | succ n ih => simp [natLe, ih]

theorem recHeader_length (kind p code src req got : Nat) : (recHeader kind p code src req got).length = 32 := by
  simp [recHeader]

theorem mem_placed {off : Nat} {bs : List Nat} {c : Nat × Nat} (h : c ∈ placed off bs) :
    off ≤ c.1 ∧ c.1 < off + bs.length ∧ c.2 = nth 0 bs (c.1 - off) := by
  obtain ⟨i, hi, rfl⟩ := List.mem_map.mp h
  rw [List.mem_range] at hi
  refine ⟨by dsimp only; omega, by dsimp only; omega, ?_⟩
  dsimp only
  rw [Nat.add_sub_cancel_left]

theorem mem_placed_of_lt {off i : Nat} {bs : List Nat} (h : i < bs.length) : (off + i, nth 0 bs i) ∈ placed off bs :=
  List.mem_map.mpr ⟨i, List.mem_range.mpr h, rfl⟩

theorem dumpHeader_length (h g status bytes recs : Nat) (s : State) : (dumpHeader h g status bytes recs s).length = 256 := by
  simp [dumpHeader, LogEntry.bytes]

/-- A dump's header begins with its mark (R379). -/
theorem dumpHeader_mark (h g status bytes recs : Nat) (s : State) {i : Nat} (hi : i < 4) :
    nth 0 (dumpHeader h g status bytes recs s) i = nth 0 (natLe 4 0x504D5544) i := by
  unfold nth dumpHeader
  dsimp only
  simp only [List.append_assoc]
  rw [List.getD_append _ _ _ _ (by simpa using hi)]

/-! ## The layout -/

/-- The room for bytes in the record that a dump has come to (R380). -/
def DumpOut.room (o : DumpOut) : Nat := (slotSize - 64 - o.pos) / 64 * 64

/-- A dump as far as it is laid out lies behind its header and leaves room for one more record header in its slot. -/
structure DumpOut.Fits (o : DumpOut) : Prop where
  low : 256 ≤ o.pos
  high : o.pos + 32 ≤ slotSize
  cells : ∀ c ∈ o.cells, 256 ≤ c.1 ∧ c.1 < slotSize
  bad : ∀ b ∈ o.bad, 256 ≤ b

/-- The record r laid out with n bytes and its code. -/
def DumpOut.add (o : DumpOut) (h : Nat) (s : State) (r : DumpRec) (n code : Nat) (stop : Bool) : DumpOut :=
  { pos := o.pos + 32 + (n + 63) / 64 * 64, recs := o.recs + 1, marker := o.marker || code ≠ 0, stopped := stop
    cells := o.cells ++ placed o.pos (recHeader r.kind r.pair code r.src r.len n)
      ++ (((r.data h s).bytes.filter (fun e => e.1 < n)).map (fun e => (o.pos + 32 + e.1, e.2)))
    bad := o.bad ++ ((r.data h s).bad.filter (fun b => b < n)).map (fun b => o.pos + 32 + b) }

/-- The bytes that a read of the record gives before it times out or meets a failed channel, and its code (R381). -/
def recRead (x : HiveS) (s : State) (o : DumpOut) (r : DumpRec) : Nat × Nat :=
  match x.cuts.find? (fun c => c.1 = o.recs) with
  | some c => (min c.2 r.len, 1)
  | none => if readable r s < r.len then (readable r s, 2) else (r.len, 0)

/-- Of n bytes read those that the slot and the budget let the record hold, and whether the dump stops with it (R381). -/
def recHeld (x : HiveS) (o : DumpOut) (n : Nat) : Nat × Bool :=
  match x.stopped with
  | some (k, m) => if k = o.recs then (min (min n m) o.room, true) else (min n o.room, decide (o.room < n))
  | none => (min n o.room, decide (o.room < n))

/-- One more record: nothing to a stopped dump, a stop where not even its header has room, else what it holds. -/
theorem dumpStep_eq (h : Nat) (x : HiveS) (s : State) (o : DumpOut) (r : DumpRec) :
    dumpStep h x s o r = if o.stopped then o else if slotSize < o.pos + 64 then { o with stopped := true }
      else o.add h s r (recHeld x o (recRead x s o r).1).1 (recRead x s o r).2 (recHeld x o (recRead x s o r).1).2 := rfl

theorem recHeld_room (x : HiveS) (o : DumpOut) (n : Nat) : (recHeld x o n).1 ≤ o.room := by
  unfold recHeld
  split
  · split
    · exact Nat.min_le_right _ _
    · exact Nat.min_le_right _ _
  · exact Nat.min_le_right _ _

theorem recHeld_stopped {x : HiveS} {o : DumpOut} {m : Nat} (hx : x.stopped = some (o.recs, m)) (n : Nat) : (recHeld x o n).2 = true := by
  simp only [recHeld, hx, if_true]

theorem DumpOut.Fits.add {o : DumpOut} (ho : o.Fits) (hp : o.pos + 64 ≤ slotSize) (h : Nat) (s : State) (r : DumpRec) {n : Nat}
    (hn : n ≤ o.room) (code : Nat) (stop : Bool) : (o.add h s r n code stop).Fits := by
  obtain ⟨hl, _, hc, hb⟩ := ho
  have hroom : (n + 63) / 64 * 64 ≤ slotSize - 64 - o.pos := by unfold DumpOut.room at hn; omega
  refine ⟨?_, ?_, fun c hm => ?_, fun b hm => ?_⟩
  · show 256 ≤ o.pos + 32 + (n + 63) / 64 * 64
    omega
  · show o.pos + 32 + (n + 63) / 64 * 64 + 32 ≤ slotSize
    omega
  · simp only [DumpOut.add, List.mem_append] at hm
    rcases hm with (hm | hm) | hm
    · exact hc c hm
    · have hpl := mem_placed hm
      rw [recHeader_length] at hpl
      omega
    · obtain ⟨e, he, rfl⟩ := List.mem_map.mp hm
      have : e.1 < n := by simpa using (List.mem_filter.mp he).2
      dsimp only
      omega
  · simp only [DumpOut.add, List.mem_append] at hm
    rcases hm with hm | hm
    · exact hb b hm
    · obtain ⟨e, -, rfl⟩ := List.mem_map.mp hm
      omega

theorem DumpOut.Fits.step {o : DumpOut} (ho : o.Fits) (h : Nat) (x : HiveS) (s : State) (r : DumpRec) : (dumpStep h x s o r).Fits := by
  rw [dumpStep_eq]
  split
  · exact ho
  · split
    · exact ⟨ho.low, ho.high, ho.cells, ho.bad⟩
    · exact ho.add (by omega) h s r (recHeld_room _ _ _) _ _

/-- The records of a dump laid out, without the TRUNCATED record of a stopped one. -/
def dumpRecords (h : Nat) (s : State) : DumpOut := (dumpPlan s h).foldl (dumpStep h (hiveS s h) s) {}

theorem DumpOut.fits_start : ({} : DumpOut).Fits where
  low := le_rfl
  high := by norm_num
  cells := by simp
  bad := by simp

theorem dumpRecords_fits (h : Nat) (s : State) : (dumpRecords h s).Fits := by
  unfold dumpRecords
  generalize dumpPlan s h = l
  exact foldl_invariant (P := DumpOut.Fits) (fun o r ho => ho.step h (hiveS s h) s r) l DumpOut.fits_start

theorem dumpLayout_eq (h : Nat) (s : State) :
    dumpLayout h s = if (dumpRecords h s).stopped then
      { dumpRecords h s with
        pos := (dumpRecords h s).pos + 32, recs := (dumpRecords h s).recs + 1
        cells := (dumpRecords h s).cells ++ placed (dumpRecords h s).pos (recHeader 7 255 3 0 0 0) }
      else dumpRecords h s := rfl

/-- A whole dump lies within its slot, and all but its header behind it. -/
theorem dumpLayout_within (h : Nat) (s : State) :
    (dumpLayout h s).pos ≤ slotSize ∧ (∀ c ∈ (dumpLayout h s).cells, 256 ≤ c.1 ∧ c.1 < slotSize) ∧ ∀ b ∈ (dumpLayout h s).bad, 256 ≤ b := by
  obtain ⟨hl, hh, hc, hb⟩ := dumpRecords_fits h s
  rw [dumpLayout_eq]
  split
  · refine ⟨hh, fun c hm => ?_, hb⟩
    rcases List.mem_append.mp hm with hm | hm
    · exact hc c hm
    · have hpl := mem_placed hm
      rw [recHeader_length] at hpl
      omega
  · exact ⟨by omega, hc, hb⟩

/-- A dump stopped at a record that it comes to is cut off. -/
theorem foldl_dumpStep_stopped {h k m : Nat} {x : HiveS} {s : State} (hx : x.stopped = some (k, m)) (l : List DumpRec) (o : DumpOut)
    (hk : o.stopped = true ∨ (o.recs ≤ k ∧ k < o.recs + l.length)) : (l.foldl (dumpStep h x s) o).stopped = true := by
  induction l generalizing o with
  | nil => exact hk.resolve_right (by simp)
  | cons r l ih =>
    rw [List.foldl_cons]
    refine ih _ ?_
    rw [dumpStep_eq]
    by_cases hst : o.stopped = true
    · rw [if_pos hst]; exact .inl hst
    · rw [if_neg hst]
      obtain ⟨h1, h2⟩ := hk.resolve_left hst
      rw [List.length_cons] at h2
      split
      · exact .inl rfl
      · by_cases hr : o.recs = k
        · exact .inl (recHeld_stopped (m := m) (by rw [hx, hr]) _)
        · exact .inr ⟨by show o.recs + 1 ≤ k; omega, by show k < o.recs + 1 + l.length; omega⟩

theorem dumpLayout_stopped {h k m : Nat} {s : State} (hx : (hiveS s h).stopped = some (k, m)) (hk : k < (dumpPlan s h).length) :
    (dumpLayout h s).stopped = true ∧ (dumpLayout h s).recs ≠ 0 := by
  have hst : (dumpRecords h s).stopped = true :=
    foldl_dumpStep_stopped hx _ _ (.inr ⟨Nat.zero_le _, by simpa using hk⟩)
  rw [dumpLayout_eq, if_pos hst]
  exact ⟨hst, Nat.succ_ne_zero _⟩

/-! ## Writes into a slot -/

theorem slotLost_congr {s t : State} {g : Nat} (h1 : ∀ i, reg t .MEM_STATUS i = reg s .MEM_STATUS i) (h2 : ∀ i, reg t .RL_HIVE_h i = reg s .RL_HIVE_h i)
    (h a : Nat) : slotLost t h g a = slotLost s h g a := by
  have hm : ∀ f : Fld, f.reg = .MEM_STATUS → ∀ i, fld t f i = fld s f i := fun f hf i => by simp only [fld, hf, h1]
  have hs : hiveState t g = hiveState s g := by simp only [hiveState, fld, h2]
  have hc : channelFailed t a = channelFailed s a := by
    unfold channelFailed
    split
    · rw [hm _ rfl]
    · rfl
  simp only [slotLost, hc, underReset_congr hs (hm F.MEM_STATUS_near_ready rfl g)]

/-- Bytes poked one by one leave every address that none of them names. -/
theorem byteAt_pokeAll_out {base x : Nat} {l : List (Nat × Nat)} (h : ∀ c ∈ l, base + c.1 ≠ x) (s : State) :
    byteAt (l.foldl (fun t c => pokeByte (base + c.1) c.2 t) s) x = byteAt s x := by
  induction l generalizing s with
  | nil => rfl
  | cons c l ih =>
    rw [List.foldl_cons, ih (fun e he => h e (List.mem_cons_of_mem _ he)), byteAt_pokeByte_ne _ _ (h c (by simp)).symm]

/-- An address that only one value is poked to holds it. -/
theorem byteAt_pokeAll_in {base i v : Nat} {l : List (Nat × Nat)} (h : ∀ c ∈ l, c.1 = i → c.2 = v) {s : State}
    (hs : (∃ c ∈ l, c.1 = i) ∨ byteAt s (base + i) = v % 256) :
    byteAt (l.foldl (fun t c => pokeByte (base + c.1) c.2 t) s) (base + i) = v % 256 := by
  induction l generalizing s with
  | nil => exact hs.resolve_left (by simp)
  | cons c l ih =>
    rw [List.foldl_cons]
    refine ih (fun e he => h e (List.mem_cons_of_mem _ he)) ?_
    by_cases hc : c.1 = i
    · exact .inr (by rw [hc, byteAt_pokeByte_self, h c (by simp) hc])
    · refine hs.imp (fun ⟨e, he, hi⟩ => ⟨e, (List.mem_cons.mp he).resolve_left fun e' => hc (e' ▸ hi), hi⟩) fun hb => ?_
      rw [byteAt_pokeByte_ne _ _ (by omega), hb]

/-- The registers that a dump's writing into a slot may write. -/
abbrev slotRegs : List Reg := [.MEM_POISON_REC, .MEM_EVENTS, .RL_LOG_PTR, .RL_EVENTS]

theorem poisonSector_besideMem (a : Nat) (s : State) : BesideMem slotRegs [] s (poisonSector a s) := by
  unfold poisonSector
  split
  · split
    · exact (((Aside.refl.raise (.inl (by decide))).trans ((escalate_aside _ _ _ _).mono (by simp) (by simp)))).besideMem
    · exact Aside.refl.besideMem
  · exact setMark_besideMem _ _ _

theorem fillSlot_besideMem (h g base n : Nat) (s : State) :
    BesideMem slotRegs [] s (iter n s (fun i t => if slotLost t h g (base + 2048 * i) then t else fillGranule (base + 2048 * i) t)) := by
  unfold iter
  refine foldl_besideMem (fun t i => ?_) _ s
  dsimp only
  split
  · exact Aside.refl.besideMem
  · exact fillGranule_besideMem _ _

end Sys2Proof.Machine

namespace Sys2Proof.Machine

section
variable {h g n : Nat} {cells : List (Nat × Nat)} {bad : List Nat} {s : State}

/-- Writing into a slot changes memory, its marks and zero maps, what it logs, and faults that wait. -/
theorem slotWrite_besideMem (h g n : Nat) (cells : List (Nat × Nat)) (bad : List Nat) (s : State) :
    BesideMem slotRegs [] s (slotWrite h g n cells bad s) := by
  unfold slotWrite
  extract_lets base s0 secs inside s1 s2 lost s3 s4
  have h0 : BesideMem slotRegs [] s s0 := (Aside.ite (noteOffline_aside _ _ _ _) .refl).besideMem
  clear_value s0
  have h2 : BesideMem slotRegs [] s1 s2 := foldl_besideMem (fun t x => poisonSector_besideMem (x * 64) t) secs s1
  have h01 : BesideMem slotRegs [] s0 s1 := .of_mem rfl
  clear_value s2
  have h23 : BesideMem slotRegs [] s2 s3 := .of_mem rfl
  have h4 : BesideMem slotRegs [] s3 s4 := foldl_besideMem (fun t (c : Nat × Nat) => pokeByte_besideMem (base + c.1) c.2 t) _ s3
  exact ((h0.trans h01).trans (h2.trans h23)).trans (h4.trans (fillSlot_besideMem h g base _ s4))

/-- A write of a dump into its slot leaves every byte outside the slot alone. -/
theorem byteAt_slotWrite_out (hn : n ≤ slotSize) (hc : ∀ c ∈ cells, c.1 < slotSize) {a : Nat} (ha : ¬InSlot g a) :
    byteAt (slotWrite h g n cells bad s) a = byteAt s a := by
  unfold slotWrite
  extract_lets base s0 secs inside s1 s2 lost s3 s4
  have hout : a < base ∨ base + slotSize ≤ a := by
    unfold InSlot at ha
    show a < slotBase g ∨ slotBase g + slotSize ≤ a
    omega
  have hin : inside a = false := by
    show (decide (base ≤ a) && decide (a < base + (n + 63) / 64 * 64) && !slotLost s0 h g a) = false
    rw [Bool.and_eq_false_iff, Bool.and_eq_false_iff, decide_eq_false_iff_not, decide_eq_false_iff_not]
    have hsize : slotSize = 0x20000000 := rfl
    exact .inl (by omega)
  have h0 : s0.mem = s.mem := by
    show (if g ≠ h && underReset s g then noteOffline base (deviceId s) false s else s).mem = s.mem
    split
    · exact noteOffline_mem _ _ _ _
    · rfl
  have h2 : s2.mem = s1.mem := poisonAll_mem secs s1
  have h3 : byteAt s3 a = byteAt s2 a := by
    show (SMap.get (0 : BitVec 8) (SMap.dropKeys s2.mem (fun a => inside a && !lost a)) a).toNat = _
    rw [SMap.get_dropKeys, hin]
    rfl
  have h4 : byteAt s4 a = byteAt s3 a := byteAt_pokeAll_out (fun c hm => by have := hc c (List.mem_of_mem_filter hm); omega) s3
  rw [byteAt_congr (fillAll_mem h g base _ s4), h4, h3, byteAt_congr h2, byteAt_congr (t := s1) (s := s0) rfl, byteAt_congr h0]

/-- A byte that one cell alone names is in its place, where the slot is not lost and no poison is due in its sector. -/
theorem byteAt_slotWrite_in {i v : Nat} (hlost : slotLost s h g (slotBase g + i) = false) (hv : (i, v) ∈ cells)
    (hone : ∀ c ∈ cells, c.1 = i → c.2 = v) (hi : i < 64) (hb : ∀ b ∈ bad, 256 ≤ b) :
    byteAt (slotWrite h g n cells bad s) (slotBase g + i) = v % 256 := by
  unfold slotWrite
  extract_lets base s0 secs inside s1 s2 lost s3 s4
  have h0 : BesideMem slotRegs [] s s0 := (Aside.ite (noteOffline_aside _ _ _ _) .refl).besideMem
  have h12 : BesideMem slotRegs [] s1 s2 := foldl_besideMem (fun t x => poisonSector_besideMem (x * 64) t) secs s1
  have h01 : BesideMem slotRegs [] s0 s1 := .of_mem rfl
  have h23 : BesideMem slotRegs [] s2 s3 := .of_mem rfl
  have hk : Keeps slotRegs [] s s3 := ((h0.trans h01).trans (h12.trans h23)).keeps
  have hl3 : slotLost s3 h g (base + i) = false :=
    (slotLost_congr (fun j => hk _ j (by decide) (by simp)) (fun j => hk _ j (by decide) (by simp)) h _).trans hlost
  have hsec : secs.contains ((base + i) / 64) = false := by
    rw [Bool.eq_false_iff]
    intro hm
    have hm := List.mem_of_mem_filter (List.contains_iff_mem.mp hm)
    rw [List.mem_eraseDups, List.mem_flatMap] at hm
    obtain ⟨b, hmb, hx⟩ := hm
    have := hb b hmb
    have h64 : base % 64 = 0 := by show (g * 0x2000000000 + 0x1FE0000000) % 64 = 0; omega
    simp only [List.mem_cons, List.not_mem_nil, or_false] at hx
    omega
  have hnot : lost (base + i) = false := by
    show (secs.contains ((base + i) / 64) && !marked s2 ((base + i) / 64)) = false
    rw [hsec]
    rfl
  have h4 : byteAt s4 (base + i) = v % 256 :=
    byteAt_pokeAll_in (fun c hm => hone c (List.mem_of_mem_filter hm))
      (.inl ⟨(i, v), List.mem_filter.mpr ⟨hv, by simp only [hnot, hl3, Bool.not_false, Bool.and_self]⟩, rfl⟩)
  rw [byteAt_congr (fillAll_mem h g base _ s4), h4]

theorem writeHeader_besideMem (h g status bytes recs : Nat) (s : State) :
    BesideMem slotRegs [] s (writeHeader h g status bytes recs s) := by
  unfold writeHeader
  extract_lets base hdr
  refine foldl_besideMem (fun t i => ?_) _ s
  split
  · exact Aside.refl.besideMem
  · exact pokeByte_besideMem _ _ _

end

/-! ## The dump as a whole -/

/-- The status that a dump ends with (R379). -/
def dumpStatus (o : DumpOut) : Nat := if o.stopped then 3 else if o.marker then 2 else 1

/-- The dump of hive h in the slot of hive g: its header, its records, its poison. -/
def dumpSlotted (h g : Nat) (s : State) : State :=
  let o := dumpLayout h s
  slotWrite h g o.pos (placed 0 (dumpHeader h g (dumpStatus o) o.pos o.recs s) ++ o.cells) o.bad { s with freshCount := s.freshCount + 64 }

theorem writeDump_eq {h g : Nat} {s : State} (hd : (hiveS s h).dumpTo = some g) :
    writeDump h s = modHive h
      (fun x => { x with records := (dumpLayout h s).recs, bytes := (dumpLayout h s).pos, marker := (dumpLayout h s).marker })
      (setFld F.RL_DUMP_SLOT_g_status g (dumpStatus (dumpLayout h s))
        (setFld F.RL_DUMP_SLOT_g_size_4k g (((dumpLayout h s).pos + 4095) / 4096) (dumpSlotted h g s))) := by
  rw [writeDump, hd]
  rfl

/-- A dump changes memory, the registers of its slot, what it logs, and its hive's record. -/
theorem dumpSlotted_besideMem (h g : Nat) (s : State) : BesideMem slotRegs [] s (dumpSlotted h g s) :=
  BesideMem.trans (t := { s with freshCount := s.freshCount + 64 }) (Aside.of_still rfl rfl).besideMem (slotWrite_besideMem _ _ _ _ _ _)

theorem byteAt_dumpSlotted_out {h g a : Nat} {s : State} (ha : ¬InSlot g a) : byteAt (dumpSlotted h g s) a = byteAt s a := by
  obtain ⟨hp, hc, -⟩ := dumpLayout_within h s
  refine (byteAt_slotWrite_out (s := { s with freshCount := s.freshCount + 64 }) hp (fun c hm => ?_) ha).trans rfl
  rcases List.mem_append.mp hm with hm | hm
  · have := mem_placed hm
    rw [dumpHeader_length] at this
    have hsize : slotSize = 0x20000000 := rfl
    omega
  · exact (hc c hm).2

theorem leNat_mark : leNat ((List.range 4).map (fun i => nth 0 (natLe 4 0x504D5544) i % 256)) = 0x504D5544 := by
  simp [List.range_succ, leNat, natLe, nth]

/-- A byte of a dump's header is in its place, where the slot is not lost there. -/
theorem byteAt_dumpSlotted_header {h g i : Nat} {s : State} (hi : i < 4) (hl : slotLost s h g (slotBase g + i) = false) :
    byteAt (dumpSlotted h g s) (slotBase g + i)
      = nth 0 (dumpHeader h g (dumpStatus (dumpLayout h s)) (dumpLayout h s).pos (dumpLayout h s).recs s) i % 256 := by
  obtain ⟨-, hc, hb⟩ := dumpLayout_within h s
  unfold dumpSlotted
  extract_lets o
  have hlen : (dumpHeader h g (dumpStatus o) o.pos o.recs s).length = 256 := dumpHeader_length _ _ _ _ _ _
  generalize dumpHeader h g (dumpStatus o) o.pos o.recs s = hdr at hlen ⊢
  have hA : Aside [] [] s { s with freshCount := s.freshCount + 64 } := .of_still rfl rfl
  have hl' : slotLost { s with freshCount := s.freshCount + 64 } h g (slotBase g + i) = false := by
    rwa [slotLost_congr (fun _ => hA.reg (by simp) (by simp)) (fun _ => hA.reg (by simp) (by simp))]
  refine byteAt_slotWrite_in hl' ?_ (fun c hm he => ?_) (by omega) hb
  · have hm := mem_placed_of_lt (off := 0) (bs := hdr) (i := i) (by omega)
    rw [Nat.zero_add] at hm
    exact List.mem_append_left _ hm
  · rcases List.mem_append.mp hm with hm | hm
    · rw [(mem_placed hm).2.2, he, Nat.sub_zero]
    · have := (hc c hm).1
      omega

/-- Where the slot is not lost, a dump begins with its mark (R379). -/
theorem numAt_dumpSlotted {h g : Nat} {s : State} (hl : ∀ i < 4, slotLost s h g (slotBase g + i) = false) :
    numAt (dumpSlotted h g s) (slotBase g) 4 = 0x504D5544 := by
  have hbytes : bytesAt (dumpSlotted h g s) (slotBase g) 4 = (List.range 4).map (fun i => nth 0 (natLe 4 0x504D5544) i % 256) := by
    refine List.map_congr_left fun i hi => ?_
    have hi := List.mem_range.mp hi
    rw [byteAt_dumpSlotted_header hi (hl i hi), dumpHeader_mark _ _ _ _ _ _ hi]
  rw [numAt, hbytes, leNat_mark]

/-! ## The clauses of O50 on a dump -/

/-- What stays of a state once a dump has been written: all but memory, the slot's registers, what is logged, and the hive's record. -/
theorem writeDump_spec {h g : Nat} {s : State} (hd : (hiveS s h).dumpTo = some g) :
    Keeps (.RL_DUMP_SLOT_g :: slotRegs) [] s (writeDump h s)
      ∧ (writeDump h s).pairs = s.pairs ∧ (writeDump h s).mem = (dumpSlotted h g s).mem
      ∧ fld (writeDump h s) F.RL_DUMP_SLOT_g_status g = dumpStatus (dumpLayout h s)
      ∧ hiveS (writeDump h s) h = { hiveS s h with
          records := (dumpLayout h s).recs, bytes := (dumpLayout h s).pos, marker := (dumpLayout h s).marker }
      ∧ ∀ x, x ≠ h → hiveS (writeDump h s) x = hiveS s x := by
  have hB := dumpSlotted_besideMem h g s
  have hst : dumpStatus (dumpLayout h s) < 2 ^ F.RL_DUMP_SLOT_g_status.width := by
    unfold dumpStatus
    split_ifs <;> decide
  rw [writeDump_eq hd]
  generalize dumpSlotted h g s = t at hB ⊢
  refine ⟨?_, hB.pairs, rfl, fld_setFld_fits (by decide) _ hst _, ?_, fun x hx => ?_⟩
  · exact ((hB.keeps.mono (by simp) (by simp)).setFld (f := F.RL_DUMP_SLOT_g_size_4k) _ (.inl (by simp))).setFld
      (f := F.RL_DUMP_SLOT_g_status) _ (.inl (by simp))
  · rw [hiveS_modHive_self, hiveS_congr (s := s)]
    exact hB.hives
  · rw [hiveS_modHive_ne _ _ hx, hiveS_congr (s := s)]
    exact hB.hives

theorem hiveState_of_dumping {s : State} {h : Nat} (hd : dumping s h = true) : hiveState s h = 2 ∧ (hiveS s h).waitReset = false := by
  simp only [dumping, Bool.and_eq_true, decide_eq_true_eq, Bool.not_eq_true'] at hd
  exact hd.1

/-- The budget cuts a dump off with status 3 (R378, R381). -/
theorem dump_cutOff (h : Hive) (g k n : Nat) (s : State) (hs : Released s) (hd : dumping s h = true) (hr : (hiveS s h).records = 0)
    (hg : (hiveS s h).dumpTo = some g) (hb : (hiveS s h).dumpAt + 1000 * fld s F.RL_DUMP_CFG_budget_ms ≤ s.us) (hk : k < (dumpPlan s h).length) :
    Completes (.dumpBudgetExpire h k n) s fun u =>
      fld u F.RL_DUMP_SLOT_g_status g = 3 ∧ (hiveS u h).records ≠ 0 ∧ hiveState u h = 2 ∧ u.pairs = s.pairs
        ∧ ∀ a, ¬InSlot g a → byteAt u a = byteAt s a := by
  set v := modHive h (fun x => { x with stopped := some (k, n) }) s with hv
  have hu : dumpBudgetExpire h k n s = writeDump h v := by
    rw [dumpBudgetExpire, if_neg (by simp [hd, hr]), if_pos hb]
  have hvh : hiveS v h = { hiveS s h with stopped := some (k, n) } := hiveS_modHive_self _ _ _
  obtain ⟨hstop, hrecs⟩ := dumpLayout_stopped (s := v) (h := h) (m := n) (k := k) (by rw [hvh]) hk
  obtain ⟨hkeep, hpairs, hmem, hstatus, hhive, -⟩ := writeDump_spec (s := v) (h := h) (g := g) (by rw [hvh]; exact hg)
  refine completes_released hs rfl ?_
  rw [hu]
  refine ⟨?_, ?_, ?_, hpairs, fun a ha => ?_⟩
  · refine hstatus.trans ?_
    rw [dumpStatus, if_pos hstop]
  · show (hiveS (writeDump h v) h).records ≠ 0
    rw [hhive]
    exact hrecs
  · exact (hkeep.fld (f := F.RL_HIVE_h_state) (by decide) (by simp)).trans (hiveState_of_dumping hd).1
  · exact (byteAt_congr hmem a).trans (byteAt_dumpSlotted_out ha)

end Sys2Proof.Machine

/-! SUPPORT. The phases of a hive's fault (R374, R376): what each hive's own leave alone of the others. -/

namespace Sys2Proof.Machine

/-- A fold whose every step leaves the start alone. -/
theorem foldl_stays {α : Type} {f : State → α → State} {l : List α} {s : State} (h : ∀ a ∈ l, f s a = s) : l.foldl f s = s := by
  induction l with
  | nil => rfl
  | cons a l ih =>
    rw [List.foldl_cons, h a (by simp)]
    exact ih fun b hb => h b (List.mem_cons_of_mem _ hb)

theorem lateReset_stays {s : State} {x : Nat} (h : (hiveS s x).waitReset = false) : lateReset s x = s := by
  simp [lateReset, h]

theorem nextPhase_stays {s : State} {x : Nat} (h : hiveState s x ≠ 1) : nextPhase s x = s := by
  simp [nextPhase, h]

/-- Where no hive waits for a dump and none is in QUIESCE, nothing goes on. -/
theorem dumpsGoOn_stays {s : State} (h : ∀ x < 4, (hiveS s x).waitReset = false ∧ hiveState s x ≠ 1) : dumpsGoOn s = s := by
  unfold dumpsGoOn
  have hmem : ∀ {x}, x ∈ List.range 4 → x < 4 := List.mem_range.mp
  rw [foldl_stays (f := lateReset) fun x hx => lateReset_stays (h x (hmem hx)).1,
    foldl_stays fun x hx => nextPhase_stays (h x (hmem hx)).2]

theorem afterDump_hold {h : Nat} {s : State} (ha : bitAt (fld s F.RL_CTRL_auto_reset) h = false) :
    afterDump h s = setFld F.RL_HIVE_h_state h hsFaultHold s := by
  simp [afterDump, ha]

/-! ## The end of a dump -/

theorem tierOf_slot {g i : Nat} (hg : g < 4) (hi : i < slotSize) : tierOf (slotBase g + i) = .far g := by
  have hsize : slotSize = 0x20000000 := rfl
  have hbase : slotBase g + i < nearBase ∧ (slotBase g + i) / hiveBytes = g := by
    simp only [slotBase, nearBase, hiveBytes]
    omega
  rw [tierOf, if_pos hbase.1, hbase.2]

theorem slotLost_free {s : State} {h g i : Nat} (hg : g < 4) (hi : i < slotSize) (hf : fld s F.MEM_STATUS_chan_failed g = 0)
    (hs : g ≠ h → hiveState s g = 0) : slotLost s h g (slotBase g + i) = false := by
  have hc : channelFailed s (slotBase g + i) = false := by
    rw [channelFailed, tierOf_slot hg hi]
    dsimp only
    rw [hf, bitAt_eq_testBit, Nat.zero_testBit]
  rw [slotLost, hc, Bool.false_or]
  by_cases he : g = h
  · simp [he]
  · simp [underReset, hs he]

/-- A dump complete, its markers noted. -/
def dumpMarked (h : Nat) (s : State) : State :=
  if (hiveS (writeDump h s) h).marker then raise F.RL_EVENTS_dump_marker 0 (writeDump h s) else writeDump h s

theorem dumpMarked_aside (h : Nat) (s : State) : Aside [.RL_EVENTS] [] (writeDump h s) (dumpMarked h s) :=
  Aside.ite (Aside.refl.raise (.inl (by simp))) .refl

/-- The end of a dump as its hive goes on to FAULT_HOLD. -/
def dumpHeld (h : Nat) (s : State) : State :=
  setFld F.RL_HIVE_h_state h hsFaultHold (raise F.RL_EVENTS_dump_done 0 (modHive h (fun x => { x with aborted := false }) (dumpMarked h s)))

/-- Before the hive's own state changes, a dump's end has touched the slot's registers, events, and what the dump logged. -/
theorem dumpHeld_keeps {h g : Nat} {s : State} (hg : (hiveS s h).dumpTo = some g) :
    Keeps (.RL_DUMP_SLOT_g :: slotRegs) [(.RL_HIVE_h, h)] s (dumpHeld h s) := by
  have hk : Keeps (.RL_DUMP_SLOT_g :: slotRegs) [(.RL_HIVE_h, h)] s (dumpMarked h s) :=
    ((writeDump_spec hg).1.mono (fun _ x => x) (by simp)).trans ((dumpMarked_aside h s).2.mono (by simp) (by simp))
  have hm : Keeps (.RL_DUMP_SLOT_g :: slotRegs) [(.RL_HIVE_h, h)] s (modHive h (fun x => { x with aborted := false }) (dumpMarked h s)) := hk
  exact (hm.setFld (f := F.RL_EVENTS_dump_done) 1 (.inl (by simp))).setFld (f := F.RL_HIVE_h_state) _ (.inr (by simp))

theorem hiveS_dumpHeld {h g : Nat} {s : State} (hg : (hiveS s h).dumpTo = some g) (x : Nat) :
    (hiveS (dumpHeld h s) x).waitReset = (hiveS s x).waitReset := by
  obtain ⟨-, -, -, -, hown, hother⟩ := writeDump_spec hg
  have hv := (dumpMarked_aside h s).hives
  show (hiveS (modHive h (fun x => { x with aborted := false }) (dumpMarked h s)) x).waitReset = _
  by_cases hx : x = h
  · subst hx
    rw [hiveS_modHive_self, hiveS_congr hv, hown]
  · rw [hiveS_modHive_ne _ _ hx, hiveS_congr hv, hother x hx]

theorem hiveState_dumpHeld (h : Nat) (s : State) : hiveState (dumpHeld h s) h = 4 := fld_setFld_fits (by decide) _ (by decide) _

/-- A dump that ends, with no other hive at fault and no reset to follow. -/
theorem dumpComplete_alone {h g : Nat} {s : State} (hd : dumping s h = true) (ha : AloneHive h s) (hr : (hiveS s h).records = 0)
    (hg : (hiveS s h).dumpTo = some g) (hreset : bitAt (fld s F.RL_CTRL_auto_reset) h = false) : dumpComplete h s = dumpHeld h s := by
  have hk := dumpHeld_keeps hg
  have hctrl : fld (raise F.RL_EVENTS_dump_done 0 (modHive h (fun x => { x with aborted := false }) (dumpMarked h s))) F.RL_CTRL_auto_reset
      = fld s F.RL_CTRL_auto_reset := by
    rw [fld_raise_apart (by decide) (by decide)]
    exact ((dumpMarked_aside h s).fld (f := F.RL_CTRL_auto_reset) (by decide) (by simp)).trans
      ((writeDump_spec hg).1.fld (by decide) (by simp))
  have hend : dumpComplete h s = dumpsGoOn (afterDump h
      (raise F.RL_EVENTS_dump_done 0 (modHive h (fun x => { x with aborted := false }) (dumpMarked h s)))) := by
    simp only [dumpComplete, hd, hr, Bool.not_true, Bool.false_eq_true, if_false, if_true, dumpEnded, dumpMarked]
  rw [hend, afterDump_hold (by rw [hctrl]; exact hreset)]
  refine dumpsGoOn_stays fun x hx => ?_
  show (hiveS (dumpHeld h s) x).waitReset = false ∧ hiveState (dumpHeld h s) x ≠ 1
  rw [hiveS_dumpHeld hg]
  by_cases hxh : x = h
  · subst hxh
    exact ⟨(hiveState_of_dumping hd).2, by rw [hiveState_dumpHeld]; decide⟩
  · obtain ⟨h0, hw⟩ := ha x hx hxh
    have hs : hiveState (dumpHeld h s) x = hiveState s x := hk.fld (f := F.RL_HIVE_h_state) (by decide) (by simp [hxh])
    exact ⟨hw, by rw [hs, h0]; decide⟩

/-- A dump ends with its header and status, and its hive holds (R374, R378, R379). -/
theorem dump_ends (h : Hive) (g : Nat) (s : State) (hs : Released s) (hd : dumping s h = true) (ha : AloneHive h s)
    (hr : (hiveS s h).records = 0) (hg : (hiveS s h).dumpTo = some g) (hg4 : g < 4) (hf : fld s F.MEM_STATUS_chan_failed g = 0)
    (hreset : bitAt (fld s F.RL_CTRL_auto_reset) h = false) :
    Completes (.dumpComplete h) s fun u =>
      hiveState u h = 4 ∧ fld u F.RL_EVENTS_dump_done = 1 ∧ fld u F.RL_DUMP_SLOT_g_status g ∈ [1, 2, 3]
        ∧ numAt u (slotBase g) 4 = 0x504D5544 ∧ u.pairs = s.pairs ∧ ∀ a, ¬InSlot g a → byteAt u a = byteAt s a := by
  obtain ⟨-, hpairs, hmem, hstatus, -, -⟩ := writeDump_spec hg
  have hA := dumpMarked_aside h s
  have hm : (dumpHeld h s).mem = (dumpSlotted h g s).mem := hA.mem.trans hmem
  refine completes_released hs rfl ?_
  rw [dumpComplete_alone hd ha hr hg hreset]
  refine ⟨hiveState_dumpHeld h s, ?_, ?_, ?_, hA.pairs.trans hpairs, fun a ho => ?_⟩
  · rw [keepQueue_fld, dumpHeld, fld_setFld_apart (by decide) (by decide), fld_raise_self (by decide) rfl]
  · have hst : fld (dumpHeld h s) F.RL_DUMP_SLOT_g_status g = dumpStatus (dumpLayout h s) := by
      rw [dumpHeld, fld_setFld_apart (by decide) (by decide), fld_raise_apart (by decide) (by decide)]
      exact (hA.fld (f := F.RL_DUMP_SLOT_g_status) (by decide) (by simp)).trans hstatus
    rw [keepQueue_fld, hst, dumpStatus]
    split_ifs <;> decide
  · have hb : bytesAt (dumpHeld h s) (slotBase g) 4 = bytesAt (dumpSlotted h g s) (slotBase g) 4 := by
      simp only [bytesAt, byteAt_congr hm]
    show leNat (bytesAt (dumpHeld h s) (slotBase g) 4) = _
    rw [hb]
    exact numAt_dumpSlotted fun i hi => slotLost_free hg4 (lt_trans hi (by norm_num)) hf fun hne => (ha g hg4 hne).1
  · exact (byteAt_congr hm a).trans (byteAt_dumpSlotted_out ho)

/-! ## What one hive's phases leave of another -/

/-- From s to u hive h is as before: its state, its memory's status and the rules of resets, its record, its pairs; no request has
come, no dump has found a new slot, and no time has passed. -/
structure LeavesHive (h : Nat) (s u : State) : Prop where
  regs : ∀ k ∈ [(Reg.RL_HIVE_h, h), (.MEM_STATUS, h), (.RL_CTRL, 0)], reg u k.1 k.2 = reg s k.1 k.2
  hive : hiveS u h = hiveS s h
  pairs : ∀ p, p / 16 = h → pair u p = pair s p
  requests : ∀ r ∈ u.requests, r ∈ s.requests
  dumpTo : ∀ x g, (hiveS u x).dumpTo = some g → (hiveS s x).dumpTo = some g
  us : u.us = s.us

section
variable {h x : Nat} {s t u : State}

theorem LeavesHive.refl : LeavesHive h s s := ⟨fun _ _ => rfl, rfl, fun _ _ => rfl, fun _ hr => hr, fun _ _ hd => hd, rfl⟩

theorem LeavesHive.trans (a : LeavesHive h s t) (b : LeavesHive h t u) : LeavesHive h s u where
  regs k hk := (b.regs k hk).trans (a.regs k hk)
  hive := b.hive.trans a.hive
  pairs p hp := (b.pairs p hp).trans (a.pairs p hp)
  requests r hr := a.requests r (b.requests r hr)
  dumpTo x g hd := a.dumpTo x g (b.dumpTo x g hd)
  us := b.us.trans a.us

/-- A fold over other hives. -/
theorem LeavesHive.foldl {f : State → Nat → State} {l : List Nat} (hf : ∀ t, ∀ x ∈ l, LeavesHive h t (f t x)) (s : State) :
    LeavesHive h s (l.foldl f s) := by
  induction l generalizing s with
  | nil => exact .refl
  | cons x l ih => exact (hf s x (by simp)).trans (ih (fun t y hy => hf t y (List.mem_cons_of_mem _ hy)) _)

theorem LeavesHive.hiveState (a : LeavesHive h s u) : hiveState u h = hiveState s h := by
  simp only [Machine.hiveState, fld, a.regs (.RL_HIVE_h, h) (by simp)]

theorem LeavesHive.memStatus (a : LeavesHive h s u) {f : Fld} (hf : f.reg = .MEM_STATUS) : fld u f h = fld s f h := by
  simp only [fld, hf, a.regs (.MEM_STATUS, h) (by simp)]

theorem LeavesHive.autoReset (a : LeavesHive h s u) : fld u F.RL_CTRL_auto_reset = fld s F.RL_CTRL_auto_reset := by
  simp only [fld, a.regs (.RL_CTRL, 0) (by simp)]

/-- Memory, its marks, and registers of no hive's own. -/
theorem BesideMem.leavesHive {rs : List Reg} {ks : List (Reg × Nat)} (a : BesideMem rs ks s u)
    (h1 : ∀ k ∈ [(Reg.RL_HIVE_h, h), (.MEM_STATUS, h), (.RL_CTRL, 0)], k.1 ∉ rs ∧ k ∉ ks) : LeavesHive h s u where
  regs k hk := a.keeps k.1 k.2 (h1 k hk).1 (h1 k hk).2
  hive := hiveS_congr a.hives h
  pairs p _ := by simp only [pair, a.pairs]
  requests r hr := a.requests ▸ hr
  dumpTo x g hd := by rwa [hiveS_congr a.hives] at hd
  us := a.us

theorem setFld_leavesHive {f : Fld} {i : Nat} (v : Nat) (s : State)
    (hf : (f.reg, i) ∉ [(Reg.RL_HIVE_h, h), (.MEM_STATUS, h), (.RL_CTRL, 0)]) : LeavesHive h s (setFld f i v s) where
  regs k hk := reg_setFld_ne v s (by
    by_contra c
    simp only [not_or, not_not] at c
    obtain ⟨c1, c2⟩ := c
    exact hf (by rw [c1, c2]; exact hk))
  hive := rfl
  pairs _ _ := rfl
  requests _ hr := hr
  dumpTo _ _ hd := hd
  us := rfl

theorem modHive_leavesHive {f : HiveS → HiveS} (hx : h ≠ x) (hf : ∀ y g, (f y).dumpTo = some g → y.dumpTo = some g) (s : State) :
    LeavesHive h s (modHive x f s) where
  regs _ _ := rfl
  hive := hiveS_modHive_ne f s hx
  pairs _ _ := rfl
  requests _ hr := hr
  dumpTo y g hd := by
    by_cases hy : y = x
    · subst hy
      rw [hiveS_modHive_self] at hd
      exact hf _ g hd
    · rwa [hiveS_modHive_ne f s hy] at hd
  us := rfl

/-! ### The reset of a hive's units -/

theorem regKey_code (r : Reg) (i : Nat) : regKey r i % 256 = r.code ∧ regKey r i / 256 = i := by
  have := r.code_lt
  unfold regKey
  omega

/-- Where register r's places are of no hive and no pair, it stands in no hive's window. -/
theorem not_inHiveWindow {r : Reg} (hr : regPlaces.all (fun y => y.reg ≠ r || (y.space ≠ .hive && y.space ≠ .pair)) = true) (x i : Nat) :
    inHiveWindow x (regKey r i) = false := by
  rw [inHiveWindow, List.any_eq_false]
  intro y hy
  rw [(regKey_code r i).1, Bool.and_eq_true, not_and, decide_eq_true_eq]
  intro hc
  have hp := List.all_eq_true.mp hr y hy
  have hreg : y.reg = r := Reg.code_inj hc
  cases hsp : y.space <;> simp_all

/-- MEM_STATUS stands in its own hive's window alone. -/
theorem memStatus_inHiveWindow {x i : Nat} (hx : i ≠ x) : inHiveWindow x (regKey .MEM_STATUS i) = false := by
  rw [inHiveWindow, List.any_eq_false]
  intro y hy
  obtain ⟨hcode, hinst⟩ := regKey_code .MEM_STATUS i
  rw [hcode, hinst, Bool.and_eq_true, not_and, decide_eq_true_eq]
  intro hc
  have hplace : regPlaces.all (fun y => y.reg ≠ .MEM_STATUS || (y.space = .hive && y.count = 1)) = true := by decide
  have hp := List.all_eq_true.mp hplace y hy
  have hreg : y.reg = .MEM_STATUS := Reg.code_inj hc
  simp_all

theorem hiveRegs_inHiveWindow (x i : Nat) :
    inHiveWindow x (regKey .RL_HIVE_h i) = false ∧ inHiveWindow x (regKey .RL_CTRL i) = false :=
  ⟨not_inHiveWindow (by decide) x i, not_inHiveWindow (by decide) x i⟩

theorem reg_resetUnits {r : Reg} {i : Nat} (hw : inHiveWindow x (regKey r i) = false) (s : State) : reg (resetUnits x s) r i = reg s r i := by
  simp only [reg, resetUnits, SMap.get_dropKeys, hw, Bool.false_eq_true, if_false]

theorem pair_resetUnits (x p : Nat) (s : State) : pair (resetUnits x s) p = if p / 16 = x then {} else pair s p := by
  simp only [pair, resetUnits, SMap.get_dropKeys, decide_eq_true_eq]

theorem resetUnits_leavesHive (hx : h ≠ x) (s : State) : LeavesHive h s (resetUnits x s) where
  regs k hk := by
    simp only [List.mem_cons, List.not_mem_nil, or_false] at hk
    rcases hk with rfl | rfl | rfl
    · exact reg_resetUnits (hiveRegs_inHiveWindow x h).1 s
    · exact reg_resetUnits (memStatus_inHiveWindow hx) s
    · exact reg_resetUnits (hiveRegs_inHiveWindow x 0).2 s
  hive := rfl
  pairs p hp := by rw [pair_resetUnits, if_neg (by omega)]
  requests _ hr := hr
  dumpTo _ _ hd := hd
  us := rfl

theorem dropOutstanding_leavesHive (x : Nat) (s : State) : LeavesHive h s (dropOutstanding x s) :=
  ⟨fun _ _ => rfl, rfl, fun _ _ => rfl, fun _ hr => List.mem_of_mem_filter hr, fun _ _ hd => hd, rfl⟩

theorem not_ownReg {f : Fld} (hx : h ≠ x) (hf : f.reg ≠ .RL_CTRL) : (f.reg, x) ∉ [(Reg.RL_HIVE_h, h), (.MEM_STATUS, h), (.RL_CTRL, 0)] := by
  simp only [List.mem_cons, Prod.mk.injEq, List.not_mem_nil, or_false, not_or, not_and]
  exact ⟨fun _ => hx.symm, fun _ => hx.symm, fun e => absurd e hf⟩

theorem enterReset_leavesHive (hx : h ≠ x) (s : State) : LeavesHive h s (enterReset x s) := by
  unfold enterReset
  extract_lets failed s1 s2 s3 s4 s5 times
  have h1 : LeavesHive h s s1 := resetUnits_leavesHive hx s
  have h2 : LeavesHive h s1 s2 := (setFld_leavesHive _ _ (not_ownReg hx (by decide))).trans (setFld_leavesHive _ _ (not_ownReg hx (by decide)))
  have h3 : LeavesHive h s2 s3 := ⟨fun _ _ => rfl, rfl, fun _ _ => rfl, fun _ hr => hr, fun _ _ hd => hd, rfl⟩
  have h4 : LeavesHive h s3 s4 := dropOutstanding_leavesHive x s3
  have h5 : LeavesHive h s4 s5 := (setFld_leavesHive _ _ (not_ownReg hx (by decide))).trans (setFld_leavesHive _ _ (not_ownReg hx (by decide)))
  exact (((h1.trans h2).trans h3).trans h4).trans (h5.trans (modHive_leavesHive hx (fun _ _ hd => by simp at hd) _))

theorem afterDump_leavesHive (hx : h ≠ x) (s : State) : LeavesHive h s (afterDump x s) := by
  unfold afterDump
  split
  · exact setFld_leavesHive _ _ (not_ownReg hx (by decide))
  · split
    · exact modHive_leavesHive (f := fun x => { x with waitReset := true }) hx (fun _ _ hd => hd) s
    · exact enterReset_leavesHive hx s

theorem startDump_leavesHive (hx : h ≠ x) (g : Nat) (s : State) : LeavesHive h s (startDump x g s) := by
  unfold startDump
  extract_lets s1
  have h1 : LeavesHive h s s1 := (modHive_leavesHive (f := fun x => { x with dumpAt := s.us }) hx (fun _ _ hd => hd) s).trans (setFld_leavesHive _ _ (not_ownReg (f := F.RL_HIVE_h_state) hx (by decide)))
  exact h1.trans (((slotWrite_besideMem _ _ _ _ _ _).trans (writeHeader_besideMem _ _ _ _ _ _)).leavesHive (by simp))

theorem nextPhase_leavesHive (hx : h ≠ x) (s : State) : LeavesHive h s (nextPhase s x) := by
  unfold nextPhase
  dsimp only
  split
  · exact .refl
  · split
    · exact afterDump_leavesHive hx s
    · split
      · refine LeavesHive.trans ?_ (afterDump_leavesHive hx _)
        exact (modHive_leavesHive hx (fun _ _ hd => by simp at hd) s).trans (setFld_leavesHive _ _ (by simp))
      · split
        · exact .refl
        · exact startDump_leavesHive hx _ s

theorem lateReset_leavesHive (hw : (hiveS s h).waitReset = false) (x : Nat) : LeavesHive h s (lateReset s x) := by
  unfold lateReset
  split
  · rename_i hc
    have hx : h ≠ x := fun e => by subst e; simp [hw] at hc
    exact enterReset_leavesHive hx s
  · exact .refl

end

end Sys2Proof.Machine

/-! SUPPORT. The end of a hive's quiesce (R374). -/

namespace Sys2Proof.Machine

/-- What the quiesce of hive h leaves of its units (R374). -/
def abandonUnits (h : Nat) (s : State) : State := (pairsOf h).foldl (fun t p => modPair p PairS.abandoned t) s

theorem foldl_modPair_rest {f : PairS → PairS} (l : List Nat) (s : State) :
    l.foldl (fun t p => modPair p f t) s = { s with pairs := (l.foldl (fun t p => modPair p f t) s).pairs } := by
  induction l generalizing s with
  | nil => rfl
  | cons p l ih =>
    rw [List.foldl_cons, ih]
    rfl

theorem pair_foldl_modPair {f : PairS → PairS} (hf : ∀ x, f (f x) = f x) (l : List Nat) (s : State) (p : Nat) :
    pair (l.foldl (fun t p => modPair p f t) s) p = if p ∈ l then f (pair s p) else pair s p := by
  induction l generalizing s with
  | nil => rfl
  | cons q l ih =>
    rw [List.foldl_cons, ih]
    by_cases hpq : p = q
    · subst hpq
      rw [pair_modPair_self, hf, ite_self, if_pos (by simp)]
    · rw [pair_modPair_ne _ _ hpq]
      simp [hpq]

theorem pair_abandonUnits (h p : Nat) (s : State) :
    pair (abandonUnits h s) p = if p / 16 = h then (pair s p).abandoned else pair s p := by
  simp only [abandonUnits, pair_foldl_modPair (f := PairS.abandoned) (fun _ => rfl), mem_pairsOf]

theorem abandonUnits_rest (h : Nat) (s : State) : ∃ x, abandonUnits h s = { s with pairs := x } := by
  unfold abandonUnits
  exact ⟨_, foldl_modPair_rest _ s⟩

/-- The quiesce of hive h has ended, and its phases have not gone on. -/
def quiesced (h : Nat) (s : State) : State := modHive h (fun x => { x with quiesced := true }) (dropOutstanding h (abandonUnits h s))

theorem pair_quiesced {h p : Nat} (hp : p / 16 = h) (s : State) : pair (quiesced h s) p = (pair s p).abandoned := by
  have hpairs : ∀ t, pair (modHive h (fun x => { x with quiesced := true }) (dropOutstanding h t)) p = pair t p := fun _ => rfl
  rw [quiesced, hpairs, pair_abandonUnits, if_pos hp]

/-- Beside the pairs, and what is waited for, the quiesce's end is in its hive's own record alone. -/
theorem quiesced_rest (h : Nat) (s : State) :
    (quiesced h s).regs = s.regs ∧ (quiesced h s).us = s.us
      ∧ (quiesced h s).requests = s.requests.filter (fun r => r.kind = 5 || hiveOf r.pair ≠ h)
      ∧ hiveS (quiesced h s) h = { hiveS s h with quiesced := true }
      ∧ ∀ x, (hiveS (quiesced h s) x).dumpTo = (hiveS s x).dumpTo := by
  obtain ⟨ps, hps⟩ := abandonUnits_rest h s
  rw [quiesced, hps]
  refine ⟨rfl, rfl, rfl, hiveS_modHive_self _ _ _, fun x => ?_⟩
  by_cases hx : x = h
  · rw [hx, hiveS_modHive_self]
    rfl
  · rw [hiveS_modHive_ne _ _ hx]
    rfl

theorem hiveS_quiesced (h : Nat) (s : State) : hiveS (quiesced h s) h = { hiveS s h with quiesced := true } :=
  (quiesced_rest h s).2.2.2.1

theorem dumpTo_quiesced (h x : Nat) (s : State) : (hiveS (quiesced h s) x).dumpTo = (hiveS s x).dumpTo :=
  (quiesced_rest h s).2.2.2.2 x

theorem reg_quiesced (h : Nat) (s : State) (r : Reg) (i : Nat) : reg (quiesced h s) r i = reg s r i := by
  simp only [reg, (quiesced_rest h s).1]

/-! ## The phases go on -/

theorem foldl_lateReset_leavesHive {h : Nat} (l : List Nat) {s : State} (hw : (hiveS s h).waitReset = false) :
    LeavesHive h s (l.foldl lateReset s) := by
  induction l generalizing s with
  | nil => exact .refl
  | cons x l ih =>
    have hx := lateReset_leavesHive hw x
    exact hx.trans (ih (by rw [hx.hive]; exact hw))

/-- As the phases go on, those of the other hives leave hive h alone before its own and after it. -/
theorem dumpsGoOn_hive {h : Nat} {s : State} (hh : h < 4) (hw : (hiveS s h).waitReset = false) :
    ∃ t, LeavesHive h s t ∧ LeavesHive h (nextPhase t h) (dumpsGoOn s) := by
  obtain ⟨l1, l2, hl⟩ := List.append_of_mem (List.mem_range.mpr hh)
  have hn : (l1 ++ h :: l2).Nodup := hl ▸ List.nodup_range
  obtain ⟨-, hn2, hdis⟩ := List.nodup_append.mp hn
  have h1 : ∀ x ∈ l1, h ≠ x := fun x hx e => hdis x hx h (by simp) e.symm
  have h2 : ∀ x ∈ l2, h ≠ x := fun x hx e => (List.nodup_cons.mp hn2).1 (e ▸ hx)
  refine ⟨l1.foldl nextPhase ((List.range 4).foldl lateReset s), ?_, ?_⟩
  · exact (foldl_lateReset_leavesHive _ hw).trans (LeavesHive.foldl (fun t x hx => nextPhase_leavesHive (h1 x hx) t) _)
  · have hgo : dumpsGoOn s = l2.foldl nextPhase (nextPhase (l1.foldl nextPhase ((List.range 4).foldl lateReset s)) h) := by
      rw [dumpsGoOn, hl, List.foldl_append, List.foldl_cons]
    rw [hgo]
    exact LeavesHive.foldl (fun t x hx => nextPhase_leavesHive (h2 x hx) t) _

/-- A quiesce that ends with no dump to follow: what precedes the end of the hive's phases, and what follows it. -/
theorem quiesceEnd_hive {h : Nat} {s : State} (hh : h < 4) (hst : hiveState s h = 1) (hq : (hiveS s h).quiesced = false)
    (hw : (hiveS s h).waitReset = false) (ht : (hiveS s h).since + 2000 ≤ s.us) (hd : (hiveS s h).dumpTo = none) :
    ∃ t, LeavesHive h (quiesced h s) t ∧ LeavesHive h (afterDump h t) (quiesceEnd h s) := by
  have hwq : (hiveS (quiesced h s) h).waitReset = false := by rw [hiveS_quiesced]; exact hw
  obtain ⟨t, ht1, ht2⟩ := dumpsGoOn_hive hh hwq
  have hend : quiesceEnd h s = dumpsGoOn (quiesced h s) := by
    have hc : (hiveState s h = hsQuiesce && !(hiveS s h).quiesced && (hiveS s h).since + 2000 ≤ s.us) = true := by simp [hst, hq, ht]
    simp only [quiesceEnd, hc, if_true, quiesced, abandonUnits]
  have hnext : nextPhase t h = afterDump h t := by
    have h1 : hiveState t h = 1 := by
      rw [ht1.hiveState]
      simpa only [hiveState, fld, reg_quiesced] using hst
    have h2 : hiveS t h = { hiveS s h with quiesced := true } := ht1.hive.trans (hiveS_quiesced h s)
    simp [nextPhase, h1, h2, hw, hd]
  exact ⟨t, ht1, by rw [hend, ← hnext]; exact ht2⟩

theorem autoReset_quiesced {h : Nat} {s t : State} (a : LeavesHive h (quiesced h s) t) :
    fld t F.RL_CTRL_auto_reset = fld s F.RL_CTRL_auto_reset := by
  rw [a.autoReset]
  simp only [fld, reg_quiesced]

/-- A quiesce ends, and the hive holds. -/
theorem quiesce_holds (h : Hive) (s : State) (hs : Released s) (hst : hiveState s h = 1) (hq : (hiveS s h).quiesced = false)
    (hw : (hiveS s h).waitReset = false) (ht : (hiveS s h).since + 2000 ≤ s.us) (hd : (hiveS s h).dumpTo = none)
    (ha : bitAt (fld s F.RL_CTRL_auto_reset) h = false) :
    Completes (.quiesceEnd h) s fun u =>
      hiveState u h = 4 ∧ (∀ p < 64, p / 16 = h.val → (pair u p).copies = [] ∧ (pair u p).vec = [] ∧ (pair u p).lists = []
          ∧ (pair u p).walks = [] ∧ (pair u p).colls = [] ∧ (pair u p).array.acc = (pair s p).array.acc)
        ∧ ∀ r ∈ u.requests, r.kind = 5 ∨ r.pair / 16 ≠ h.val := by
  obtain ⟨t, h1, h2⟩ := quiesceEnd_hive h.isLt hst hq hw ht hd
  rw [afterDump_hold (by rw [autoReset_quiesced h1]; exact ha)] at h2
  refine completes_released hs rfl ⟨?_, fun p _ hp => ?_, fun r hr => ?_⟩
  · exact h2.hiveState.trans (fld_setFld_fits (by decide) _ (by decide) _)
  · have hpair : pair (quiesceEnd h s) p = (pair s p).abandoned :=
      (h2.pairs p hp).trans ((h1.pairs p hp).trans (pair_quiesced hp s))
    show (pair (quiesceEnd h s) p).copies = [] ∧ _
    simp only [keepQueue_pair, hpair, PairS.abandoned, and_self]
  · have hr' := h1.requests r (h2.requests r hr)
    rw [(quiesced_rest h s).2.2.1] at hr'
    have hk := (List.mem_filter.mp hr').2
    rw [Bool.or_eq_true, decide_eq_true_eq, decide_eq_true_eq] at hk
    exact hk

/-! ## The reset of a hive -/

theorem dumpComing_none {s : State} {g : Nat} (h : ∀ x, (hiveS s x).dumpTo ≠ some g) : dumpComing s g = false := by
  simp [dumpComing, h]

/-- The units and memory of a hive whose reset begins (R374). -/
def resetBegun (h : Nat) (s : State) : State :=
  setFld F.MEM_STATUS_chan_failed h (fld s F.MEM_STATUS_chan_failed h) (setFld F.MEM_STATUS_self_refresh h 1 (resetUnits h s))

theorem fld_enterReset (h : Nat) (s : State) (f : Fld) (i : Nat) :
    fld (enterReset h s) f i = fld (satAddFld F.RL_HIVE_h_resets h 1 (setFld F.RL_HIVE_h_state h hsReset (resetBegun h s))) f i := rfl

theorem fld_resetBegun_resets (h : Nat) (s : State) : fld (resetBegun h s) F.RL_HIVE_h_resets h = fld s F.RL_HIVE_h_resets h := by
  rw [resetBegun, fld_setFld_apart (by decide) (by decide), fld_setFld_apart (by decide) (by decide), fld, fld,
    show F.RL_HIVE_h_resets.reg = .RL_HIVE_h from rfl, reg_resetUnits (hiveRegs_inHiveWindow h h).1]

/-- A hive's own reset (R374, R376): its registers. -/
theorem enterReset_regs (h : Nat) (s : State) :
    hiveState (enterReset h s) h = 3 ∧ fld (enterReset h s) F.MEM_STATUS_self_refresh h = 1
      ∧ fld (enterReset h s) F.RL_HIVE_h_resets h = satAdd 16 (fld s F.RL_HIVE_h_resets h) 1 := by
  refine ⟨?_, ?_, ?_⟩
  · rw [hiveState, fld_enterReset, fld_satAddFld_apart (by decide) (by decide), fld_setFld_fits (by decide) _ (by decide)]
  · rw [fld_enterReset, fld_satAddFld_apart (by decide) (by decide), fld_setFld_apart (by decide) (by decide), resetBegun,
      fld_setFld_apart (by decide) (by decide), fld_setFld_fits (by decide) _ (by decide)]
  · rw [fld_enterReset, fld_satAddFld_self (by decide), fld_setFld_apart (by decide) (by decide), fld_resetBegun_resets]
    rfl

/-- A hive's own reset: its units and its record. -/
theorem enterReset_units (h : Nat) (s : State) :
    (∀ p, p / 16 = h → pair (enterReset h s) p = {}) ∧ (hiveS (enterReset h s) h).resetAt = s.us
      ∧ (hiveS (enterReset h s) h).released = false := by
  refine ⟨fun p hp => ?_, ?_, ?_⟩
  · exact (pair_resetUnits h p s).trans (if_pos hp)
  · unfold enterReset
    extract_lets
    rw [hiveS_modHive_self]
    rfl
  · unfold enterReset
    extract_lets
    rw [hiveS_modHive_self]

/-- A quiesce ends, and the hive is reset. -/
theorem quiesce_resets (h : Hive) (s : State) (hs : Released s) (hst : hiveState s h = 1) (hq : (hiveS s h).quiesced = false)
    (hw : (hiveS s h).waitReset = false) (ht : (hiveS s h).since + 2000 ≤ s.us) (hto : ∀ x, (hiveS s x).dumpTo ≠ some h.val)
    (hd : (hiveS s h).dumpTo = none) (ha : bitAt (fld s F.RL_CTRL_auto_reset) h = true) :
    Completes (.quiesceEnd h) s fun u =>
      hiveState u h = 3 ∧ (∀ p < 64, p / 16 = h.val → pair u p = {}) ∧ fld u F.MEM_STATUS_self_refresh h = 1
        ∧ fld u F.RL_HIVE_h_resets h = satAdd 16 (fld s F.RL_HIVE_h_resets h) 1 ∧ (hiveS u h).resetAt = s.us
        ∧ (hiveS u h).released = false := by
  obtain ⟨t, h1, h2⟩ := quiesceEnd_hive h.isLt hst hq hw ht hd
  have hcoming : dumpComing t h = false := dumpComing_none fun x hx => hto x (by rw [← dumpTo_quiesced h]; exact h1.dumpTo x h hx)
  have hafter : afterDump h t = enterReset h t := by
    simp [afterDump, autoReset_quiesced h1, ha, hcoming]
  rw [hafter] at h2
  obtain ⟨hstate, hsr, hresets⟩ := enterReset_regs h t
  obtain ⟨hpairs, hat, hrel⟩ := enterReset_units h t
  have hcount : fld t F.RL_HIVE_h_resets h = fld s F.RL_HIVE_h_resets h := by
    have hreg : reg t .RL_HIVE_h h = reg s .RL_HIVE_h h := (h1.regs (.RL_HIVE_h, h) (by simp)).trans (reg_quiesced h s _ _)
    simp only [fld, hreg]
  have hus : t.us = s.us := h1.us.trans (quiesced_rest h s).2.1
  refine completes_released hs rfl ⟨h2.hiveState.trans hstate, fun p _ hp => (h2.pairs p hp).trans (hpairs p hp), ?_, ?_, ?_, ?_⟩
  · exact (h2.memStatus (f := F.MEM_STATUS_self_refresh) rfl).trans hsr
  · have hreg := h2.regs (.RL_HIVE_h, h) (by simp)
    rw [keepQueue_fld, fld, show F.RL_HIVE_h_resets.reg = .RL_HIVE_h from rfl, hreg, ← hcount]
    exact hresets
  · exact (congrArg HiveS.resetAt h2.hive).trans (hat.trans hus)
  · exact (congrArg HiveS.released h2.hive).trans hrel

end Sys2Proof.Machine

/-! SUPPORT. The release of a hive that was reset (R222, R225, R376). -/

namespace Sys2Proof.Machine

/-! ## Memory as a release leaves it -/

/-- The address lies in a comb of hive h. -/
def inCombs (h a : Nat) : Bool := combBase ≤ a && (a - combBase) / combBytes / 16 = h && a < combBase + 64 * combBytes

/-- The address lies in hive h's near memory, or in its far memory beside the keep window. -/
def inTiers (h a : Nat) : Bool :=
  match tierOf a with
  | .far g => g = h && !inKeep a
  | .near g => g = h
  | _ => false

theorem byteAt_clearCombs (h : Nat) (s : State) (a : Nat) : byteAt (clearCombs h s) a = if inCombs h a then 0 else byteAt s a := by
  rw [byteAt, byteAt, clearCombs]
  dsimp only
  rw [SMap.get_dropKeys, apply_ite BitVec.toNat]
  rfl

theorem byteAt_clearTiers (h : Nat) (s : State) (a : Nat) : byteAt (clearTiers h true s) a = if inTiers h a then 0 else byteAt s a := by
  rw [byteAt, byteAt, clearTiers]
  dsimp only
  rw [SMap.get_dropKeys, apply_ite BitVec.toNat]
  rfl

theorem tierOf_comb {a : Nat} (h1 : combBase ≤ a) (h2 : a < combBase + 64 * combBytes) : tierOf a = .comb ((a - combBase) / combBytes) := by
  have hn : ¬a < nearBase := by simp only [nearBase, combBase] at *; omega
  rw [tierOf, if_neg hn, if_neg (not_lt.mpr h1), if_pos h2]

/-- The memory that a release clears is the hive's own beside the keep window (R225). -/
theorem cleared_iff (h a : Nat) : (inCombs h a || inTiers h a) = decide (ownerHive a = some h ∧ inKeep a = false) := by
  have hkeep : nearBase ≤ a → inKeep a = false := fun hn => by simp [inKeep, not_lt.mpr hn]
  have hcomb : a < combBase → inCombs h a = false := fun hc => by simp [inCombs, not_le.mpr hc]
  rcases lt_or_ge a nearBase with h1 | h1
  · have ht : tierOf a = .far (a / hiveBytes) := by rw [tierOf, if_pos h1]
    rw [hcomb (h1.trans (by norm_num)), Bool.false_or, inTiers, ownerHive, ht]
    simp
  rw [hkeep h1]
  rcases lt_or_ge a combBase with h2 | h2
  · have ht : tierOf a = .near ((a - nearBase) / hiveBytes) := by rw [tierOf, if_neg (not_lt.mpr h1), if_pos h2]
    rw [hcomb h2, inTiers, ownerHive, ht]
    simp
  rcases lt_or_ge a (combBase + 64 * combBytes) with h3 | h3
  · rw [inTiers, ownerHive, tierOf_comb h2 h3]
    simp [inCombs, h2, h3, hiveOf]
  · have ht : inTiers h a = false ∧ ownerHive a = none := by
      rw [inTiers, ownerHive, tierOf, if_neg (not_lt.mpr h1), if_neg (not_lt.mpr h2), if_neg (not_lt.mpr h3)]
      split_ifs <;> exact ⟨rfl, rfl⟩
    simp [inCombs, ht, not_lt.mpr h3]

theorem byteAt_cleared (h : Nat) (s : State) (a : Nat) :
    byteAt (clearCombs h (clearTiers h true s)) a = if ownerHive a = some h ∧ inKeep a = false then 0 else byteAt s a := by
  have hc := cleared_iff h a
  rw [byteAt_clearCombs, byteAt_clearTiers]
  by_cases ho : ownerHive a = some h ∧ inKeep a = false
  · rw [decide_eq_true ho, Bool.or_eq_true] at hc
    rw [if_pos ho]
    rcases hc with hc | hc <;> simp [hc]
  · rw [decide_eq_false ho, Bool.or_eq_false_iff] at hc
    simp only [hc, ho, Bool.false_eq_true, if_false]

/-! ## The release -/

theorem foldl_modChan_rest {f : ChanS → ChanS} (l : List Nat) (s : State) : ∃ x, l.foldl (fun t c => modChan c f t) s = { s with chans := x } := by
  induction l generalizing s with
  | nil => exact ⟨s.chans, rfl⟩
  | cons c l ih =>
    obtain ⟨x, hx⟩ := ih (modChan c f s)
    exact ⟨x, hx⟩

/-- The hive's memory is cleared, out of self-refresh and ready. -/
def memoryReady (h : Nat) (s : State) : State :=
  setFld F.MEM_STATUS_self_refresh h 0 (setFld F.MEM_STATUS_near_ready h 1 (setFld F.MEM_STATUS_far_ready h 1
    (clearCombs h (clearTiers h true s))))

theorem releaseHive_eq (h : Nat) (s : State) : ∃ x n, releaseHive h s = setFld F.RL_HIVE_h_state h hsReset
    (modHive h (fun y => { y with released := true, training := n })
      (setFld F.MEM_STATUS_chan_retraining h (255 - n) { memoryReady h s with chans := x })) := by
  obtain ⟨x, hx⟩ := foldl_modChan_rest (f := fun x => { x with track := x.saved }) (channelsOf h) (memoryReady h s)
  refine ⟨x, fld (memoryReady h s) F.MEM_STATUS_chan_failed h, ?_⟩
  rw [← hx]
  rfl

theorem fld_releaseHive {f : Fld} (hf : f.ok = true)
    (h1 : F.RL_HIVE_h_state.reg = f.reg → F.RL_HIVE_h_state.hi < f.lo ∨ f.hi < F.RL_HIVE_h_state.lo)
    (h2 : F.MEM_STATUS_chan_retraining.reg = f.reg → F.MEM_STATUS_chan_retraining.hi < f.lo ∨ f.hi < F.MEM_STATUS_chan_retraining.lo)
    (h i : Nat) (s : State) : fld (releaseHive h s) f i = fld (memoryReady h s) f i := by
  obtain ⟨x, n, hrel⟩ := releaseHive_eq h s
  rw [hrel, fld_setFld_apart hf h1]
  generalize memoryReady h s = t
  exact fld_setFld_apart hf h2 h i (255 - n) { t with chans := x }

/-- What a release leaves (R222, R225): memory ready, the hive in RESET until its channels have retrained. -/
theorem releaseHive_regs (h : Nat) (s : State) :
    fld (releaseHive h s) F.MEM_STATUS_near_ready h = 1 ∧ fld (releaseHive h s) F.MEM_STATUS_far_ready h = 1
      ∧ fld (releaseHive h s) F.MEM_STATUS_self_refresh h = 0 ∧ hiveState (releaseHive h s) h = 3 := by
  refine ⟨?_, ?_, ?_, ?_⟩
  · rw [fld_releaseHive (by decide) (by decide) (by decide), memoryReady, fld_setFld_apart (by decide) (by decide),
      fld_setFld_fits (by decide) _ (by decide)]
  · rw [fld_releaseHive (by decide) (by decide) (by decide), memoryReady, fld_setFld_apart (by decide) (by decide),
      fld_setFld_apart (by decide) (by decide), fld_setFld_fits (by decide) _ (by decide)]
  · rw [fld_releaseHive (by decide) (by decide) (by decide), memoryReady, fld_setFld_fits (by decide) _ (by decide)]
  · obtain ⟨x, n, hrel⟩ := releaseHive_eq h s
    rw [hrel, hiveState, fld_setFld_fits (by decide) _ (by decide)]

theorem hiveS_setFld (f : Fld) (i v : Nat) (s : State) (x : Nat) : hiveS (setFld f i v s) x = hiveS s x := rfl

theorem releaseHive_rest (h : Nat) (s : State) :
    (hiveS (releaseHive h s) h).released = true ∧ (releaseHive h s).pairs = s.pairs
      ∧ ∀ a, byteAt (releaseHive h s) a = if ownerHive a = some h ∧ inKeep a = false then 0 else byteAt s a := by
  obtain ⟨x, n, hrel⟩ := releaseHive_eq h s
  have hm : (memoryReady h s).mem = (clearCombs h (clearTiers h true s)).mem := rfl
  have hp : (memoryReady h s).pairs = s.pairs := rfl
  rw [hrel]
  generalize memoryReady h s = t at hm hp ⊢
  refine ⟨?_, hp, fun a => (byteAt_congr hm a).trans (byteAt_cleared h s a)⟩
  rw [hiveS_setFld, hiveS_modHive_self]

/-- A command of the released part completes as its meaning, once known, says. -/
theorem completes_released_to {c : Instr} {f : State → State} {s u : State} {P : State → Prop} (hs : Released s)
    (he : exec c s = .next (whenReleased f s)) (hu : f s = u) (hp : P (keepQueue s.pending u)) : Completes c s P := by
  subst hu
  exact completes_released hs he hp

/-- The release of a hive clears its memory but the keep window. -/
theorem hive_released (h : Hive) (s : State) (hs : Released s) (hst : hiveState s h = 3) (hr : (hiveS s h).released = false)
    (hf : fld s F.MEM_STATUS_self_refresh h = 1) (ht : (hiveS s h).resetAt + 1000 ≤ s.us) (hstorm : (hiveS s h).storm = false) :
    Completes (.hiveRelease h) s fun u =>
      fld u F.MEM_STATUS_near_ready h = 1 ∧ fld u F.MEM_STATUS_far_ready h = 1 ∧ fld u F.MEM_STATUS_self_refresh h = 0
        ∧ (hiveS u h).released = true ∧ hiveState u h = 3 ∧ u.pairs = s.pairs
        ∧ ∀ a, byteAt u a = if ownerHive a = some h.val ∧ inKeep a = false then 0 else byteAt s a := by
  have hin : s.inService = true := hs
  have hu : hiveRelease h s = releaseHive h s := by
    rw [hiveRelease, if_neg (by simp [hst, hin, hr, fldB, hf, ht]), if_neg (by simp [hstorm])]
  obtain ⟨v, hv⟩ : ∃ v, releaseHive h s = v := ⟨_, rfl⟩
  obtain ⟨hnear, hfar, hsr, hstate⟩ := hv ▸ releaseHive_regs h s
  obtain ⟨hrel, hpairs, hmem⟩ := hv ▸ releaseHive_rest h s
  exact completes_released_to hs rfl (hu.trans hv) ⟨hnear, hfar, hsr, hrel, hstate, hpairs, hmem⟩

end Sys2Proof.Machine

/-! SUPPORT. A hive whose training has ended is in service (R222, R366, R374). -/

namespace Sys2Proof.Machine

/-! ## The end of its channels' retraining -/

/-- Where the bits below the n-th are clear, to clear that one leaves the bits up to it clear. -/
theorem clearBitN_mod {w n : Nat} (h : w % 2 ^ n = 0) : clearBitN w n % 2 ^ (n + 1) = 0 := by
  obtain ⟨q, rfl⟩ := Nat.dvd_of_mod_eq_zero h
  have hq : 2 ^ n * q / 2 ^ n = q := Nat.mul_div_cancel_left q (Nat.two_pow_pos n)
  have hbit : bitAt (2 ^ n * q) n = decide (q % 2 = 1) := by rw [bitAt, hq]
  have hclear : clearBitN (2 ^ n * q) n = 2 ^ n * (q - q % 2) := by
    rcases Nat.mod_two_eq_zero_or_one q with h2 | h2
    · simp [clearBitN, hbit, h2]
    · simp [clearBitN, hbit, h2, Nat.mul_sub]
  rw [hclear, pow_succ]
  exact Nat.mod_eq_zero_of_dvd (Nat.mul_dvd_mul_left _ (by omega))

theorem fld_lt {f : Fld} (hf : f.lo ≤ f.hi) (s : State) (i : Nat) : fld s f i < 2 ^ (f.hi + 1 - f.lo) := by
  refine Nat.lt_pow_two_of_testBit _ fun k hk => ?_
  rw [fld, testBit_getField, decide_eq_false (by omega), Bool.and_false]

/-- As the retraining of a hive's channel ends, where no channel before it retrains. -/
theorem retrainEnds_retraining {h n : Nat} (hn : n < 8) {s : State} (ht : fld s F.MEM_STATUS_chan_retraining h % 2 ^ n = 0) :
    fld (retrainEnds (8 * h + n) s) F.MEM_STATUS_chan_retraining h % 2 ^ (n + 1) = 0 := by
  have hc : (8 * h + n) / 8 = h ∧ (8 * h + n) % 8 = n := by omega
  have hclear := clearBitN_mod ht
  unfold retrainEnds
  rw [hc.1, hc.2]
  dsimp only
  split
  · rw [fld_satAddFld_apart (by decide) (by decide), fld_setFld_self (by decide)]
    exact (Nat.mod_mod_of_dvd _ (Nat.pow_dvd_pow 2 hn)).trans hclear
  · rename_i hb
    rwa [clearBitN, if_neg hb] at hclear

/-- The retraining of all of a hive's channels ends. -/
def retrained (h : Nat) (s : State) : State := (channelsOf h).foldl (fun t c => retrainEnds c t) s

theorem fld_retrained (h : Nat) (s : State) : fld (retrained h s) F.MEM_STATUS_chan_retraining h = 0 := by
  have hfold : ∀ n ≤ 8, fld (((List.range n).map (fun j => 8 * h + j)).foldl (fun t c => retrainEnds c t) s)
      F.MEM_STATUS_chan_retraining h % 2 ^ n = 0 := by
    intro n
    induction n with
    | zero => exact fun _ => Nat.mod_one _
    | succ n ih =>
      intro hn
      rw [List.range_succ, List.map_append, List.foldl_append]
      exact retrainEnds_retraining hn (ih (by omega))
  exact Nat.eq_zero_of_dvd_of_lt (Nat.dvd_of_mod_eq_zero (hfold 8 le_rfl)) (fld_lt (by decide) _ _)

theorem retrainEnds_pendingFaults (c : Nat) (s : State) : (retrainEnds c s).pendingFaults = s.pendingFaults := by
  unfold retrainEnds
  dsimp only
  split <;> rfl

/-- What the end of a hive's retraining writes. -/
def retrainKeys (h : Nat) : List (Reg × Nat) := (.MEM_STATUS, h) :: (List.range 8).map (fun j => (.MEM_CHAN_j, 8 * h + j))

theorem retrainEnds_aside {h c : Nat} (hc : c ∈ channelsOf h) (s : State) : Aside [] (retrainKeys h) s (retrainEnds c s) := by
  obtain ⟨j, hj, rfl⟩ := List.mem_map.mp hc
  have h8 : (8 * h + j) / 8 = h := by have := List.mem_range.mp hj; omega
  unfold retrainEnds
  rw [h8]
  refine Aside.ite ((Aside.refl.setFld _ (.inr (by simp [retrainKeys]))).satAddFld _ (.inr ?_)) .refl
  exact List.mem_cons_of_mem _ (List.mem_map.mpr ⟨j, hj, rfl⟩)

theorem retrained_spec (h : Nat) (s : State) :
    Aside [] (retrainKeys h) s (retrained h s) ∧ (retrained h s).pendingFaults = s.pendingFaults := by
  refine ⟨?_, foldl_pendingFaults s (fun t c => retrainEnds_pendingFaults c t) _⟩
  rw [retrained]
  generalize hl : channelsOf h = l
  have hmem : ∀ c ∈ l, c ∈ channelsOf h := fun c hc => hl ▸ hc
  clear hl
  induction l generalizing s with
  | nil => exact .refl
  | cons c l ih =>
    exact (retrainEnds_aside (hmem c (by simp)) s).trans (ih _ fun d hd => hmem d (List.mem_cons_of_mem _ hd))

/-! ## The hive in service -/

theorem Aside.power {rs : List Reg} {ks : List (Reg × Nat)} {s u : State} (h : Aside rs ks s u) : u.power = s.power :=
  (congrArg State.power h.1 :)

/-- The ceiling's state follows, and an event says so. -/
theorem clockStatus_keeps (s : State) : Keeps eventRegs [(.PCC_STATUS, 0), (.PCC_EVENTS, 0)] s (clockStatus s) := by
  unfold clockStatus
  split
  · obtain ⟨t, ht, hp | hp⟩ := powerStatus_cases s
    · exact hp ▸ ht.2.mono (by simp) (by simp)
    · exact ((ht.2.mono (by simp) (by simp)).setFld (f := F.PCC_EVENTS_throttle) 1 (.inr (by simp))).trans (hp.2.mono (fun _ x => x) (by simp))
  · exact .refl

/-- The hive's state and record, and the faults that still wait. -/
def hiveBack (h : Nat) (on : Bool) (waiting : List PendingFault) (t : State) : State :=
  { setFld F.RL_HIVE_h_state h (if on then hsInService else hsDisabled)
      (modHive h (fun x => { resets := x.resets, enable := x.enable }) t) with pendingFaults := waiting }

theorem fld_hiveBack (h : Nat) (on : Bool) (fs : List PendingFault) (t : State) (f : Fld) (i : Nat) :
    fld (hiveBack h on fs t) f i = fld (setFld F.RL_HIVE_h_state h (if on then hsInService else hsDisabled) t) f i := rfl

theorem hiveState_hiveBack (h : Nat) (on : Bool) (fs : List PendingFault) (t : State) :
    hiveState (hiveBack h on fs t) h = if on then 0 else 7 := by
  rw [hiveState, fld_hiveBack]
  cases on <;> exact fld_setFld_fits (by decide) _ (by decide) _

theorem hiveBack_keeps (h : Nat) (on : Bool) (fs : List PendingFault) (t : State) :
    Keeps [] [(.RL_HIVE_h, h)] t (hiveBack h on fs t) := by
  have hk : Keeps [] [(.RL_HIVE_h, h)] t (modHive h (fun x => { resets := x.resets, enable := x.enable }) t) := fun _ _ _ _ => rfl
  exact hk.setFld (f := F.RL_HIVE_h_state) (if on then hsInService else hsDisabled) (.inr (by simp))

/-- The hive back, its pairs started at f_floor where it was in service. -/
def hiveOn (h : Nat) (s : State) : State :=
  let v := hiveBack h (hiveS s h).on (s.pendingFaults.filter (fun f => f.hive ≠ h)) (retrained h s)
  if (hiveS s h).on then rampStart h v else v

theorem hiveReady_eq {h : Nat} {s : State} (hst : hiveState s h = 3) (hrel : (hiveS s h).released = true) (ht : (hiveS s h).training = 0) :
    hiveReady h s = sendEvent 0x0C 0x40 255 h (hiveOn h s) := by
  rw [hiveReady, if_neg (by simp [hst, hrel, ht]), hiveOn, ← (retrained_spec h s).2]
  rfl

theorem rampStart_spec (h : Nat) (s : State) :
    Keeps eventRegs [(.PCC_STATUS, 0), (.PCC_EVENTS, 0)] s (rampStart h s) ∧ (rampStart h s).mem = s.mem
      ∧ (rampStart h s).poison = s.poison ∧ (rampStart h s).pairs = s.pairs ∧ (rampStart h s).pendingFaults = s.pendingFaults
      ∧ SMap.get none (rampStart h s).power.ramps h = some (fld s F.PCC_CLOCK_f_floor) := by
  obtain ⟨t, ht⟩ : ∃ t, t = modPower (fun x => { x with ramps := SMap.set none x.ramps h (some (fld s F.PCC_CLOCK_f_floor)) }) s := ⟨_, rfl⟩
  have hr : rampStart h s = clockStatus t := by rw [ht, rampStart]
  have hA : Aside powerRegs [] t (clockStatus t) := clockStatus_aside t
  have hramps : t.power.ramps = SMap.set none s.power.ramps h (some (fld s F.PCC_CLOCK_f_floor)) := by rw [ht]; rfl
  have hkeeps : Keeps eventRegs [(.PCC_STATUS, 0), (.PCC_EVENTS, 0)] s t := by rw [ht]; exact fun _ _ _ _ => rfl
  rw [hr]
  refine ⟨hkeeps.trans (clockStatus_keeps t), hA.mem.trans (by rw [ht]; rfl), hA.poison.trans (by rw [ht]; rfl),
    hA.pairs.trans (by rw [ht]; rfl), (clockStatus_pendingFaults t).trans (by rw [ht]; rfl), ?_⟩
  rw [hA.power, hramps, SMap.get_set_self]

/-- What the hive's start in service leaves of the state before, and its registers. -/
theorem hiveOn_spec (h : Nat) (s : State) :
    Keeps eventRegs ((.RL_HIVE_h, h) :: (.PCC_STATUS, 0) :: (.PCC_EVENTS, 0) :: retrainKeys h) s (hiveOn h s)
      ∧ hiveState (hiveOn h s) h = (if (hiveS s h).on then 0 else 7) ∧ fld (hiveOn h s) F.MEM_STATUS_chan_retraining h = 0
      ∧ (hiveOn h s).mem = s.mem ∧ (hiveOn h s).poison = s.poison ∧ (hiveOn h s).pairs = s.pairs
      ∧ (hiveOn h s).pendingFaults = s.pendingFaults.filter (fun f => f.hive ≠ h)
      ∧ ((hiveS s h).on = true → SMap.get none (hiveOn h s).power.ramps h = some (fld s F.PCC_CLOCK_f_floor)) := by
  have hA := (retrained_spec h s).1
  have hretr := fld_retrained h s
  unfold hiveOn
  generalize s.pendingFaults.filter (fun f => f.hive ≠ h) = fs
  generalize (hiveS s h).on = on
  generalize retrained h s = t at hA hretr ⊢
  have hb := hiveBack_keeps h on fs t
  have hstate := hiveState_hiveBack h on fs t
  have hretr' := (hb.fld (f := F.MEM_STATUS_chan_retraining) (i := h) (by simp) (by simp)).trans hretr
  have hk : Keeps eventRegs ((.RL_HIVE_h, h) :: (.PCC_STATUS, 0) :: (.PCC_EVENTS, 0) :: retrainKeys h) s (hiveBack h on fs t) :=
    (hA.2.mono (by simp) fun k hm => .inr (by simp [hm])).trans (hb.mono (by simp) (by simp))
  cases on with
  | false => exact ⟨hk, hstate, hretr', hA.mem, hA.poison, hA.pairs, rfl, fun c => absurd c (by simp)⟩
  | true =>
    obtain ⟨k, m, p, q, f, r⟩ := rampStart_spec h (hiveBack h true fs t)
    refine ⟨hk.trans (k.mono (fun _ x => x) (by simp)), ?_, ?_, m.trans hA.mem, p.trans hA.poison, q.trans hA.pairs, f, fun _ => ?_⟩
    · exact (k.fld (f := F.RL_HIVE_h_state) (by decide) (by simp)).trans hstate
    · exact (k.fld (f := F.MEM_STATUS_chan_retraining) (by decide) (by simp)).trans hretr'
    · exact r.trans (congrArg some (hk.fld (f := F.PCC_CLOCK_f_floor) (by decide) (by simp [retrainKeys])))

/-- A hive whose training has ended is in service, or DISABLED if it was. -/
theorem hive_ready (h : Hive) (s : State) (hs : Released s) (hst : hiveState s h = 3) (hrel : (hiveS s h).released = true)
    (ht : (hiveS s h).training = 0) :
    Completes (.hiveReady h) s fun u =>
      hiveState u h = (if (hiveS s h).on then 0 else 7) ∧ u.pendingFaults = s.pendingFaults.filter (fun f => f.hive ≠ h.val)
        ∧ fld u F.MEM_STATUS_chan_retraining h = 0
        ∧ ((hiveS s h).on = true → SMap.get none u.power.ramps h = some (fld s F.PCC_CLOCK_f_floor))
        ∧ Keeps eventRegs ([(.RL_HIVE_h, h.val), (.MEM_STATUS, h.val), (.PCC_STATUS, 0), (.PCC_EVENTS, 0)]
            ++ (List.range 8).map (fun j => (.MEM_CHAN_j, 8 * h.val + j))) s u
        ∧ MemSame s u ∧ u.pairs = s.pairs := by
  obtain ⟨hkeeps, hstate, hretr, hmem, hpoison, hpairs, hpf, hramp⟩ := hiveOn_spec h s
  obtain ⟨v, hv⟩ : ∃ v, sendEvent 0x0C 0x40 255 h (hiveOn h s) = v := ⟨_, rfl⟩
  have hA : Aside eventRegs [] (hiveOn h s) v := hv ▸ sendEvent_aside 0x0C 0x40 255 h (hiveOn h s)
  have hfaults : v.pendingFaults = (hiveOn h s).pendingFaults := by rw [← hv, sendEvent_pendingFaults]
  refine completes_released_to hs rfl ((hiveReady_eq hst hrel ht).trans hv) ⟨?_, ?_, ?_, ?_, ?_, ?_, ?_⟩
  · exact (hA.fld (f := F.RL_HIVE_h_state) (by decide) (by simp)).trans hstate
  · exact hfaults.trans hpf
  · exact (hA.fld (f := F.MEM_STATUS_chan_retraining) (by decide) (by simp)).trans hretr
  · intro hon
    rw [keepQueue_power, hA.power]
    exact hramp hon
  · exact (hkeeps.mono (fun _ x => x) (by simp [retrainKeys])).trans (hA.2.mono (fun _ x => x) (by simp))
  · exact ⟨byteAt_congr (hA.mem.trans hmem), fun x => by simp only [marked, keepQueue_poison, hA.poison, hpoison]⟩
  · exact hA.pairs.trans hpairs

/-- Settles O50: a hive fault from its tick to the return to service, a lemma for each of its steps. -/
theorem hiveFaults : Obligations.HiveFaults :=
  ⟨hiveFault_noDump, hiveFault_dump, quiesce_holds, quiesce_resets, dumpRead_noted, dump_cutOff, dump_ends, hive_released, hive_held,
    hive_ready, slot_released⟩

end Sys2Proof.Machine

/-! SUPPORT. The breath unit's own changes (R28–R34): what its register writes, its flooding and its ticks leave alone. -/

section
open Sys2Proof Sys2Proof.Machine

/-! ## Changes of the breath unit alone -/

variable {f : BreathS → BreathS} {ks : List (Reg × Nat)} {sets : List Out} {s t : State}

theorem BreathTo.refl : BreathTo id ks [] s s := ⟨rfl, rfl, .refl, ⟨fun _ => rfl, fun _ => rfl⟩, rfl, rfl, rfl⟩

theorem BreathTo.setFld {g : Fld} {i : Nat} (v : Nat) (h : BreathTo f ks sets s t) (hk : (g.reg, i) ∈ ks) :
    BreathTo f ks sets s (Machine.setFld g i v t) := by
  obtain ⟨hb, ho, hr, hm, hrest⟩ := h
  exact ⟨hb, ho, hr.setFld v (.inr hk), hm, hrest⟩

theorem BreathTo.raise {g : Fld} {i : Nat} (h : BreathTo f ks sets s t) (hk : (g.reg, i) ∈ ks) : BreathTo f ks sets s (Machine.raise g i t) :=
  h.setFld 1 hk

theorem BreathTo.satAddFld {g : Fld} {i : Nat} (n : Nat) (h : BreathTo f ks sets s t) (hk : (g.reg, i) ∈ ks) :
    BreathTo f ks sets s (Machine.satAddFld g i n t) := h.setFld _ hk

theorem BreathTo.modBreath (g : BreathS → BreathS) (h : BreathTo f ks sets s t) : BreathTo (g ∘ f) ks sets s (Machine.modBreath g t) := by
  obtain ⟨hb, ho, hr, hm, hrest⟩ := h
  exact ⟨congrArg g hb, ho, hr, hm, hrest⟩

theorem BreathTo.sends (os : List Out) (h : BreathTo f ks [] s t) : BreathTo f ks os s { t with out := os ++ t.out } := by
  obtain ⟨hb, ho, hr, hm, hrest⟩ := h
  exact ⟨hb, congrArg (os ++ ·) ho, hr, hm, hrest⟩

/-- The same change of the unit, in another spelling. -/
theorem BreathTo.congr {g : BreathS → BreathS} (h : BreathTo f ks sets s t) (hg : g s.breath = f s.breath) : BreathTo g ks sets s t :=
  ⟨h.1.trans hg.symm, h.2⟩

theorem BreathTo.keepQueue (q : List Instr) (h : BreathTo f ks sets s t) : BreathTo f ks sets s (Machine.keepQueue q t) := h

theorem BreathTo.breath (h : BreathTo f ks sets s t) : t.breath = f s.breath := h.1
theorem BreathTo.out (h : BreathTo f ks sets s t) : t.out = sets ++ s.out := h.2.1
theorem BreathTo.keeps (h : BreathTo f ks sets s t) : Keeps [] ks s t := h.2.2.1
theorem BreathTo.memSame (h : BreathTo f ks sets s t) : MemSame s t := h.2.2.2.1
theorem BreathTo.pairs (h : BreathTo f ks sets s t) : t.pairs = s.pairs := h.2.2.2.2.1
theorem BreathTo.ports (h : BreathTo f ks sets s t) : t.ports = s.ports := h.2.2.2.2.2.2

theorem BreathTo.fld (h : BreathTo f ks sets s t) {g : Fld} {i : Nat} (hk : (g.reg, i) ∉ ks) : fld t g i = Machine.fld s g i :=
  h.keeps.fld (by simp) hk

end

namespace Sys2Proof.Machine

@[simp] theorem fld_modBreath (f : BreathS → BreathS) (s : State) (g : Fld) (i : Nat) : fld (modBreath f s) g i = fld s g i := rfl

/-! ## Flooding (R33) -/

theorem sendSet_eq (n kind body : Nat) (s : State) : sendSet n kind body s = { s with out := setOut s n kind body ++ s.out } := rfl

/-- The sets that flood from the ports of a list, the last sent first. -/
theorem foldl_flood (except kind body : Nat) (l : List Nat) (s : State) :
    l.foldl (fun t n => if n = except || portState t n ≠ ptUp then t else sendSet n kind body t) s
      = { s with out := (l.filter (fun n => n ≠ except && portState s n = 2)).reverse.flatMap (fun n => setOut s n kind body) ++ s.out } := by
  induction l generalizing s with
  | nil => rfl
  | cons n l ih =>
    rw [List.foldl_cons, ih]
    by_cases hn : n ≠ except ∧ portState s n = 2
    · obtain ⟨hne, hup⟩ := hn
      have hpos : (decide (n = except) || decide (portState s n ≠ ptUp)) ≠ true := by simp [hne, hup]
      rw [if_neg hpos, List.filter_cons_of_pos (by simp [hne, hup]), List.reverse_cons, List.flatMap_append, List.append_assoc, sendSet_eq,
        List.flatMap_singleton]
      rfl
    · have hneg : (decide (n = except) || decide (portState s n ≠ ptUp)) = true := by
        simpa [or_iff_not_imp_left] using hn
      rw [if_pos hneg, List.filter_cons_of_neg (by simpa using hn)]

theorem flood_eq (except kind body : Nat) (s : State) :
    flood except kind body s = { s with out := floodOut s except kind body ++ s.out } := foldl_flood _ _ _ _ s

@[simp] theorem fld_flood (except kind body : Nat) (s : State) (g : Fld) (i : Nat) : fld (flood except kind body s) g i = fld s g i := by
  rw [flood_eq]; rfl

@[simp] theorem flood_breath (except kind body : Nat) (s : State) : (flood except kind body s).breath = s.breath := by rw [flood_eq]

/-- The same sets leave where neither a port's state nor its link layer has changed. -/
theorem floodOut_congr {s t : State} (hst : ∀ n, portState t n = portState s n) (hp : t.ports = s.ports) (except kind body : Nat) :
    floodOut t except kind body = floodOut s except kind body := by
  have hset : ∀ n, setOut t n kind body = setOut s n kind body := fun n => by
    simp only [setOut, flitBytes, lastAccepted, portS, hp]
  simp only [floodOut, hst, hset]

/-! ## The master's ticks (R28, R30, R33, R47) -/

/-- The change of the unit of a master that emits: the next number, no more resync, the tick due at this part too. -/
def emitted (t : Tick) (b : BreathS) : BreathS := { b with emitted := b.emitted + 1, resyncNext := false, due := b.due ++ [t] }

end Sys2Proof.Machine

section
open Sys2Proof Sys2Proof.Machine

theorem BreathTo.flood {f : BreathS → BreathS} {ks : List (Reg × Nat)} {s t : State} (except kind body : Nat) (h : BreathTo f ks [] s t)
    (hk : ∀ n, (Reg.PORT_STATUS, n) ∉ ks) : BreathTo f ks (floodOut s except kind body) s (Machine.flood except kind body t) := by
  rw [flood_eq, floodOut_congr (fun n => h.fld (hk n)) h.ports]
  exact h.sends _

/-- A master emits, after changes of the unit that leave the tick's own fields alone. -/
theorem BreathTo.emitTick {f : BreathS → BreathS} {ks : List (Reg × Nat)} {s t : State} (hold : Bool) (h : BreathTo f ks [] s t)
    (hk : ∀ r ∈ [Reg.PORT_STATUS, .GROUP_STATUS, .BREATH_PERIOD], ∀ n, (r, n) ∉ ks)
    (hn : (f s.breath).emitted = s.breath.emitted) (hr : (f s.breath).resyncNext = s.breath.resyncNext) :
    BreathTo (emitted (nextTick s s.breath.resyncNext hold) ∘ f) ks
      (floodOut s 9 1 (nextTick s s.breath.resyncNext hold).body) s (Machine.emitTick hold t) := by
  have htick : nextTick t t.breath.resyncNext hold = nextTick s s.breath.resyncNext hold := by
    simp only [nextTick, deviceId, h.breath, hn, hr, h.fld (g := F.GROUP_STATUS_device_id) (hk _ (by simp) _),
      h.fld (g := F.BREATH_PERIOD_period) (hk _ (by simp) _)]
  have hemit : Machine.emitTick hold t = Machine.flood 9 1 (nextTick t t.breath.resyncNext hold).body
      (Machine.modBreath (emitted (nextTick t t.breath.resyncNext hold)) t) := rfl
  rw [hemit, htick]
  exact (h.modBreath _).flood 9 1 _ (hk _ (by simp))

end

namespace Sys2Proof.Machine

theorem fld_emitTick (hold : Bool) (s : State) (g : Fld) (i : Nat) : fld (emitTick hold s) g i = fld s g i := by
  rw [emitTick]
  exact fld_flood _ _ _ _ g i

/-! ## TICK_LOST (R45, R46) -/

section
variable {rs : List Reg} {ks : List (Reg × Nat)} {s t u : State}

theorem Aside.breath (h : Aside rs ks s u) : u.breath = s.breath := (congrArg State.breath h.1 :)

theorem MemSame.trans (h1 : MemSame s t) (h2 : MemSame t u) : MemSame s u :=
  ⟨fun a => (h2.1 a).trans (h1.1 a), fun x => (h2.2 x).trans (h1.2 x)⟩

end

/-- The breath unit that has entered TICK_LOST: it streams no more, and acts on no tick it was given. -/
def BreathS.lost (b : BreathS) : BreathS :=
  { b with holds := [], streaming := false, ending := false, pinRef := false, cands := [], due := [] }

/-- The part in TICK_LOST, before its record is sent. -/
def lostMarked (s : State) : State :=
  setBreathState bsTickLost (setFld F.BREATH_STATUS_source_active 0 0
    (modBreath (fun b => { b with streaming := false, ending := false, pinRef := false, cands := [], due := [] })
      (setHolds [] (raise F.BREATH_EVENTS_tick_lost 0 s))))

theorem enterLost_aside (s : State) : Aside eventRegs [] (lostMarked s) (enterLost s) := sendEventOpen_aside 0x01 2 255 (lostMarked s)

theorem lostMarked_to (s : State) : BreathTo BreathS.lost [(.BREATH_STATUS, 0), (.BREATH_EVENTS, 0)] [] s (lostMarked s) :=
  (((((BreathTo.refl.raise (by simp)).modBreath _).setFld _ (by simp)).modBreath _).setFld _ (by simp)).setFld _ (by simp)

theorem fld_lostMarked (s : State) : fld (lostMarked s) F.BREATH_STATUS_state = 3 ∧ fld (lostMarked s) F.BREATH_EVENTS_tick_lost = 1 := by
  refine ⟨fld_setFld_fits (by decide) _ (by decide) _, ?_⟩
  simp only [lostMarked, setBreathState, setHolds]
  rw [fld_setFld_apart (by decide) (by decide), fld_setFld_apart (by decide) (by decide), fld_modBreath,
    fld_setFld_apart (by decide) (by decide), fld_modBreath, fld_raise_self (by decide) rfl]

/-- A part that enters TICK_LOST: its state and its event, the unit, and what it leaves alone. -/
theorem enterLost_spec (s : State) :
    fld (enterLost s) F.BREATH_STATUS_state = 3 ∧ fld (enterLost s) F.BREATH_EVENTS_tick_lost = 1
      ∧ (enterLost s).breath = s.breath.lost ∧ MemSame s (enterLost s) ∧ (enterLost s).pairs = s.pairs := by
  have ha := enterLost_aside s
  have hm := lostMarked_to s
  obtain ⟨hst, hev⟩ := fld_lostMarked s
  exact ⟨(ha.fld (f := F.BREATH_STATUS_state) (by decide) (by simp)).trans hst,
    (ha.fld (f := F.BREATH_EVENTS_tick_lost) (by decide) (by simp)).trans hev,
    ha.breath.trans hm.breath, hm.memSame.trans ha.memSame, ha.pairs.trans hm.pairs⟩

/-! ## The clauses of O32 -/

/-- A TIMER master emits at its time. -/
theorem masterTick_timer (s : State) (hs : Released s) (hst : s.breath.streaming = true) (hend : s.breath.ending = false)
    (hsrc : fld s F.BREATH_CTRL_tick_source = 1) :
    Completes .masterTickEmit s fun u =>
      let t := nextTick s s.breath.resyncNext false
      BreathTo (fun b => { b with emitted := b.emitted + 1, resyncNext := false, due := b.due ++ [t] }) [] (floodOut s 9 1 t.body) s u := by
  have he : masterTickEmit s = emitTick false s := by simp [masterTickEmit, hst, hend, hsrc]
  exact completes_released_to hs rfl he (.keepQueue _ (BreathTo.refl.emitTick false (by simp) rfl rfl))

/-- The set that goes out in place of the tick at which a stream ends (R47). -/
def lostTick (s : State) : Tick := { ownTick s (s.breath.emitted + 1) with lost := true }

/-- A stream that ends sends the lost set in place of its next tick, and the part enters TICK_LOST. -/
theorem masterTick_ends (s : State) (hs : Released s) (hst : s.breath.streaming = true) (hend : s.breath.ending = true) :
    Completes .masterTickEmit s fun u =>
      fld u F.BREATH_STATUS_state = 3 ∧ fld u F.BREATH_EVENTS_tick_lost = 1 ∧ u.breath.streaming = false ∧ u.breath.due = []
        ∧ MemSame s u ∧ u.pairs = s.pairs := by
  obtain ⟨v, hv⟩ : ∃ v, flood 9 1 (lostTick s).body s = v := ⟨_, rfl⟩
  have he : masterTickEmit s = enterLost v := by
    rw [← hv]
    exact if_pos (by simp [hst, hend])
  have hflood : BreathTo id [] (floodOut s 9 1 (lostTick s).body) s v := hv ▸ .flood 9 1 _ .refl (by simp)
  obtain ⟨hstate, hev, hb, hmem, hpairs⟩ := enterLost_spec v
  exact completes_released_to hs rfl he ⟨hstate, hev, congrArg BreathS.streaming hb, congrArg BreathS.due hb, hflood.memSame.trans hmem,
    hpairs.trans hflood.pairs⟩

/-- A PIN master emits at an edge it accepts: the first, or one in its window. -/
theorem tickIn_accepted (ok : Bool) (s : State) (hs : Released s) (hst : s.breath.streaming = true) (hend : s.breath.ending = false)
    (hsrc : fld s F.BREATH_CTRL_tick_source = 2) (hok : s.breath.pinRef = false ∨ ok = true) :
    Completes (.tickInEdge ok) s fun u =>
      let t := nextTick s s.breath.resyncNext false
      BreathTo (fun b => { b with emitted := b.emitted + 1, resyncNext := false, due := b.due ++ [t], pinRef := true })
          [(.BREATH_TICKIN, 0)] (floodOut s 9 1 t.body) s u ∧ fld u F.BREATH_TICKIN_consec_miss = 0 := by
  have he : tickInEdge ok s = emitTick false (setFld F.BREATH_TICKIN_consec_miss 0 0 (modBreath (fun b => { b with pinRef := true }) s)) := by
    have hacc : (s.breath.pinRef && !ok) = false := by rcases hok with h | h <;> simp [h]
    simp [tickInEdge, hst, hend, hsrc, hacc]
  have hbefore := (BreathTo.refl (ks := [(.BREATH_TICKIN, 0)]) (s := s)).modBreath (fun b => { b with pinRef := true })
  refine completes_released_to hs rfl he ⟨.keepQueue _ ((hbefore.setFld 0 (by simp)).emitTick false (by simp) rfl rfl), ?_⟩
  rw [keepQueue_fld, fld_emitTick, fld_setFld_fits (by decide) _ (by decide)]

/-- An edge outside the window is counted and starts nothing. -/
theorem tickIn_rejected (s : State) (hs : Released s) (hst : s.breath.streaming = true) (hend : s.breath.ending = false)
    (hsrc : fld s F.BREATH_CTRL_tick_source = 2) (hpin : s.breath.pinRef = true) :
    Completes (.tickInEdge false) s fun u =>
      BreathTo id [(.BREATH_TICKIN, 0), (.BREATH_EVENTS, 0)] [] s u ∧ fld u F.BREATH_EVENTS_tick_in_reject = 1
        ∧ fld u F.BREATH_TICKIN_reject_count = satAdd 32 (fld s F.BREATH_TICKIN_reject_count) 1 := by
  have he : tickInEdge false s = raise F.BREATH_EVENTS_tick_in_reject 0 (satAddFld F.BREATH_TICKIN_reject_count 0 1 s) := by
    simp [tickInEdge, hst, hend, hsrc, hpin]
  refine completes_released_to hs rfl he ⟨.keepQueue _ (.raise (.satAddFld 1 .refl (by simp)) (by simp)), ?_, ?_⟩
  · rw [keepQueue_fld, fld_raise_self (by decide) rfl]
  · rw [keepQueue_fld, fld_raise_apart (by decide) (by decide), fld_satAddFld_self (by decide)]
    rfl

/-- A window that closes without an edge: a hold tick goes out, and with the third in a row the stream ends. -/
theorem tickIn_missed (s : State) (hs : Released s) (hst : s.breath.streaming = true) (hend : s.breath.ending = false)
    (hsrc : fld s F.BREATH_CTRL_tick_source = 2) (hpin : s.breath.pinRef = true) (hmiss : fld s F.BREATH_TICKIN_consec_miss < 3) :
    Completes .tickInMiss s fun u =>
      let t := nextTick s s.breath.resyncNext true
      BreathTo (fun b => { b with emitted := b.emitted + 1, resyncNext := false, due := b.due ++ [t]
                                  ending := decide (fld s F.BREATH_TICKIN_consec_miss = 2) })
          [(.BREATH_TICKIN, 0)] (floodOut s 9 1 t.body) s u
        ∧ fld u F.BREATH_TICKIN_consec_miss = fld s F.BREATH_TICKIN_consec_miss + 1 := by
  obtain ⟨n, hn⟩ : ∃ n, fld s F.BREATH_TICKIN_consec_miss = n := ⟨_, rfl⟩
  rw [hn] at hmiss ⊢
  obtain ⟨v, hv⟩ : ∃ v, emitTick true (setFld F.BREATH_TICKIN_consec_miss 0 (n + 1) s) = v := ⟨_, rfl⟩
  have he : tickInMiss s = if n + 1 < 3 then v else endStream v := by simp [tickInMiss, hst, hend, hsrc, hpin, hn, hv]
  have hto := (BreathTo.refl.setFld (ks := [(.BREATH_TICKIN, 0)]) (s := s) (g := F.BREATH_TICKIN_consec_miss) (i := 0) (n + 1) (by simp)).emitTick
    true (by simp) rfl rfl
  have hfld : fld v F.BREATH_TICKIN_consec_miss = n + 1 := by
    rw [← hv, fld_emitTick]
    exact fld_setFld_fits (by decide) _ (show n + 1 < 4 by omega) _
  rw [hv] at hto
  by_cases h2 : n = 2
  · have hstream : endStream v = modBreath (fun b => { b with ending := true }) v := by
      have hsrc' : fld v F.BREATH_CTRL_tick_source = 2 := (hto.fld (by simp)).trans hsrc
      have hpin' : v.breath.pinRef = true := by rw [hto.breath]; exact hpin
      simp [endStream, hsrc', hpin']
    refine completes_released_to hs rfl (he.trans ((if_neg (by omega)).trans hstream)) ⟨?_, hfld⟩
    exact .keepQueue _ ((hto.modBreath (fun b => { b with ending := true })).congr (by simp [h2, emitted]))
  · refine completes_released_to hs rfl (he.trans (if_pos (by omega))) ⟨.keepQueue _ (hto.congr ?_), hfld⟩
    simp [h2, emitted, hend]

/-- Settles O32: each source's tick, edge and miss, by a lemma of its own. -/
theorem tickSources : Obligations.TickSources :=
  ⟨masterTick_timer, masterTick_ends, tickIn_accepted, tickIn_rejected, tickIn_missed⟩

end Sys2Proof.Machine

/-! SUPPORT. ARM, RESUME, CEASE, the loss of ticks and the tick source (R28, R45–R50). -/

namespace Sys2Proof.Machine

/-! ## States of the breath unit -/

theorem breathState_setBreathState {v : Nat} (hv : v < 16) (s : State) : breathState (setBreathState v s) = v :=
  fld_setFld_fits (by decide) _ hv _

@[simp] theorem isMaster_setBreathState (v : Nat) (s : State) : isMaster (setBreathState v s) = isMaster s := by
  simp only [isMaster, setBreathState, fld_setFld_apart (f := F.BREATH_STATUS_state) (g := F.BREATH_CTRL_tick_source) (by decide) (by decide)]

theorem isMaster_eq_false {s : State} (h : fld s F.BREATH_CTRL_tick_source = 0) : isMaster s = false := by simp [isMaster, h]

theorem isMaster_eq_true {s : State} (h : fld s F.BREATH_CTRL_tick_source ≠ 0) : isMaster s = true := by simp [isMaster, h]

theorem setHolds_to (hs : List Nat) (s : State) : BreathTo (fun b => { b with holds := hs }) [(.BREATH_STATUS, 0)] [] s (setHolds hs s) :=
  .setFld _ (.modBreath _ .refl) (by simp)

theorem fld_setHolds_pending (hs : List Nat) (s : State) : fld (setHolds hs s) F.BREATH_STATUS_hold_pending = b2n (!hs.isEmpty) :=
  fld_setFld_fits (by decide) _ (by cases hs.isEmpty <;> decide) _

theorem fld_setHolds_apart {g : Fld} (h : g.ok = true)
    (hd : F.BREATH_STATUS_hold_pending.reg = g.reg → F.BREATH_STATUS_hold_pending.hi < g.lo ∨ g.hi < F.BREATH_STATUS_hold_pending.lo)
    (hs : List Nat) (s : State) (i : Nat) : fld (setHolds hs s) g i = fld s g i := by
  rw [setHolds, fld_setFld_apart h hd, fld_modBreath]

/-! ## The clauses of O35 -/

theorem arm_follower (s : State) (hs : Released s) (hboot : fld s F.BOOT_STATUS_state ≠ 3) (hidle : breathState s = 0)
    (hsrc : fld s F.BREATH_CTRL_tick_source = 0) :
    Completes .breathArm s fun u => breathState u = 1 ∧ BreathTo id [(.BREATH_STATUS, 0)] [] s u := by
  have he : breathArm s = setBreathState 1 s := by simp [breathArm, hboot, hidle, isMaster_eq_false hsrc]
  exact completes_released_to hs rfl he ⟨breathState_setBreathState (by decide) s, .keepQueue _ (.setFld 1 .refl (by simp))⟩

/-- The unit of a master whose stream starts. -/
theorem startStream_to (n : Nat) (resync : Bool) (s : State) :
    BreathTo (fun b => { b with streaming := true, emitted := n, resyncNext := resync, ending := false, pinRef := false
                                follows := some (deviceId s), due := [] })
      [(.BREATH_STATUS, 0), (.BREATH_TICKIN, 0)] [] s (startStream n resync s) := by
  have hid : deviceId (setFld F.BREATH_TICKIN_consec_miss 0 0 (setFld F.BREATH_STATUS_source_active 0 (fld s F.BREATH_CTRL_tick_source) s))
      = deviceId s := by
    rw [deviceId, fld_setFld_apart (by decide) (by decide), fld_setFld_apart (by decide) (by decide)]
    rfl
  rw [startStream, hid]
  exact .modBreath _ (.setFld _ (.setFld _ .refl (by simp)) (by simp))

theorem breathState_startStream (n : Nat) (resync : Bool) (s : State) : breathState (startStream n resync s) = breathState s := by
  rw [breathState, startStream, fld_modBreath, fld_setFld_apart (by decide) (by decide), fld_setFld_apart (by decide) (by decide)]
  rfl

theorem arm_master (s : State) (hs : Released s) (hboot : fld s F.BOOT_STATUS_state ≠ 3) (hidle : breathState s = 0)
    (hsrc : fld s F.BREATH_CTRL_tick_source ≠ 0) (hres : s.breath.resumed = false) :
    Completes .breathArm s fun u =>
      breathState u = 1 ∧ u.breath.streaming = true ∧ u.breath.emitted = 0 ∧ u.breath.follows = some (deviceId s)
        ∧ MemSame s u ∧ u.pairs = s.pairs := by
  have he : breathArm s = startStream 0 false (setBreathState 1 s) := by
    have hres' : (setBreathState 1 s).breath.resumed = false := hres
    simp [breathArm, startMaster, hboot, hidle, isMaster_eq_true hsrc, hres']
  have harm : BreathTo id [(.BREATH_STATUS, 0)] [] s (setBreathState 1 s) := .setFld 1 .refl (by simp)
  have hid : deviceId (setBreathState 1 s) = deviceId s := harm.fld (by simp)
  have hto := startStream_to 0 false (setBreathState 1 s)
  rw [hid] at hto
  refine completes_released_to hs rfl he ⟨?_, ?_, ?_, ?_, harm.memSame.trans hto.memSame, hto.pairs.trans harm.pairs⟩
  · exact (breathState_startStream 0 false _).trans (breathState_setBreathState (by decide) s)
  · exact congrArg BreathS.streaming hto.breath
  · exact congrArg BreathS.emitted hto.breath
  · exact congrArg BreathS.follows hto.breath

theorem resume_follower (s : State) (hs : Released s) (hst : breathState s = 3 ∨ breathState s = 4)
    (hsrc : fld s F.BREATH_CTRL_tick_source = 0) :
    Completes .breathResume s fun u =>
      breathState u = 1 ∧ fld u F.BREATH_STATUS_hold_pending = 0
        ∧ BreathTo (fun b => { b with holds := [], follows := none, resumed := true, heldTicks := [], cands := [], due := [] })
          [(.BREATH_STATUS, 0)] [] s u := by
  have harm : BreathTo (fun b => { b with holds := [] }) [(.BREATH_STATUS, 0)] [] s (setHolds [] (setBreathState 1 s)) :=
    .setFld _ (.modBreath _ (.setFld 1 .refl (by simp))) (by simp)
  have hm : ∀ g, isMaster (modBreath g (setHolds [] (setBreathState 1 s))) = false := fun g =>
    isMaster_eq_false ((harm.fld (g := F.BREATH_CTRL_tick_source) (by simp)).trans hsrc)
  have he : breathResume s = modBreath (fun b => { b with follows := none, resumed := true, heldTicks := [], cands := [], due := [] })
      (setHolds [] (setBreathState 1 s)) := by simp [breathResume, hst, hm]
  refine completes_released_to hs rfl he ⟨?_, fld_setHolds_pending [] _, .keepQueue _ (harm.modBreath _)⟩
  exact (fld_setHolds_apart (by decide) (by decide) _ _ _).trans (breathState_setBreathState (by decide) s)

theorem cease_timer (s : State) (hs : Released s) (hst : s.breath.streaming = true) (hend : s.breath.ending = false)
    (hsrc : fld s F.BREATH_CTRL_tick_source = 1) :
    Completes .breathCease s fun u => BreathTo (fun b => { b with ending := true }) [] [] s u := by
  have he : breathCease s = modBreath (fun b => { b with ending := true }) s := by simp [breathCease, endStream, hst, hend, hsrc]
  exact completes_released_to hs rfl he (.keepQueue _ (.modBreath _ .refl))

theorem ticks_lost (s : State) (hs : Released s) (hrun : breathState s = 2) (hst : s.breath.streaming = false) :
    Completes .tickLost s fun u =>
      breathState u = 3 ∧ fld u F.BREATH_EVENTS_tick_lost = 1 ∧ u.breath.due = [] ∧ u.breath.holds = [] ∧ MemSame s u
        ∧ u.pairs = s.pairs := by
  have he : tickLost s = enterLost s := by simp [tickLost, hrun, hst]
  obtain ⟨hstate, hev, hb, hmem, hpairs⟩ := enterLost_spec s
  exact completes_released_to hs rfl he ⟨hstate, hev, congrArg BreathS.due hb, congrArg BreathS.holds hb, hmem, hpairs⟩

/-- The registers of a tick source given: the source, that the part is master, no source active yet. -/
def sourceGiven (v : Nat) (s : State) : State :=
  setFld F.BREATH_STATUS_source_active 0 0 (setFld F.BREATH_STATUS_is_master 0 1 (setFld F.BREATH_CTRL_tick_source 0 v s))

theorem sourceGiven_to (v : Nat) (s : State) : BreathTo id [(.BREATH_CTRL, 0), (.BREATH_STATUS, 0)] [] s (sourceGiven v s) :=
  .setFld 0 (.setFld 1 (.setFld v .refl (by simp)) (by simp)) (by simp)

theorem fld_sourceGiven {v : Nat} (hv : v < 4) (s : State) :
    fld (sourceGiven v s) F.BREATH_CTRL_tick_source = v ∧ fld (sourceGiven v s) F.BREATH_STATUS_is_master = 1
      ∧ breathState (sourceGiven v s) = breathState s := by
  refine ⟨?_, ?_, ?_⟩
  · rw [sourceGiven, fld_setFld_apart (by decide) (by decide), fld_setFld_apart (by decide) (by decide), fld_setFld_fits (by decide) _ hv]
  · rw [sourceGiven, fld_setFld_apart (by decide) (by decide), fld_setFld_fits (by decide) _ (by decide)]
  · rw [breathState, sourceGiven, fld_setFld_apart (by decide) (by decide), fld_setFld_apart (by decide) (by decide),
      fld_setFld_apart (by decide) (by decide)]
    rfl

theorem tickSource_taken (v : Nat) (s : State) (hs : Released s) (hidle : breathState s = 0) (hq : isQueen s = true) (hv : v = 1 ∨ v = 2)
    (hsrc : fld s F.BREATH_CTRL_tick_source = 0) (hst : s.breath.streaming = false) :
    Completes (.tickSourceWrite v) s fun u =>
      fld u F.BREATH_CTRL_tick_source = v ∧ fld u F.BREATH_STATUS_is_master = 1 ∧ breathState u = 0
        ∧ BreathTo (fun b => { b with ending := false }) [(.BREATH_CTRL, 0), (.BREATH_STATUS, 0)] [] s u := by
  have he : tickSourceWrite v s = modBreath (fun b => { b with streaming := false, ending := false
                                                               follows := if b.streaming then none else b.follows
                                                               due := if b.streaming then [] else b.due }) (sourceGiven v s) := by
    rcases hv with rfl | rfl <;> simp [tickSourceWrite, hidle, hq, hsrc, sourceGiven, b2n]
  obtain ⟨h1, h2, h3⟩ := fld_sourceGiven (v := v) (by omega) s
  refine completes_released_to hs rfl he ⟨h1, h2, h3.trans hidle, .keepQueue _ (((sourceGiven_to v s).modBreath _).congr ?_)⟩
  simp [hst]

/-- Settles O35: ARM, RESUME, CEASE, the loss of ticks and the tick source, a lemma for each. -/
theorem breathControl : Obligations.BreathControl :=
  ⟨arm_follower, arm_master, resume_follower, cease_timer, ticks_lost, tickSource_taken⟩

end Sys2Proof.Machine

/-! SUPPORT. A follower's ticks (R33, R34, R36): the copy it takes, what it forwards, and the hold tick it fires. -/

section
open Sys2Proof Sys2Proof.Machine

variable {f g : BreathS → BreathS} {ks ks' : List (Reg × Nat)} {sets more : List Out} {s t u : State}

theorem BreathTo.trans (h1 : BreathTo f ks sets s t) (h2 : BreathTo g ks more t u) : BreathTo (g ∘ f) ks (more ++ sets) s u := by
  obtain ⟨hb, ho, hr, hm, hp, hl, hq⟩ := h1
  obtain ⟨hb', ho', hr', hm', hp', hl', hq'⟩ := h2
  exact ⟨hb'.trans (congrArg g hb), by rw [ho', ho, List.append_assoc], hr.trans hr', hm.trans hm', hp'.trans hp, hl'.trans hl, hq'.trans hq⟩

theorem BreathTo.mono (h : BreathTo f ks sets s t) (hk : ∀ k ∈ ks, k ∈ ks') : BreathTo f ks' sets s t := by
  obtain ⟨hb, ho, hr, hrest⟩ := h
  exact ⟨hb, ho, hr.mono (by simp) fun k hm => .inr (hk k hm), hrest⟩

end

namespace Sys2Proof.Machine

/-! ## A copy acted on or forwarded (R33) -/

/-- A copy as it is forwarded from its port: its delay grown by its hop and the time inside. -/
def forwarded (n inside : Nat) (t : Tick) (s : State) : Tick :=
  { t with delay := min (t.delay + fld s F.PORT_STATUS_hop_delay n + inside) (2 ^ 24 - 1) }

/-- The unit that has acted on a tick: it is due, seen, and no copy of it waits. -/
def actedOn (t : Tick) (b : BreathS) : BreathS :=
  { b with cands := b.cands.filter (fun c => c.2.key ≠ t.key), due := b.due ++ [t], seen := t.key :: b.seen }

/-- The last of what a part does with a copy it acts on: the unit, and the copy forwarded. -/
def passOn (n inside : Nat) (t : Tick) (s : State) : State :=
  flood n 1 (forwarded n inside t s).body (modBreath (actedOn t) s)

theorem forwardTick_acted (n inside : Nat) (t : Tick) (s : State) :
    forwardTick n inside t (modBreath (fun b => { b with cands := b.cands.filter (fun c => c.2.key ≠ t.key), due := b.due ++ [t] }) s)
      = passOn n inside t s := rfl

theorem passOn_to {f : BreathS → BreathS} {ks : List (Reg × Nat)} {s u : State} (n inside : Nat) (t : Tick) (h : BreathTo f ks [] s u)
    (hk : ∀ n, (Reg.PORT_STATUS, n) ∉ ks) :
    BreathTo (actedOn t ∘ f) ks (floodOut s n 1 (forwarded n inside t s).body) s (passOn n inside t u) := by
  have hfwd : forwarded n inside t u = forwarded n inside t s := by
    simp only [forwarded, h.fld (g := F.PORT_STATUS_hop_delay) (hk n)]
  rw [passOn, hfwd]
  exact (h.modBreath _).flood n 1 _ hk

@[simp] theorem fld_passOn (n inside : Nat) (t : Tick) (s : State) (g : Fld) (i : Nat) : fld (passOn n inside t s) g i = fld s g i := by
  rw [passOn, fld_flood, fld_modBreath]

section
variable {n inside : Nat} {t : Tick} {s : State}

/-- A copy in time, of the master the part follows, is acted on and passed on. -/
theorem actOn_follows (hearly : t.delay + fld s F.PORT_STATUS_hop_delay n ≤ fld s F.BREATH_COMP_tick_budget)
    (hf : s.breath.follows = some t.master) (reroute : Bool) :
    actOn n inside t reroute s = passOn n inside t (setFld F.BREATH_STATUS_reroute_active 0 (b2n reroute) s) := by
  simp only [actOn, if_neg (Nat.not_lt.mpr hearly), gt_iff_lt, setFld_breath, if_pos hf, forwardTick_acted]

/-- A copy in time, of a master the part does not follow yet, is adopted before it is passed on. -/
theorem actOn_adopts (hearly : t.delay + fld s F.PORT_STATUS_hop_delay n ≤ fld s F.BREATH_COMP_tick_budget)
    (hf : s.breath.follows = none) (reroute : Bool) :
    actOn n inside t reroute s = passOn n inside t (deriveParent t.master
      (modBreath (fun b => { b with follows := some t.master }) (setFld F.BREATH_STATUS_reroute_active 0 (b2n reroute) s))) := by
  have hne : ¬s.breath.follows = some t.master := by simp [hf]
  simp only [actOn, if_neg (Nat.not_lt.mpr hearly), gt_iff_lt, setFld_breath, if_neg hne, forwardTick_acted]

end

/-! ## The copy a follower takes -/

section
variable {n : Port} {body inside : Nat} {t : Tick} {s : State}

theorem tickReceive_takes (h : TakesTick n body t s) : tickReceive n body inside s = followTick n inside t s := by
  have hn : ¬n.val = 8 := by have := h.torus; omega
  rw [tickReceive, onGoodSet, if_pos h.check, if_neg hn, if_neg (by simp [isMaster_eq_false h.follower]), if_neg (by simp [h.measured]),
    h.tick]

/-- A RUNNING part acts on a copy of its master's on the parent port. -/
theorem followTick_parent (h : TakesTick n body t s) (hrun : breathState s = 2) (hf : s.breath.follows = some t.master)
    (hp : fld s F.BREATH_COMP_parent_port = n) : followTick n inside t s = actOn n inside t false s := by
  have hfresh := h.fresh
  simp only [followTick, hf, hfresh, hrun, hp, h.plain]
  simp

/-- A RUNNING part keeps a copy of its master's on another port. -/
theorem followTick_other (h : TakesTick n body t s) (hrun : breathState s = 2) (hf : s.breath.follows = some t.master)
    (hp : fld s F.BREATH_COMP_parent_port ≠ n) :
    followTick n inside t s = modBreath (fun b => { b with cands := b.cands ++ [(n.val, t)] }) s := by
  have hfresh := h.fresh
  simp only [followTick, hf, hfresh, hrun, h.plain]
  simp [hp]

/-- An ARMED part that follows no master acts on its first tick. -/
theorem followTick_first (h : TakesTick n body t s) (harm : breathState s = 1) (hf : s.breath.follows = none)
    (hres : s.breath.resumed = false) : followTick n inside t s = actOn n inside t false s := by
  have hfresh := h.fresh
  simp only [followTick, hf, hfresh, harm, hres, h.plain]
  simp

end

theorem actedOn_noCands {t : Tick} {b : BreathS} (h : b.cands = []) : actedOn t b = { b with due := b.due ++ [t], seen := t.key :: b.seen } := by
  rw [actedOn, h, List.filter_nil, ← h]

theorem parentPort_congr {s u : State} (hid : deviceId u = deviceId s) (hr : fld u F.GROUP_RINGS_ring_m1 = fld s F.GROUP_RINGS_ring_m1)
    (master : Nat) : parentPort u master = parentPort s master := by
  have hring : ringOf u = ringOf s := funext fun a => by rw [ringOf, hr, ringOf]
  unfold parentPort
  rw [hring, hid]

/-! ## The clauses of O33 on copies -/

theorem tick_onParent (n : Port) (body inside : Nat) (t : Tick) (s : State) (h : TakesTick n body t s) (hrun : breathState s = 2)
    (hf : s.breath.follows = some t.master) (hp : fld s F.BREATH_COMP_parent_port = n) (hc : s.breath.cands = []) :
    Completes (.tickReceive n body inside) s fun u =>
      BreathTo (fun b => { b with due := b.due ++ [t], seen := t.key :: b.seen }) [(.BREATH_STATUS, 0)]
          (floodOut s n 1 { t with delay := min (t.delay + fld s F.PORT_STATUS_hop_delay n + inside) (2 ^ 24 - 1) }.body) s u
        ∧ fld u F.BREATH_STATUS_reroute_active = 0 := by
  have he := (tickReceive_takes h).trans ((followTick_parent (inside := inside) h hrun hf hp).trans (actOn_follows h.early hf false))
  have hset : BreathTo id [(.BREATH_STATUS, 0)] [] s (setFld F.BREATH_STATUS_reroute_active 0 0 s) := .setFld 0 .refl (by simp)
  refine completes_released_to h.released rfl he
    ⟨.keepQueue _ ((passOn_to n inside t hset (by simp)).congr (actedOn_noCands hc).symm), ?_⟩
  rw [keepQueue_fld, fld_passOn]
  exact fld_setFld_fits (by decide) _ (by decide) _

theorem tick_onOther (n : Port) (body inside : Nat) (t : Tick) (s : State) (h : TakesTick n body t s) (hrun : breathState s = 2)
    (hf : s.breath.follows = some t.master) (hp : fld s F.BREATH_COMP_parent_port ≠ n) :
    Completes (.tickReceive n body inside) s fun u => BreathTo (fun b => { b with cands := b.cands ++ [(n.val, t)] }) [] [] s u :=
  completes_released_to h.released rfl ((tickReceive_takes h).trans (followTick_other h hrun hf hp))
    (.keepQueue _ (.modBreath (fun b => { b with cands := b.cands ++ [(n.val, t)] }) .refl))

theorem tick_rerouted (inside n : Nat) (t : Tick) (s : State) (hs : Released s) (hc : s.breath.cands = [(n, t)])
    (hf : s.breath.follows = some t.master) (hearly : t.delay + fld s F.PORT_STATUS_hop_delay n ≤ fld s F.BREATH_COMP_tick_budget) :
    Completes (.tickReroute inside) s fun u =>
      fld u F.BREATH_STATUS_reroute_active = 1
        ∧ BreathTo (fun b => { b with cands := [], due := b.due ++ [t], seen := t.key :: b.seen, reroutes := b.reroutes + 1 })
          [(.BREATH_STATUS, 0)]
          (floodOut s n 1 { t with delay := min (t.delay + fld s F.PORT_STATUS_hop_delay n + inside) (2 ^ 24 - 1) }.body) s u := by
  obtain ⟨v, hv⟩ : ∃ v, modBreath (fun b => { b with reroutes := b.reroutes + 1 }) s = v := ⟨_, rfl⟩
  have hto : BreathTo (fun b => { b with reroutes := b.reroutes + 1 }) [(.BREATH_STATUS, 0)] [] s v := hv ▸ .modBreath _ .refl
  have hact : tickReroute inside s = actOn n inside t true v := by rw [tickReroute, hc, ← hv]; rfl
  have hearly' : t.delay + fld v F.PORT_STATUS_hop_delay n ≤ fld v F.BREATH_COMP_tick_budget := by
    rw [hto.fld (by simp), hto.fld (by simp)]
    exact hearly
  have he := hact.trans (actOn_follows (inside := inside) hearly' (by rw [hto.breath]; exact hf) true)
  refine completes_released_to hs rfl he ⟨?_, .keepQueue _ ((passOn_to n inside t (hto.setFld 1 (by simp)) (by simp)).congr ?_)⟩
  · rw [keepQueue_fld, fld_passOn]
    exact fld_setFld_fits (by decide) _ (by decide) _
  · simp [actedOn, hc]

theorem tick_adopted (n : Port) (body inside : Nat) (t : Tick) (s : State) (h : TakesTick n body t s) (harm : breathState s = 1)
    (hf : s.breath.follows = none) (hres : s.breath.resumed = false) (hc : s.breath.cands = []) :
    Completes (.tickReceive n body inside) s fun u =>
      u.breath = { s.breath with follows := some t.master, due := s.breath.due ++ [t], seen := t.key :: s.breath.seen }
        ∧ fld u F.BREATH_COMP_parent_port = (parentPort s t.master).1 % 16 ∧ MemSame s u ∧ u.pairs = s.pairs := by
  obtain ⟨v, hv⟩ : ∃ v, modBreath (fun b => { b with follows := some t.master }) (setFld F.BREATH_STATUS_reroute_active 0 0 s) = v :=
    ⟨_, rfl⟩
  have he := (tickReceive_takes h).trans ((followTick_first (inside := inside) h harm hf hres).trans (actOn_adopts h.early hf false))
  have hto : BreathTo (fun b => { b with follows := some t.master }) [(.BREATH_STATUS, 0), (.BREATH_COMP, 0)] [] s v :=
    hv ▸ .modBreath _ (.setFld 0 .refl (by simp))
  have hparent : parentPort v t.master = parentPort s t.master :=
    parentPort_congr (hto.fld (g := F.GROUP_STATUS_device_id) (by simp)) (hto.fld (g := F.GROUP_RINGS_ring_m1) (by simp)) _
  have hpass := passOn_to n inside t (u := deriveParent t.master v) (.setFld _ (.setFld _ hto (by simp)) (by simp)) (by simp)
  rw [show b2n false = 0 from rfl, hv] at he
  refine completes_released_to h.released rfl he
    ⟨hpass.breath.trans (actedOn_noCands hc), ?_, hpass.memSame, hpass.pairs⟩
  rw [keepQueue_fld, fld_passOn, deriveParent, fld_setFld_self (by decide), hparent]
  rfl

theorem tick_badCrc (n : Port) (body inside : Nat) (s : State) (hs : Released s) (hbad : crc16Ok body = false) :
    Completes (.tickReceive n body inside) s fun u =>
      BreathTo id [(.PORT_OSET, n.val), (.PORT_EVENTS, n.val)] [] s u ∧ fld u F.PORT_EVENTS_oset_crc n = 1
        ∧ fld u F.PORT_OSET_bad n = satAdd F.PORT_OSET_bad.width (fld s F.PORT_OSET_bad n) 1 := by
  have he : tickReceive n body inside s = badSet n s := by rw [tickReceive, onGoodSet, if_neg (by simp [hbad])]
  refine completes_released_to hs rfl he ⟨.keepQueue _ (.raise (.satAddFld 1 .refl (by simp)) (by simp)), ?_, ?_⟩
  · rw [keepQueue_fld, badSet, fld_raise_self (by decide) rfl]
  · rw [keepQueue_fld, badSet, fld_raise_apart (by decide) (by decide), fld_satAddFld_self (by decide)]

/-! ## A hold tick (R36) -/

/-- The registers that a tick fired as a hold may write. -/
abbrev holdKeys : List (Reg × Nat) := [(.BREATH_STATUS, 0), (.BREATH_EVENTS, 0), (.BREATH_TICK, 0), (.BREATH_COUNTS, 0)]

/-- What every tick fired changes of the unit: the period it carried, and that no resume waits. -/
def periodTaken (t : Tick) (b : BreathS) : BreathS := { b with period := t.period, resumed := false }

/-- The registers written when a tick fires, after the pulse. -/
def tickNoted (t : Tick) (s : State) : State :=
  let mism := t.period ≠ fld s F.BREATH_PERIOD_period
  let s := setFld F.BREATH_STATUS_period_mismatch 0 (b2n mism) s
  let s := if mism then raise F.BREATH_EVENTS_period_mismatch 0 s else s
  setFld F.BREATH_TICK_master_id 0 t.master (setFld F.BREATH_TICK_tick_number 0 t.number s)

theorem tickNoted_to (t : Tick) (s : State) : BreathTo id holdKeys [] s (tickNoted t s) := by
  have hset : BreathTo id holdKeys [] s (setFld F.BREATH_STATUS_period_mismatch 0 (b2n (t.period ≠ fld s F.BREATH_PERIOD_period)) s) :=
    .setFld _ .refl (by simp)
  refine .setFld _ (.setFld _ ?_ (by simp)) (by simp)
  split
  · exact hset.raise (by simp)
  · exact hset

theorem fld_tickNoted (t : Tick) (s : State) :
    fld (tickNoted t s) F.BREATH_TICK_tick_number = t.number % 2 ^ 48 ∧ fld (tickNoted t s) F.BREATH_TICK_master_id = t.master % 2 ^ 16
      ∧ breathState (tickNoted t s) = breathState s := by
  refine ⟨?_, ?_, ?_⟩
  · rw [tickNoted, fld_setFld_apart (by decide) (by decide), fld_setFld_self (by decide)]
    rfl
  · rw [tickNoted, fld_setFld_self (by decide)]
    rfl
  · rw [breathState, tickNoted, fld_setFld_apart (by decide) (by decide), fld_setFld_apart (by decide) (by decide)]
    split
    · rw [fld_raise_apart (by decide) (by decide), fld_setFld_apart (by decide) (by decide)]
      rfl
    · rw [fld_setFld_apart (by decide) (by decide)]
      rfl

/-- The state a tick is noted in: RUNNING, the unit's period taken, the pulse out where it is enabled (R31). -/
def pulsed (t : Tick) (s : State) : State :=
  let s := setBreathState bsRunning (modBreath (periodTaken t) s)
  if fldB s F.BREATH_CTRL_tickout_en then emit .tickOut s else s

theorem tickFired_eq (t : Tick) (s : State) : tickFired t s = tickNoted t (pulsed t s) := rfl

theorem pulsed_to (t : Tick) (s : State) : ∃ sets, BreathTo (periodTaken t) holdKeys sets s (pulsed t s) := by
  have hset : BreathTo (periodTaken t) holdKeys [] s (setBreathState bsRunning (modBreath (periodTaken t) s)) :=
    .setFld _ (.modBreath _ .refl) (by simp)
  unfold pulsed
  dsimp only
  split
  · exact ⟨[.tickOut], hset.sends [.tickOut]⟩
  · exact ⟨[], hset⟩

theorem breathState_pulsed (t : Tick) (s : State) : breathState (pulsed t s) = 2 := by
  have hset : breathState (setBreathState bsRunning (modBreath (periodTaken t) s)) = 2 := breathState_setBreathState (by decide) _
  unfold pulsed
  dsimp only
  split <;> exact hset

/-- A hold tick's number joins those that fired as holds. -/
def heldTick (t : Tick) (b : BreathS) : BreathS := { b with heldTicks := t.number :: b.heldTicks }

theorem holdTick_to (t : Tick) (s : State) : BreathTo (heldTick t) holdKeys [] s (holdTick t s) := by
  refine .modBreath (heldTick t) (f := id) ?_
  split
  · exact .raise (.satAddFld 1 .refl (by simp)) (by simp)
  · exact .refl

theorem fld_holdTick {g : Fld} {i : Nat} (hg : g.reg ≠ .BREATH_COUNTS ∧ g.reg ≠ .BREATH_EVENTS) (t : Tick) (s : State) :
    fld (holdTick t s) g i = fld s g i := by
  rw [holdTick, fld_modBreath]
  split
  · rw [raise, fld_setFld_ne _ _ (.inl hg.2.symm), satAddFld, fld_setFld_ne _ _ (.inl hg.1.symm)]
  · rfl

theorem spendHolds_to (n : Nat) (s : State) : ∃ hs, BreathTo (fun b => { b with holds := hs }) holdKeys [] s (spendHolds n s) := by
  unfold spendHolds
  split
  · exact ⟨_, (setHolds_to _ s).mono (by simp)⟩
  · exact ⟨s.breath.holds, BreathTo.refl.congr rfl⟩

theorem fld_spendHolds {g : Fld} (h : g.ok = true)
    (hd : F.BREATH_STATUS_hold_pending.reg = g.reg → F.BREATH_STATUS_hold_pending.hi < g.lo ∨ g.hi < F.BREATH_STATUS_hold_pending.lo)
    (n : Nat) (s : State) (i : Nat) : fld (spendHolds n s) g i = fld s g i := by
  unfold spendHolds
  split
  · exact fld_setHolds_apart h hd _ s i
  · rfl

theorem localTickFire_hold {t : Tick} {rest : List Tick} {s : State} (hdue : s.breath.due = t :: rest) (hrun : breathState s = 2)
    (hhold : t.hold = true) (hres : t.resync = false) :
    localTickFire s = spendHolds t.number (holdTick t (tickFired t (modBreath (fun b => { b with due := rest }) s))) := by
  simp [localTickFire, hdue, hrun, hhold, hres]

theorem tick_held (t : Tick) (rest : List Tick) (s : State) (hs : Released s) (hdue : s.breath.due = t :: rest) (hrun : breathState s = 2)
    (hhold : t.hold = true) (hres : t.resync = false) :
    Completes .localTickFire s fun u =>
      fld u F.BREATH_TICK_tick_number = t.number % 2 ^ 48 ∧ fld u F.BREATH_TICK_master_id = t.master % 2 ^ 16
        ∧ fld u F.BREATH_STATUS_state = 2 ∧ schedBreath u = schedBreath s ∧ u.breath.due = rest
        ∧ u.breath.heldTicks = t.number :: s.breath.heldTicks ∧ (∀ p, reg u .SEQ_STATUS p = reg s .SEQ_STATUS p)
        ∧ u.pairs = s.pairs ∧ MemSame s u := by
  obtain ⟨v, hv⟩ : ∃ v, pulsed t (modBreath (fun b => { b with due := rest }) s) = v := ⟨_, rfl⟩
  have he := localTickFire_hold hdue hrun hhold hres
  rw [tickFired_eq, hv] at he
  have hstate : breathState v = 2 := hv ▸ breathState_pulsed t _
  obtain ⟨sets, hpulse⟩ := pulsed_to t (modBreath (fun b => { b with due := rest }) s)
  rw [hv] at hpulse
  obtain ⟨hs', hspend⟩ := spendHolds_to t.number (holdTick t (tickNoted t v))
  have hto := (((BreathTo.modBreath (fun b => { b with due := rest }) .refl).trans hpulse).trans
    ((tickNoted_to t v).trans (holdTick_to t _))).trans hspend
  obtain ⟨hnum, hmaster, hkept⟩ := fld_tickNoted t v
  obtain ⟨u, hu⟩ : ∃ u, spendHolds t.number (holdTick t (tickNoted t v)) = u := ⟨_, rfl⟩
  rw [hu] at hto
  have hnum' : fld u F.BREATH_TICK_tick_number = t.number % 2 ^ 48 := by
    rw [← hu, fld_spendHolds (by decide) (by decide), fld_holdTick (by decide), hnum]
  have hmaster' : fld u F.BREATH_TICK_master_id = t.master % 2 ^ 16 := by
    rw [← hu, fld_spendHolds (by decide) (by decide), fld_holdTick (by decide), hmaster]
  have hstate' : breathState u = 2 := by
    rw [breathState, ← hu, fld_spendHolds (by decide) (by decide), fld_holdTick (by decide)]
    exact hkept.trans hstate
  exact completes_released_to hs rfl (he.trans hu) ⟨hnum', hmaster', hstate', hto.fld (by simp), congrArg BreathS.due hto.breath,
    congrArg BreathS.heldTicks hto.breath, fun p => hto.keeps _ p (by simp) (by simp), hto.pairs, hto.memSame⟩

/-- Settles O33: what a follower does with each copy, and the hold tick it fires, a lemma for each. -/
theorem ticks : Obligations.Ticks :=
  ⟨tick_onParent, tick_onOther, tick_rerouted, tick_adopted, tick_badCrc, tick_held⟩

end Sys2Proof.Machine

/-! SUPPORT. The guard point, stretch requests, slack and echoes (R34, R39–R46, R51). -/

namespace Sys2Proof.Machine

/-! ## Late pairs as a mask -/

/-- A number of n bits with one more of them set still has n bits. -/
theorem setBitN_lt {w i n : Nat} (hw : w < 2 ^ n) (hi : i < n) : setBitN w i < 2 ^ n := by
  rw [setBitN, bitAt]
  split
  · exact hw
  · rename_i hbit
    obtain ⟨j, rfl⟩ : ∃ j, n = i + (j + 1) := ⟨n - i - 1, by omega⟩
    have heven : w / 2 ^ i % 2 = 0 := by simpa using hbit
    rw [Nat.pow_add] at hw ⊢
    have hq : w / 2 ^ i < 2 * 2 ^ j := by rw [← Nat.pow_succ']; exact Nat.div_lt_of_lt_mul hw
    calc w + 2 ^ i < 2 ^ i * (w / 2 ^ i + 1) + 2 ^ i := by gcongr; exact Nat.lt_mul_div_succ w (by positivity)
      _ = 2 ^ i * (w / 2 ^ i + 2) := by ring
      _ ≤ 2 ^ i * 2 ^ (j + 1) := by gcongr; rw [Nat.pow_succ']; omega

theorem foldl_setBitN_lt {n : Nat} {l : List Nat} (hl : ∀ i ∈ l, i < n) {w : Nat} (hw : w < 2 ^ n) : l.foldl setBitN w < 2 ^ n := by
  induction l generalizing w with
  | nil => exact hw
  | cons i l ih => exact ih (fun k hk => hl k (by simp [hk])) (setBitN_lt hw (hl i (by simp)))

theorem lt_of_mem_latePairs {s : State} {p : Nat} (h : p ∈ latePairs s) : p < 64 := by
  simp only [latePairs, livePairs, List.mem_filter, List.mem_range] at h
  exact h.1.1

/-! ## An overrun (R39, R40) -/

/-- An overrun recorded: its count, its event, its pairs. -/
def lateNoted (ps : List Nat) (s : State) : State :=
  setFld F.BREATH_OVERRUN_PAIRS_pairs 0 (ps.foldl setBitN 0) (raise F.BREATH_EVENTS_overrun 0 (satAddFld F.BREATH_COUNTS_overrun_count 0 1 s))

/-- The registers an overrun's record writes. -/
abbrev lateKeys : List (Reg × Nat) := [(.BREATH_COUNTS, 0), (.BREATH_EVENTS, 0), (.BREATH_OVERRUN_PAIRS, 0)]

theorem lateNoted_to (ps : List Nat) (s : State) : BreathTo id lateKeys [] s (lateNoted ps s) :=
  .setFld _ (.raise (.satAddFld 1 .refl (by simp)) (by simp)) (by simp)

/-- What an overrun's record says in the registers of a state reached after it. -/
structure NotesLate (ps : List Nat) (s u : State) : Prop where
  event : fld u F.BREATH_EVENTS_overrun = 1
  pairs : fld u F.BREATH_OVERRUN_PAIRS_pairs = ps.foldl setBitN 0
  count : fld u F.BREATH_COUNTS_overrun_count = satAdd F.BREATH_COUNTS_overrun_count.width (fld s F.BREATH_COUNTS_overrun_count) 1

theorem lateNoted_notes {ps : List Nat} (hps : ∀ p ∈ ps, p < 64) (s : State) : NotesLate ps s (lateNoted ps s) where
  event := by rw [lateNoted, fld_setFld_apart (by decide) (by decide), fld_raise_self (by decide) rfl]
  pairs := fld_setFld_fits (by decide) _ (foldl_setBitN_lt hps (by decide)) _
  count := by
    rw [lateNoted, fld_setFld_apart (by decide) (by decide), fld_raise_apart (by decide) (by decide), fld_satAddFld_self (by decide)]

section
variable {ps : List Nat} {s t u : State}

/-- Later changes keep the record that leave its fields alone. -/
theorem NotesLate.kept (h : NotesLate ps s t)
    (hu : ∀ g ∈ [F.BREATH_EVENTS_overrun, F.BREATH_OVERRUN_PAIRS_pairs, F.BREATH_COUNTS_overrun_count], fld u g = fld t g) :
    NotesLate ps s u where
  event := (hu _ (by simp)).trans h.event
  pairs := (hu _ (by simp)).trans h.pairs
  count := (hu _ (by simp)).trans h.count

/-- The part that asks for a stretch: one more breath in a row counted, the request on every port. -/
def stretchAsked (ps : List Nat) (s : State) : State :=
  flood 9 2 (stretchBody (deviceId s) (tickNumber s + 2))
    (setFld F.BREATH_STRETCH_consecutive 0 (fld s F.BREATH_STRETCH_consecutive + 1) (lateNoted ps s))

theorem stretchAsked_to (ps : List Nat) (s : State) :
    BreathTo id ((.BREATH_STRETCH, 0) :: lateKeys) (floodOut s 9 2 (stretchBody (deviceId s) (tickNumber s + 2))) s (stretchAsked ps s) :=
  .flood 9 2 _ (.setFld _ ((lateNoted_to ps s).mono (by simp)) (by simp)) (by simp)

theorem stretchAsked_host (ps : List Nat) (s : State) : (stretchAsked ps s).host = s.host := by rw [stretchAsked, flood_eq]; rfl

theorem stretchAsked_notes {ps : List Nat} (hps : ∀ p ∈ ps, p < 64) (s : State) : NotesLate ps s (stretchAsked ps s) :=
  (lateNoted_notes hps s).kept fun g hg => by
    rw [stretchAsked, fld_flood, fld_setFld_ne _ _ (.inl ?_)]
    fin_cases hg <;> decide

theorem fld_stretchAsked_consecutive (ps : List Nat) {s : State}
    (hlim : fld s F.BREATH_STRETCH_consecutive < fld s F.BREATH_STRETCH_stretch_limit) :
    fld (stretchAsked ps s) F.BREATH_STRETCH_consecutive = fld s F.BREATH_STRETCH_consecutive + 1 := by
  have hfits : fld s F.BREATH_STRETCH_stretch_limit < 256 := fld_lt (by decide) s 0
  rw [stretchAsked, fld_flood]
  exact fld_setFld_fits (by decide) _ (show _ < 256 by omega) _

/-- Under the STRETCH policy: in TICK_LOST the record alone; past the limit the late hives are to fault; else a stretch is asked for. -/
theorem overrun_eq (ps : List Nat) {s : State} (hpol : fld s F.BREATH_CTRL_overrun_policy = 0) :
    overrun ps s = if breathState s = 3 then lateNoted ps s
      else if fld s F.BREATH_STRETCH_stretch_limit < fld s F.BREATH_STRETCH_consecutive + 1 then
        escalateLate ps (raise F.BREATH_EVENTS_stretch_limit 0 (lateNoted ps s))
      else markHold (tickNumber s + 2) (stretchAsked ps s) := by
  have hto := lateNoted_to ps s
  have hpol' : ¬fldB (lateNoted ps s) F.BREATH_CTRL_overrun_policy = true := by
    simp [fldB, (hto.fld (g := F.BREATH_CTRL_overrun_policy) (by simp)).trans hpol]
  have hst : breathState (lateNoted ps s) = breathState s := hto.fld (by simp)
  have htick : tickNumber (lateNoted ps s) = tickNumber s := hto.fld (by simp)
  have hid : deviceId (lateNoted ps s) = deviceId s := hto.fld (by simp)
  have hcons : fld (lateNoted ps s) F.BREATH_STRETCH_consecutive = fld s F.BREATH_STRETCH_consecutive := hto.fld (by simp)
  have hlim : fld (lateNoted ps s) F.BREATH_STRETCH_stretch_limit = fld s F.BREATH_STRETCH_stretch_limit := hto.fld (by simp)
  rw [stretchAsked, ← hst, ← htick, ← hid, ← hcons, ← hlim]
  exact if_neg hpol'

theorem overrun_fault (hpol : fld s F.BREATH_CTRL_overrun_policy ≠ 0) : overrun ps s = escalateLate ps (lateNoted ps s) := by
  have hpol' : fldB (lateNoted ps s) F.BREATH_CTRL_overrun_policy = true := by
    simp [fldB, (lateNoted_to ps s).fld (g := F.BREATH_CTRL_overrun_policy) (by simp), hpol]
  exact if_pos hpol'

theorem overrun_lost (hpol : fld s F.BREATH_CTRL_overrun_policy = 0) (hlost : breathState s = 3) : overrun ps s = lateNoted ps s :=
  (overrun_eq ps hpol).trans (if_pos hlost)

theorem overrun_limit (hpol : fld s F.BREATH_CTRL_overrun_policy = 0) (hlost : breathState s ≠ 3)
    (hlim : fld s F.BREATH_STRETCH_stretch_limit ≤ fld s F.BREATH_STRETCH_consecutive) :
    overrun ps s = escalateLate ps (raise F.BREATH_EVENTS_stretch_limit 0 (lateNoted ps s)) := by
  rw [overrun_eq ps hpol, if_neg hlost, if_pos (Nat.lt_succ_of_le hlim)]

theorem overrun_stretch (hpol : fld s F.BREATH_CTRL_overrun_policy = 0) (hlost : breathState s ≠ 3)
    (hlim : fld s F.BREATH_STRETCH_consecutive < fld s F.BREATH_STRETCH_stretch_limit) :
    overrun ps s = markHold (tickNumber s + 2) (stretchAsked ps s) := by
  rw [overrun_eq ps hpol, if_neg hlost, if_neg (Nat.not_lt.mpr hlim)]

/-- One late pair of a hive that is not under reset: its hive alone is to fault at breath end. -/
theorem escalateLate_one {p : Nat} (hp : p < 64) (hu : underReset s (p / 16) = false) :
    escalateLate [p] s = { s with pendingFaults := s.pendingFaults ++ [{ hive := p / 16, cause := 2, pair := p }] } := by
  have hstep : escalateLate [p] s = (List.range 4).foldl (fun t h => if p / 16 = h then escalate h 2 p t else t) s := by
    unfold escalateLate
    congr 1
    funext t h
    by_cases hh : p / 16 = h <;> simp [hiveOf, hh]
  have hf := List.foldl_filter (p := fun h => decide (p / 16 = h)) (f := fun t h => escalate h 2 p t) (l := List.range 4) (init := s)
  simp only [decide_eq_true_eq] at hf
  rw [hstep, ← hf, filter_hive_singleton (by omega), List.foldl_cons, List.foldl_nil, escalate, hu]
  rfl

/-! ## The hold mark (R40, R42) -/

/-- A RUNNING part without hold marks marks a tick to come. -/
theorem markHold_marks {target : Nat} (hrun : breathState s = 2) (hh : s.breath.holds = []) (ht : s.breath.heldTicks = [])
    (hlt : tickNumber s < target) : markHold target s = setHolds [target] s := by
  simp [markHold, hrun, hh, ht, hlt]

/-- A RUNNING part whose target has fired as a boundary falls out of step. -/
theorem markHold_late {target : Nat} (hrun : breathState s = 2) (hh : s.breath.holds = []) (ht : s.breath.heldTicks = [])
    (hle : target ≤ tickNumber s) :
    markHold target s = noteFault s (sendEventOpen 0x01 5 255 (setBreathState bsDesync (setHolds [] (raise F.BREATH_EVENTS_stretch_late 0 s)))) := by
  simp [markHold, hrun, hh, ht, hle, withFault]

/-! ## The guard point -/

theorem noticesApply_none (h : s.host.notices = []) : noticesApply s = s := by
  have hhost : ({ s.host with notices := [] } : HostS) = s.host := by rw [← h]
  simp [noticesApply, modHost, h, hhost]

/-- The unit whose guard point has passed. -/
def guardPassed (b : BreathS) : BreathS := { b with guarded := true }

theorem guardPoint_open (hst : breathState s ≠ 3) (hopen : guardOpen s = true) :
    guardPoint s = noticesApply (modBreath guardPassed
      (if (latePairs s).isEmpty then setFld F.BREATH_STRETCH_consecutive 0 0 s else overrun (latePairs s) s)) := by
  rw [guardPoint, if_neg (by simp [hst]), if_neg (by simp [hopen])]
  rfl

theorem guardPoint_none (hst : breathState s ≠ 3) (hopen : guardOpen s = true) (hlate : latePairs s = []) (hn : s.host.notices = []) :
    guardPoint s = modBreath guardPassed (setFld F.BREATH_STRETCH_consecutive 0 0 s) := by
  rw [guardPoint_open hst hopen, if_pos (by simp [hlate])]
  exact noticesApply_none hn

theorem guardPoint_late (hst : breathState s ≠ 3) (hopen : guardOpen s = true) (hlate : latePairs s ≠ []) (hu : overrun (latePairs s) s = u)
    (hn : u.host.notices = []) : guardPoint s = modBreath guardPassed u := by
  rw [guardPoint_open hst hopen, if_neg (by simp [hlate]), hu]
  exact noticesApply_none hn

theorem guardPoint_lost (hst : breathState s = 3) (hg : s.breath.guarded = false) (hlate : latePairs s ≠ []) :
    guardPoint s = modBreath guardPassed (overrun (latePairs s) s) := by
  rw [guardPoint, if_pos (by simp [hst, hg]), if_neg (by simp [hlate])]
  rfl

end

/-! ## The clauses of O34 on the guard point -/

theorem guard_noLate (s : State) (hs : Released s) (hst : breathState s ≠ 3) (hopen : guardOpen s = true) (hlate : latePairs s = [])
    (hn : s.host.notices = []) :
    Completes .guardPoint s fun u =>
      fld u F.BREATH_STRETCH_consecutive = 0 ∧ u.breath = { s.breath with guarded := true }
        ∧ Keeps [] [(.BREATH_STRETCH, 0)] s u ∧ MemSame s u ∧ u.pairs = s.pairs ∧ u.out = s.out := by
  have hto : BreathTo guardPassed [(.BREATH_STRETCH, 0)] [] s (modBreath guardPassed (setFld F.BREATH_STRETCH_consecutive 0 0 s)) :=
    .modBreath _ (.setFld 0 .refl (by simp))
  refine completes_released_to hs rfl (guardPoint_none hst hopen hlate hn) ⟨?_, hto.breath, hto.keeps, hto.memSame, hto.pairs, hto.out⟩
  rw [keepQueue_fld, fld_modBreath]
  exact fld_setFld_fits (by decide) _ (by decide) _

theorem guard_stretch (s : State) (hs : Released s) (hrun : breathState s = 2) (hopen : guardOpen s = true) (hlate : latePairs s ≠ [])
    (hn : s.host.notices = []) (hpol : fld s F.BREATH_CTRL_overrun_policy = 0)
    (hlim : fld s F.BREATH_STRETCH_consecutive < fld s F.BREATH_STRETCH_stretch_limit) (hh : s.breath.holds = [])
    (ht : s.breath.heldTicks = []) :
    Completes .guardPoint s fun u =>
      fld u F.BREATH_EVENTS_overrun = 1 ∧ fld u F.BREATH_OVERRUN_PAIRS_pairs = (latePairs s).foldl setBitN 0
        ∧ fld u F.BREATH_COUNTS_overrun_count = satAdd F.BREATH_COUNTS_overrun_count.width (fld s F.BREATH_COUNTS_overrun_count) 1
        ∧ fld u F.BREATH_STRETCH_consecutive = fld s F.BREATH_STRETCH_consecutive + 1
        ∧ u.breath = { s.breath with guarded := true, holds := [tickNumber s + 2] }
        ∧ u.out = floodOut s 9 2 (stretchBody (deviceId s) (tickNumber s + 2)) ++ s.out ∧ MemSame s u ∧ u.pairs = s.pairs := by
  have hst : breathState s ≠ 3 := by omega
  obtain ⟨ps, hps⟩ : ∃ ps, latePairs s = ps := ⟨_, rfl⟩
  have hbound : ∀ p ∈ ps, p < 64 := fun p hp => lt_of_mem_latePairs (hps ▸ hp)
  have hask := stretchAsked_to ps s
  obtain ⟨u, hu⟩ : ∃ u, setHolds [tickNumber s + 2] (stretchAsked ps s) = u := ⟨_, rfl⟩
  have hover : overrun (latePairs s) s = u := by
    rw [hps, overrun_stretch hpol hst hlim, ← hu]
    refine markHold_marks ((hask.fld (by simp)).trans hrun) (by rw [hask.breath]; exact hh) (by rw [hask.breath]; exact ht) ?_
    rw [tickNumber, hask.fld (by simp)]
    exact Nat.lt_add_of_pos_right (by decide)
  have hnotes : NotesLate ps s u := (stretchAsked_notes hbound s).kept fun g hg => by
    rw [← hu]
    fin_cases hg <;> exact fld_setHolds_apart (by decide) (by decide) _ _ _
  have hto : BreathTo (fun b => { b with holds := [tickNumber s + 2] }) ((.BREATH_STATUS, 0) :: (.BREATH_STRETCH, 0) :: lateKeys)
      (floodOut s 9 2 (stretchBody (deviceId s) (tickNumber s + 2))) s u :=
    hu ▸ (hask.mono (by simp)).trans ((setHolds_to [tickNumber s + 2] (stretchAsked ps s)).mono (by simp))
  have hhost : u.host = s.host := hu ▸ stretchAsked_host ps s
  have hcons : fld u F.BREATH_STRETCH_consecutive = fld s F.BREATH_STRETCH_consecutive + 1 := by
    rw [← hu, fld_setHolds_apart (by decide) (by decide), fld_stretchAsked_consecutive ps hlim]
  exact completes_released_to hs rfl (guardPoint_late hst hopen hlate hover (by rw [hhost, hn]))
    ⟨hnotes.event, hps ▸ hnotes.pairs, hnotes.count, hcons, congrArg guardPassed hto.breath, hto.out, hto.memSame, hto.pairs⟩

/-- Late slices whose hive is to fault: the record, the fault that waits, and no request. -/
theorem guard_escalated {p : Nat} {s t : State} (hs : Released s) (hst : breathState s ≠ 3) (hopen : guardOpen s = true)
    (hlate : latePairs s = [p]) (hu : underReset s (p / 16) = false) (hp : p < 64) (hn : s.host.notices = [])
    (ht : overrun [p] s = escalateLate [p] t) (hto : BreathTo id lateKeys [] s t) (hnotes : NotesLate [p] s t)
    (hpf : t.pendingFaults = s.pendingFaults) (hhost : t.host = s.host) :
    Completes .guardPoint s fun u =>
      fld u F.BREATH_EVENTS_overrun = 1 ∧ fld u F.BREATH_OVERRUN_PAIRS_pairs = 2 ^ p
        ∧ fld u F.BREATH_EVENTS_stretch_limit = fld t F.BREATH_EVENTS_stretch_limit
        ∧ fld u F.BREATH_STRETCH_consecutive = fld s F.BREATH_STRETCH_consecutive
        ∧ u.pendingFaults = s.pendingFaults ++ [{ hive := p / 16, cause := 2, pair := p }]
        ∧ u.breath = { s.breath with guarded := true } ∧ u.out = s.out ∧ MemSame s u ∧ u.pairs = s.pairs := by
  have hu' : underReset t (p / 16) = false := by
    rw [underReset_congr (hto.fld (by simp)) (hto.fld (by simp)), hu]
  have hover : overrun (latePairs s) s = { t with pendingFaults := t.pendingFaults ++ [{ hive := p / 16, cause := 2, pair := p }] } := by
    rw [hlate, ht, escalateLate_one hp hu']
  have hmask : [p].foldl setBitN 0 = 2 ^ p := by simp [setBitN, bitAt]
  exact completes_released_to hs rfl (guardPoint_late hst hopen (by simp [hlate]) hover ((congrArg HostS.notices hhost).trans hn))
    ⟨hnotes.event, hnotes.pairs.trans hmask, rfl, hto.fld (g := F.BREATH_STRETCH_consecutive) (by simp), congrArg (· ++ _) hpf,
      congrArg guardPassed hto.breath, hto.out, hto.memSame, hto.pairs⟩

theorem guard_faults (p : Nat) (s : State) (hs : Released s) (hrun : breathState s = 2) (hopen : guardOpen s = true)
    (hlate : latePairs s = [p]) (hu : underReset s (p / 16) = false) (hp : p < 64) (hn : s.host.notices = [])
    (hpol : fld s F.BREATH_CTRL_overrun_policy = 1 ∨ fld s F.BREATH_STRETCH_stretch_limit ≤ fld s F.BREATH_STRETCH_consecutive) :
    Completes .guardPoint s fun u =>
      fld u F.BREATH_EVENTS_overrun = 1 ∧ fld u F.BREATH_OVERRUN_PAIRS_pairs = 2 ^ p
        ∧ (fld s F.BREATH_CTRL_overrun_policy = 0 → fld u F.BREATH_EVENTS_stretch_limit = 1)
        ∧ fld u F.BREATH_STRETCH_consecutive = fld s F.BREATH_STRETCH_consecutive
        ∧ u.pendingFaults = s.pendingFaults ++ [{ hive := p / 16, cause := 2, pair := p }]
        ∧ u.breath = { s.breath with guarded := true } ∧ u.out = s.out ∧ MemSame s u ∧ u.pairs = s.pairs := by
  have hst : breathState s ≠ 3 := by omega
  have hnotes := lateNoted_notes (ps := [p]) (by simpa using hp) s
  by_cases hzero : fld s F.BREATH_CTRL_overrun_policy = 0
  · have hlimit := hnotes.kept (u := raise F.BREATH_EVENTS_stretch_limit 0 (lateNoted [p] s)) fun g hg =>
      by fin_cases hg <;> exact fld_raise_apart (by decide) (by decide) _ _ _
    obtain ⟨u, hu, h1, h2, h3, hrest⟩ := guard_escalated hs hst hopen hlate hu hp hn (overrun_limit hzero hst (by omega))
      ((lateNoted_to [p] s).raise (by simp)) hlimit rfl rfl
    exact ⟨u, hu, h1, h2, fun _ => h3.trans (fld_raise_self (by decide) rfl _ _), hrest⟩
  · obtain ⟨u, hu, h1, h2, -, hrest⟩ := guard_escalated hs hst hopen hlate hu hp hn (overrun_fault hzero) (lateNoted_to [p] s) hnotes rfl rfl
    exact ⟨u, hu, h1, h2, fun h => absurd h hzero, hrest⟩

theorem guard_tickLost (s : State) (hs : Released s) (hst : breathState s = 3) (hg : s.breath.guarded = false) (hlate : latePairs s ≠ [])
    (hpol : fld s F.BREATH_CTRL_overrun_policy = 0) :
    Completes .guardPoint s fun u =>
      fld u F.BREATH_EVENTS_overrun = 1 ∧ fld u F.BREATH_OVERRUN_PAIRS_pairs = (latePairs s).foldl setBitN 0
        ∧ BreathTo (fun b => { b with guarded := true }) [(.BREATH_COUNTS, 0), (.BREATH_EVENTS, 0), (.BREATH_OVERRUN_PAIRS, 0)] [] s u := by
  have he := (guardPoint_lost hst hg hlate).trans (congrArg (modBreath guardPassed) (overrun_lost hpol hst))
  obtain ⟨hevent, hpairs, -⟩ := lateNoted_notes (fun p hp => lt_of_mem_latePairs hp) s
  exact completes_released_to hs rfl he ⟨hevent, hpairs, .keepQueue _ ((lateNoted_to _ s).modBreath guardPassed)⟩

/-! ## The clauses of O34 on stretch requests -/

/-- A request forwarded for the first time. -/
def requestSeen (body : Nat) (b : BreathS) : BreathS := { b with stretches := (bitsOf body 127 112, bitsOf body 111 64) :: b.stretches }

theorem stretch_known (n : Port) (body : Nat) (s : State) (hs : Released s) (_ : n.val < 8) (hcrc : crc16Ok body = true)
    (hseen : s.breath.stretches.contains (bitsOf body 127 112, bitsOf body 111 64) = true) :
    Completes (.stretchReceive n body) s fun u => u = s := by
  have he : stretchReceive n body s = s := by rw [stretchReceive, onGoodSet, if_pos hcrc, if_pos (by rw [hseen, Bool.or_true])]
  exact completes_kept hs rfl he rfl rfl rfl

section
variable {n : Port} {body : Nat} {s : State}

theorem stretchReceive_new (hn : n.val < 8) (hcrc : crc16Ok body = true)
    (hnew : s.breath.stretches.contains (bitsOf body 127 112, bitsOf body 111 64) = false) :
    stretchReceive n body s = markHold (bitsOf body 111 64) (flood n 2 body (modBreath (requestSeen body) s)) := by
  have hne : n.val ≠ 8 := by omega
  rw [stretchReceive, onGoodSet, if_pos hcrc, if_neg (by rw [hnew]; simp [hne])]
  rfl

theorem requestFlooded_to (n body : Nat) (s : State) :
    BreathTo (requestSeen body) [] (floodOut s n 2 body) s (flood n 2 body (modBreath (requestSeen body) s)) :=
  .flood n 2 body (.modBreath _ .refl) (by simp)

end

theorem stretch_marks (n : Port) (body : Nat) (s : State) (hs : Released s) (hn : n.val < 8) (hcrc : crc16Ok body = true)
    (hrun : breathState s = 2) (hnew : s.breath.stretches.contains (bitsOf body 127 112, bitsOf body 111 64) = false)
    (hlt : tickNumber s < bitsOf body 111 64) (hh : s.breath.holds = []) (ht : s.breath.heldTicks = []) :
    Completes (.stretchReceive n body) s fun u =>
      BreathTo (fun b => { b with stretches := (bitsOf body 127 112, bitsOf body 111 64) :: b.stretches, holds := [bitsOf body 111 64] })
          [(.BREATH_STATUS, 0)] (floodOut s n 2 body) s u ∧ fld u F.BREATH_STATUS_hold_pending = 1 := by
  have hto := requestFlooded_to n body s
  have he := (stretchReceive_new hn hcrc hnew).trans (markHold_marks ((hto.fld (by simp)).trans hrun) (by rw [hto.breath]; exact hh)
    (by rw [hto.breath]; exact ht) (by rw [tickNumber, hto.fld (by simp)]; exact hlt))
  exact completes_released_to hs rfl he ⟨.keepQueue _ ((hto.mono (by simp)).trans (setHolds_to [bitsOf body 111 64] _)),
    fld_setHolds_pending [bitsOf body 111 64] _⟩

/-- The part out of step, before its record is sent (R42). -/
def desynced (s : State) : State := setBreathState bsDesync (setHolds [] (raise F.BREATH_EVENTS_stretch_late 0 s))

theorem desynced_to (s : State) :
    BreathTo (fun b => { b with holds := [] }) [(.BREATH_STATUS, 0), (.BREATH_EVENTS, 0)] [] s (desynced s) :=
  .setFld _ (.setFld _ (.modBreath _ (.raise .refl (by simp))) (by simp)) (by simp)

theorem fld_desynced (s : State) :
    breathState (desynced s) = 4 ∧ fld (desynced s) F.BREATH_EVENTS_stretch_late = 1 ∧ fld (desynced s) F.BREATH_STATUS_hold_pending = 0 := by
  refine ⟨breathState_setBreathState (by decide) _, ?_, ?_⟩
  · rw [desynced, setBreathState, fld_setFld_apart (by decide) (by decide), fld_setHolds_apart (by decide) (by decide),
      fld_raise_self (by decide) rfl]
  · rw [desynced, setBreathState, fld_setFld_apart (by decide) (by decide), fld_setHolds_pending]
    rfl

theorem faultN_of_desync {s : State} (h : breathState s = 4) : faultN s = true := by
  have hst : fld s F.BREATH_STATUS_state = 4 := h
  simp [faultN, hst]

theorem stretch_late (n : Port) (body : Nat) (s : State) (hs : Released s) (hn : n.val < 8) (hcrc : crc16Ok body = true)
    (hrun : breathState s = 2) (hnew : s.breath.stretches.contains (bitsOf body 127 112, bitsOf body 111 64) = false)
    (hle : bitsOf body 111 64 ≤ tickNumber s) (hh : s.breath.holds = []) (ht : s.breath.heldTicks = []) :
    Completes (.stretchReceive n body) s fun u =>
      breathState u = 4 ∧ fld u F.BREATH_EVENTS_stretch_late = 1 ∧ fld u F.BREATH_STATUS_hold_pending = 0 ∧ faultN u = true
        ∧ u.breath = { s.breath with stretches := (bitsOf body 127 112, bitsOf body 111 64) :: s.breath.stretches }
        ∧ MemSame s u ∧ u.pairs = s.pairs := by
  have hflood := requestFlooded_to n body s
  have he := (stretchReceive_new hn hcrc hnew).trans (markHold_late ((hflood.fld (by simp)).trans hrun) (by rw [hflood.breath]; exact hh)
    (by rw [hflood.breath]; exact ht) (by rw [tickNumber, hflood.fld (by simp)]; exact hle))
  generalize flood n 2 body (modBreath (requestSeen body) s) = v at hflood he
  obtain ⟨u, hu⟩ : ∃ u, noteFault v (sendEventOpen 0x01 5 255 (desynced v)) = u := ⟨_, rfl⟩
  have ha : Aside eventRegs [] (desynced v) u :=
    hu ▸ (sendEventOpen_aside 0x01 5 255 (desynced v)).trans ((noteFault_aside _ v).mono (by simp) (by simp))
  have hto := (hflood.mono (by simp)).trans (desynced_to v)
  obtain ⟨h1, h2, h3⟩ := fld_desynced v
  have hstate : breathState u = 4 := (ha.fld (f := F.BREATH_STATUS_state) (by decide) (by simp)).trans h1
  refine completes_released_to hs rfl (he.trans hu) ⟨hstate, ?_, ?_, faultN_of_desync hstate, ?_, hto.memSame.trans ha.memSame,
    ha.pairs.trans hto.pairs⟩
  · exact (ha.fld (f := F.BREATH_EVENTS_stretch_late) (by decide) (by simp)).trans h2
  · exact (ha.fld (f := F.BREATH_STATUS_hold_pending) (by decide) (by simp)).trans h3
  · refine ha.breath.trans (hto.breath.trans ?_)
    simp [requestSeen, hh]

/-! ## The clauses of O34 on slack and echoes -/

theorem slack_recorded (margin : Nat) (p : Pair) (s : State) (hs : Released s) (h0 : schedBreath s ≠ 0) (h256 : schedBreath s % 256 = 0) :
    Completes (.slackRecord margin p) s fun u =>
      fld u F.BREATH_SLACK_min_slack = margin % 2 ^ 32 ∧ fld u F.BREATH_SLACK_min_pair = p
        ∧ BreathTo id [(.BREATH_SLACK, 0)] [] s u := by
  have he : slackRecord margin p s = setFld F.BREATH_SLACK_min_slack 0 margin (setFld F.BREATH_SLACK_min_pair 0 p s) :=
    if_pos (by simp [h0, h256])
  refine completes_released_to hs rfl he ⟨?_, ?_, .keepQueue _ (.setFld _ (.setFld _ .refl (by simp)) (by simp))⟩
  · rw [keepQueue_fld, fld_setFld_self (by decide)]
    rfl
  · rw [keepQueue_fld, fld_setFld_apart (by decide) (by decide), fld_setFld_fits (by decide) _ p.isLt]

theorem echo_sent (n : Port) (now : Nat) (s : State) (hs : Released s) (h : echoes s n = true) :
    Completes (.echoSend n now) s fun u =>
      BreathTo id [] (setOut s n 3 (withCrc16 (deviceId s * 2 ^ 112 + n * 2 ^ 108 + now % 2 ^ 40 * 2 ^ 56))) s u :=
  completes_released_to hs rfl (if_pos h) (.keepQueue _ (.sends _ .refl))

section
variable {n : Port} {body now turn : Nat} {s : State}

/-- An ECHO or a reply on a torus port teaches nothing of the spur. -/
theorem echoReceive_torus (hn : n.val < 8) (hcrc : crc16Ok body = true) :
    echoReceive n body now turn s =
      if bitAt body 107 then
        setFld F.PORT_STATUS_hop_delay n (((now % 2 ^ 40 + 2 ^ 40 - bitsOf body 95 56) % 2 ^ 40 - bitsOf body 55 32) / 2)
          (modPort n (fun x => { x with hopValid := true }) s)
      else sendSet n 3 (withCrc16 (deviceId s * 2 ^ 112 + n * 2 ^ 108 + 2 ^ 107 + bitsOf body 95 56 * 2 ^ 56 + turn % 2 ^ 24 * 2 ^ 32)) s := by
  have hne : n.val ≠ 8 := by omega
  simp only [echoReceive, onGoodSet, if_pos hcrc, hne, decide_false, Bool.false_and, Bool.false_eq_true, if_false]

end

theorem echo_answered (n : Port) (body now turn : Nat) (s : State) (hs : Released s) (hn : n.val < 8) (hcrc : crc16Ok body = true)
    (hreply : bitAt body 107 = false) :
    Completes (.echoReceive n body now turn) s fun u =>
      BreathTo id [] (setOut s n 3 (withCrc16 (deviceId s * 2 ^ 112 + n * 2 ^ 108 + 2 ^ 107 + bitsOf body 95 56 * 2 ^ 56
        + turn % 2 ^ 24 * 2 ^ 32))) s u :=
  completes_released_to hs rfl ((echoReceive_torus hn hcrc).trans (if_neg (by simp [hreply]))) (.keepQueue _ (.sends _ .refl))

theorem echo_measured (n : Port) (body now turn : Nat) (s : State) (hs : Released s) (hn : n.val < 8) (hcrc : crc16Ok body = true)
    (hreply : bitAt body 107 = true) :
    Completes (.echoReceive n body now turn) s fun u =>
      fld u F.PORT_STATUS_hop_delay n
          = ((now % 2 ^ 40 + 2 ^ 40 - bitsOf body 95 56) % 2 ^ 40 - bitsOf body 55 32) / 2 % 2 ^ 24
        ∧ (portS u n).hopValid = true ∧ Keeps [] [(.PORT_STATUS, n.val)] s u ∧ MemSame s u ∧ u.pairs = s.pairs ∧ u.out = s.out := by
  obtain ⟨v, hv⟩ : ∃ v, modPort n (fun x => { x with hopValid := true }) s = v := ⟨_, rfl⟩
  have hport : Aside [] [(.PORT_STATUS, n.val)] s v := hv ▸ (modPort_aside n _ s).mono (by simp) (by simp)
  have hvalid : (portS v n).hopValid = true := by simp [← hv, portS, modPort]
  have hout : v.out = s.out := hv ▸ rfl
  obtain ⟨d, hd⟩ : ∃ d, ((now % 2 ^ 40 + 2 ^ 40 - bitsOf body 95 56) % 2 ^ 40 - bitsOf body 55 32) / 2 = d := ⟨_, rfl⟩
  have he := (echoReceive_torus (turn := turn) (now := now) (s := s) hn hcrc).trans (if_pos hreply)
  rw [hv, hd] at he
  have hset := hport.setFld (f := F.PORT_STATUS_hop_delay) (i := n.val) d (.inr (by simp))
  refine completes_released_to hs rfl he ⟨?_, hvalid, hset.2, hset.memSame, hset.pairs, hout⟩
  rw [hd]
  exact fld_setFld_self (by decide) _ _ _

/-- Settles O34: the guard point, the requests, the slack and the echoes, a lemma for each. -/
theorem guard : Obligations.Guard :=
  ⟨guard_noLate, guard_stretch, guard_faults, guard_tickLost, stretch_late, stretch_known, stretch_marks, slack_recorded, echo_sent,
    echo_answered, echo_measured⟩

end Sys2Proof.Machine

/-! SUPPORT. The state after reset (R10, R52, R320, R342, R368, R399, R426). -/

namespace Sys2Proof.Machine

/-- A register reads alike at every place after reset, but FORAGER_RING, whose base depends on the pair (R149). -/
theorem resetValue_eq {r : Reg} (h : r ≠ .FORAGER_RING) (i : Nat) : r.resetValue i = r.resetValue 0 := by
  unfold Reg.resetValue
  dsimp only
  split
  · exact absurd rfl h
  · rfl

/-- A field after reset, read off its register's table. -/
theorem fld_reset {f : Fld} {v : Nat} (h : f.reg ≠ .FORAGER_RING) (hv : getField f (f.reg.resetValue 0) = v) (i : Nat) :
    fld State.reset f i = v :=
  (congrArg (getField f) (resetValue_eq h i)).trans hv

theorem inReset_reset : InReset State.reset := fun _ => ⟨rfl, fun h => absurd rfl h⟩

/-- Settles O59: the fields of State.reset, and the registers by their tables. -/
theorem afterReset : Obligations.AfterReset :=
  ⟨inReset_reset, rfl, rfl, rfl, reset_memory_wf, fun _ => rfl, fun _ => rfl,
    fun n _ => ⟨fld_reset (by decide) (by decide) n, fld_reset (by decide) (by decide) n, fld_reset (by decide) (by decide) n⟩,
    fun h _ => fld_reset (by decide) (by decide) h,
    fun p _ => ⟨fld_reset (by decide) (by decide) p,
      fun i => ⟨fld_reset (by decide) (by decide) (32 * p + i), fld_reset (by decide) (by decide) (64 * p + i)⟩⟩,
    fld_reset (by decide) (by decide) 0, fld_reset (by decide) (by decide) 0, fld_reset (by decide) (by decide) 0,
    fld_reset (by decide) (by decide) 0, fld_reset (by decide) (by decide) 0, fld_reset (by decide) (by decide) 0,
    fld_reset (by decide) (by decide) 0, fld_reset (by decide) (by decide) 0⟩

end Sys2Proof.Machine

/-! SUPPORT. Sparse maps: what a run of writes leaves and what it lets a read find. -/

namespace Sys2Proof.SMap

variable {α β : Type} [DecidableEq α] {d : α} {key : β → Nat} {val : β → α} {l : List β} {k : Nat}

/-- A run of writes leaves a key that none of them names. -/
theorem get_foldl_set_ne (h : ∀ c ∈ l, key c ≠ k) (m : SMap α) :
    get d (l.foldl (fun m c => set d m (key c) (val c)) m) k = get d m k := by
  induction l generalizing m with
  | nil => rfl
  | cons c l ih =>
    rw [List.foldl_cons, ih (fun x hx => h x (List.mem_cons_of_mem _ hx)), get_set_ne (h c List.mem_cons_self).symm]

/-- A key that a run of writes names reads as v where every write of it is of v. -/
theorem get_foldl_set_of_mem {v : α} (hk : ∃ c ∈ l, key c = k) (hv : ∀ c ∈ l, key c = k → val c = v) (m : SMap α) :
    get d (l.foldl (fun m c => set d m (key c) (val c)) m) k = v := by
  induction l generalizing m with
  | nil => simp at hk
  | cons c l ih =>
    rw [List.foldl_cons]
    by_cases hl : ∃ c ∈ l, key c = k
    · exact ih hl (fun x hx => hv x (List.mem_cons_of_mem _ hx)) _
    · have hc : key c = k := by simpa [hl] using hk
      rw [get_foldl_set_ne (fun x hx e => hl ⟨x, hx, e⟩), hc, get_set_self]
      exact hv c List.mem_cons_self hc

end Sys2Proof.SMap

/-! SUPPORT. The array's own changes (R62, R67–R77, R130): what the work of its reeds and of its fold unit leaves alone. -/

namespace Sys2Proof.Machine

/-! ## Changes of one pair's array and reed queues -/

/-- A pair's units without what an array command may mark or hold for itself: poisoned rows and columns, staged tiles, held
operands, group partials, the order in which slices were used. -/
def PairS.plain (x : PairS) : PairS :=
  { x with
    array :=
      { x.array with
        rowBad := [], colBad := [], slotBad := [], lru := [], tiles := [], walkBad := 0, held := [], heldElems := [], heldBad := []
        partials := [], partialBad := [] } }

/-- From s to u the plain units of pair p have changed by g and the registers of rs, the log, the records and what is sent may
have: nothing else has. -/
structure ReedTo (rs : List Reg) (p : Nat) (g : PairS → PairS) (s u : State) : Prop where
  rest : u.apart = s.apart
  own : (pair u p).plain = g (pair s p).plain
  others : ∀ q, q ≠ p → pair u q = pair s q
  regs : Keeps rs [] s u

/-- The registers that array work writes beside the slice states: its events and error counts, the counters, the log. -/
abbrev reedRegs : List Reg :=
  .ARRAY_EVENTS :: .ARRAY_ECC :: .FORAGER_EVENTS :: .FORAGER_ECC :: .CTR_P_n :: .CTR_P_OVF :: .CTR_P_SAMPLE_LAST :: .CTR_P_SLOT_k ::
    .MEM_POISON_REC :: .MEM_EVENTS :: .RL_LOG_PTR :: .RL_EVENTS :: eventRegs

/-- The same with the slice states (R62). -/
abbrev sliceRegs : List Reg := .ARRAY_STATUS :: reedRegs

section

variable {rs rs' : List Reg} {p : Nat} {g h : PairS → PairS} {s t u : State}

theorem ReedTo.refl : ReedTo rs p id s s := ⟨rfl, rfl, fun _ _ => rfl, .refl⟩

theorem ReedTo.trans (a : ReedTo rs p g s t) (b : ReedTo rs p h t u) : ReedTo rs p (h ∘ g) s u where
  rest := b.rest.trans a.rest
  own := b.own.trans (congrArg h a.own)
  others := fun q hq => (b.others q hq).trans (a.others q hq)
  regs := a.regs.trans b.regs

/-- Work that changes no plain unit, after a change by g. -/
theorem ReedTo.then_plain (a : ReedTo rs p g s t) (b : ReedTo rs p id t u) : ReedTo rs p g s u := a.trans b

theorem ReedTo.mono (a : ReedTo rs p g s u) (hr : ∀ r ∈ rs, r ∈ rs') : ReedTo rs' p g s u :=
  { a with regs := a.regs.mono hr (by simp) }

theorem ReedTo.ite {c : Prop} [Decidable c] (a : ReedTo rs p g s t) (b : ReedTo rs p g s u) : ReedTo rs p g s (if c then t else u) := by
  split
  · exact a
  · exact b

/-- A change that leaves every unit alone, and writes only registers of rs. -/
theorem Aside.reedTo (a : Aside rs [] s u) : ReedTo rs p id s u where
  rest := congrArg (fun t : State => { t with pairs := [] }) a.1
  own := congrArg PairS.plain (a.pair p)
  others := fun q _ => a.pair q
  regs := a.2

/-- A change of the pair's own units. -/
theorem modPair_reedTo {f : PairS → PairS} (hf : ∀ x, (f x).plain = g x.plain) (s : State) : ReedTo rs p g s (modPair p f s) where
  rest := rfl
  own := by rw [pair_modPair_self, hf]
  others := fun _ hq => pair_modPair_ne f s hq
  regs := fun _ _ _ _ => rfl

theorem modArray_reedTo {f : ArrayS → ArrayS} (hf : ∀ x : PairS, ({ x with array := f x.array } : PairS).plain = g x.plain) (s : State) :
    ReedTo rs p g s (modArray p f s) := modPair_reedTo hf s

theorem foldl_reedTo {α : Type} {f : State → α → State} (hf : ∀ t a, ReedTo rs p id t (f t a)) (l : List α) (s : State) :
    ReedTo rs p id s (l.foldl f s) := by
  induction l generalizing s with
  | nil => exact .refl
  | cons a l ih => exact (hf s a).trans (ih _)

/-! ## What follows from it -/

theorem ReedTo.memSame (a : ReedTo rs p g s u) : MemSame s u :=
  ⟨fun x => (congrArg (fun t : State => byteAt t x) a.rest :), fun x => (congrArg (fun t : State => marked t x) a.rest :)⟩

theorem ReedTo.fld (a : ReedTo rs p g s u) {f : Fld} (hf : f.reg ∉ rs) (i : Nat) : fld u f i = fld s f i :=
  a.regs.fld hf (by simp)

/-- What a pair's plain units are after the change, read off any of their parts. -/
theorem ReedTo.part {β : Type} (a : ReedTo rs p g s u) (f : PairS → β) : f (pair u p).plain = f (g (pair s p).plain) :=
  congrArg f a.own

theorem ReedTo.acc (a : ReedTo rs p g s u) : (pair u p).array.acc = (g (pair s p).plain).array.acc := a.part (fun x => x.array.acc)

theorem ReedTo.queue (a : ReedTo rs p g s u) (r : Nat) : SMap.get [] (pair u p).queues r = SMap.get [] (g (pair s p).plain).queues r :=
  a.part (fun x => SMap.get [] x.queues r)

/-- Array work that keeps the array's queue leaves alone what a reed does. -/
theorem ReedTo.frame (a : ReedTo sliceRegs p g s u) (hq : ∀ x, (g x).array.queue = x.array.queue) : ReedFrame p s u :=
  ⟨a.memSame, fun _ => a.fld (by decide) _, fun _ _ => a.fld (by decide) _, a.regs _ _ (by decide) (by simp), a.others,
    (a.part (fun x => x.array.queue)).trans (hq _)⟩

/-- A command of the pair clocks that does array work completes in the state that work gives. -/
theorem completes_reedTo {c : Instr} {f : State → State} {P : State → Prop} (hs : Clocked s) (he : exec c s = .next (whenClocked f s))
    (hf : f s = u) (a : ReedTo rs p g s u) (hp : P u) : Completes c s P :=
  ⟨u, he.trans (by rw [whenClocked_self hs (hf ▸ congrArg State.inService a.rest :) (hf ▸ congrArg State.pending a.rest :), hf]), hp⟩

end

/-! ## What the array meets, counts and notes -/

section

variable (p : Nat) (s : State)

theorem raiseIf_reedTo (b : Bool) {f : Fld} (hf : f.reg ∈ reedRegs) (i : Nat) : ReedTo reedRegs p id s (raiseIf b f i s) := by
  unfold raiseIf
  exact .ite (Aside.refl.raise (.inl hf)).reedTo .refl

/-- An event or an error counted in registers of the array and its queues. -/
theorem noted_reedTo {f g : Fld} (hf : f.reg ∈ reedRegs) (hg : g.reg ∈ reedRegs) (i j n : Nat) :
    ReedTo reedRegs p id s (satAddFld g j n (raise f i s)) :=
  ((Aside.refl.raise (.inl hf)).satAddFld n (.inl hg)).reedTo

theorem count_reedTo (code n : Nat) : ReedTo reedRegs p id s (count p code n s) :=
  Aside.reedTo ((count_aside p code n s).mono (by decide) (fun k hk => .inl (by
    rcases bank_reg hk with e | e | e <;> rw [e] <;> decide)))

theorem countSlots_reedTo (k n : Nat) : ReedTo reedRegs p id s (countSlots p k n s) :=
  Aside.reedTo ((countSlots_aside p k n s).mono (by simp) (by simp))

theorem loseSlots_reedTo (k code n : Nat) : ReedTo reedRegs p id s (loseSlots p k code n s) :=
  (count_reedTo p s code n).trans (countSlots_reedTo p _ k n)

theorem escalate_reedTo (h cause pr : Nat) : ReedTo reedRegs p id s (escalate h cause pr s) :=
  Aside.reedTo ((escalate_aside h cause pr s).mono (by decide) (by simp))

theorem accEvents_reedTo (vs : List AccVal) : ReedTo reedRegs p id s (accEvents p vs s) :=
  (raiseIf_reedTo p s _ (by decide) p).trans (raiseIf_reedTo p _ _ (by decide) p)

/-- A storage error is marked where it lies, and in no plain unit. -/
theorem markErr_plain (t : State) (e : ArrayErr) (x : PairS) : ({ x with array := markErr t p e x.array } : PairS).plain = x.plain := by
  cases e with
  | accumulator bank row col =>
    simp only [markErr, accumulatorBad]
    split_ifs <;> rfl
  | corrected | staging tile k n | held reed token | turn k => rfl

theorem arrayErr_reedTo (e : ArrayErr) : ReedTo reedRegs p id s (arrayErr p e s) := by
  have hn : ReedTo reedRegs p id s (satAddFld F.ARRAY_ECC_uncorrected p 1 (raise F.ARRAY_EVENTS_ecc_uncorrected p s)) :=
    noted_reedTo p s (by decide) (by decide) p p 1
  have marks : ∀ e : ArrayErr, ReedTo reedRegs p id s (modArray p (markErr s p e)
      (satAddFld F.ARRAY_ECC_uncorrected p 1 (raise F.ARRAY_EVENTS_ecc_uncorrected p s))) := fun e =>
    hn.trans (modArray_reedTo (g := id) (markErr_plain p s e) _)
  cases e with
  | corrected => exact noted_reedTo p s (by decide) (by decide) p p 1
  | accumulator bank row col => exact marks (.accumulator bank row col)
  | staging tile k n => exact marks (.staging tile k n)
  | held reed token => exact marks (.held reed token)
  | turn k => exact marks (.turn k)

theorem entryErr_reedTo (e : EntryErr) : ReedTo reedRegs p id s (entryErr p e s) :=
  .ite (noted_reedTo p s (by decide) (by decide) p p 1) (noted_reedTo p s (by decide) (by decide) p p 1)

/-- Whatever the array meets, it loses slots and marks what was hit: no plain unit changes. -/
theorem arrayMeets_reedTo (met : ArrayMet) : ReedTo reedRegs p id s (arrayMeets p met s) :=
  (foldl_reedTo (fun t e => arrayErr_reedTo p t e) met.errs s).trans
    ((foldl_reedTo (fun t e => entryErr_reedTo p t e) met.entry _).trans
      ((loseSlots_reedTo p _ 2 0x03 met.queue).trans ((loseSlots_reedTo p _ 2 0x04 met.comb).trans
        ((loseSlots_reedTo p _ 2 0x05 met.load).trans ((loseSlots_reedTo p _ 3 0x06 met.drain).trans
          (loseSlots_reedTo p _ 3 0x07 met.spill))))))

/-! ## Accumulators (R60, R72) -/

/-- Accumulators written, each at its key. -/
def cellsInto (cells : List (Nat × AccVal)) (m : SMap Nat) : SMap Nat := cells.foldl (fun m c => SMap.set 0 m c.1 c.2.acc) m

/-- Accumulator keys of two places are alike only where the places are. -/
theorem accKey_inj {b i j c m n : Nat} (hi : i < 512) (hj : j < 64) (hm : m < 512) (hn : n < 64) :
    accKey b i j = accKey c m n ↔ b = c ∧ i = m ∧ j = n := by
  unfold accKey
  omega

theorem cellsInto_ne {cells : List (Nat × AccVal)} {k : Nat} (h : ∀ c ∈ cells, c.1 ≠ k) (m : SMap Nat) :
    SMap.get 0 (cellsInto cells m) k = SMap.get 0 m k := SMap.get_foldl_set_ne h m

/-- The cells of a run of n steps over m rows of w columns from c0 (R60). -/
def runCells (x : AccRun) (bank n m c0 w : Nat) : List (Nat × AccVal) :=
  (List.range m).flatMap (fun i => (List.range w).map (fun j =>
    (accKey bank i (c0 + j), x.cell s p n i j (SMap.get 0 (pair s p).array.acc (accKey bank i (c0 + j))))))

/-- The units of a pair whose accumulators are those of m with cells written. -/
def steppedTo (cells : List (Nat × AccVal)) (m : SMap Nat) (x : PairS) : PairS :=
  { x with array := { x.array with acc := cellsInto cells m } }

/-- A run of steps writes the accumulators of its cells; the poison it meets it marks, raises and may escalate. -/
theorem runSteps_reedTo (x : AccRun) (bank n m c0 w : Nat) :
    ReedTo reedRegs p (steppedTo (runCells p s x bank n m c0 w) (pair s p).array.acc) s (runSteps p x bank n m c0 w s) := by
  unfold runSteps
  extract_lets a cells acc' rowP colP hit rowBad colBad bad s1 s2
  have h1 : ReedTo reedRegs p (steppedTo cells (pair s p).array.acc) s s1 := modArray_reedTo (fun _ => rfl) s
  have h2 : ReedTo reedRegs p id s1 s2 := (accEvents_reedTo p s1 _).trans (raiseIf_reedTo p _ bad (by decide) p)
  exact (h1.then_plain h2).then_plain (.ite (escalate_reedTo p s2 _ _ _) .refl)

/-- A run of 16 columns of slice r changes no accumulator of another slice. -/
theorem runCells_other {x : AccRun} {bank n r c i j : Nat} (hr : r < 4) (hi : i < 512) (hj : j < 64) (h : c ≠ bank ∨ j / 16 ≠ r) :
    ∀ e ∈ runCells p s x bank n 512 (16 * r) 16, e.1 ≠ (c * 512 + i) * 64 + j := by
  intro e he hk
  simp only [runCells, List.mem_flatMap, List.mem_map, List.mem_range] at he
  obtain ⟨m, hm, w, hw, rfl⟩ := he
  obtain ⟨hb, -, hj'⟩ := (accKey_inj hm (by omega) hi hj).mp hk
  omega

/-! ## Reed queues -/

/-- The units of a pair whose reed r has consumed the head of its queue. -/
def popped (r : Nat) (x : PairS) : PairS := { x with queues := SMap.set [] x.queues r ((SMap.get [] x.queues r).drop 1) }

theorem popQueue_reedTo (r : Nat) : ReedTo reedRegs p (popped r) s (popQueue p r s) :=
  modPair_reedTo (g := popped r) (fun _ => rfl) s

theorem wasted_reedTo (r : Nat) : ReedTo reedRegs p (popped r) s (wasted p r s) :=
  (popQueue_reedTo p s r).trans (countSlots_reedTo p _ 1 1)

/-- Behind the head of a reed's queue stands the rest of it. -/
theorem get_queues_popped {r : Nat} {q : QEntry} {qs : List QEntry} {x : PairS} (h : SMap.get [] x.queues r = q :: qs) :
    SMap.get [] (popped r x).queues r = qs := by
  simp [popped, h]

end

/-! ## Slices (R62, R68) -/

theorem putBits_div_mod {w k v : Nat} (hv : v < 4) : putBits w (2 * k + 1) (2 * k) v / 4 ^ k % 4 = v := by
  have hp : (2 : Nat) ^ (2 * k) = 4 ^ k := by rw [pow_mul]; norm_num
  have hq : (2 : Nat) ^ (2 * k + 1 + 1) = 4 ^ k * 4 := by rw [pow_succ, pow_succ, hp]; ring
  have hlt : w % 4 ^ k < 4 ^ k := Nat.mod_lt _ (by positivity)
  rw [putBits, hp, hq, show 2 * k + 1 + 1 - 2 * k = 2 by omega, Nat.mod_eq_of_lt (show v < 2 ^ 2 by omega),
    show w % 4 ^ k + v * 4 ^ k + w / (4 ^ k * 4) * (4 ^ k * 4) = w % 4 ^ k + 4 ^ k * (v + 4 * (w / (4 ^ k * 4))) by ring,
    Nat.add_mul_div_left _ _ (by positivity), Nat.div_eq_of_lt hlt]
  omega

/-- The state of a slice is what was written to it. -/
theorem sliceState_setSlice_self {k v : Nat} (hk : k < 16) (hv : v < 4) (p : Nat) (s : State) : sliceState (setSlice p k v s) p k = v := by
  have hw : (2 : Nat) ^ F.ARRAY_STATUS_slice_state.width = 4 ^ k * (4 ^ (15 - k) * 4) := by
    rw [← pow_succ, ← pow_add, show k + (15 - k + 1) = 16 by omega]
    rfl
  unfold sliceState setSlice
  rw [fld_setFld_self (by decide), hw, Nat.mod_mul_right_div_self, Nat.mod_mul_left_mod, putBits_div_mod hv]

theorem setSlice_reedTo (p k v : Nat) (s : State) : ReedTo sliceRegs p id s (setSlice p k v s) :=
  (Aside.refl.setFld _ (.inl (by simp [sliceRegs]))).reedTo

theorem sliceState_of_reedTo {p : Nat} {g : PairS → PairS} {s u : State} (a : ReedTo reedRegs p g s u) (k : Nat) :
    sliceState u p k = sliceState s p k := by
  unfold sliceState
  rw [a.fld (by decide)]

/-- Drains that wait mark their slices, and change nothing else. -/
theorem markDrains_reedTo (p : Nat) (s : State) : ReedTo sliceRegs p id s (markDrains p s) := by
  unfold markDrains
  refine foldl_reedTo (fun t i => ?_) _ s
  split
  · exact .refl
  · exact .ite .refl (foldl_reedTo (fun u k => setSlice_reedTo p k _ u) _ t)

/-- The units of a pair whose slice k holds the block-column v - 1, none where v is 0. -/
def boundTo (k v : Nat) (x : PairS) : PairS := { x with array := { x.array with bind := SMap.set 0 x.array.bind k v } }

theorem get_bind_boundTo (k v : Nat) (x : PairS) : SMap.get 0 (boundTo k v x).array.bind k = v := SMap.get_set_self

theorem bindSlice_reedTo (p k nb : Nat) (s : State) : ReedTo sliceRegs p (boundTo k (nb + 1)) s (bindSlice p k nb s) :=
  (modArray_reedTo (fun _ => rfl) s).trans (setSlice_reedTo p k _ _)

theorem unbind_reedTo (p k : Nat) (s : State) : ReedTo sliceRegs p (boundTo k 0) s (unbind p k s) := modArray_reedTo (fun _ => rfl) s

theorem poisonSlice_reedTo (rs : List Reg) (p bank r : Nat) (s : State) : ReedTo rs p id s (poisonSlice p bank r s) :=
  modArray_reedTo (fun _ => rfl) s

/-- The units of a pair with one drain more. -/
def drainedTo (d : DrainOp) (x : PairS) : PairS := { x with array := { x.array with drains := x.array.drains ++ [d] } }

/-- A slice that closes within the comb is bound no longer, and its drain is the last of the drain queue. -/
theorem closeSlice_reedTo {o : UnitOp} {r bank nb : Nat} (hend : closeEnd (closeDrain o bank r nb) ≤ combBytes) (p : Nat) (s : State) :
    ReedTo sliceRegs p (drainedTo (closeDrain o bank r nb) ∘ boundTo (4 * bank + r) 0) s (closeSlice p o r bank nb s) := by
  unfold closeSlice
  extract_lets d s1 s2
  have h1 : ReedTo sliceRegs p (boundTo (4 * bank + r) 0) s s1 := (unbind_reedTo p _ s).trans (setSlice_reedTo p _ _ _)
  have h2 : ReedTo sliceRegs p id s1 s2 := .ite (poisonSlice_reedTo _ p bank r s1) .refl
  rw [if_neg (Nat.not_lt.mpr hend)]
  exact (h1.trans h2).trans ((modArray_reedTo (g := drainedTo d) (fun _ => rfl) s2).trans (markDrains_reedTo p _))

/-! ## Taking a slice (R68) -/

/-- A block-column that no slice holds and no spill keeps takes the FREE slice. -/
theorem takeColumn_free {s : State} {p r nb b : Nat} (hb : boundBank s p r nb = none) (hs : spillOf s p r nb = none)
    (hf : freeBank s p r = some b) : takeColumn p r nb s = .got b (bindSlice p (4 * b + r) nb s) := by
  simp only [takeColumn, takeFree, hb, hf, hs]

/-- One that a slice holds keeps it. -/
theorem takeColumn_bound {s : State} {p r nb b : Nat} (hb : boundBank s p r nb = some b) :
    takeColumn p r nb s = .got b (modArray p (touch (4 * b + r)) s) := by
  simp only [takeColumn, hb]

theorem lt_of_freeBank {s : State} {p r b : Nat} (h : freeBank s p r = some b) : b < 4 :=
  List.mem_range.mp (List.mem_of_find?_eq_some h)

/-! ## The head of the array's queue (R64, R192) -/

section

variable {p cls op m : Nat} {o : UnitOp} {rest : List UnitOp} {s : State}

/-- With no drain before it, an instruction that stands in its mode is ready. -/
theorem headReady_atHead (h : AtHead p cls op m o rest s) (hm : opMode o.word = some m) : headReady s p cls op = some o := by
  obtain ⟨-, hq, hc, ho, hmode, hd, -⟩ := h
  simp only [headReady, hq, hm, hmode, hd, drainAhead, wCls, wOp, hc, ho, decide_true, List.any_nil, Bool.not_false,
    Bool.and_self, if_true]

/-- Another operation than the head's is not ready. -/
theorem headReady_other_atHead (h : AtHead p cls op m o rest s) {op' : Nat} (hne : op ≠ op') : headReady s p cls op' = none := by
  obtain ⟨-, hq, -, ho, -, -, -⟩ := h
  simp only [headReady, hq, wOp, ho, hne, decide_false, Bool.and_false, Bool.false_and, Bool.false_eq_true, if_false]

theorem opMode_dense {op : Nat} (hc : wbits o.word 3 0 = 1) (ho : wbits o.word 9 4 = op) (h : op = 1 ∨ op = 2) : opMode o.word = some op := by
  simp only [opMode, wCls, wOp, hc, ho]
  rcases h with rfl | rfl <;> rfl

theorem bitAt_eq_false_of_wbits {w k : Nat} (h : wbits w k k = 0) : bitAt w k = false := by
  simp only [bitsOf, Nat.add_sub_cancel_left, pow_one] at h
  simp [bitAt, h]

/-- A queue-mode SPLIT at the head is what a reed that has not consumed its END works on. -/
theorem splitHead_atHead (h : AtHead p 1 1 1 o rest s) (hw : wbits o.word 10 10 = 0) {r : Nat}
    (he : bitAt (pair s p).array.ended r = false) : splitHead s p r = some o := by
  simp only [splitHead, headReady_atHead h (opMode_dense h.cls h.op (.inl rfl)), bitAt_eq_false_of_wbits hw, he, Bool.or_self,
    Bool.false_eq_true, if_false]

theorem splitHead_none_atHead (h : AtHead p 1 2 2 o rest s) (r : Nat) : splitHead s p r = none := by
  simp only [splitHead, headReady_other_atHead h (show 2 ≠ 1 by decide)]

theorem bprodHead_atHead (h : AtHead p 1 2 2 o rest s) {r : Nat} (he : bitAt (pair s p).array.ended r = false) :
    bprodHead s p r = some o := by
  simp only [bprodHead, headReady_atHead h (opMode_dense h.cls h.op (.inr rfl)), he, Bool.false_eq_true, if_false]

end

end Sys2Proof.Machine

/-! SUPPORT. What each entry of a reed's queue does (R67, R68, R71, R72, R130), and the folds. -/

namespace Sys2Proof.Machine

/-! ## The work of an entry -/

section

variable (p : Nat) (s : State)

/-- A BLOCK's steps write accumulators of its reed's slice in one bank, and no others (R67). -/
theorem blockSteps_reedTo (o : UnitOp) {r : Nat} (hr : r < 4) (bank : Nat) (q : QEntry) :
    ∃ cells, (∀ c i j, i < 512 → j < 64 → (c ≠ bank ∨ j / 16 ≠ r) → ∀ e ∈ cells, e.1 ≠ (c * 512 + i) * 64 + j)
      ∧ ReedTo reedRegs p (steppedTo cells (pair s p).array.acc) s (blockSteps p o r bank q s) := by
  unfold blockSteps
  extract_lets w fc fr n x
  exact ⟨runCells p s x bank n 512 (16 * r) 16, fun c i j hi hj h => runCells_other p s hr hi hj h,
    ((runSteps_reedTo p s x bank n 512 (16 * r) 16).then_plain (count_reedTo p _ _ _)).then_plain (countSlots_reedTo p _ _ _)⟩

theorem poisonWalk_reedTo (o : UnitOp) (r : Nat) : ReedTo reedRegs p id s (poisonWalk p o r s) := by
  unfold poisonWalk
  refine (modArray_reedTo (g := id) (fun _ => rfl) s).trans (foldl_reedTo (fun t d => ?_) _ _)
  exact poisonSlice_reedTo _ p d.bank r t

theorem poisonTasks_reedTo (o : UnitOp) (r : Nat) : ReedTo reedRegs p id s (poisonTasks p o r s) :=
  modArray_reedTo (g := id) (fun _ => rfl) s

theorem noteOfflineRange_reedTo (a n requester : Nat) (isRead : Bool) : ReedTo reedRegs p id s (noteOfflineRange a n requester isRead s) :=
  Aside.reedTo ((noteOfflineRange_aside a n requester isRead s).mono (by decide) (by simp))

/-- The held operand is loaded into the held store alone, what it reads offline noted (R73, R189). -/
theorem loadHeld_reedTo (o : UnitOp) (r x : Nat) (remote : List Nat) (bad : Bool) :
    ReedTo reedRegs p id s (loadHeld p o r x remote bad s) := by
  unfold loadHeld
  split
  · exact .refl
  · extract_lets w fmt es s1
    have h1 : ReedTo reedRegs p id s s1 := by
      unfold s1
      split
      · exact noteOfflineRange_reedTo p s _ _ 0 true
      · exact .refl
    exact h1.trans (modArray_reedTo (g := id) (fun _ => rfl) s1)

/-- Group partials and their marks are no plain unit. -/
theorem partials_reedTo {f : ArrayS → ArrayS} (hf : ∀ a, ∃ m b, f a = { a with partials := m, partialBad := b }) :
    ReedTo reedRegs p id s (modArray p f s) := by
  refine modArray_reedTo (g := id) (fun x => ?_) s
  obtain ⟨m, b, h⟩ := hf x.array
  rw [h]
  rfl

/-- The steps of a task leave group partials, no accumulators (R71). -/
theorem taskSteps_reedTo (o : UnitOp) (r phase kb nb : Nat) (turn : List Nat) : ReedTo reedRegs p id s (taskSteps p o r phase kb nb turn s) := by
  unfold taskSteps
  extract_lets w fc fr t tokens base hold xe ye cell id' cells rowP colP bad s1 s2
  have h1 : ReedTo reedRegs p id s s1 := partials_reedTo p s (fun _ => ⟨_, _, rfl⟩)
  have h2 : ReedTo reedRegs p id s1 s2 := (accEvents_reedTo p s1 _).trans (raiseIf_reedTo p _ bad (by decide) p)
  exact (h1.then_plain h2).then_plain (.ite (escalate_reedTo p s2 _ _ _) .refl)

/-- The units of a pair whose reed r has consumed its END. -/
def endedBy (r : Nat) (x : PairS) : PairS := { x with array := { x.array with ended := setBitN x.array.ended r } }

theorem endReed_reedTo (r : Nat) : ReedTo reedRegs p (popped r ∘ endedBy r) s (endReed p r s) :=
  (modArray_reedTo (g := endedBy r) (fun _ => rfl) s).trans (wasted_reedTo p _ r)

end

/-! ## Entries of a queue-mode SPLIT -/

section

variable {p r : Nat} {o : UnitOp} {q : QEntry} {qs : List QEntry} {s : State} {met : ArrayMet}

/-- The BLOCK entry as its steps take it: poisoned by an uncorrectable error of its own (R147). -/
def metEntry (met : ArrayMet) (q : QEntry) : QEntry := { q with poison := q.poison || entryBad met }

/-- A BLOCK within its panel, of a block-column that no slice holds and no spill keeps, is stepped into the FREE slice. -/
theorem reedBlock_free {b : Nat} (ho : splitHead s p r = some o) (hq : reedQueue (pair s p) r = q :: qs) (hk : q.kind = 0)
    (hw : q.width = widthCode (wbits o.word 31 28)) (hl : q.last = false)
    (hin : (q.kb + 1) * (16 / slotElems (wbits o.word 31 28)) ≤ (splitPanel o r).2)
    (hb : boundBank s p r q.nb = none) (hs : spillOf s p r q.nb = none) (hf : freeBank s p r = some b) :
    reedBlock p r met s
      = blockSteps p o r b (metEntry met q) (popQueue p r (arrayMeets p met (bindSlice p (4 * b + r) q.nb s))) := by
  simp only [reedBlock, ho, hq, hk, hw, hl, ne_eq, not_true_eq_false, if_false, Bool.false_and, Bool.false_eq_true,
    Nat.not_lt.mpr hin, takeColumn_free hb hs hf, metEntry]

/-- A CLOSE of a block-column that a slice holds closes the slice, where the drain queue has room. -/
theorem reedClose_bound {b : Nat} (ho : splitHead s p r = some o) (hq : reedQueue (pair s p) r = q :: qs) (hk : q.kind = 1)
    (hroom : drainRoom s p = true) (hb : boundBank s p r q.nb = some b) :
    reedClose p r met s = wasted p r (arrayMeets p met (closeSlice p o r b q.nb (modArray p (touch (4 * b + r)) s))) := by
  simp only [reedClose, ho, hq, hk, ne_eq, not_true_eq_false, if_false, hroom, Bool.not_true, Bool.false_eq_true, closeColumn,
    takeColumn_bound hb]

/-- In block-product mode a CLOSE is only consumed. -/
theorem reedClose_bprod (hs : splitHead s p r = none) (ho : bprodHead s p r = some o) (hq : reedQueue (pair s p) r = q :: qs)
    (hk : q.kind = 1) : reedClose p r met s = wasted p r (arrayMeets p met s) := by
  simp only [reedClose, hs, ho, hq, hk, ne_eq, not_true_eq_false, if_false, Option.isSome_some, if_true]

/-- What an END of a BPROD does before the reed ends. -/
theorem reedEnd_bprod (hs : splitHead s p r = none) (ho : bprodHead s p r = some o) (hq : reedQueue (pair s p) r = q :: qs)
    (hk : q.kind = 2) :
    reedEnd p r met s
      = endReed p r (if q.poison then poisonTasks p o r (arrayMeets p met s) else arrayMeets p met s) := by
  simp only [reedEnd, hs, ho, hq, hk, ne_eq, not_true_eq_false, if_false]

/-- The block-columns a reed holds are read off its plain units. -/
theorem openColumns_of_reedTo {rs : List Reg} {u : State} (a : ReedTo rs p id s u) (r : Nat) : openColumns u p r = openColumns s p r := by
  have hb : (pair u p).array.bind = (pair s p).array.bind := a.part (fun x => x.array.bind)
  have hs : (pair u p).array.spills = (pair s p).array.spills := a.part (fun x => x.array.spills)
  simp only [openColumns, hb, hs]

/-- An END of a SPLIT whose reed holds nothing open ends the reed. -/
theorem reedEnd_split (ho : splitHead s p r = some o) (hq : reedQueue (pair s p) r = q :: qs) (hk : q.kind = 2)
    (hopen : openColumns s p r = []) (hst : seqState s p ≠ 6) :
    reedEnd p r met s
      = endReed p r (if q.poison then poisonWalk p o r (arrayMeets p met s) else arrayMeets p met s) := by
  obtain ⟨t, ht⟩ : ∃ t, (if q.poison then poisonWalk p o r (arrayMeets p met s) else arrayMeets p met s) = t := ⟨_, rfl⟩
  have a : ReedTo reedRegs p id s t := ht ▸ (arrayMeets_reedTo p s met).trans (.ite (poisonWalk_reedTo p _ o r) .refl)
  have hopen' : openColumns t p r = [] := (openColumns_of_reedTo a r).trans hopen
  have hst' : seqState t p ≠ 6 := by
    unfold seqState
    rwa [a.fld (by decide)]
  simp only [reedEnd, ho, hq, hk, ne_eq, not_true_eq_false, if_false, ht, hopen', closeAll, hst', Bool.true_and, decide_not,
    decide_false, Bool.not_false, if_true]

end

/-! ## The clauses of O13 -/

section

variable {p : Pair} {r : Reed} {o : UnitOp} {rest : List UnitOp} {q : QEntry} {qs : List QEntry} {met : ArrayMet} {s : State}

theorem reed_block {b : Nat} (h : AtHead p 1 1 1 o rest s) (hw : wbits o.word 10 10 = 0) (he : bitAt (pair s p).array.ended r = false)
    (hq : ReedAt p r q qs s) (hk : q.kind = 0) (hwidth : q.width = widthCode (wbits o.word 31 28)) (hl : q.last = false)
    (hin : (q.kb + 1) * (16 / slotElems (wbits o.word 31 28)) ≤ (splitPanel o r).2)
    (hb : boundBank s p r q.nb = none) (hs : spillOf s p r q.nb = none) (hf : freeBank s p r = some b) :
    Completes (.reedBlock p r met) s fun u =>
      SMap.get [] (pair u p).queues r = qs ∧ sliceState u p (4 * b + r) = 1
        ∧ SMap.get 0 (pair u p).array.bind (4 * b + r) = q.nb + 1 ∧ ReedFrame p s u
        ∧ ∀ c < 4, ∀ i < 512, ∀ j < 64, (c ≠ b ∨ j / 16 ≠ r.val) →
            SMap.get 0 (pair u p).array.acc ((c * 512 + i) * 64 + j) = SMap.get 0 (pair s p).array.acc ((c * 512 + i) * 64 + j) := by
  obtain ⟨t, ht⟩ : ∃ t, bindSlice p (4 * b + r) q.nb s = t := ⟨_, rfl⟩
  have hbound : ReedTo sliceRegs p (boundTo (4 * b + r) (q.nb + 1)) s t := ht ▸ bindSlice_reedTo p _ _ s
  have hslice : sliceState t p (4 * b + r) = 1 := by
    have := lt_of_freeBank hf
    have := r.isLt
    exact ht ▸ sliceState_setSlice_self (by omega) (by decide) p _
  have hpop := (arrayMeets_reedTo p t met).trans (popQueue_reedTo p _ r)
  obtain ⟨cells, hother, hstep⟩ := blockSteps_reedTo p (popQueue p r (arrayMeets p met t)) o r.isLt b (metEntry met q)
  have hwork := hpop.trans hstep
  have hall := hbound.trans (hwork.mono (by decide))
  have hblock := reedBlock_free (met := met) (splitHead_atHead h hw he) hq hk hwidth hl hin hb hs hf
  rw [ht] at hblock
  refine completes_reedTo h.clocked rfl hblock hall
    ⟨(hall.queue r).trans (get_queues_popped hq),
      (sliceState_of_reedTo hwork _).trans hslice,
      (hall.part (fun x => SMap.get 0 x.array.bind (4 * b + r))).trans (get_bind_boundTo _ (q.nb + 1) (pair s p).plain),
      hall.frame (fun _ => rfl), fun c hc i hi j hj hne => ?_⟩
  have hacc := (hbound.trans (hpop.mono (rs' := sliceRegs) (by decide))).part (fun x => x.array.acc)
  refine (hall.part (fun x => SMap.get 0 x.array.acc ((c * 512 + i) * 64 + j))).trans ?_
  exact (cellsInto_ne (hother c i j hi hj hne) _).trans (congrArg (fun m => SMap.get 0 m ((c * 512 + i) * 64 + j)) hacc)

theorem reed_close {b : Nat} (h : AtHead p 1 1 1 o rest s) (hw : wbits o.word 10 10 = 0) (he : bitAt (pair s p).array.ended r = false)
    (hq : ReedAt p r q qs s) (hk : q.kind = 1) (hb : boundBank s p r q.nb = some b) (hend : closeEnd (closeDrain o b r q.nb) ≤ combBytes) :
    Completes (.reedClose p r met) s fun u =>
      SMap.get [] (pair u p).queues r = qs ∧ SMap.get 0 (pair u p).array.bind (4 * b + r) = 0
        ∧ (∃ d : DrainOp, (pair u p).array.drains = [d] ∧ d.bank = b ∧ d.smask = 2 ^ r.val ∧ d.owner = o.seq
            ∧ d.fmt = wbits o.word 89 86)
        ∧ ReedFrame p s u ∧ (pair u p).array.acc = (pair s p).array.acc := by
  have hroom : drainRoom s p = true := by simp [drainRoom, h.drains]
  have htouch : ReedTo sliceRegs p id s (modArray p (touch (4 * b + r)) s) := modArray_reedTo (fun _ => rfl) s
  have hall := (htouch.trans (closeSlice_reedTo hend p _)).trans
    (((arrayMeets_reedTo p _ met).trans (wasted_reedTo p _ r)).mono (rs' := sliceRegs) (by decide))
  refine completes_reedTo h.clocked rfl (reedClose_bound (splitHead_atHead h hw he) hq hk hroom hb) hall
    ⟨(hall.queue r).trans (get_queues_popped hq),
      (hall.part (fun x => SMap.get 0 x.array.bind (4 * b + r))).trans (get_bind_boundTo _ 0 (pair s p).plain),
      ⟨closeDrain o b r q.nb, (hall.part (fun x => x.array.drains)).trans ?_, rfl, rfl, rfl, rfl⟩,
      hall.frame (fun _ => rfl), hall.acc⟩
  exact congrArg (· ++ [closeDrain o b r q.nb]) h.drains

theorem reed_consumes {k : Nat} (h : AtHead p 1 2 2 o rest s) (he : bitAt (pair s p).array.ended r = false) (hq : ReedAt p r q qs s)
    (hk : q.kind = k) (hk12 : k = 1 ∨ k = 2) :
    Completes (if k = 1 then .reedClose p r met else .reedEnd p r met) s fun u =>
      SMap.get [] (pair u p).queues r = qs ∧ ReedFrame p s u ∧ (pair u p).array.acc = (pair s p).array.acc
        ∧ (pair u p).array.ended = if k = 2 then setBitN (pair s p).array.ended r else (pair s p).array.ended := by
  have hmeets := arrayMeets_reedTo p s met
  rcases hk12 with rfl | rfl
  · have hall := (hmeets.trans (wasted_reedTo p _ r)).mono (rs' := sliceRegs) (by decide)
    exact completes_reedTo h.clocked rfl (reedClose_bprod (splitHead_none_atHead h r) (bprodHead_atHead h he) hq hk) hall
      ⟨(hall.queue r).trans (get_queues_popped hq), hall.frame (fun _ => rfl),
        hall.acc, hall.part (fun x => x.array.ended)⟩
  · have hpoison : ReedTo reedRegs p id s (if q.poison then poisonTasks p o r (arrayMeets p met s) else arrayMeets p met s) :=
      .ite (hmeets.trans (poisonTasks_reedTo p _ o r)) hmeets
    have hall := (hpoison.trans (endReed_reedTo p _ r)).mono (rs' := sliceRegs) (by decide)
    exact completes_reedTo h.clocked rfl (reedEnd_bprod (splitHead_none_atHead h r) (bprodHead_atHead h he) hq hk) hall
      ⟨(hall.queue r).trans (get_queues_popped hq), hall.frame (fun _ => rfl),
        hall.acc, hall.part (fun x => x.array.ended)⟩

theorem reed_end (h : AtHead p 1 1 1 o rest s) (hw : wbits o.word 10 10 = 0) (he : bitAt (pair s p).array.ended r = false)
    (hq : ReedAt p r q qs s) (hk : q.kind = 2) (hopen : openColumns s p r = []) (hst : seqState s p ≠ 6) :
    Completes (.reedEnd p r met) s fun u =>
      SMap.get [] (pair u p).queues r = qs ∧ (pair u p).array.ended = setBitN (pair s p).array.ended r ∧ ReedFrame p s u
        ∧ (pair u p).array.acc = (pair s p).array.acc := by
  have hmeets := arrayMeets_reedTo p s met
  have hpoison : ReedTo reedRegs p id s (if q.poison then poisonWalk p o r (arrayMeets p met s) else arrayMeets p met s) :=
    .ite (hmeets.trans (poisonWalk_reedTo p _ o r)) hmeets
  have hall := (hpoison.trans (endReed_reedTo p _ r)).mono (rs' := sliceRegs) (by decide)
  exact completes_reedTo h.clocked rfl (reedEnd_split (splitHead_atHead h hw he) hq hk hopen hst) hall
    ⟨(hall.queue r).trans (get_queues_popped hq), hall.part (fun x => x.array.ended),
      hall.frame (fun _ => rfl), hall.acc⟩

end

/-- Settles O13: a BLOCK into a FREE slice, a CLOSE of a bound block-column, what a BPROD consumes, an END. -/
theorem reedEntries : Obligations.ReedEntries :=
  ⟨fun _ _ _ _ _ _ _ _ _ h hw he hq hk hwidth hl hin hb hs hf => reed_block h hw he hq hk hwidth hl hin hb hs hf,
    fun _ _ _ _ _ _ _ _ _ h hw he hq hk hb hend => reed_close h hw he hq hk hb hend,
    fun _ _ _ _ _ _ _ _ _ h he hq hk hk12 => reed_consumes h he hq hk hk12,
    fun _ _ _ _ _ _ _ _ h hw he hq hk hopen hst => reed_end h hw he hq hk hopen hst⟩

/-! ## Block tasks (R71, R72, R189) -/

/-- The units of a pair whose reed r has taken its task number i. -/
def taskTaken (r i : Nat) (x : PairS) : PairS := { x with array := { x.array with tasks := SMap.set 0 x.array.tasks r (i + 1) } }

theorem get_tasks_taskTaken (r i : Nat) (x : PairS) : SMap.get 0 (taskTaken r i x).array.tasks r = i + 1 := by
  simp [taskTaken]

/-- The units of a pair with one fold more in flight. -/
def foldBegun (f : Nat × Nat) (x : PairS) : PairS := { x with array := { x.array with folds := x.array.folds ++ [f] } }

section

variable {p r : Nat} {o : UnitOp} {q : QEntry} {qs : List QEntry} {s : State} {met : ArrayMet}

/-- The streamed index of a task: the side that the held store does not hold (R189). -/
def streamed (s : State) (p : Nat) (q : QEntry) : Nat := if fldB s F.ARRAY_CTRL_bp_hold p then q.nb else q.kb

/-- Slots of a panel that a block of its elements takes. -/
def blockSlots (o : UnitOp) : Nat := 16 / slotElems (wbits o.word 27 24)

/-- Cycles that a task's steps take its reed. -/
def taskCycles (o : UnitOp) : Nat := bprodTokens o.word / (32 * slotElems (wbits o.word 27 24))

/-- The block slot and the set of partials of the next task of reed r: it takes the slots in order from its BPROD's, the sets in turn. -/
def taskSlot (s : State) (p r : Nat) (o : UnitOp) : Nat := (wbits o.word 41 36 + SMap.get 0 (pair s p).array.tasks r) % 64
def taskPhase (s : State) (p r : Nat) : Nat := SMap.get 0 (pair s p).array.tasks r % 2

/-- A TASK taken from its queue: the first of a walk pays for the front of the reed. -/
def taskPopped (p r : Nat) (o : UnitOp) (s : State) : State :=
  let i := SMap.get 0 (pair s p).array.tasks r
  let t := modArray p (fun a => { a with tasks := SMap.set 0 a.tasks r (i + 1) }) (popQueue p r s)
  if i = 0 then loseSlots p 2 0x05 (blockSlots o) t else t

theorem taskPopped_reedTo (p r : Nat) (o : UnitOp) (s : State) :
    ReedTo reedRegs p (taskTaken r (SMap.get 0 (pair s p).array.tasks r) ∘ popped r) s (taskPopped p r o s) := by
  unfold taskPopped
  extract_lets i t
  have h : ReedTo reedRegs p (taskTaken r i ∘ popped r) s t :=
    (popQueue_reedTo p s r).trans (modArray_reedTo (g := taskTaken r i) (fun _ => rfl) _)
  exact .ite (h.then_plain (loseSlots_reedTo p t _ _ _)) h

/-- What a TASK whose steps lie within its panel leaves before its fold: its held operand loaded, its group partials made. -/
def taskWork (p r : Nat) (o : UnitOp) (q : QEntry) (remote : List Nat) (bad : Bool) (met : ArrayMet) (s : State) : State :=
  taskSteps p o r (taskPhase s p r) q.kb q.nb (turnedBad met)
    (arrayMeets p met (loadHeld p o r (if fldB s F.ARRAY_CTRL_bp_hold p then q.kb else q.nb) remote bad (taskPopped p r o s)))

theorem taskWork_reedTo (p r : Nat) (o : UnitOp) (q : QEntry) (remote : List Nat) (bad : Bool) (met : ArrayMet) (s : State) :
    ReedTo reedRegs p (taskTaken r (SMap.get 0 (pair s p).array.tasks r) ∘ popped r) s (taskWork p r o q remote bad met s) :=
  (((taskPopped_reedTo p r o s).then_plain (loadHeld_reedTo p _ o r _ remote bad)).then_plain (arrayMeets_reedTo p _ met)).then_plain
    (taskSteps_reedTo p _ o r _ q.kb q.nb (turnedBad met))

/-- A fold queued behind those in flight. -/
def beginFold (p : Nat) (f : Nat × Nat) (s : State) : State := modArray p (fun a => { a with folds := a.folds ++ [f] }) s

theorem beginFold_reedTo (p : Nat) (f : Nat × Nat) (s : State) : ReedTo reedRegs p (foldBegun f) s (beginFold p f s) :=
  modArray_reedTo (fun _ => rfl) s

/-- A TASK within its panel whose slot is empty: its work, and its fold begun. -/
theorem reedTask_within {remote : List Nat} {bad : Bool} (ho : bprodHead s p r = some o) (hq : reedQueue (pair s p) r = q :: qs)
    (hk : q.kind = 3) (hfull : SMap.get false (pair s p).array.slotFull (r * 64 + taskSlot s p r o) = false)
    (hfolds : (pair s p).array.folds = []) (hin : (streamed s p q + 1) * blockSlots o ≤ bitsOf (nth 0 o.vals 0) 45 32) :
    reedTask p r remote bad met s
      = countSlots p 0 (taskCycles o)
          (beginFold p (r * 2 + taskPhase s p r, taskSlot s p r o) (taskWork p r o q remote bad met s)) := by
  unfold taskSlot at hfull
  unfold streamed blockSlots at hin
  simp only [reedTask, ho, hq, hk, ne_eq, not_true_eq_false, if_false, hfull, hfolds, List.any_nil, Bool.or_self, Bool.false_eq_true,
    gt_iff_lt, Nat.not_lt.mpr hin]
  rfl

end

theorem reed_task {p : Pair} {r : Reed} {o : UnitOp} {rest : List UnitOp} {q : QEntry} {qs : List QEntry} {remote : List Nat} {bad : Bool}
    {met : ArrayMet} {s : State} (h : AtHead p 1 2 2 o rest s) (he : bitAt (pair s p).array.ended r = false) (hq : ReedAt p r q qs s)
    (hk : q.kind = 3)
    (hfull : SMap.get false (pair s p).array.slotFull (r * 64 + (wbits o.word 41 36 + SMap.get 0 (pair s p).array.tasks r) % 64) = false)
    (hfolds : (pair s p).array.folds = [])
    (hin : ((if fldB s F.ARRAY_CTRL_bp_hold p then q.nb else q.kb) + 1) * (16 / slotElems (wbits o.word 27 24))
      ≤ bitsOf (nth 0 o.vals 0) 45 32) :
    Completes (.reedTask p r remote bad met) s fun u =>
      SMap.get [] (pair u p).queues r = qs ∧ SMap.get 0 (pair u p).array.tasks r = SMap.get 0 (pair s p).array.tasks r + 1
        ∧ (pair u p).array.folds
          = [(r * 2 + SMap.get 0 (pair s p).array.tasks r % 2, (wbits o.word 41 36 + SMap.get 0 (pair s p).array.tasks r) % 64)]
        ∧ (pair u p).array.acc = (pair s p).array.acc ∧ ReedFrame p s u := by
  have hall := (((taskWork_reedTo p r o q remote bad met s).trans (beginFold_reedTo p (r * 2 + taskPhase s p r, taskSlot s p r o) _)).then_plain
    (countSlots_reedTo p _ 0 (taskCycles o))).mono (rs' := sliceRegs) (by decide)
  exact completes_reedTo h.clocked rfl (reedTask_within (bprodHead_atHead h he) hq hk hfull hfolds hin) hall
    ⟨(hall.queue r).trans (get_queues_popped hq),
      (hall.part (fun x => SMap.get 0 x.array.tasks r)).trans (get_tasks_taskTaken r _ (pair s p).plain),
      (hall.part (fun x => x.array.folds)).trans (congrArg (· ++ [(r * 2 + taskPhase s p r, taskSlot s p r o)]) hfolds),
      hall.acc, hall.frame (fun _ => rfl)⟩

/-! ## Folds (R72) -/

/-- The group partial g of a task at row k and column n. -/
def groupPartial (m : SMap Nat) (id k n g : Nat) : Nat := SMap.get 0 m (id * 8192 + g * 256 + k * 16 + n)

/-- What a fold makes of the 32 group partials at row k and column n. -/
def foldVal (m : SMap Nat) (id k n : Nat) : AccVal :=
  (List.range 31).foldl (fun v g => v.next (add32 v.acc (groupPartial m id k n (g + 1)))) { acc := groupPartial m id k n 0 }

/-- The accumulators that a fold writes: the 256 of its block slot. -/
def foldCells (m : SMap Nat) (id slot : Nat) : List (Nat × AccVal) :=
  (List.range 16).flatMap (fun k => (List.range 16).map (fun n =>
    (accKey (2 + slot / 32) (16 * (slot % 32) + k) (16 * (id / 2) + n), foldVal m id k n)))

/-- An accumulator that takes a run of values holds what the run of the values gives. -/
theorem acc_foldl_next (f : Nat → Nat → Nat) (l : List Nat) (a : AccVal) :
    (l.foldl (fun v g => v.next (f v.acc g)) a).acc = l.foldl f a.acc := by
  induction l generalizing a with
  | nil => rfl
  | cons g l ih => exact ih _

theorem acc_foldVal (m : SMap Nat) (id k n : Nat) : (foldVal m id k n).acc = foldSum m id k n := by
  unfold foldVal foldSum
  rw [acc_foldl_next (fun v g => add32 v (groupPartial m id k n (g + 1)))]
  simp only [groupPartial, Nat.zero_mul, Nat.add_zero]

theorem mem_foldCells {m : SMap Nat} {id slot : Nat} {c : Nat × AccVal} : c ∈ foldCells m id slot ↔
    ∃ k < 16, ∃ n < 16, (accKey (2 + slot / 32) (16 * (slot % 32) + k) (16 * (id / 2) + n), foldVal m id k n) = c := by
  simp only [foldCells, List.mem_flatMap, List.mem_map, List.mem_range]

/-- Each accumulator of the block slot takes its sum. -/
theorem cellsInto_foldCells {id slot k n : Nat} (hid : id < 8) (hk : k < 16) (hn : n < 16) (m a : SMap Nat) :
    SMap.get 0 (cellsInto (foldCells m id slot) a) (((2 + slot / 32) * 512 + 16 * (slot % 32) + k) * 64 + (16 * (id / 2) + n))
      = foldSum m id k n := by
  have hkey : ((2 + slot / 32) * 512 + 16 * (slot % 32) + k) * 64 + (16 * (id / 2) + n)
      = accKey (2 + slot / 32) (16 * (slot % 32) + k) (16 * (id / 2) + n) := by
    unfold accKey
    omega
  rw [hkey]
  refine SMap.get_foldl_set_of_mem ⟨_, mem_foldCells.mpr ⟨k, hk, n, hn, rfl⟩, rfl⟩ (fun c hc he => ?_) a
  obtain ⟨k', hk', n', hn', rfl⟩ := mem_foldCells.mp hc
  obtain ⟨-, h1, h2⟩ := (accKey_inj (by omega) (by omega) (by omega) (by omega)).mp he
  obtain rfl : k' = k := by omega
  obtain rfl : n' = n := by omega
  exact acc_foldVal m id k' n'

/-- A fold writes no accumulator beyond its block slot. -/
theorem foldCells_other {m : SMap Nat} {id slot b i j : Nat} (hid : id < 8) (hi : i < 512) (hj : j < 64)
    (h : b ≠ 2 + slot / 32 ∨ i / 16 ≠ slot % 32 ∨ j / 16 ≠ id / 2) : ∀ c ∈ foldCells m id slot, c.1 ≠ (b * 512 + i) * 64 + j := by
  intro c hc he
  obtain ⟨k, hk, n, hn, rfl⟩ := mem_foldCells.mp hc
  obtain ⟨h0, h1, h2⟩ := (accKey_inj (by omega) (by omega) hi hj).mp he
  omega

/-- The units of a pair whose oldest fold has landed, fs behind it. -/
def foldLanded (cells : List (Nat × AccVal)) (fs : List (Nat × Nat)) (full : Nat) (x : PairS) : PairS :=
  { x with array := { x.array with folds := fs, acc := cellsInto cells x.array.acc, slotFull := SMap.set false x.array.slotFull full true } }

theorem foldLanded_acc (cells : List (Nat × AccVal)) (fs : List (Nat × Nat)) (full : Nat) (x : PairS) :
    (foldLanded cells fs full x).array.acc = cellsInto cells x.array.acc := rfl

theorem foldLanded_queue (cells : List (Nat × AccVal)) (fs : List (Nat × Nat)) (full : Nat) (x : PairS) :
    (foldLanded cells fs full x).array.queue = x.array.queue := rfl

theorem foldLanded_slotFull (cells : List (Nat × AccVal)) (fs : List (Nat × Nat)) (full : Nat) (x : PairS) :
    SMap.get false (foldLanded cells fs full x).array.slotFull full = true := by
  simp [foldLanded]

theorem foldLanded_reedTo {p full : Nat} {cells : List (Nat × AccVal)} {fs : List (Nat × Nat)} {f : ArrayS → ArrayS}
    (hf : ∀ a, ∃ x m b, f a = { a with folds := fs, acc := cellsInto cells a.acc, slotFull := SMap.set false a.slotFull full true
                                       slotBad := x, partials := m, partialBad := b }) (s : State) :
    ReedTo reedRegs p (foldLanded cells fs full) s (modArray p f s) := by
  refine modArray_reedTo (fun y => ?_) s
  obtain ⟨x, m, b, h⟩ := hf y.array
  rw [h]
  rfl

/-- The oldest fold lands: its sums are written, its slot is full, its partials are free. -/
theorem foldDone_reedTo {p id slot : Nat} {fs : List (Nat × Nat)} {s : State} (met : ArrayMet) (hf : (pair s p).array.folds = (id, slot) :: fs) :
    ReedTo reedRegs p (foldLanded (foldCells (pair s p).array.partials id slot) fs (id / 2 * 64 + slot)) s (foldDone p met s) := by
  unfold foldDone
  extract_lets a
  split
  case h_1 h => exact absurd (h.symm.trans hf) (by simp)
  case h_2 f fs' h =>
    obtain ⟨rfl, rfl⟩ := List.cons.inj (h.symm.trans hf)
    extract_lets id' slot' r part out key cells s1
    have h1 : ReedTo reedRegs p (foldLanded (foldCells (pair s p).array.partials id slot) fs' (id / 2 * 64 + slot)) s s1 :=
      (arrayMeets_reedTo p s met).trans (foldLanded_reedTo (fun _ => ⟨_, _, _, rfl⟩) _)
    exact h1.then_plain (accEvents_reedTo p s1 _)

theorem fold_done {p : Pair} {id slot : Nat} {fs : List (Nat × Nat)} {met : ArrayMet} {s : State} (hs : Clocked s)
    (hf : (pair s p).array.folds = (id, slot) :: fs) (hid : id < 8) :
    Completes (.foldDone p met) s fun u =>
      (pair u p).array.folds = fs ∧ SMap.get false (pair u p).array.slotFull (id / 2 * 64 + slot) = true ∧ ReedFrame p s u
        ∧ (∀ k < 16, ∀ n < 16, SMap.get 0 (pair u p).array.acc (((2 + slot / 32) * 512 + 16 * (slot % 32) + k) * 64 + (16 * (id / 2) + n))
            = foldSum (pair s p).array.partials id k n)
        ∧ ∀ b < 4, ∀ i < 512, ∀ j < 64, (b ≠ 2 + slot / 32 ∨ i / 16 ≠ slot % 32 ∨ j / 16 ≠ id / 2) →
            SMap.get 0 (pair u p).array.acc ((b * 512 + i) * 64 + j) = SMap.get 0 (pair s p).array.acc ((b * 512 + i) * 64 + j) := by
  have hall := (foldDone_reedTo met hf).mono (rs' := sliceRegs) (by decide)
  have hacc : (pair (foldDone p met s) p).array.acc = cellsInto (foldCells (pair s p).array.partials id slot) (pair s p).array.acc :=
    hall.acc.trans (foldLanded_acc _ _ _ _)
  refine completes_reedTo hs rfl rfl hall
    ⟨hall.part (fun x => x.array.folds),
      (hall.part (fun x => SMap.get false x.array.slotFull (id / 2 * 64 + slot))).trans (foldLanded_slotFull _ _ _ _),
      hall.frame (foldLanded_queue _ _ _), fun k hk n hn => ?_, fun b _ i hi j hj h => ?_⟩
  · rw [hacc]
    exact cellsInto_foldCells hid hk hn _ _
  · rw [hacc]
    exact cellsInto_ne (foldCells_other hid hi hj h) _

/-- Settles O14: a TASK and its fold. -/
theorem blockProducts : Obligations.BlockProducts :=
  ⟨fun _ _ _ _ _ _ _ _ _ _ h he hq hk hfull hfolds hin => reed_task h he hq hk hfull hfolds hin,
    fun _ _ _ _ _ _ hs hf hid _ => fold_done hs hf hid⟩

end Sys2Proof.Machine

/-! SUPPORT. The frame of an array instruction that signals (R60, R154): what it says of a semaphore whose index is past a pair's 64. -/

namespace Sys2Proof.Machine

/-- Semaphore 64 + i of a pair, which is none of its own, reads the register of semaphore i of the next pair. -/
theorem semCount_pastPair (s : State) (p i : Nat) : semCount s p (64 + i) = semCount s (p + 1) i := by
  unfold semCount
  congr 1
  omega

/-- ArrayFrame names semaphores by every number, so it also holds fixed the one a retired instruction has incremented, under its
other name. -/
theorem not_arrayFrame_of_retired {p : Nat} {o : UnitOp} {rest : List UnitOp} {s u : State} (hsig : wbits o.word 22 22 = 1)
    (h : Retired (p + 1) o rest s u) : ¬ArrayFrame (p + 1) (wbits o.word 21 16) s u := by
  rintro ⟨-, hsem, -, -⟩
  obtain ⟨-, hinc⟩ := h
  have hkept := hsem p (64 + wbits o.word 21 16) (by simp)
  rw [semCount_pastPair, semCount_pastPair, hinc, if_pos hsig] at hkept
  omega

/-- An array instruction of word w, its first operand 0, alone in the queue of pair 1 of the released part: full mode, every semaphore 0. -/
def alone (w : Nat) : State :=
  { State.reset with inService := true, pairs := [(1, { array := { queue := [{ word := w, vals := [0] }] } })] }

/-- Refutes O11: an ACC of pair 1 that signals semaphore 0 (word 0x400001) raises a count that is also that of semaphore 64 of pair 0,
which ArrayFrame says is as before: it bounds no index. -/
theorem not_arrayCompletion : ¬Obligations.ArrayCompletion := by
  rintro ⟨hacc, -⟩
  have hat : AtHead 1 1 0 0 { word := 0x400001, vals := [0] } [] (alone 0x400001) :=
    ⟨⟨rfl, rfl⟩, rfl, by decide, by decide, by decide, rfl, by decide⟩
  obtain ⟨u, -, hret, hframe, -⟩ := hacc 1 _ _ {} _ hat
  exact not_arrayFrame_of_retired (p := 0) (by decide) hret hframe

/-- Refutes O12: a CHKMUL of pair 1 that signals semaphore 0 (word 0x400017), its signature at comb offset 0, raises a count that is
also that of semaphore 64 of pair 0, which ArrayFrame says is as before. -/
theorem not_drainAndCheckProduct : ¬Obligations.DrainAndCheckProduct := by
  rintro ⟨-, hchk⟩
  have hat : AtHead 1 7 1 0 { word := 0x400017, vals := [0] } [] (alone 0x400017) :=
    ⟨⟨rfl, rfl⟩, rfl, by decide, by decide, by decide, rfl, by decide⟩
  obtain ⟨u, -, hret, hframe, -⟩ := hchk 1 _ _ {} _ hat (by decide)
  exact not_arrayFrame_of_retired (p := 0) (by decide) hret hframe

end Sys2Proof.Machine

/-! SUPPORT. The order of a sum (R93): what carrying marks of NaNs made on the way leaves of it, and the width of FP32 results. -/

namespace Sys2Proof.Machine

/-! ## Results of FP32 arithmetic fit their pattern (R85, R87) -/

/-- A fraction scaled by 2^e is below 2^25 where the logarithms of its terms say so. -/
theorem scalePow_div_lt {n d : Nat} {e : Int} (h : (Nat.log2 n : Int) + e ≤ Nat.log2 d + 24) :
    (scalePow n d e).1 / (scalePow n d e).2 < 2 ^ 25 := by
  have hn : n < 2 ^ (Nat.log2 n + 1) := Nat.lt_log2_self
  rcases Nat.eq_zero_or_pos d with rfl | hd
  · unfold scalePow
    split_ifs <;> simp
  have hld : 2 ^ Nat.log2 d ≤ d := Nat.log2_self_le (by omega)
  refine Nat.div_lt_of_lt_mul ?_
  unfold scalePow
  split_ifs with he
  · calc n * 2 ^ e.toNat < 2 ^ (Nat.log2 n + 1) * 2 ^ e.toNat := by gcongr
      _ = 2 ^ (Nat.log2 n + 1 + e.toNat) := (pow_add ..).symm
      _ ≤ 2 ^ (Nat.log2 d + 25) := Nat.pow_le_pow_right (by norm_num) (by omega)
      _ = 2 ^ Nat.log2 d * 2 ^ 25 := pow_add ..
      _ ≤ d * 2 ^ 25 := by gcongr
  · calc n < 2 ^ (Nat.log2 n + 1) := hn
      _ ≤ 2 ^ (Nat.log2 d + (-e).toNat + 25) := Nat.pow_le_pow_right (by norm_num) (by omega)
      _ = 2 ^ Nat.log2 d * 2 ^ (-e).toNat * 2 ^ 25 := by rw [pow_add, pow_add]
      _ ≤ d * 2 ^ (-e).toNat * 2 ^ 25 := by gcongr

theorem le_floorLog2 (n d : Nat) : (Nat.log2 n : Int) - Nat.log2 d - 1 ≤ floorLog2 n d := by
  unfold floorLog2
  dsimp only
  split_ifs <;> omega

/-- A magnitude rounded to FP32 is at most one more than a quotient far below 2^26. -/
theorem roundMag_fp32_m_lt (mode : Round) (n d : Nat) : (roundMag .fp32 mode n d).m < 2 ^ 26 := by
  have hlog := le_floorLog2 n d
  unfold roundMag
  split
  · norm_num
  extract_lets emin e qe
  rw [if_neg (by simp [Fmt.flushes])]
  have hm : (scalePow n d (-qe)).1 / (scalePow n d (-qe)).2 < 2 ^ 25 := scalePow_div_lt (by simp only [qe, Fmt.mant]; split_ifs <;> omega)
  dsimp only
  split_ifs <;> omega

theorem value_fp32_maxCode : Fmt.value .fp32 Fmt.fp32.maxCode = .fin false ((2 ^ 24 - 1) * 2 ^ 104) 1 := by decide

/-- A magnitude that FP32 can hold has no large exponent. -/
theorem e_le_of_not_overflows {x : Rounded} (hm : x.m ≠ 0) (h : overflows .fp32 x = false) : x.e ≤ 128 := by
  by_contra he
  have hpow : 2 ^ 128 ≤ x.m * 2 ^ x.e.toNat :=
    le_mul_of_one_le_of_le (Nat.one_le_iff_ne_zero.mpr hm) (Nat.pow_le_pow_right (by norm_num) (by omega))
  have : x.m * 2 ^ x.e.toNat ≤ (2 ^ 24 - 1) * 2 ^ 104 := by
    simpa [overflows, value_fp32_maxCode, scalePow, show 0 ≤ x.e by omega] using h
  omega

theorem encodeMag_fp32_lt {x : Rounded} (hm : x.m < 2 ^ 26) (he : x.m ≠ 0 → x.e ≤ 128) : encodeMag .fp32 x < 2 ^ 62 := by
  unfold encodeMag
  split
  · norm_num
  rename_i h0
  have := he h0
  extract_lets y
  have hy : y.m < 2 ^ 26 ∧ y.e ≤ 129 := by
    unfold y
    split_ifs
    · exact ⟨by dsimp only; omega, by dsimp only; omega⟩
    · exact ⟨hm, by omega⟩
  clear_value y
  split
  · omega
  · simp only [Fmt.mant, Fmt.bias]
    omega

theorem signed_fp32_lt {c : Nat} (neg : Bool) (h : c < 2 ^ 62) : Fmt.fp32.signed neg c < 2 ^ 64 := by
  have hs : Fmt.fp32.signBit = 2 ^ 31 := rfl
  unfold Fmt.signed
  split_ifs <;> omega

/-- An FP32 result is a number of fewer than 64 bits: marks from bit 64 on do not touch it. -/
theorem rne32_lt (v : Val) : rne32 v < 2 ^ 64 := by
  unfold rne32 rne narrow
  simp only [Fmt.isInt, Bool.false_eq_true, if_false]
  cases v with
  | nan => decide
  | inf neg => exact signed_fp32_lt neg (by decide)
  | fin neg n d =>
    dsimp only
    split
    · exact signed_fp32_lt neg (by decide)
    · rename_i h
      exact signed_fp32_lt neg (encodeMag_fp32_lt (roundMag_fp32_m_lt _ _ _) fun hm => e_le_of_not_overflows hm (by simpa using h))

/-! ## Sums with marks (R93) -/

section

variable {f g : Nat → Nat → Nat} {h : Nat → Nat} {idz : Nat}

theorem nth_map (d : Nat) (l : List Nat) (i : Nat) : nth (h d) (l.map h) i = h (nth d l i) := List.getD_map ..

/-- A map that turns one addition into another turns a tree of the one into a tree of the other. -/
theorem treeSum_map (hfg : ∀ a b, h (f a b) = g (h a) (h b)) (hz : h idz = idz) (lanes : List Nat) :
    h (treeSum f idz lanes) = treeSum g idz (lanes.map h) := by
  have hlevel : ∀ (half : Nat) (ls : List Nat), (treeLevel f idz half ls).map h = treeLevel g idz half (ls.map h) := fun half ls => by
    simp only [treeLevel, List.map_map, Function.comp_def, hfg]
    simp only [← nth_map, hz]
  have hlevels : ∀ (l ls : List Nat), (l.foldl (fun ls j => treeLevel f idz (2 ^ (7 - j)) ls) ls).map h
      = l.foldl (fun ls j => treeLevel g idz (2 ^ (7 - j)) ls) (ls.map h) := fun l ls =>
    (List.foldl_hom (List.map h) fun ls j => (hlevel _ ls).symm).symm
  unfold treeSum
  rw [← nth_map (h := h), hz, hlevels]

/-- Lane sums read the elements below n alone. -/
theorem laneFold_map {n : Nat} (hfg : ∀ a, ∀ i < n, h (f a i) = g (h a) i) (hz : h idz = idz) :
    (laneFold f idz n).map h = laneFold g idz n := by
  unfold laneFold
  rw [List.map_map]
  refine List.map_congr_left fun l hl => ?_
  have hlane : ∀ (ks : List Nat) (a : Nat), (∀ k ∈ ks, 256 * k + l < n) →
      h (ks.foldl (fun a k => f a (256 * k + l)) a) = ks.foldl (fun a k => g a (256 * k + l)) (h a) := by
    intro ks
    induction ks with
    | nil => exact fun _ _ => rfl
    | cons k ks ih =>
      intro a hk
      rw [List.foldl_cons, List.foldl_cons, ih _ fun j hj => hk j (List.mem_cons_of_mem _ hj), hfg _ _ (hk k List.mem_cons_self)]
  rw [List.mem_range] at hl
  rw [Function.comp_apply, hlane _ _ fun k hk => ?_, hz]
  rw [List.mem_range] at hk
  omega

end

theorem add32m_mod (a b : Nat) : add32m a b % 2 ^ 64 = add32 (a % 2 ^ 64) (b % 2 ^ 64) := by
  have hlt : add32 (a % 2 ^ 64) (b % 2 ^ 64) < 2 ^ 64 := rne32_lt _
  unfold add32m addMark
  extract_lets x y r mk
  split_ifs
  · rw [Nat.add_mod_right, Nat.mod_eq_of_lt hlt]
  · rw [Nat.add_zero, Nat.mod_eq_of_lt hlt]

/-- A sum that carries marks is the sum of R93. -/
theorem sumFlag_fst {n : Nat} {x y : Nat → Nat} (hx : ∀ i < n, x i % 2 ^ 64 = y i) : (sumFlag n x).1 = vecSum32 n y := by
  have hlanes : (laneFold (fun a i => add32m a (x i)) negZero32 n).map (· % 2 ^ 64) = laneFold (fun a i => add32 a (y i)) negZero32 n :=
    laneFold_map (fun a i hi => by rw [add32m_mod, hx i hi]) (by decide)
  simp only [sumFlag, vecSum32, ← hlanes]
  exact treeSum_map (h := (· % 2 ^ 64)) add32m_mod (by decide) _

end Sys2Proof.Machine

/-! SUPPORT. Numbers written to a comb: what a write and a scatter put there, and the numbers read back (R4, R77, R194). -/

namespace Sys2Proof.Machine

variable {s t : State}

/-! ## Numbers read after bytes are written -/

theorem pokeBytes_append (a : Nat) (xs ys : List Nat) (s : State) :
    pokeBytes a (xs ++ ys) s = pokeBytes (a + xs.length) ys (pokeBytes a xs s) := by
  induction xs generalizing a s with
  | nil => rfl
  | cons x xs ih => simp only [List.cons_append, pokeBytes, ih, List.length_cons, Nat.add_comm 1, Nat.add_assoc]

/-- The cells that bytes are written to depend on memory alone. -/
theorem pokeBytes_mem_congr (h : t.mem = s.mem) (a : Nat) (bs : List Nat) : (pokeBytes a bs t).mem = (pokeBytes a bs s).mem := by
  induction bs generalizing a s t with
  | nil => exact h
  | cons b bs ih => exact ih (by simp only [pokeByte, h]) _

theorem numAt_congr {a n : Nat} (h : ∀ i < n, byteAt t (a + i) = byteAt s (a + i)) : numAt t a n = numAt s a n :=
  congrArg leNat (List.map_congr_left fun i hi => h i (List.mem_range.mp hi))

theorem numAt_succ (s : State) (a n : Nat) : numAt s a (n + 1) = byteAt s a + 256 * numAt s (a + 1) n := by
  have hb : byteAt s a < 256 := BitVec.isLt _
  simp only [numAt, bytesAt, List.range_succ_eq_map, List.map_cons, List.map_map, leNat, Nat.add_zero, Nat.mod_eq_of_lt hb,
    Function.comp_def, Nat.succ_eq_add_one, Nat.add_right_comm, Nat.add_assoc]

/-- The low bytes of a number, written and read back. -/
theorem numAt_pokeBytes_natLe (a n v : Nat) (s : State) : numAt (pokeBytes a (natLe n v) s) a n = v % 256 ^ n := by
  induction n generalizing a v s with
  | zero => simp [numAt, bytesAt, leNat, Nat.mod_one]
  | succ n ih =>
    rw [numAt_succ, natLe, pokeBytes, ih, byteAt_pokeBytes_out _ (.inl (by omega)), byteAt_pokeByte_self, Nat.mod_mod, pow_succ',
      Nat.mod_mul]

/-- Numbers of k bytes in a row, as they are stored (R4). -/
def numBytes (k : Nat) (cs : List Nat) : List Nat := cs.flatMap (natLe k)

@[simp] theorem numBytes_length (k : Nat) (cs : List Nat) : (numBytes k cs).length = k * cs.length := by
  simp [numBytes, List.length_flatMap, Nat.mul_comm]

/-- Of numbers written in a row, number i is read back at its place. -/
theorem numAt_pokeBytes_numBytes {k i : Nat} {cs : List Nat} (h : i < cs.length) (a : Nat) (s : State) :
    numAt (pokeBytes a (numBytes k cs) s) (a + k * i) k = cs[i] % 256 ^ k := by
  induction cs generalizing a i s with
  | nil => simp at h
  | cons c cs ih =>
    rw [numBytes, List.flatMap_cons, pokeBytes_append, natLe_length]
    cases i with
    | zero =>
      rw [numAt_congr (s := pokeBytes a (natLe k c) s) fun j hj => byteAt_pokeBytes_out _ (.inl (by omega)), Nat.mul_zero, Nat.add_zero,
        numAt_pokeBytes_natLe, List.getElem_cons_zero]
    | succ i =>
      rw [show a + k * (i + 1) = a + k + k * i by ring, ← numBytes, ih (by simpa using h), List.getElem_cons_succ]

/-! ## Comb addresses are always in service -/

/-- A comb lies beyond far and near memory, and is never offline (R20). -/
theorem offline_of_comb {a : Nat} (h : combBase ≤ a) : offline s a = false := by
  unfold offline tierOf
  rw [if_neg (not_lt.mpr (le_trans (by decide) h)), if_neg (not_lt.mpr h)]
  split_ifs <;> rfl

theorem dirFull_of_comb {a : Nat} (h : combBase ≤ a) : dirFull s a = false := by
  unfold dirFull tierOf
  rw [if_neg (not_lt.mpr (le_trans (by decide) h)), if_neg (not_lt.mpr h)]
  split_ifs <;> rfl

theorem combBase_le_combAddr (p off : Nat) : combBase ≤ combAddr p off := by
  unfold combAddr
  omega

/-! ## Writes -/

/-- Bytes are written from a up, and beside memory nothing changes. -/
def Pokes (a : Nat) (bs : List Nat) (s u : State) : Prop := BesideMem [] [] s u ∧ u.mem = (pokeBytes a bs s).mem

theorem Pokes.trans {a b : Nat} {xs ys : List Nat} {u : State} (h1 : Pokes a xs s t) (h2 : Pokes b ys t u) (hb : b = a + xs.length) :
    Pokes a (xs ++ ys) s u :=
  ⟨h1.1.trans h2.1, by rw [h2.2, pokeBytes_mem_congr h1.2, hb, pokeBytes_append]⟩

theorem writeSector_pokes {a : Nat} (bs : List Nat) (bad : Bool) (h : combBase ≤ a) : Pokes a bs s (writeSector a bs bad s) :=
  ⟨writeSector_besideMem (offline_of_comb h) (dirFull_of_comb h),
    (writeSector_mem (offline_of_comb h) (dirFull_of_comb h)).trans (pokeBytes_mem_congr (fillGranule_mem a s) a bs)⟩

theorem writeBytes_pokes {n a : Nat} {bs : List Nat} (bad : Bool) (h : combBase ≤ a) (hn : a % 64 + bs.length ≤ 64 * n) (s : State) :
    Pokes a bs s (writeBytes n a bs bad s) := by
  induction n generalizing a bs s with
  | zero =>
    obtain rfl : bs = [] := List.eq_nil_of_length_eq_zero (by omega)
    exact ⟨Aside.refl.besideMem, rfl⟩
  | succ n ih =>
    cases bs with
    | nil => exact ⟨Aside.refl.besideMem, rfl⟩
    | cons b bs =>
      rw [writeBytes]
      have hcut := writeSector_pokes (s := s) ((b :: bs).take (64 - a % 64)) bad h
      by_cases hl : (b :: bs).length ≤ 64 - a % 64
      · rw [List.take_of_length_le hl] at hcut ⊢
        rw [List.drop_of_length_le hl, writeBytes_nil]
        exact hcut
      · have hrest := ih (a := a + (64 - a % 64)) (bs := (b :: bs).drop (64 - a % 64)) (by omega)
          (by rw [List.length_drop]; omega) (writeSector a ((b :: bs).take (64 - a % 64)) bad s)
        have := hcut.trans hrest (by rw [List.length_take]; omega)
        rwa [List.take_append_drop] at this

/-- A write of a comb's bytes puts them in place. -/
theorem memWrite_pokes {a : Nat} (bs : List Nat) (bad : Bool) (h : combBase ≤ a) (s : State) : Pokes a bs s (memWrite a bs bad s) :=
  writeBytes_pokes bad h (by omega) s

/-! ## Scattered pieces (R77, R218) -/

theorem putPiece_pokes {x : Nat × List Nat × Bool} (h : combBase ≤ x.1) : Pokes x.1 x.2.1 s (putPiece x s) := by
  have hp : BesideMem [] [] s (pokeBytes x.1 x.2.1 (fillGranule x.1 s)) := (fillGranule_besideMem _ s).trans (pokeBytes_besideMem _ _ _)
  have hm : (pokeBytes x.1 x.2.1 (fillGranule x.1 s)).mem = (pokeBytes x.1 x.2.1 s).mem := pokeBytes_mem_congr (fillGranule_mem _ s) _ _
  simp only [putPiece, offline_of_comb h, dirFull_of_comb h, Bool.and_false, Bool.false_eq_true, if_false]
  split
  · exact ⟨hp.trans (setMark_besideMem _ _ _), hm⟩
  · exact ⟨hp, hm⟩

/-- The cuts of a piece at sector boundaries put the bytes of the whole piece in place. -/
theorem splitPiece_pokes {n a : Nat} {bs : List Nat} (bad : Bool) (h : combBase ≤ a) (hn : a % 64 + bs.length ≤ 64 * n) (s : State) :
    Pokes a bs s ((splitPiece n (a, bs, bad)).foldl (fun t x => putPiece x t) s) := by
  induction n generalizing a bs s with
  | zero =>
    obtain rfl : bs = [] := List.eq_nil_of_length_eq_zero (by omega)
    exact ⟨Aside.refl.besideMem, rfl⟩
  | succ n ih =>
    cases bs with
    | nil => exact ⟨Aside.refl.besideMem, rfl⟩
    | cons b bs =>
      have hcut := putPiece_pokes (s := s) (x := (a, (b :: bs).take (64 - a % 64), bad)) h
      simp only [splitPiece, List.isEmpty_cons, Bool.false_eq_true, if_false, List.foldl_cons]
      by_cases hl : (b :: bs).length ≤ 64 - a % 64
      · rw [List.take_of_length_le hl] at hcut ⊢
        rw [List.drop_of_length_le hl]
        cases n <;> exact hcut
      · have hrest := ih (a := a + (64 - a % 64)) (bs := (b :: bs).drop (64 - a % 64)) (by omega)
          (by rw [List.length_drop]; omega) (putPiece (a, (b :: bs).take (64 - a % 64), bad) s)
        have := hcut.trans hrest (by rw [List.length_take]; dsimp only; omega)
        rwa [List.take_append_drop] at this

theorem clearWhole_besideMem (cut : List (Nat × List Nat × Bool)) (s : State) : BesideMem [] [] s (clearWhole cut s) := by
  unfold clearWhole
  refine foldl_besideMem (fun t e => ?_) _ s
  split
  · exact setMark_besideMem _ _ _
  · exact Aside.refl.besideMem

/-- Numbers of k bytes, each with its poison, as pieces in a row from an address. -/
def piecesFrom (k a : Nat) (xs : List (Nat × Bool)) : List (Nat × List Nat × Bool) :=
  (List.range xs.length).map fun i => (a + k * i, natLe k (nth (0, false) xs i).1, (nth (0, false) xs i).2)

theorem piecesFrom_cons (k a : Nat) (x : Nat × Bool) (xs : List (Nat × Bool)) :
    piecesFrom k a (x :: xs) = (a, natLe k x.1, x.2) :: piecesFrom k (a + k) xs := by
  rw [piecesFrom, List.length_cons, List.range_succ_eq_map, List.map_cons, List.map_map]
  refine congrArg₂ _ rfl (List.map_congr_left fun i _ => ?_)
  rw [Function.comp_apply, show a + k * (i + 1) = a + k + k * i by ring]
  rfl

theorem cutPieces_pokes {k a : Nat} (h : combBase ≤ a) (xs : List (Nat × Bool)) (s : State) :
    Pokes a (numBytes k (xs.map Prod.fst)) s ((cutPieces (piecesFrom k a xs)).foldl (fun t x => putPiece x t) s) := by
  induction xs generalizing a s with
  | nil => exact ⟨Aside.refl.besideMem, rfl⟩
  | cons x xs ih =>
    rw [piecesFrom_cons, cutPieces, List.flatMap_cons, List.foldl_append]
    exact (splitPiece_pokes x.2 h (by dsimp only; omega) s).trans (ih (by omega) _) (by rw [natLe_length])

/-- Numbers scattered in a row from a comb address are put in place. -/
theorem scatter_pokes {k a : Nat} (h : combBase ≤ a) (xs : List (Nat × Bool)) (s : State) :
    Pokes a (numBytes k (xs.map Prod.fst)) s (scatter (piecesFrom k a xs) s) :=
  ⟨(cutPieces_pokes h xs s).1.trans (clearWhole_besideMem _ _), (clearWhole_mem _ _).trans (cutPieces_pokes h xs s).2⟩

end Sys2Proof.Machine

/-! SUPPORT. What a VEC instruction does as it completes (R92, R93, R99, R154, R194, R195). -/

namespace Sys2Proof.Machine

variable {p a : Nat} {bs : List Nat} {g : PairS → PairS} {s t u : State}

/-! ## Changes of one pair that write its comb -/

/-- The registers that a VEC operation writes: its flags, the counters, the log, the event records. -/
abbrev vecRegs : List Reg :=
  .NUM_EVENTS :: .NUM_CVT_COUNTS :: .CTR_P_n :: .CTR_P_OVF :: .CTR_P_SAMPLE_LAST :: .RL_LOG_PTR :: .RL_EVENTS :: eventRegs

/-- From s to u bytes are written from address a up, the units of pair p have changed by g, no other pair's have, and of the
registers those of vecRegs may have. -/
structure VecWrites (p a : Nat) (bs : List Nat) (g : PairS → PairS) (s u : State) : Prop where
  own : pair u p = g (pair s p)
  others : ∀ q, q ≠ p → pair u q = pair s q
  regs : Keeps vecRegs [] s u
  mem : u.mem = (pokeBytes a bs s).mem

theorem Pokes.writes (h : Pokes a bs s u) : VecWrites p a bs id s u where
  own := by simp only [pair, h.1.pairs, id_eq]
  others := fun _ _ => by simp only [pair, h.1.pairs]
  regs := h.1.keeps.mono (by simp) (by simp)
  mem := h.2

theorem Aside.then_writes (h : Aside vecRegs [] s t) (hw : VecWrites p a bs g t u) : VecWrites p a bs g s u where
  own := by rw [hw.own, h.pair]
  others := fun q hq => (hw.others q hq).trans (h.pair q)
  regs := h.2.trans hw.regs
  mem := hw.mem.trans (pokeBytes_mem_congr h.mem _ _)

theorem VecWrites.then_aside (hw : VecWrites p a bs g s t) (h : Aside vecRegs [] t u) : VecWrites p a bs g s u where
  own := (h.pair p).trans hw.own
  others := fun q hq => (h.pair q).trans (hw.others q hq)
  regs := hw.regs.trans h.2
  mem := h.mem.trans hw.mem

theorem VecWrites.then_pair (f : PairS → PairS) (hw : VecWrites p a bs g s t) : VecWrites p a bs (f ∘ g) s (modPair p f t) where
  own := by rw [pair_modPair_self, hw.own, Function.comp_apply]
  others := fun q hq => (pair_modPair_ne f t hq).trans (hw.others q hq)
  regs := hw.regs
  mem := hw.mem

/-- The units of a pair put back as they were are a change of nothing. -/
theorem VecWrites.after_same (hw : VecWrites p a bs g (modPair p (fun _ => pair s p) s) u) : VecWrites p a bs g s u where
  own := by rw [hw.own, pair_modPair_self]
  others := fun q hq => (hw.others q hq).trans (pair_modPair_ne _ s hq)
  regs := hw.regs
  mem := hw.mem.trans (pokeBytes_mem_congr (show (modPair p (fun _ => pair s p) s).mem = s.mem from rfl) _ _)

/-! ## Flags and counts -/

theorem raiseIf_aside (b : Bool) {f : Fld} (hf : f.reg ∈ vecRegs) (i : Nat) (s : State) : Aside vecRegs [] s (raiseIf b f i s) :=
  .ite (Aside.refl.raise (.inl hf)) .refl

/-- Recording the flags of an instruction writes its events and counts and may escalate (R101, R102). -/
theorem applyNum_aside (p : Nat) (n : NumFlags) (s : State) : Aside vecRegs [] s (applyNum p n s) := by
  have hr : ∀ (b : Bool) {f : Fld} {t : State}, f.reg = .NUM_EVENTS → Aside vecRegs [] s t → Aside vecRegs [] s (raiseIf b f p t) :=
    fun b _ _ hf h => h.trans (raiseIf_aside b (by simp [hf]) p _)
  have hc : ∀ {f : Fld} {t : State} (k : Nat), f.reg = .NUM_CVT_COUNTS → Aside vecRegs [] s t → Aside vecRegs [] s (satAddFld f p k t) :=
    fun k hf h => h.satAddFld k (.inl (by simp [hf]))
  unfold applyNum
  extract_lets s1 s2 s3 s4 s5 s6 s7 s8 s9
  have h9 : Aside vecRegs [] s s9 := hc _ rfl (hc _ rfl (hr _ rfl (hr _ rfl (hr _ rfl (hr _ rfl (hr _ rfl (hr _ rfl (hr _ rfl .refl))))))))
  exact .ite (h9.trans ((escalate_aside _ _ _ _).mono (by simp) (by simp))) h9

theorem count_vecAside (p code n : Nat) (s : State) : Aside vecRegs [] s (count p code n s) :=
  (count_aside p code n s).mono (by simp) fun k hk => .inl (by rcases bank_reg hk with e | e | e <;> simp [e])

/-! ## The end of an instruction (R154, R195) -/

theorem semInc_eq {i : Nat} (h : semCount s p i ≠ 0xFFFFFFFF) :
    semInc p i s = setFld F.SEQ_SEM_i_count (64 * p + i) (semCount s p i + 1) s := if_neg h

theorem semCount_semInc {i : Nat} (h : semCount s p i ≠ 0xFFFFFFFF) : semCount (semInc p i s) p i = semCount s p i + 1 := by
  have hlt : semCount s p i < 2 ^ 32 := fld_lt (f := F.SEQ_SEM_i_count) (by decide) s _
  rw [semInc_eq h]
  exact fld_setFld_fits (by decide) _ (show _ < 2 ^ 32 by omega) _

theorem wSig_eq (w : Nat) : wSig w = decide (wbits w 22 22 = 1) := rfl

/-- What an instruction signals as it completes. -/
def signalSem (p w : Nat) (s : State) : State := if wSig w then semInc p (wSem w) s else s

theorem signalSem_aside {w : Nat} (h : semCount s p (wSem w) ≠ 0xFFFFFFFF) : Aside [] [(.SEQ_SEM_i, 64 * p + wSem w)] s (signalSem p w s) := by
  refine .ite ?_ .refl
  rw [semInc_eq h]
  exact Aside.refl.setFld _ (.inr (by simp))

theorem semCount_signalSem {w : Nat} (h : semCount s p (wSem w) ≠ 0xFFFFFFFF) :
    semCount (signalSem p w s) p (wSem w) = semCount s p (wSem w) + if wbits w 22 22 = 1 then 1 else 0 := by
  unfold signalSem
  rw [wSig_eq]
  by_cases hw : wbits w 22 22 = 1
  · simp only [hw, decide_true, if_true, semCount_semInc h]
  · simp only [hw, decide_false, Bool.false_eq_true, if_false, Nat.add_zero]

section

variable {o : UnitOp} {rest : List UnitOp} {op d n : Nat}

/-- The instruction at the head counts its reads, takes effect, leaves the queue and signals. -/
theorem vecNext_head (h : VecHead p op o rest s) :
    vecNext p s = signalSem p o.word (modPair p (fun x => { x with vec := rest }) (vecEffect p o (count p 0x20 (vecReads p o s) s))) := by
  simp only [vecNext, vecDone, h.queue, h.own, signalSem]

/-- Where the effect writes bytes of the comb, in any state with the memory and the units that it completes in, the instruction leaves
its queue, signals and writes those alone. -/
theorem completes_vecDone {p : Pair} (h : VecHead p op o rest s) (hn : bs.length = n)
    (hw : ∀ t : State, t.mem = s.mem → pair t p = pair s p → VecWrites p (combAddr p d) bs g t (vecEffect p o t)) {P : State → Prop}
    (hP : ∀ u, u.mem = (pokeBytes (combAddr p d) bs s).mem → pair u p = { g (pair s p) with vec := rest } → P u) :
    Completes (.vecDone p) s fun u => VecLeft p o rest d n s u ∧ P u := by
  refine completes_clocked h.clocked rfl ?_
  rw [vecNext_head h]
  have hc := count_vecAside p 0x20 (vecReads p o s) s
  have hv := (hc.then_writes (hw _ hc.mem (hc.pair p))).then_pair fun x => { x with vec := rest }
  generalize modPair _ _ _ = v at hv
  have hsem : semCount v p (wSem o.word) = semCount s p (wSem o.word) := hv.regs.fld (by decide) (by simp)
  have hne : semCount v p (wSem o.word) ≠ 0xFFFFFFFF := by rw [hsem]; exact h.sem
  have hs := signalSem_aside hne
  have hown : pair (signalSem p o.word v) p = { g (pair s p) with vec := rest } := (hs.pair p).trans hv.own
  refine ⟨⟨congrArg PairS.vec hown, ?_, fun x hx => ?_, fun i => ?_, ?_, fun q hq => (hs.pair q).trans (hv.others q hq)⟩,
    hP _ (hs.mem.trans hv.mem) hown⟩
  · exact (semCount_signalSem hne).trans (by rw [hsem]; rfl)
  · exact ((hs.byteAt x).trans (byteAt_congr hv.mem x)).trans (byteAt_pokeBytes_out s (by rwa [hn]))
  · exact (hs.fld (by simp) (by simp)).trans (hv.regs.fld (by decide) (by simp))
  · exact (hs.reg (by simp) (by simp)).trans (hv.regs _ _ (by decide) (by simp))

end

end Sys2Proof.Machine

/-! SUPPORT. The results of VEC operations on FP32 operands (R92, R93, R194, R195) and the counts of HSTORE (R99). -/

namespace Sys2Proof.Machine

variable {p : Nat} {o : UnitOp} {s : State}

/-! ## Elements and their codes -/

/-- Elements of a format are numbers of k whole bytes (R81). -/
structure WholeBytes (f : Fmt) (k : Nat) : Prop where
  group : groupOf f = (1, k)
  pack : ∀ c, f.pack [c] = natLe k c

theorem wholeBytes_fp32 : WholeBytes .fp32 4 := ⟨rfl, fun _ => List.append_nil _⟩
theorem wholeBytes_bf16 : WholeBytes .bf16 2 := ⟨rfl, fun _ => List.append_nil _⟩
theorem wholeBytes_fp16 : WholeBytes .fp16 2 := ⟨rfl, fun _ => List.append_nil _⟩

theorem chunks_one {α : Type} (xs : List α) : chunks 1 xs.length xs = xs.map fun x => [x] := by
  induction xs with
  | nil => rfl
  | cons x xs ih => simp only [List.length_cons, chunks, List.take_succ_cons, List.take_zero, List.drop_succ_cons, List.drop_zero, ih,
      List.map_cons]

theorem nth_eq_getElem {α : Type} (d : α) {xs : List α} {i : Nat} (h : i < xs.length) : nth d xs i = xs[i] := by
  simp [nth, List.getD_eq_getElem?_getD, h]

/-- A list built from another's elements by their places. -/
theorem map_range_nth {α β : Type} (d : α) (xs : List α) (f : α → β) : (List.range xs.length).map (fun i => f (nth d xs i)) = xs.map f := by
  refine List.ext_getElem (by simp) fun i h1 h2 => ?_
  rw [List.length_map] at h2
  rw [List.getElem_map, List.getElem_map, List.getElem_range, nth_eq_getElem d h2]

theorem nth_map_range {α : Type} (d : α) (f : Nat → α) {n i : Nat} (h : i < n) : nth d ((List.range n).map f) i = f i := by
  rw [nth_eq_getElem d (by simpa using h), List.getElem_map, List.getElem_range]

theorem combAddr_add (p off n : Nat) : combAddr p (off + n) = combAddr p off + n := (Nat.add_assoc _ _ _).symm

/-- Elements of whole bytes are written as their numbers in a row. -/
theorem writeElems_writes {f : Fmt} {k : Nat} (hk : WholeBytes f k) (p off : Nat) (xs : List (Nat × Bool)) (s : State) :
    VecWrites p (combAddr p off) (numBytes k (xs.map Prod.fst)) id s (writeElems p off f xs s) := by
  have hp : (List.range (xs.map fun x => [x]).length).map (fun i =>
      (combAddr p (off + k * i), f.pack ((nth [] (xs.map fun x => [x]) i).map fun e => e.1), (nth [] (xs.map fun x => [x]) i).any fun e => e.2))
      = piecesFrom k (combAddr p off) xs := by
    rw [List.length_map]
    refine List.map_congr_left fun i hi => ?_
    rw [List.mem_range] at hi
    rw [nth_eq_getElem [] (by simpa using hi), nth_eq_getElem (0, false) hi, List.getElem_map, List.map_singleton, List.any_cons, List.any_nil,
      Bool.or_false, hk.pack, combAddr_add]
  simp only [writeElems, hk.group, Nat.add_sub_cancel, Nat.div_one, chunks_one, hp]
  exact (scatter_pokes (combBase_le_combAddr p off) xs s).writes.then_aside (count_vecAside _ _ _ _)

theorem read_fp32 (c : Nat) : Fmt.fp32.read false c = v32 c := by simp [Fmt.read, Fmt.flushes, v32]

theorem combElem_fp32 (s : State) (p off i : Nat) : (combElem s p .fp32 off i).1 = elem32 s p off i := rfl

theorem nth_combElems_fp32 {n i : Nat} (hi : i < n) {p off : Nat} : (nth (0, false) (combElems s p .fp32 off n) i).1 = elem32 s p off i := by
  rw [combElems, nth_map_range _ _ hi, combElem_fp32]

theorem elem32_congr {t : State} (h : t.mem = s.mem) (p a i : Nat) : elem32 t p a i = elem32 s p a i :=
  numAt_congr fun _ _ => byteAt_congr h _

/-! ## Results -/

theorem vecHist_none {w : Nat} (h : wbits w 10 10 = 0) (p : Nat) (xs : List (Nat × Bool)) (s : State) : vecHist p w xs s = s := by
  simp [vecHist, bitAt_eq_false_of_wbits h]

/-- Under RNE no lane of the generator steps (R88). -/
theorem vecRounds_rne (h : o.rnd = 0) (p n : Nat) (s : State) :
    (∀ i, nth .rne (vecRounds p o n s).1 i = .rne) ∧ (vecRounds p o n s).2 = modPair p (fun _ => pair s p) s := by
  unfold vecRounds
  generalize hf : List.foldl _ _ _ = r
  have hr : (∀ x ∈ r.1, x = .rne) ∧ r.2 = pair s p := by
    rw [← hf]
    refine foldl_invariant (P := fun r : List Round × PairS => (∀ x ∈ r.1, x = .rne) ∧ r.2 = pair s p) (fun t i ht => ?_) _ (by simp)
    simp only [drawRound, h, if_true]
    exact ⟨by simpa using ht.1, ht.2⟩
  refine ⟨fun i => ?_, congrArg (fun x => modPair p (fun _ => x) s) hr.2⟩
  unfold nth
  rw [List.getD_eq_getElem?_getD]
  cases hi : r.1.reverse[i]? with
  | none => rfl
  | some x => exact hr.1 x (List.mem_reverse.mp (List.mem_of_getElem? hi))

/-- Every target but E4M3 saturates only where sat asks for it (R89). -/
theorem resolveSat_eq {f : Fmt} (hf : f ≠ .e4m3) (c : Nat) : resolveSat f c = decide (c = 2) := by
  unfold resolveSat
  split_ifs with h1 h2
  · simp [h1]
  · simp [h2]
  · simp [hf, h2]

/-- The code of an FP32 result narrowed once by RNE, as the instruction's fmt_d and sat say (R194). -/
def narrowed (o : UnitOp) (c : Nat) : Nat :=
  (narrow (fmtOf (vFd o.word)) .rne (resolveSat (fmtOf (vFd o.word)) (wbits o.word 14 13)) (v32 c)).code

theorem vecOut_writes {k : Nat} (hk : WholeBytes (fmtOf (vFd o.word)) k) (hh : wbits o.word 10 10 = 0) (hr : o.rnd = 0) (p off : Nat)
    (xs : List (Nat × Bool)) (flags : NumFlags) (s : State) :
    VecWrites p (combAddr p off) (numBytes k (xs.map fun x => narrowed o x.1)) id s (vecOut p o off xs flags s) := by
  obtain ⟨hrne, hsame⟩ := vecRounds_rne hr p xs.length s
  unfold vecOut
  simp only [vecHist_none hh, hrne, hsame]
  rw [map_range_nth (0, false) xs fun x => (narrow (fmtOf (vFd o.word)) .rne (resolveSat (fmtOf (vFd o.word)) (wbits o.word 14 13)) (v32 x.1), x.2),
    List.map_map]
  have hw := writeElems_writes hk p off (xs.map fun x => (narrowed o x.1, x.2)) (modPair p (fun _ => pair s p) s)
  rw [List.map_map] at hw
  exact (hw.then_aside (applyNum_aside _ _ _)).after_same

theorem vecOut32_writes (hh : wbits o.word 10 10 = 0) (p off : Nat) (xs : List (Nat × Bool)) (flags : NumFlags) (s : State) :
    VecWrites p (combAddr p off) (numBytes 4 (xs.map Prod.fst)) id s (vecOut32 p o off xs flags s) := by
  unfold vecOut32
  rw [vecHist_none hh]
  exact (writeElems_writes wholeBytes_fp32 p off xs s).then_aside (applyNum_aside _ _ _)

/-! ## ADD, SUB, MUL and FMA (R195) -/

/-- The FP32 result of ADD, SUB, MUL or FMA. -/
def fp32Result (op a b c : Nat) : Nat :=
  match op with
  | 0 => add32 a b
  | 1 => sub32 a b
  | 2 => mul32 a b
  | _ => fma32 a b c

theorem elemResult_fp32 {op : Nat} (h : op ≤ 3) (imm : Val) (a b c : Nat) :
    (elemResult op false imm (v32 a) (v32 b) (v32 c)).1 = fp32Result op a b c := by
  match op, h with
  | 0, _ | 1, _ | 2, _ | 3, _ => rfl

/-- FMA alone reads its third operand. -/
theorem fp32Result_third {op : Nat} (h : op < 3) (a b c d : Nat) : fp32Result op a b c = fp32Result op a b d := by
  match op, h with
  | 0, _ | 1, _ | 2, _ => rfl

/-- Result i of an element-wise operation on FP32 operands, before it is narrowed. -/
def elemCode (s : State) (p : Nat) (o : UnitOp) (i : Nat) : Nat :=
  fp32Result (wOp o.word) (elem32 s p (xaOf o.vals) i) (elem32 s p (xbOf o.vals) i) (elem32 s p (xcOf o.vals) i)

theorem vecElemDone_writes {k : Nat} (hop : wOp o.word ≤ 3) (hf : wbits o.word 31 24 = 0) (haux : vAux o.word = 0)
    (hk : WholeBytes (fmtOf (vFd o.word)) k) (hh : wbits o.word 10 10 = 0) (hr : o.rnd = 0) (p : Nat) (s : State) :
    VecWrites p (combAddr p (xdOf o.vals)) (numBytes k ((List.range (vN o.word)).map fun i => narrowed o (elemCode s p o i))) id s
      (vecElemDone p o s) := by
  have hfa : vFa o.word = 0 := by simp only [vFa, bitsOf] at hf ⊢; omega
  have hfb : vFb o.word = 0 := by simp only [vFb, bitsOf] at hf ⊢; omega
  unfold vecElemDone
  extract_lets w n op fa fb usesB usesC one as bs cs dbl rs imm flags flags'
  have hdbl : dbl = false := by simp [dbl, doubleRate, w, hfa]
  have hfa32 : fa = .fp32 := by simp only [fa, w, hfa]; rfl
  have hfb32 : fb = .fp32 := by simp only [fb, w, hfb]; rfl
  have hone : ∀ j i, one (bitAt (vAux w) j) i = i := fun j i => by simp [one, w, haux, bitAt]
  have has : as = combElems s p .fp32 (xaOf o.vals) n := by rw [← hfa32]
  have hbs : bs = combElems s p .fp32 (xbOf o.vals) n := by
    have huses : usesB = true := by
      have : op ≤ 3 := hop
      simp only [usesB, List.contains_iff_mem, List.mem_cons]
      omega
    simp only [bs, huses, if_true, hfb32, hone, combElems]
  have hcs : op = 3 → cs = combElems s p .fp32 (xcOf o.vals) n := fun h3 => by
    simp only [cs, usesC, h3, if_true, hfb32, hone, combElems]
  have hcodes : (rs.map fun r => (r.1, r.2.1)).map (fun x => narrowed o x.1) = (List.range n).map fun i => narrowed o (elemCode s p o i) := by
    simp only [rs, List.map_map]
    refine List.map_congr_left fun i hi => congrArg (narrowed o) ?_
    have hin := List.mem_range.mp hi
    dsimp only [Function.comp_apply]
    rw [hdbl, hfa32, hfb32, read_fp32, read_fp32, read_fp32, elemResult_fp32 hop, has, hbs, nth_combElems_fp32 hin, nth_combElems_fp32 hin]
    rcases Nat.lt_or_eq_of_le hop with h | h
    · exact fp32Result_third h _ _ _ _
    · rw [hcs h, nth_combElems_fp32 hin]
      rfl
  rw [← hcodes]
  exact vecOut_writes hk hh hr p (xdOf o.vals) _ _ s

/-! ## SUM (R92, R93) -/

theorem vecSumDone_writes (hop : wOp o.word = 0x18) (hf : vFa o.word = 0) (hh : wbits o.word 10 10 = 0) (p : Nat) (s : State) :
    VecWrites p (combAddr p (xdOf o.vals))
      (numBytes 4 [vecSum32 (vN o.word) fun i => rne32 (v32 (elem32 s p (xaOf o.vals) i))]) id s (vecSumDone p o s) := by
  have hsum : (sumFlag (vN o.word) (widen .fp32 (combElems s p .fp32 (xaOf o.vals) (vN o.word)))).1
      = vecSum32 (vN o.word) fun i => rne32 (v32 (elem32 s p (xaOf o.vals) i)) := by
    refine sumFlag_fst fun i hi => ?_
    rw [widen, read_fp32, nth_combElems_fp32 hi, Nat.mod_eq_of_lt (rne32_lt _)]
  have hf32 : fmtOf (vFa o.word) = .fp32 := by rw [hf]; rfl
  unfold vecSumDone
  simp only [hop, hf32, show ¬(0x18 = 0x19) by decide, if_false]
  rw [← hsum, ← List.map_singleton (f := Prod.fst) (a := (_, anyBad (combElems s p .fp32 (xaOf o.vals) (vN o.word)) || anyBad []))]
  exact vecOut32_writes hh p (xdOf o.vals) _ _ s

/-! ## HSTORE (R99) -/

/-- What an HSTORE leaves of its pair's units: its histogram set cleared where aux[0] says so. -/
def histStored (w : Nat) (x : PairS) : PairS :=
  if bitAt (vAux w) 0 then { x with hist := SMap.dropKeys x.hist (fun k => k / 64 = wbits w 12 11) } else x

/-- The counts of the histogram set that a word names. -/
def histCounts (w : Nat) (x : PairS) : List Nat := (List.range 64).map fun b => SMap.get 0 x.hist (wbits w 12 11 * 64 + b)

theorem vecHstoreDone_writes (p : Nat) (o : UnitOp) (s : State) :
    VecWrites p (combAddr p (xdOf o.vals)) (numBytes 4 (histCounts o.word (pair s p))) (histStored o.word) s (vecHstoreDone p o s) := by
  unfold vecHstoreDone histStored
  extract_lets set counts s1
  have hw : VecWrites p (combAddr p (xdOf o.vals)) (numBytes 4 (histCounts o.word (pair s p))) id s s1 :=
    (count_vecAside p 0x21 256 s).then_writes (memWrite_pokes _ false (combBase_le_combAddr _ _) _).writes
  by_cases h : bitAt (vAux o.word) 0 = true
  · simp only [h, if_true]
    exact hw.then_pair fun x => { x with hist := SMap.dropKeys x.hist (fun k => k / 64 = set) }
  · simp only [h, if_false, Bool.false_eq_true]
    exact hw

theorem hist_histStored {w b : Nat} (hb : b < 64) (x : PairS) : SMap.get 0 (histStored w x).hist (wbits w 12 11 * 64 + b)
    = if wbits w 112 112 = 1 then 0 else SMap.get 0 x.hist (wbits w 12 11 * 64 + b) := by
  have hbit : bitAt (vAux w) 0 = decide (wbits w 112 112 = 1) := by
    rw [bitAt_eq_testBit, vAux, testBit_bitsOf, ← bitAt_eq_testBit]
    rfl
  have hset : (wbits w 12 11 * 64 + b) / 64 = wbits w 12 11 := by omega
  unfold histStored
  rw [hbit]
  by_cases h : wbits w 112 112 = 1
  · simp only [h, decide_true, if_true, SMap.get_dropKeys, hset]
  · simp only [h, decide_false, Bool.false_eq_true, if_false]

/-! ## The clauses of O19 -/

section

variable {p : Pair} {rest : List UnitOp}

/-- A number read where numbers were written in a row. -/
theorem numAt_of_mem {u : State} {k d i : Nat} {cs : List Nat} (h : u.mem = (pokeBytes (combAddr p d) (numBytes k cs) s).mem) (hi : i < cs.length) :
    numAt u (combAddr p (d + k * i)) k = cs[i] % 2 ^ (8 * k) := by
  rw [numAt_congr (fun _ _ => byteAt_congr h _), combAddr_add, numAt_pokeBytes_numBytes hi, pow_mul]
  rfl

theorem elementwise_results {op k : Nat} (h : VecHead p op o rest s) (hop : op ≤ 3) (hf : wbits o.word 31 24 = 0)
    (hk : wbits o.word 35 32 = 0 ∧ k = 4 ∨ (wbits o.word 35 32 = 1 ∨ wbits o.word 35 32 = 2) ∧ k = 2) (haux : wbits o.word 127 112 = 0)
    (hh : wbits o.word 10 10 = 0) (hr : o.rnd = 0) :
    Completes (.vecDone p) s fun u => VecLeft p o rest (xdOf o.vals) (k * (wbits o.word 79 59 + 1)) s u
      ∧ ∀ i ≤ wbits o.word 79 59, numAt u (combAddr p (xdOf o.vals + k * i)) k
          = (narrow (fmtOf (wbits o.word 35 32)) .rne (decide (wbits o.word 14 13 = 2)) (v32 (elemCode s p o i))).code % 2 ^ (8 * k) := by
  have hop' : wOp o.word ≤ 3 := h.op.trans_le hop
  obtain ⟨hwhole, hsat⟩ : WholeBytes (fmtOf (vFd o.word)) k ∧ fmtOf (vFd o.word) ≠ .e4m3 := by
    rw [vFd]
    rcases hk with ⟨h0, rfl⟩ | ⟨h1 | h2, rfl⟩
    · rw [h0]; exact ⟨wholeBytes_fp32, by decide⟩
    · rw [h1]; exact ⟨wholeBytes_bf16, by decide⟩
    · rw [h2]; exact ⟨wholeBytes_fp16, by decide⟩
  have hcode : ∀ c, narrowed o c = (narrow (fmtOf (wbits o.word 35 32)) .rne (decide (wbits o.word 14 13 = 2)) (v32 c)).code := fun c => by
    rw [narrowed, resolveSat_eq hsat, vFd]
  refine completes_vecDone (g := id) (bs := numBytes k ((List.range (vN o.word)).map fun i => narrowed o (elemCode s p o i))) h
    (by rw [numBytes_length, List.length_map, List.length_range, vN]) (fun t hm _ => ?_) fun u hm _ i hi => ?_
  · have he : vecEffect p o t = vecElemDone p o t := if_pos (by omega)
    have hcodes : ∀ i, elemCode s p o i = elemCode t p o i := fun i => by simp only [elemCode, elem32_congr hm]
    simp only [he, hcodes]
    exact vecElemDone_writes hop' hf haux hwhole hh hr p t
  · have hlt : i < ((List.range (vN o.word)).map fun i => narrowed o (elemCode s p o i)).length := by
      rw [List.length_map, List.length_range, vN]
      omega
    rw [numAt_of_mem hm hlt, List.getElem_map, List.getElem_range, hcode]

theorem sum_result (h : VecHead p 0x18 o rest s) (hf : wbits o.word 27 24 = 0) (hh : wbits o.word 10 10 = 0) :
    Completes (.vecDone p) s fun u => VecLeft p o rest (xdOf o.vals) 4 s u
      ∧ numAt u (combAddr p (xdOf o.vals)) 4
          = vecSum32 (wbits o.word 79 59 + 1) (fun i => rne32 (v32 (elem32 s p (xaOf o.vals) i))) % 2 ^ 32 := by
  have hop : wOp o.word = 0x18 := h.op
  refine completes_vecDone (g := id) h (numBytes_length 4 [vecSum32 (vN o.word) fun i => rne32 (v32 (elem32 s p (xaOf o.vals) i))])
    (fun t hm _ => ?_) fun u hm _ => ?_
  · have he : vecEffect p o t = vecSumDone p o t := by simp [vecEffect, hop]
    rw [he]
    simp only [← elem32_congr hm]
    exact vecSumDone_writes hop hf hh p t
  · have hr := numAt_of_mem (i := 0) hm Nat.one_pos
    rwa [Nat.mul_zero, Nat.add_zero, List.getElem_singleton] at hr

theorem hstore_counts (h : VecHead p 0x2B o rest s)
    (hlt : ∀ b < 64, SMap.get 0 (pair s p).hist (wbits o.word 12 11 * 64 + b) < 2 ^ 32) :
    Completes (.vecDone p) s fun u => VecLeft p o rest (xdOf o.vals) 256 s u
      ∧ ∀ b < 64, numAt u (combAddr p (xdOf o.vals + 4 * b)) 4 = SMap.get 0 (pair s p).hist (wbits o.word 12 11 * 64 + b)
        ∧ SMap.get 0 (pair u p).hist (wbits o.word 12 11 * 64 + b)
          = if wbits o.word 112 112 = 1 then 0 else SMap.get 0 (pair s p).hist (wbits o.word 12 11 * 64 + b) := by
  have hop : wOp o.word = 0x2B := h.op
  refine completes_vecDone (g := histStored o.word) (bs := numBytes 4 (histCounts o.word (pair s p))) h
    (by rw [numBytes_length, histCounts, List.length_map, List.length_range]) (fun t _ hp => ?_) fun u hm hu b hb => ⟨?_, ?_⟩
  · have he : vecEffect p o t = vecHstoreDone p o t := by simp [vecEffect, hop]
    rw [he, ← hp]
    exact vecHstoreDone_writes p o t
  · have hlen : b < (histCounts o.word (pair s p)).length := by rwa [histCounts, List.length_map, List.length_range]
    rw [numAt_of_mem hm hlen]
    simp only [histCounts, List.getElem_map, List.getElem_range]
    exact Nat.mod_eq_of_lt (hlt b hb)
  · rw [hu]
    exact hist_histStored hb _

end

/-- Settles O19: each operation writes its results in a row, reading what the comb held before. -/
theorem vecResults : Obligations.VecResults := by
  refine ⟨fun p o rest op k s h hop hf hk haux hh hr => ?_, fun _ _ _ _ h hf hh => sum_result h hf hh,
    fun _ _ _ _ h hlt => hstore_counts h hlt⟩
  obtain ⟨u, hu, hleft, hres⟩ := elementwise_results h hop hf hk haux hh hr
  refine ⟨u, hu, hleft, fun i hi => ?_⟩
  have hop' : wOp o.word = op := h.op
  rw [show nth 0 o.vals 0 = xdOf o.vals from rfl, hres i hi, elemCode, hop']
  rfl

end Sys2Proof.Machine

/-! SUPPORT. States whose memory reads alike (R20, R211, R218): what the same reads and writes give in each. -/

namespace Sys2Proof.Machine

variable {rs : List Reg} {p : Nat} {g : PairS → PairS} {s t s' t' : State}

/-- The memory of t reads as that of s does: the same cells and marks, and the same addresses offline. -/
structure MemAlike (s t : State) : Prop where
  mem : t.mem = s.mem
  poison : t.poison = s.poison
  offline : ∀ a, Machine.offline t a = Machine.offline s a

/-- Where memory is offline, the states of the hives and of their memory say (R20, R222). -/
theorem Keeps.offline (h : Keeps rs [] s t) (hh : .RL_HIVE_h ∉ rs) (hm : .MEM_STATUS ∉ rs) (a : Nat) :
    Machine.offline t a = Machine.offline s a := by
  have h1 : ∀ i, Machine.fld t F.RL_HIVE_h_state i = Machine.fld s F.RL_HIVE_h_state i := fun _ => h.fld hh List.not_mem_nil
  have h2 : ∀ i, Machine.fld t F.MEM_STATUS_near_ready i = Machine.fld s F.MEM_STATUS_near_ready i := fun _ => h.fld hm List.not_mem_nil
  have h3 : ∀ i, Machine.fld t F.MEM_STATUS_chan_failed i = Machine.fld s F.MEM_STATUS_chan_failed i := fun _ => h.fld hm List.not_mem_nil
  have hu : ∀ i, underReset t i = underReset s i := fun i => underReset_congr (h1 i) (h2 i)
  unfold Machine.offline channelFailed
  cases tierOf a with
  | far i => dsimp only; rw [hu, h3]
  | near i => exact hu i
  | comb _ | regs | unmapped => rfl

namespace MemAlike

/-- A change that leaves cells, marks and the states of hives and memory alone. -/
theorem of_keeps (hm : t.mem = s.mem) (hp : t.poison = s.poison) (hk : Keeps rs [] s t) (hh : .RL_HIVE_h ∉ rs) (hs : .MEM_STATUS ∉ rs) :
    MemAlike s t := ⟨hm, hp, hk.offline hh hs⟩

/-- Two changes that give alike states the same cells and marks, and leave the states of hives and memory alone. -/
theorem beside (h : MemAlike s t) (hs : BesideMem rs [] s s') (ht : BesideMem rs [] t t') (hh : .RL_HIVE_h ∉ rs) (hr : .MEM_STATUS ∉ rs)
    (hm : t'.mem = s'.mem ∧ t'.poison = s'.poison) : MemAlike s' t' :=
  ⟨hm.1, hm.2, fun a => (ht.keeps.offline hh hr a).trans ((h.offline a).trans (hs.keeps.offline hh hr a).symm)⟩

section Reads

variable (h : MemAlike s t)
include h

theorem byteAt (a : Nat) : Machine.byteAt t a = Machine.byteAt s a := byteAt_congr h.mem a

theorem numAt (a n : Nat) : Machine.numAt t a n = Machine.numAt s a n := numAt_congr fun _ _ => h.byteAt _

theorem marked (x : Nat) : Machine.marked t x = Machine.marked s x := by simp only [Machine.marked, h.poison]

theorem poisoned (a n : Nat) : Machine.poisoned t a n = Machine.poisoned s a n := by simp only [Machine.poisoned, h.marked, h.offline]

theorem readBytes (a n : Nat) : Machine.readBytes t a n = Machine.readBytes s a n := by simp only [Machine.readBytes, h.offline, h.byteAt]

theorem dirFull (a : Nat) : Machine.dirFull t a = Machine.dirFull s a := by
  unfold Machine.dirFull dirEntries
  rw [h.poison]

theorem gatherBlock (o stride width kb nb : Nat) :
    Machine.gatherBlock t o stride width kb nb = Machine.gatherBlock s o stride width kb nb := by
  simp only [Machine.gatherBlock, h.readBytes, h.poisoned]

end Reads

end MemAlike

theorem Aside.memAlike (h : Aside rs [] s t) (hh : .RL_HIVE_h ∉ rs) (hs : .MEM_STATUS ∉ rs) : MemAlike s t :=
  .of_keeps h.mem h.poison h.2 hh hs

theorem ReedTo.memAlike (h : ReedTo rs p g s t) (hh : .RL_HIVE_h ∉ rs) (hs : .MEM_STATUS ∉ rs) : MemAlike s t :=
  .of_keeps (congrArg State.mem h.rest :) (congrArg State.poison h.rest :) h.regs hh hs

/-! ## Writes -/

/-- The registers that a write of memory may change: what it meets is counted and logged (R20, R219, R221). -/
abbrev writeRegs : List Reg := [.MEM_POISON_REC, .MEM_EVENTS, .RL_LOG_PTR, .RL_EVENTS]

/-- A write that finds the directory full (R219). -/
theorem directoryFull_aside (h : Nat) (s : State) :
    Aside writeRegs [] s (escalate h 0x06 255 (raise F.MEM_EVENTS_poison_dir_full h s)) :=
  (Aside.refl.raise (.inl (by decide))).trans ((escalate_aside _ _ _ _).mono (by simp) (by simp))

theorem sectorPoked_besideMem (a : Nat) (bs : List Nat) (s : State) : BesideMem rs [] s (sectorPoked a bs s) :=
  (fillGranule_besideMem a s).trans (pokeBytes_besideMem a bs _)

/-- What a write within one sector is, where k puts its bytes: dropped where the sector is offline (R20) or the directory has no
room for its poison (R219). -/
def unlessLost (a : Nat) (bad : Bool) (k : State → State) (s : State) : State :=
  if offline s a then noteOffline a 0 false s
  else if bad && !marked s (a / 64) && dirFull s a then
    match ownerHive a with
    | some h => escalate h 0x06 255 (raise F.MEM_EVENTS_poison_dir_full h s)
    | none => s
  else k s

theorem unlessLost_beside {k : State → State} (hk : ∀ s, BesideMem writeRegs [] s (k s)) (a : Nat) (bad : Bool) (s : State) :
    BesideMem writeRegs [] s (unlessLost a bad k s) := by
  unfold unlessLost
  split
  · exact (noteOffline_aside _ _ _ _).besideMem
  · split
    · split
      · exact (directoryFull_aside _ s).besideMem
      · exact Aside.refl.besideMem
    · exact hk s

/-- The bytes put in a sector, and its mark (R218). -/
def sectorWritten (a : Nat) (bs : List Nat) (bad : Bool) (s : State) : State :=
  if bad then setMark (a / 64) true (sectorPoked a bs s)
  else if bs.length = 64 then setMark (a / 64) false (sectorPoked a bs s)
  else sectorPoked a bs s

/-- The bytes of a piece put in its sector, and its poison marked. -/
def pieceWritten (x : Nat × List Nat × Bool) (s : State) : State :=
  if x.2.2 then setMark (x.1 / 64) true (sectorPoked x.1 x.2.1 s) else sectorPoked x.1 x.2.1 s

theorem writeSector_eq (a : Nat) (bs : List Nat) (bad : Bool) (s : State) :
    writeSector a bs bad s = unlessLost a bad (sectorWritten a bs bad) s := rfl

theorem putPiece_eq (x : Nat × List Nat × Bool) (s : State) : putPiece x s = unlessLost x.1 x.2.2 (pieceWritten x) s := rfl

theorem sectorWritten_beside (a : Nat) (bs : List Nat) (bad : Bool) (s : State) : BesideMem writeRegs [] s (sectorWritten a bs bad s) := by
  unfold sectorWritten
  split_ifs
  · exact (sectorPoked_besideMem a bs s).trans (setMark_besideMem _ _ _)
  · exact (sectorPoked_besideMem a bs s).trans (setMark_besideMem _ _ _)
  · exact sectorPoked_besideMem a bs s

theorem pieceWritten_beside (x : Nat × List Nat × Bool) (s : State) : BesideMem writeRegs [] s (pieceWritten x s) := by
  unfold pieceWritten
  split_ifs
  · exact (sectorPoked_besideMem _ _ s).trans (setMark_besideMem _ _ _)
  · exact sectorPoked_besideMem _ _ s

/-- Whatever the part of a write in one sector meets, it changes memory and counts and logs that alone. -/
theorem writeSector_beside (a : Nat) (bs : List Nat) (bad : Bool) (s : State) : BesideMem writeRegs [] s (writeSector a bs bad s) := by
  rw [writeSector_eq]
  exact unlessLost_beside (sectorWritten_beside a bs bad) a bad s

theorem putPiece_beside (x : Nat × List Nat × Bool) (s : State) : BesideMem writeRegs [] s (putPiece x s) := by
  rw [putPiece_eq]
  exact unlessLost_beside (pieceWritten_beside x) x.1 x.2.2 s

theorem writeBytes_beside (n a : Nat) (bs : List Nat) (bad : Bool) (s : State) : BesideMem writeRegs [] s (writeBytes n a bs bad s) := by
  induction n generalizing a bs s with
  | zero => exact Aside.refl.besideMem
  | succ n ih =>
    cases bs with
    | nil => exact Aside.refl.besideMem
    | cons b bs => exact (writeSector_beside _ _ _ s).trans (ih _ _ _)

theorem memWrite_beside (a : Nat) (bs : List Nat) (bad : Bool) (s : State) : BesideMem writeRegs [] s (memWrite a bs bad s) :=
  writeBytes_beside _ a bs bad s

theorem scatter_beside (pieces : List (Nat × List Nat × Bool)) (s : State) : BesideMem writeRegs [] s (scatter pieces s) :=
  (foldl_besideMem (fun t x => putPiece_beside x t) _ s).trans ((clearWhole_besideMem _ _).mono (by simp) (by simp))

namespace MemAlike

theorem sectorPoked (h : MemAlike s t) (a : Nat) (bs : List Nat) : MemAlike (Machine.sectorPoked a bs s) (Machine.sectorPoked a bs t) := by
  refine h.beside (rs := []) (sectorPoked_besideMem a bs s) (sectorPoked_besideMem a bs t) (by decide) (by decide)
    ⟨pokeBytes_mem_congr ?_ a bs, ?_⟩
  · rw [fillGranule_mem, fillGranule_mem, h.mem]
  · simp only [Machine.sectorPoked, pokeBytes_poison, fillGranule_poison, h.poison]

theorem setMark (h : MemAlike s t) (x : Nat) (v : Bool) : MemAlike (Machine.setMark x v s) (Machine.setMark x v t) :=
  h.beside (rs := []) (setMark_besideMem x v s) (setMark_besideMem x v t) (by decide) (by decide)
    ⟨h.mem, congrArg (fun m => SMap.set false m x v) h.poison⟩

/-- Two changes that leave cells, marks and the states of hives and memory alone. -/
theorem aside (h : MemAlike s t) (hs : Aside rs [] s s') (ht : Aside rs [] t t') (hh : .RL_HIVE_h ∉ rs) (hr : .MEM_STATUS ∉ rs) :
    MemAlike s' t' :=
  h.beside hs.besideMem ht.besideMem hh hr
    ⟨ht.mem.trans (h.mem.trans hs.mem.symm), ht.poison.trans (h.poison.trans hs.poison.symm)⟩

theorem unlessLost {k : State → State} (hk : MemAlike (k s) (k t)) (h : MemAlike s t) (a : Nat) (bad : Bool) :
    MemAlike (Machine.unlessLost a bad k s) (Machine.unlessLost a bad k t) := by
  unfold Machine.unlessLost
  rw [h.offline, h.marked, h.dirFull]
  split
  · exact h.aside (noteOffline_aside _ _ _ s) (noteOffline_aside _ _ _ t) (by decide) (by decide)
  · split
    · split
      · exact h.aside (directoryFull_aside _ s) (directoryFull_aside _ t) (by decide) (by decide)
      · exact h
    · exact hk

theorem writeSector (h : MemAlike s t) (a : Nat) (bs : List Nat) (bad : Bool) :
    MemAlike (Machine.writeSector a bs bad s) (Machine.writeSector a bs bad t) := by
  rw [writeSector_eq, writeSector_eq]
  refine unlessLost ?_ h a bad
  unfold sectorWritten
  split_ifs
  · exact (h.sectorPoked a bs).setMark _ _
  · exact (h.sectorPoked a bs).setMark _ _
  · exact h.sectorPoked a bs

theorem putPiece (h : MemAlike s t) (x : Nat × List Nat × Bool) : MemAlike (Machine.putPiece x s) (Machine.putPiece x t) := by
  rw [putPiece_eq, putPiece_eq]
  refine unlessLost ?_ h x.1 x.2.2
  unfold pieceWritten
  split_ifs
  · exact (h.sectorPoked _ _).setMark _ _
  · exact h.sectorPoked _ _

theorem memWrite (h : MemAlike s t) (a : Nat) (bs : List Nat) (bad : Bool) :
    MemAlike (Machine.memWrite a bs bad s) (Machine.memWrite a bs bad t) := by
  have hw : ∀ n a bs {s t : State}, MemAlike s t → MemAlike (writeBytes n a bs bad s) (writeBytes n a bs bad t) := by
    intro n
    induction n with
    | zero => exact fun _ _ _ _ h => h
    | succ n ih =>
      intro a bs s t h
      cases bs with
      | nil => exact h
      | cons b bs => exact ih _ _ (h.writeSector _ _ _)
  exact hw _ _ _ h

theorem clearWhole (h : MemAlike s t) (cut : List (Nat × List Nat × Bool)) :
    MemAlike (Machine.clearWhole cut s) (Machine.clearWhole cut t) := by
  unfold Machine.clearWhole
  refine List.foldl_rel h fun e _ u v huv => ?_
  rw [huv.offline]
  split
  · exact huv.setMark _ _
  · exact huv

theorem scatter (h : MemAlike s t) (pieces : List (Nat × List Nat × Bool)) :
    MemAlike (Machine.scatter pieces s) (Machine.scatter pieces t) :=
  clearWhole (List.foldl_rel h fun x _ _ _ huv => huv.putPiece x) _

end MemAlike

end Sys2Proof.Machine

/-! SUPPORT. The issue of a FORAGE (R116, R137, R183): its descriptor read after the fetch, its checks passed, and its place behind the
walks or list functions accepted before it. -/

namespace Sys2Proof.Machine

variable {p w fn : Nat} {s t : State}

/-! ## The state after the fetch -/

/-- The registers that a fetch or an issue may change: counters and event records. -/
abbrev fetchRegs : List Reg := .CTR_P_n :: .CTR_P_OVF :: .CTR_P_SAMPLE_LAST :: eventRegs

/-- A clean fetch changes the buffer of its pair, counts, and no other unit. -/
theorem fetch_pairAside (h : (fetchWord p (seqPc s p) s).2.1 = false) :
    ∃ b, PairAside fetchRegs [] p (fun x => { x with ibuf := b }) s (fetchWord p (seqPc s p) s).2.2 := by
  obtain ⟨b, hb⟩ := fetch_aside h
  refine ⟨b, (PairAside.modPair _ s).trans (hb.toPair.mono (by simp) fun k hk => .inl ?_)⟩
  rcases bank_reg hk with e | e | e <;> simp [e]

theorem PairAside.memAlike {rs : List Reg} {g : PairS → PairS} (h : PairAside rs [] p g s t) (hh : .RL_HIVE_h ∉ rs)
    (hs : .MEM_STATUS ∉ rs) : MemAlike s t :=
  .of_keeps (congrArg State.mem h.rest :) (congrArg State.poison h.rest :) h.regs hh hs

/-- The words of a descriptor depend on memory and the pair's scalars. -/
theorem descWords_congr (h : MemAlike s t) (hs : ∀ i, scalar t p i = scalar s p i) (n : Nat) : descWords t p w n = descWords s p w n := by
  simp only [descWords, addend, hs, h.numAt]

theorem forageFn_congr (h : MemAlike s t) : forageFn t p w = forageFn s p w := by
  simp only [forageFn, h.numAt, h.poisoned]

/-! ## Its checks -/

section Checks

variable (h : Forages p w fn s)
include h

theorem forages_defined : definedOp w = true := by
  have hc : wCls w = 2 := h.word.1
  have ho : wOp w = 0 := h.word.2.1
  simp [definedOp, hc, ho, definedOps]

theorem forages_selects (h1 : 1 ≤ fn) (h8 : fn ≤ 8) : forageFn s p w = some fn := by
  simp [forageFn, h.aligned, h.inside, h.clean, h.fn, h1, h8]

theorem forages_owned (ht : MemAlike s t) (h1 : 1 ≤ fn) (h8 : fn ≤ 8) : isForage p fn w t = true := by
  have hc : wCls w = 2 := h.word.1
  have ho : wOp w = 0 := h.word.2.1
  simp [isForage, hc, ho, forageFn_congr ht, forages_selects h h1 h8]

/-- With a valid descriptor, its ranges in place and room behind what waits, the instruction joins its queue. -/
theorem forages_issue {valid inRange : List Nat → Bool} {room : PairS → Bool} {push : UnitOp → PairS → PairS} (ht : MemAlike s t)
    (hd : descWords t p w 8 = descWords s p w 8) (h1 : 1 ≤ fn) (h8 : fn ≤ 8) (hv : valid (descWords s p w 8) = true)
    (hr : inRange (descWords s p w 8) = true) (hroom : room (pair t p) = true) :
    issueForage p valid inRange room push w t
      = .done (modPair p (push { word := w, index := seqPc t p, desc := descWords s p w 8, seq := (pair t p).seq }) t) none := by
  have ho : onlyBits w [(9, 0), (22, 16), (58, 24)] = true := h.word.2.2
  have hf : forageFn t p w = some fn := (forageFn_congr ht).trans (forages_selects h h1 h8)
  have hp : poisoned t (combAddr p (descOff w)) 64 = false := (ht.poisoned _ _).trans h.clean
  simp [issueForage, checks, ho, h.sem, h.aligned, h.inside, hp, hf, hd, hv, hr, hroom]

end Checks

/-! ## Its acceptance -/

/-- A FORAGE as its queue takes it. -/
def forageOp (p w : Nat) (s : State) : UnitOp := { word := w, index := seqPc s p, desc := descWords s p w 8, seq := (pair s p).seq }

/-- A FORAGE that passes its checks issues, and its pair's units change by its joining its queue alone. -/
theorem forage_accepted {c : Instr} {f : State → State} {valid inRange : List Nat → Bool} {room : PairS → Bool}
    {push : UnitOp → PairS → PairS} (h : Forages p w fn s) (h1 : 1 ≤ fn) (h8 : fn ≤ 8) (he : exec c s = .next (whenClocked f s))
    (hf : f s = issueWith p (isForage p fn) (issueForage p valid inRange room push) s) (hv : valid (descWords s p w 8) = true)
    (hr : inRange (descWords s p w 8) = true) (hroom : ∀ b, room { pair s p with ibuf := b } = true) (hseq : ∀ o x, (push o x).seq = x.seq) :
    Completes c s fun u => MovesTo p (seqPc s p + 1) s u ∧ IssueFrame p [] s u
      ∧ ∃ b, pair u p = issuedUnits (push (forageOp p w s)) b (seqPc s p) (seqPc s p + 1) (pair s p) := by
  have hclean := h.issues.clean
  obtain ⟨b, hfetch⟩ := fetch_pairAside hclean
  have hpc : seqPc (fetchWord p (seqPc s p) s).2.2 p = seqPc s p := fetch_fld hclean (by decide) (not_bank (by decide))
  have hstate : seqState (fetchWord p (seqPc s p) s).2.2 p = seqState s p := fetch_fld hclean (by decide) (not_bank (by decide))
  have halike := hfetch.memAlike (by decide) (by decide)
  have hdesc := descWords_congr (p := p) (w := w) halike (fun i => fetch_fld hclean (by decide) (not_bank (by decide))) 8
  have hbody := forages_issue h (push := push) halike hdesc h1 h8 hv hr (by rw [hfetch.own]; exact hroom b)
  rw [hpc, show (pair (fetchWord p (seqPc s p) s).2.2 p).seq = (pair s p).seq by rw [hfetch.own]] at hbody
  obtain ⟨b, hexec, hown⟩ := issue_completes (ks := []) he hf h.issues (forages_defined h) (forages_owned h halike h1 h8) hbody
    (PairAside.modPair _ _)
  refine ⟨_, hexec, ⟨issued_pc _ _ _ _, ?_, ?_⟩, hown.frame ((issued_state _ _ _ _).trans hstate), b, hown.own⟩
  · exact congrArg PairS.lastIssued hown.own
  · rw [hown.own]
    exact congrArg (· + 1) (hseq _ _)

/-- A list function whose descriptor is valid and in place is queued. -/
theorem list_accepted {i : Pair → Instr} {f : Nat → State → State} {fn : Nat} {valid : List Nat → Bool}
    {inRange all : Nat → List Nat → Bool}
    (he : ∀ (p : Pair) s, exec (i p) s = .next (whenClocked (f p) s)) (hf : ∀ p s, f p s = issueList p fn valid (inRange p) s)
    (hfn : 1 ≤ fn ∧ fn ≤ 8) (hall : ∀ p ws, all p ws = (valid ws && inRange p ws)) : ListQueues i fn all := by
  intro p w s h hv hal hoff hroom
  obtain ⟨hvalid, hrange⟩ := (Bool.and_eq_true _ _).mp ((hall p _).symm.trans hv)
  have hvalid' : (valid (descWords s p w 8) && resultAligned (descWords s p w 8)) = true := by
    rw [hvalid, resultAligned, decide_eq_true hal, Bool.true_and]
  have hrange' : (inRange p (descWords s p w 8) && resultOk (descWords s p w 8)) = true := by
    rw [hrange, resultOk, inComb, decide_eq_true hoff, Bool.true_and]
  obtain ⟨u, hu, hmoves, hframe, b, hown⟩ :=
    forage_accepted h hfn.1 hfn.2 (he p s) (hf p s) hvalid' hrange' (fun _ => decide_eq_true hroom) (fun _ _ => rfl)
  exact ⟨u, hu, hmoves, hframe, by rw [hown]; rfl⟩

theorem walk_accepted (p : Pair) (w : Nat) (s : State) (h : Forages p w 1 s) (hv : walkValid (descWords s p w 8) = true)
    (hr : walkRange p (descWords s p w 8) = true) (hroom : (pair s p).walks.length < 4) :
    Completes (.walk p) s fun u =>
      MovesTo p (seqPc s p + 1) s u ∧ IssueFrame p [] s u
        ∧ (pair u p).walks = (pair s p).walks ++ [forageOp p w s]
        ∧ ((pair s p).walks ≠ [] → (pair u p).walk = (pair s p).walk)
        ∧ ((pair s p).walks = [] → (pair u p).walk = { body := nth 0 (descWords s p w 8) 2 }) := by
  obtain ⟨u, hu, hmoves, hframe, b, hown⟩ :=
    forage_accepted (c := .walk p) (f := walk p) (room := fun x => x.walks.length < 4) h (by decide) (by decide) rfl rfl hv hr
      (fun _ => decide_eq_true hroom) (fun _ _ => rfl)
  refine ⟨u, hu, hmoves, hframe, by rw [hown]; rfl, fun hne => ?_, fun hnil => ?_⟩
  · rw [hown]
    exact if_neg (by simpa using hne)
  · rw [hown]
    exact if_pos (by simpa using hnil)

/-- Settles O15: each descriptor's checks are those of the function it selects. -/
theorem forageIssue : Obligations.ForageIssue := by
  refine ⟨walk_accepted, list_accepted (f := merge) (fun _ _ => rfl) (fun _ _ => rfl) (by decide) fun p ws => ?_,
    list_accepted (f := prefixSum) (fun _ _ => rfl) (fun _ _ => rfl) (by decide) fun p ws => ?_,
    list_accepted (f := sort) (fun _ _ => rfl) (fun _ _ => rfl) (by decide) fun p ws => ?_,
    list_accepted (f := pack) (fun _ _ => rfl) (fun _ _ => rfl) (by decide) fun p ws => rfl,
    list_accepted (f := unpack) (fun _ _ => rfl) (fun _ _ => rfl) (by decide) fun p ws => rfl,
    list_accepted (f := combine) (fun _ _ => rfl) (fun _ _ => rfl) (by decide) fun p ws => ?_,
    list_accepted (f := encode) (fun _ _ => rfl) (fun _ _ => rfl) (by decide) fun p ws => ?_⟩
  all_goals simp only [Bool.and_assoc]

end Sys2Proof.Machine

/-! SUPPORT. The list functions as they run (R140–R145): what they leave alone beside memory, and that what they end with depends on
what memory reads as alone. -/

namespace Sys2Proof.Machine

variable {p : Nat} {s t : State}

/-! ## What a list function leaves alone -/

/-- The registers that the forager's work may change: its events and counts, the counters, what memory meets, the log. -/
abbrev listRegs : List Reg := .FORAGER_SPARSE :: reedRegs

theorem count_listAside (p code n : Nat) (s : State) : Aside listRegs [] s (count p code n s) :=
  (count_aside p code n s).mono (by simp) fun k hk => .inl (by rcases bank_reg hk with e | e | e <;> simp [e])

/-- A condition of the forager: its event and count, and its escalation where that is enabled. -/
theorem condition_aside {f g : Fld} (hf : f.reg ∈ listRegs) (hg : g.reg ∈ listRegs) (c : Bool) (p n h cause : Nat) (s : State) :
    Aside listRegs [] s
      (if c then escalate h cause p (satAddFld g p n (raise f p s)) else satAddFld g p n (raise f p s)) := by
  have h1 : Aside listRegs [] s (satAddFld g p n (raise f p s)) := (Aside.refl.raise (.inl hf)).satAddFld n (.inl hg)
  exact .ite (h1.trans ((escalate_aside _ _ _ _).mono (by simp) (by simp))) h1

theorem listOrder_aside (p : Nat) (s : State) : Aside listRegs [] s (listOrder p s) :=
  condition_aside (by decide) (by decide) _ p 1 _ _ s

theorem sparseRange_aside (p : Nat) (s : State) : Aside listRegs [] s (sparseRange p s) :=
  condition_aside (by decide) (by decide) _ p 1 _ _ s

theorem noteOfflineRange_listAside (a n rq : Nat) (r : Bool) (s : State) : Aside listRegs [] s (noteOfflineRange a n rq r s) :=
  (noteOfflineRange_aside a n rq r s).mono (by simp) (by simp)

/-- What the forager's work leaves alone: beside memory, all but listRegs, the log, the records and what is sent. -/
abbrev ListKeeps (s u : State) : Prop := BesideMem listRegs [] s u

theorem memWrite_keeps (a : Nat) (bs : List Nat) (bad : Bool) (s : State) : ListKeeps s (memWrite a bs bad s) :=
  (memWrite_beside a bs bad s).mono (by simp) (by simp)

theorem scatter_keeps (pieces : List (Nat × List Nat × Bool)) (s : State) : ListKeeps s (scatter pieces s) :=
  (scatter_beside pieces s).mono (by simp) (by simp)

theorem count_keeps (p code n : Nat) (s : State) : ListKeeps s (count p code n s) := (count_listAside p code n s).besideMem

theorem mergeDone_keeps (p : Nat) (ws : List Nat) (s : State) : ListKeeps s (mergeDone p ws s).2 := by
  unfold mergeDone
  split
  dsimp only
  have hw : ∀ a bs, ListKeeps s (memWrite a bs false (count p 0x24 (4 * (mergeA ws + mergeB ws)) s)) := fun _ _ =>
    (count_keeps p _ _ s).trans (memWrite_keeps _ _ _ _)
  split
  · exact (hw _ _).trans (listOrder_aside p _).besideMem
  · exact hw _ _

theorem prefixDone_keeps (p : Nat) (ws : List Nat) (s : State) : ListKeeps s (prefixDone p ws s).2.1 := by
  unfold prefixDone
  extract_lets
  split
  exact (scatter_keeps _ s).trans (count_keeps p _ _ _)

theorem sortDone_keeps (p : Nat) (ws : List Nat) (s : State) : ListKeeps s (sortDone p ws s).2 := by
  unfold sortDone
  extract_lets
  split
  · exact Aside.refl.besideMem
  · have habsent : ∀ n t, ListKeeps t (iter n t fun _ t => sparseRange p t) := fun n t =>
      foldl_besideMem (fun u _ => (sparseRange_aside p u).besideMem) _ t
    exact (scatter_keeps _ s).trans ((memWrite_keeps _ _ _ _).trans ((memWrite_keeps _ _ _ _).trans ((memWrite_keeps _ _ _ _).trans
      ((memWrite_keeps _ _ _ _).trans ((habsent _ _).trans (count_keeps p _ _ _))))))

theorem packMove_keeps (p : Nat) (back : Bool) (ws : List Nat) (s : State) : ListKeeps s (packMove p back ws s).2 := by
  unfold packMove
  extract_lets
  split
  · exact Aside.refl.besideMem
  · exact Aside.refl.besideMem
  · exact (scatter_keeps _ s).trans (count_keeps p _ _ _)

/-- The pieces that one record of COMBINE writes, of its source row x (R144). -/
def combinePieces (ws : List Nat) (pos src : Nat) (s : State) (x : List Nat × Bool) : List (Nat × List Nat × Bool) :=
  let dst := nth 0 ws 2 + pos * combineRow ws
  (List.range (combineRow ws / 4)).map fun k =>
    (dst + 4 * k, natLe 4 (add32 (numAt s (dst + 4 * k) 4) (leNat ((x.1.drop (4 * k)).take 4))),
      poisoned s (dst + 4 * k) 4 || (!x.2 && poisoned s (src + 4 * k) 4))

/-- Stated of a variable in place of the source row's read: the check of the equation then does not go into where the row lies. -/
theorem combineApply_eq_of {f : Nat → List Nat → Nat → Nat → State → State} {row : State → Nat → Nat → Nat → List Nat × Bool}
    (hf : combineApply = f) (hrow : combineSource = row) (p : Nat) (ws : List Nat) (pos src : Nat) (s : State) :
    f p ws pos src s = scatter (combinePieces ws pos src s (row s p src (combineRow ws))) s := by
  delta combineApply at hf
  rw [hrow] at hf
  subst hf
  rfl

theorem combineApply_eq (p : Nat) (ws : List Nat) (pos src : Nat) (s : State) :
    combineApply p ws pos src s = scatter (combinePieces ws pos src s (combineSource s p src (combineRow ws))) s :=
  combineApply_eq_of rfl rfl p ws pos src s

theorem combineApply_keeps (p : Nat) (ws : List Nat) (pos src : Nat) (s : State) : ListKeeps s (combineApply p ws pos src s) := by
  rw [combineApply_eq]
  exact scatter_keeps _ s

theorem combineStep_keeps (p : Nat) (ws : List Nat) (i : Nat) (c : CombineRun) : ListKeeps c.state (combineStep p ws i c).state := by
  unfold combineStep
  extract_lets
  split_ifs
  · exact Aside.refl.besideMem
  · exact Aside.refl.besideMem
  · exact (listOrder_aside p _).besideMem
  · exact (sparseRange_aside p _).besideMem
  · exact combineApply_keeps p ws _ _ _

theorem combineDone_keeps (p : Nat) (ws : List Nat) (s : State) : ListKeeps s (combineDone p ws s).2 := by
  have hrun : ListKeeps s (iter (combineN ws) ({ state := s } : CombineRun) (combineStep p ws)).state :=
    foldl_invariant (P := fun c : CombineRun => ListKeeps s c.state) (fun c i h => h.trans (combineStep_keeps p ws i c)) _
      Aside.refl.besideMem
  exact hrun.trans (count_keeps p _ _ _)

theorem encodeTile_keeps (d : EncodeD) (c : EncodeRun) : ListKeeps c.state (encodeTile d c).state :=
  (scatter_keeps _ c.state).trans (memWrite_keeps _ _ _ _)

theorem encodeUpTo_keeps (d : EncodeD) (n : Nat) (c : EncodeRun) : ListKeeps c.state (encodeUpTo d n c).state :=
  foldl_invariant (P := fun x : EncodeRun => ListKeeps c.state x.state) (fun x _ h => h.trans (encodeTile_keeps d x)) _
    Aside.refl.besideMem

theorem encodeStep_keeps (p : Nat) (d : EncodeD) (i : Nat) (c : EncodeRun) : ListKeeps c.state (encodeStep p d i c).state := by
  unfold encodeStep
  extract_lets
  split_ifs
  · exact Aside.refl.besideMem
  · exact Aside.refl.besideMem
  · exact Aside.refl.besideMem
  · exact (sparseRange_aside p _).besideMem
  · exact (listOrder_aside p _).besideMem
  · exact encodeUpTo_keeps d _ c

theorem encodeDone_keeps (p : Nat) (ws : List Nat) (s : State) : ListKeeps s (encodeDone p ws s).2 := by
  unfold encodeDone
  extract_lets d c c'
  have hrun : ListKeeps s c.state :=
    foldl_invariant (P := fun c : EncodeRun => ListKeeps s c.state) (fun c i h => h.trans (encodeStep_keeps p d i c)) _
      Aside.refl.besideMem
  refine BesideMem.trans ?_ (count_keeps p _ _ _)
  unfold c'
  split
  · exact hrun.trans (encodeUpTo_keeps d _ c)
  · exact hrun

/-- Whatever function an accepted descriptor selects, its run changes memory, and counts and logs what it meets. -/
theorem runList_keeps (p : Nat) (o : UnitOp) (s : State) : ListKeeps s (runList p o s).2.1 := by
  unfold runList
  extract_lets
  split
  · exact mergeDone_keeps p _ s
  · exact prefixDone_keeps p _ s
  · exact sortDone_keeps p _ s
  · exact packMove_keeps p false _ s
  · exact packMove_keeps p true _ s
  · exact combineDone_keeps p _ s
  · exact encodeDone_keeps p _ s

/-! ## What a list function ends with -/

section Ends

variable (h : MemAlike s t)
include h

theorem head_alike (x : Reader) : x.head t = x.head s := by
  simp only [Reader.head, h.poisoned, h.numAt]

theorem mergeGo_alike (op n : Nat) (a b : Reader) (out : List Nat) (rep : Nat) : mergeGo t op n a b out rep = mergeGo s op n a b out rep := by
  induction n generalizing a b out rep with
  | zero => rfl
  | succ n ih => simp only [mergeGo, head_alike h, ih]

theorem mergeDone_alike (p : Nat) (ws : List Nat) : (mergeDone p ws t).1 = (mergeDone p ws s).1 := by
  simp only [mergeDone, mergeGo_alike h]

theorem prefixDone_alike (p : Nat) (ws : List Nat) :
    (prefixDone p ws t).1 = (prefixDone p ws s).1 ∧ (prefixDone p ws t).2.2 = (prefixDone p ws s).2.2 := by
  simp only [prefixDone, prefixGo, h.numAt, h.poisoned, and_self]

theorem sortDone_alike (p : Nat) (ws : List Nat) : (sortDone p ws t).1 = (sortDone p ws s).1 := by
  simp only [sortDone, h.numAt, h.poisoned]
  split <;> rfl

theorem contextRows_alike (p table q start n : Nat) : contextRows t p table q start n = contextRows s p table q start n := by
  simp only [contextRows, posSkipped, h.numAt, h.poisoned, h.byteAt]

theorem packRows_alike (p : Nat) (ws : List Nat) (qs : List Nat) (acc : List (Nat × Nat × Nat)) :
    packRows t p ws qs acc = packRows s p ws qs acc := by
  induction qs generalizing acc with
  | nil => rfl
  | cons q qs ih => simp only [packRows, contextRows_alike h, ih]

theorem packMove_alike (p : Nat) (back : Bool) (ws : List Nat) : (packMove p back ws t).1 = (packMove p back ws s).1 := by
  simp only [packMove, packRows_alike h]
  split <;> rfl

theorem combineSource_alike (p a n : Nat) : combineSource t p a n = combineSource s p a n := by
  simp only [combineSource, h.readBytes]

theorem combinePieces_alike (ws : List Nat) (pos src : Nat) (x : List Nat × Bool) :
    combinePieces ws pos src t x = combinePieces ws pos src s x := by
  simp only [combinePieces, h.numAt, h.poisoned]

theorem combineApply_alike (p : Nat) (ws : List Nat) (pos src : Nat) : MemAlike (combineApply p ws pos src s) (combineApply p ws pos src t) := by
  rw [combineApply_eq, combineApply_eq, combineSource_alike h, combinePieces_alike h]
  exact h.scatter _

end Ends

/-- Two runs of COMBINE that differ in states whose memory reads alike. -/
def CombineAlike (c d : CombineRun) : Prop := d = { c with state := d.state } ∧ MemAlike c.state d.state

theorem combineStep_alike (p : Nat) (ws : List Nat) (i : Nat) {c d : CombineRun} (h : CombineAlike c d) :
    CombineAlike (combineStep p ws i c) (combineStep p ws i d) := by
  obtain ⟨hd, hs⟩ := h
  rw [hd]
  unfold combineStep
  simp only [hs.poisoned, hs.numAt]
  split_ifs
  · exact ⟨rfl, hs⟩
  · exact ⟨rfl, hs⟩
  · exact ⟨rfl, hs.aside (listOrder_aside p _) (listOrder_aside p _) (by decide) (by decide)⟩
  · exact ⟨rfl, hs.aside (sparseRange_aside p _) (sparseRange_aside p _) (by decide) (by decide)⟩
  · exact ⟨rfl, combineApply_alike hs p ws _ _⟩

theorem combineDone_alike (h : MemAlike s t) (p : Nat) (ws : List Nat) : (combineDone p ws t).1 = (combineDone p ws s).1 := by
  have hrun : CombineAlike (iter (combineN ws) { state := s } (combineStep p ws)) (iter (combineN ws) { state := t } (combineStep p ws)) :=
    List.foldl_rel ⟨rfl, h⟩ fun i _ _ _ hcd => combineStep_alike p ws i hcd
  simp only [combineDone]
  rw [hrun.1]

/-- Two runs of ENCODE that differ in states whose memory reads alike. -/
def EncodeAlike (c d : EncodeRun) : Prop := d = { c with state := d.state } ∧ MemAlike c.state d.state

theorem encodeTile_alike (d : EncodeD) {x y : EncodeRun} (h : EncodeAlike x y) : EncodeAlike (encodeTile d x) (encodeTile d y) := by
  obtain ⟨hy, hs⟩ := h
  have hg : gatherBlock y.state = gatherBlock x.state := by
    funext o stride width kb nb
    exact hs.gatherBlock o stride width kb nb
  rw [hy]
  unfold encodeTile
  dsimp only
  rw [hg]
  refine ⟨rfl, ?_⟩
  dsimp only
  exact (hs.scatter _).memWrite _ _ _

theorem encodeUpTo_alike (d : EncodeD) (n : Nat) {x y : EncodeRun} (h : EncodeAlike x y) :
    EncodeAlike (encodeUpTo d n x) (encodeUpTo d n y) := by
  have ht : y.tile = x.tile := by rw [h.1]
  unfold encodeUpTo
  rw [ht]
  exact List.foldl_rel h fun _ _ _ _ hxy => encodeTile_alike d hxy

theorem encodeStep_alike (p : Nat) (d : EncodeD) (i : Nat) {x y : EncodeRun} (h : EncodeAlike x y) :
    EncodeAlike (encodeStep p d i x) (encodeStep p d i y) := by
  obtain ⟨hy, hs⟩ := h
  have hup := fun n => encodeUpTo_alike d n ⟨hy, hs⟩
  rw [hy] at hup ⊢
  unfold encodeStep
  simp only [hs.poisoned, hs.numAt]
  split_ifs
  · exact ⟨rfl, hs⟩
  · exact ⟨rfl, hs⟩
  · exact ⟨rfl, hs⟩
  · exact ⟨rfl, hs.aside (sparseRange_aside p _) (sparseRange_aside p _) (by decide) (by decide)⟩
  · exact ⟨rfl, hs.aside (listOrder_aside p _) (listOrder_aside p _) (by decide) (by decide)⟩
  · refine ⟨?_, (hup _).2⟩
    rw [(hup _).1]

theorem encodeDone_alike (h : MemAlike s t) (p : Nat) (ws : List Nat) : (encodeDone p ws t).1 = (encodeDone p ws s).1 := by
  unfold encodeDone
  extract_lets d y y' x x'
  have hrun : EncodeAlike x y := List.foldl_rel ⟨rfl, h⟩ fun i _ _ _ hxy => encodeStep_alike p d i hxy
  have hend : EncodeAlike x' y' := by
    have hcode : y.code = x.code := by rw [hrun.1]
    unfold x' y'
    rw [hcode]
    split
    · exact encodeUpTo_alike d _ hrun
    · exact hrun
  dsimp only
  rw [hend.1]

/-- What a list function ends with, and whether its result is poisoned, depends on what memory reads as alone. -/
theorem runList_alike (h : MemAlike s t) (p : Nat) (o : UnitOp) :
    (runList p o t).1 = (runList p o s).1 ∧ (runList p o t).2.2 = (runList p o s).2.2 := by
  unfold runList
  extract_lets
  split
  · exact ⟨mergeDone_alike h p _, rfl⟩
  · exact prefixDone_alike h p _
  · exact ⟨sortDone_alike h p _, rfl⟩
  · exact ⟨packMove_alike h p _ _, rfl⟩
  · exact ⟨packMove_alike h p _ _, rfl⟩
  · exact ⟨combineDone_alike h p _, rfl⟩
  · exact ⟨encodeDone_alike h p _, rfl⟩

end Sys2Proof.Machine

/-! SUPPORT. The feed engine and the list engine at work (R120, R128–R130, R134, R137): an entry sent, an entry refilled from the ring,
the end of a walk and of a list function. -/

namespace Sys2Proof.Machine

variable {p : Nat} {s t : State}

/-! ## Sending an entry (R129) -/

/-- The units of a pair whose reed r has entry q at the end of its queue. -/
def queued (r : Nat) (q : QEntry) (x : PairS) : PairS := { x with queues := SMap.set [] x.queues r (reedQueue x r ++ [q]) }

theorem reedQueue_queued_self (r : Nat) (q : QEntry) (x : PairS) : reedQueue (queued r q x) r = reedQueue x r ++ [q] := SMap.get_set_self

theorem reedQueue_queued_ne {r k : Nat} (h : k ≠ r) (q : QEntry) (x : PairS) : reedQueue (queued r q x) k = reedQueue x k :=
  SMap.get_set_ne h

theorem enqueue_reedTo (r : Nat) (q : QEntry) (p : Nat) (s : State) : ReedTo reedRegs p (queued r q) s (enqueue p r q s) :=
  (modPair_reedTo (f := queued r q) (g := queued r q) (fun _ => rfl) s).then_plain (count_reedTo p _ 0x0E 1)

/-- The units of a pair whose walk has sent n entries to reed r. -/
def numbered (r n : Nat) (x : PairS) : PairS := { x with walk := { x.walk with sent := SMap.set 0 x.walk.sent r n } }

/-- The number in order of the next entry that pair p's walk sends to reed r. -/
def sentTo (s : State) (p r : Nat) : Nat := SMap.get 0 (pair s p).walk.sent r

/-- An entry for a reed with room and with none of its entries in the ring goes to its queue. -/
theorem send_queued {r : Nat} (hr : inRing (pair s p) r = false) (hl : (reedQueue (pair s p) r).length < 64) (q : QEntry) :
    ∃ u, send p r q s = some u
      ∧ ReedTo reedRegs p (queued r { q with seq := sentTo s p r % 65536 } ∘ numbered r (sentTo s p r + 1)) s u := by
  refine ⟨_, if_pos (by simp [hr, hl]), ?_⟩
  exact (modPair_reedTo (f := numbered r (sentTo s p r + 1)) (g := numbered r (sentTo s p r + 1)) (fun _ => rfl) s).trans
    (enqueue_reedTo r _ p _)

/-- The units of a pair whose walk has closed a block-column for a reed, where c says so (R128). -/
def columnMarked (c : Bool) (r nb : Nat) (x : PairS) : PairS :=
  if c then { x with walk := { x.walk with closed := SMap.set false x.walk.closed (r * 16384 + nb) true } } else x

theorem columnMarked_reedTo (c : Bool) (r nb p : Nat) (s : State) :
    ReedTo reedRegs p (columnMarked c r nb) s (if c then markClosed p r nb s else s) := by
  cases c with
  | false => exact .refl
  | true => exact modPair_reedTo (f := columnMarked true r nb) (g := columnMarked true r nb) (fun _ => rfl) s

theorem columnMarked_rest (c : Bool) (r nb : Nat) (x : PairS) :
    (columnMarked c r nb x).ring = x.ring ∧ (columnMarked c r nb x).queues = x.queues ∧ (columnMarked c r nb x).walks = x.walks
      ∧ (columnMarked c r nb x).walk.sent = x.walk.sent ∧ (columnMarked c r nb x).walk.item = x.walk.item := by
  cases c with
  | false => exact ⟨rfl, rfl, rfl, rfl, rfl⟩
  | true => exact ⟨rfl, rfl, rfl, rfl, rfl⟩

theorem closed_columnMarked {c : Bool} (h : c = true) (r nb : Nat) (x : PairS) :
    SMap.get false (columnMarked c r nb x).walk.closed (r * 16384 + nb) = true := by
  subst h
  simp [columnMarked]

/-- The BLOCK that a list entry with a packed block gives (R118, R129). -/
def blockEntry (s : State) (p : Nat) (d : WalkD) (e : WalkEntry) : QEntry where
  kind := 0
  xpose := e.xpose || d.xposeAll
  last := e.last
  poison := poisoned s e.addr (blockBytes d.width)
  width := d.width
  nb := e.nb
  kb := e.kb
  seq := sentTo s p e.reed % 65536
  block := readBytes s e.addr (blockBytes d.width)

/-- The units of a pair whose walk has sent the BLOCK of list entry e. -/
def entrySent (s : State) (p : Nat) (d : WalkD) (e : WalkEntry) : PairS → PairS :=
  queued e.reed (blockEntry s p d e) ∘ numbered e.reed (sentTo s p e.reed + 1) ∘ columnMarked e.last e.reed e.nb

/-- An entry in range, of an open block-column, of a walk that is not one of tasks, goes with its packed block to its reed's queue. -/
theorem sendEntry_block {d : WalkD} {e : WalkEntry} (hout : e.outside = false) (hkb : e.kb < d.kb) (hnb : e.nb < d.nb)
    (hc : columnClosed s p e.reed e.nb = false) (hclose : e.close = false) (ht : d.tasks = false) (hg : e.gather = false)
    (hr : inRing (pair s p) e.reed = false) (hl : (reedQueue (pair s p) e.reed).length < 64) :
    ∃ u, sendEntry p d e s = some u ∧ ReedTo reedRegs p (entrySent s p d e) s u := by
  have hkb' : decide (e.kb ≥ d.kb) = false := decide_eq_false (Nat.not_le.mpr hkb)
  have hnb' : decide (e.nb ≥ d.nb) = false := decide_eq_false (Nat.not_le.mpr hnb)
  have hnoted : ReedTo reedRegs p id s (noteOfflineRange e.addr (blockBytes d.width) 0 true s) := noteOfflineRange_reedTo p s _ _ _ _
  have halike := hnoted.memAlike (by decide) (by decide)
  unfold sendEntry
  simp only [hout, hkb', hnb', hc, hclose, ht, hg, Bool.false_and, Bool.or_self, Bool.false_eq_true, if_false, halike.readBytes, halike.poisoned]
  generalize hv : count p _ _ _ = v
  have hmarked : ReedTo reedRegs p (columnMarked e.last e.reed e.nb) s v := by
    rw [← hv]
    exact ((hnoted.trans (raiseIf_reedTo p _ _ (by decide) p)).trans (columnMarked_reedTo _ _ _ p _)).then_plain (count_reedTo p _ _ _)
  obtain ⟨hring, hqueues, -, hsent, -⟩ := columnMarked_rest e.last e.reed e.nb (pair s p).plain
  have hring' : (pair v p).ring = (pair s p).ring := (hmarked.part (·.ring)).trans hring
  have hqueues' : (pair v p).queues = (pair s p).queues := (hmarked.part (·.queues)).trans hqueues
  have hsent' : (pair v p).walk.sent = (pair s p).walk.sent := (hmarked.part (·.walk.sent)).trans hsent
  have hq := send_queued (s := v) (p := p) (r := e.reed) (by rw [inRing, hring']; exact hr) (by rw [reedQueue, hqueues']; exact hl)
  simp only [sentTo, hsent'] at hq
  obtain ⟨u, hu, hto⟩ := hq _
  exact ⟨u, hu, hmarked.trans hto⟩

/-! ## The next entry of a list of packed blocks (R120) -/

/-- The next BCL entry of a walk, v as read from its list: its block lies where its place in the list says. -/
def bclEntry (d : WalkD) (i v : Nat) : WalkEntry :=
  { reed := bitsOf v 31 30, xpose := bitAt v 29, last := bitAt v 28, nb := bitsOf v 27 14, kb := bitsOf v 13 0,
    close := bitsOf v 13 0 = 0x3FFF, addr := d.blocks + i * blockBytes d.width, gather := d.dense }

/-- The units of a pair whose walk has begun its next list entry. -/
def itemBegun (x : PairS) : PairS := { x with walk := { x.walk with item := x.walk.item + 1, sub := 0 } }

/-- The word of the next BCL entry. -/
def bclWord (s : State) (p : Nat) (d : WalkD) : Nat := numAt s (d.list + 4 * (pair s p).walk.item) 4

theorem stepBcl_clean {d : WalkD} (hp : poisoned s (d.list + 4 * (pair s p).walk.item) 4 = false) :
    ∃ t, ReedTo reedRegs p id s t
      ∧ stepBcl p d s = (sendEntry p d (bclEntry d (pair s p).walk.item (bclWord s p d)) t).map (nextItem p) := by
  have hnoted : ReedTo reedRegs p id s (noteOfflineRange (d.list + 4 * (pair s p).walk.item) 4 0 true s) := noteOfflineRange_reedTo p s _ _ _ _
  have halike := hnoted.memAlike (by decide) (by decide)
  refine ⟨_, hnoted.then_plain (count_reedTo p _ 0x24 4), ?_⟩
  unfold stepBcl
  simp only [halike.poisoned, halike.numAt, hp, Bool.false_eq_true, if_false]
  rfl

/-- An entry whose list word is clean, in range and of an open block-column, for a reed with room, is sent with its packed block. -/
theorem stepBcl_sends {d : WalkD} (hp : poisoned s (d.list + 4 * (pair s p).walk.item) 4 = false) (hdense : d.dense = false)
    (ht : d.tasks = false) {e : WalkEntry} (he : e = bclEntry d (pair s p).walk.item (bclWord s p d)) (hkb : e.kb < d.kb)
    (hclose : e.close = false) (hnb : e.nb < d.nb) (hc : columnClosed s p e.reed e.nb = false) (hr : inRing (pair s p) e.reed = false)
    (hl : (reedQueue (pair s p) e.reed).length < 64) :
    ∃ u, stepBcl p d s = some u ∧ ReedTo reedRegs p (itemBegun ∘ entrySent s p d e) s u := by
  obtain ⟨t, ht1, hstep⟩ := stepBcl_clean hp
  rw [← he] at hstep
  have halike := ht1.memAlike (by decide) (by decide)
  have hwalk : (pair t p).walk = (pair s p).walk := ht1.part (·.walk)
  have hring : (pair t p).ring = (pair s p).ring := ht1.part (·.ring)
  have hqueues : (pair t p).queues = (pair s p).queues := ht1.part (·.queues)
  have hsent : entrySent t p d e = entrySent s p d e := by
    simp only [entrySent, blockEntry, sentTo, hwalk, halike.readBytes, halike.poisoned]
  obtain ⟨u, hu, hto⟩ := sendEntry_block (s := t) (p := p) (d := d) (e := e) (by rw [he]; rfl) hkb hnb
    (by rw [columnClosed, hwalk]; exact hc) hclose ht (by rw [he]; exact hdense) (by rw [inRing, hring]; exact hr)
    (by rw [reedQueue, hqueues]; exact hl)
  rw [hsent] at hto
  refine ⟨nextItem p u, by rw [hstep, hu]; rfl, ?_⟩
  exact (ht1.trans hto).trans (modPair_reedTo (f := itemBegun) (g := itemBegun) (fun _ => rfl) u)

/-- With no list function waiting, the feed engine handles the next entry of a walk of packed blocks in a BCL list. -/
theorem feedSend_bcl {o : UnitOp} {rest : List UnitOp} {u : State} (stalled : Nat) (hw : (pair s p).walks = o :: rest)
    (hlists : (pair s p).lists = []) (hform : (walkD o.desc).form = 0) (hend : (pair s p).walk.ending = false)
    (hitem : (pair s p).walk.item < (walkD o.desc).count) (hu : stepBcl p (walkD o.desc) s = some u) : feedSend p stalled s = u := by
  simp only [feedSend, hw, hlists, List.any_nil, Bool.false_eq_true, if_false, foragerEntrySend, hend, Bool.false_and,
    Nat.not_le.mpr hitem, hform, if_true, hu, ge_iff_le]

/-! ## An entry refilled from the ring (R134) -/

/-- The entry that a slot of the ring gives (R129, R134, R147). -/
def ringEntry (s : State) (e : RingSlot) (bad : Bool) : QEntry :=
  { QEntry.ofHeader (numAt s e.addr 8) (readBytes s (e.addr + 8) e.blockLen) with
    poison := bitAt (numAt s e.addr 8) 59 || poisoned s (e.addr + 8) e.blockLen || bad }

/-- The units of a pair whose slot of the ring at address a is free. -/
def slotFreed (a : Nat) (x : PairS) : PairS := { x with ring := x.ring.filter (fun f => f.addr ≠ a) }

theorem ringRefill_takes {r : Nat} {e : RingSlot} {errs : List EntryErr} (hfind : (pair s p).ring.find? (fun e => e.reed = r) = some e)
    (hl : (reedQueue (pair s p) r).length < 64) (hp : poisoned s e.addr 8 = false) (hlen : e.blockLen ≠ 0)
    (herr : errs.contains .header = false) :
    ReedTo reedRegs p (queued r (ringEntry s e (errs.contains .block)) ∘ slotFreed e.addr) s (ringRefill p r errs s) := by
  have hmet : ReedTo reedRegs p id s (errs.foldl (fun t e => entryErr p e t) (noteOfflineRange e.addr (8 + e.blockLen) 0 true s)) :=
    (noteOfflineRange_reedTo p s _ _ _ _).trans (foldl_reedTo (fun t e => entryErr_reedTo p t e) errs _)
  have halike := hmet.memAlike (by decide) (by decide)
  unfold ringRefill
  simp only [hfind, Nat.not_le.mpr hl, if_false, halike.poisoned, halike.numAt, halike.readBytes, hp, herr, Bool.or_self,
    Bool.false_eq_true, hlen, ne_eq, not_false_eq_true, decide_true, Bool.true_and]
  exact ((hmet.trans (raiseIf_reedTo p _ _ (by decide) p)).trans
    (modPair_reedTo (f := slotFreed e.addr) (g := slotFreed e.addr) (fun _ => rfl) _)).trans (enqueue_reedTo r _ p _)

/-! ## The end of a walk (R130, R154) -/

/-- Where the next of the accepted walks begins. -/
def walkBegun : List UnitOp → WalkS
  | [] => {}
  | n :: _ => { body := (walkD n.desc).blocks }

/-- The units of a pair whose walk has left, the accepted walks of ops behind it. -/
def walkLeft (ops : List UnitOp) (x : PairS) : PairS := { x with walks := ops, walk := walkBegun ops }

theorem walkDone_ended {o : UnitOp} {rest : List UnitOp} (hw : (pair s p).walks = o :: rest) (hend : (pair s p).walk.ending = true)
    (hreed : 4 ≤ (pair s p).walk.endReed) : walkDone p s = signalSem p o.word (modPair p (walkLeft rest) s) := by
  simp only [walkDone, hw, hend, ge_iff_le, hreed, decide_true, Bool.and_self, if_true]
  cases rest <;> rfl

/-! ## The end of a list function (R137, R185) -/

/-- The units of a pair whose list function in progress has left. -/
def listsLeft (ops : List UnitOp) (x : PairS) : PairS := { x with lists := ops }

/-- The state in which what a list function reads offline is noted. -/
def readsNoted (ws : List Nat) (s : State) : State := (listReads ws).foldl (fun t x => noteOfflineRange x.1 x.2 0 true t) s

theorem readsNoted_aside (ws : List Nat) (s : State) : Aside listRegs [] s (readsNoted ws s) :=
  foldl_aside (fun t (x : Nat × Nat) => noteOfflineRange_listAside x.1 x.2 0 true t) _ s

/-- What the list function in progress leaves as it ends: its own writes, its result block b, its semaphore. -/
def listEnded (p : Nat) (o : UnitOp) (rest : List UnitOp) (b : List Nat) (t : State) : State :=
  signalSem p o.word (count p 0x21 64 (memWrite (combAddr p (resultOff o.desc)) b false (modPair p (listsLeft rest) t)))

theorem listFunctionDone_ends {o : UnitOp} {rest : List UnitOp} (hlists : (pair s p).lists = o :: rest) (hwalks : (pair s p).walks = [])
    (hout : (runList p o s).1.outside = false) (hpoison : (runList p o s).1.poison = false) (hbad : (runList p o s).2.2 = false) :
    listFunctionDone p s = listEnded p o rest (runList p o s).1.bytes (runList p o (readsNoted o.desc s)).2.1 := by
  obtain ⟨he, hb⟩ := runList_alike ((readsNoted_aside o.desc s).memAlike (by decide) (by decide)) p o
  rw [← he] at hout hpoison ⊢
  rw [← hb] at hbad
  unfold listFunctionDone
  rw [hlists, hwalks]
  simp only [List.any_nil, Bool.false_eq_true, if_false]
  rw [readsNoted] at *
  generalize runList p o _ = x at *
  obtain ⟨e, t, bad⟩ := x
  subst hbad
  simp only at hout hpoison
  simp only [hout, hpoison, Bool.false_eq_true, if_false]
  rfl

theorem natLe_lt {n v b : Nat} (h : b ∈ natLe n v) : b < 256 := by
  induction n generalizing v with
  | zero => simp [natLe] at h
  | succ n ih =>
    rcases List.mem_cons.mp h with rfl | h
    · exact Nat.mod_lt _ (by decide)
    · exact ih h

theorem ListEnd.bytes_length (e : ListEnd) : e.bytes.length = 64 := by simp [ListEnd.bytes]

theorem ListEnd.bytes_lt {e : ListEnd} {b : Nat} (h : b ∈ e.bytes) : b < 256 := by
  simp only [ListEnd.bytes, List.mem_append, List.mem_replicate] at h
  rcases h with ((((h | h) | h) | h) | h) | ⟨-, rfl⟩
  · exact natLe_lt h
  · exact natLe_lt h
  · exact natLe_lt h
  · exact natLe_lt h
  · exact natLe_lt h
  · decide

/-- A result block is read back from the comb it is written to. -/
theorem bytesAt_of_mem {u : State} {a : Nat} {bs : List Nat} (h : u.mem = (pokeBytes a bs s).mem) (hb : ∀ b ∈ bs, b < 256) :
    bytesAt u a bs.length = bs := by
  refine List.ext_getElem (by simp [bytesAt]) fun i _ hi => ?_
  simp only [bytesAt, List.getElem_map, List.getElem_range]
  rw [byteAt_congr h, byteAt_pokeBytes_in _ hi, Nat.mod_eq_of_lt (hb _ (List.getElem_mem hi))]

/-- From a state with the units and the registers of s but listRegs, a list function's end leaves its queue, its result and its signal. -/
theorem listEnded_spec {o : UnitOp} {rest : List UnitOp} {e : ListEnd} (hk : ListKeeps s t)
    (hsem : semCount s p (wSem o.word) ≠ 0xFFFFFFFF) :
    (pair (listEnded p o rest e.bytes t) p).lists = rest
      ∧ bytesAt (listEnded p o rest e.bytes t) (combAddr p (resultOff o.desc)) 64 = e.bytes
      ∧ semCount (listEnded p o rest e.bytes t) p (wSem o.word) = semCount s p (wSem o.word) + (if wbits o.word 22 22 = 1 then 1 else 0)
      ∧ Keeps listRegs [(.SEQ_SEM_i, 64 * p + wSem o.word)] s (listEnded p o rest e.bytes t) := by
  unfold listEnded
  have hpoke := memWrite_pokes e.bytes false (combBase_le_combAddr p (resultOff o.desc)) (modPair p (listsLeft rest) t)
  generalize memWrite _ _ _ _ = v at hpoke
  have hcount := count_listAside p 0x21 64 v
  generalize count p 0x21 64 v = x at hcount
  have hvx : Keeps listRegs [] s x := (hk.keeps.trans (hpoke.1.keeps.mono (rs' := listRegs) (ks' := []) (by simp) (by simp))).trans hcount.2
  have hx : semCount x p (wSem o.word) = semCount s p (wSem o.word) := hvx.fld (by decide) (by simp)
  have hne : semCount x p (wSem o.word) ≠ 0xFFFFFFFF := by rw [hx]; exact hsem
  have hsig := signalSem_aside hne
  refine ⟨?_, ?_, ?_, ?_⟩
  · rw [hsig.pair, hcount.pair, pair, hpoke.1.pairs]
    exact congrArg PairS.lists (pair_modPair_self p (listsLeft rest) t)
  · rw [← e.bytes_length]
    exact bytesAt_of_mem ((hsig.mem.trans hcount.mem).trans hpoke.2) fun _ => ListEnd.bytes_lt
  · rw [semCount_signalSem hne, hx]
  · exact (hvx.mono (by simp) (by simp)).trans (hsig.2.mono (by simp) (by simp))

/-! ## The clauses of O16 -/

theorem entry_sends {p : Pair} {stalled : Nat} {o : UnitOp} {rest : List UnitOp} {s : State} (hs : Clocked s)
    (hw : (pair s p).walks = o :: rest) (hlists : (pair s p).lists = []) (hform : (walkD o.desc).form = 0)
    (hdense : (walkD o.desc).dense = false) (ht : (walkD o.desc).tasks = false) (hend : (pair s p).walk.ending = false)
    (hitem : (pair s p).walk.item < (walkD o.desc).count)
    (hp : poisoned s ((walkD o.desc).list + 4 * (pair s p).walk.item) 4 = false) {e : WalkEntry}
    (he : e = bclEntry (walkD o.desc) (pair s p).walk.item (bclWord s p (walkD o.desc))) (hkb : e.kb < (walkD o.desc).kb)
    (hclose : e.close = false) (hnb : e.nb < (walkD o.desc).nb) (hc : columnClosed s p e.reed e.nb = false)
    (hr : inRing (pair s p) e.reed = false) (hl : (reedQueue (pair s p) e.reed).length < 64) :
    Completes (.foragerEntrySend p stalled) s fun u => ReedTo reedRegs p (itemBegun ∘ entrySent s p (walkD o.desc) e) s u := by
  obtain ⟨u, hu, hto⟩ := stepBcl_sends hp hdense ht he hkb hclose hnb hc hr hl
  exact completes_reedTo hs rfl (feedSend_bcl stalled hw hlists hform hend hitem hu) hto hto

/-- What the sending of an entry leaves of the pair's units. -/
theorem entrySent_spec (s : State) (p : Nat) (d : WalkD) (e : WalkEntry) (x : PairS) :
    reedQueue (entrySent s p d e x) e.reed = reedQueue x e.reed ++ [blockEntry s p d e]
      ∧ (∀ r, r ≠ e.reed → reedQueue (entrySent s p d e x) r = reedQueue x r)
      ∧ (entrySent s p d e x).walk.item = x.walk.item ∧ (entrySent s p d e x).walks = x.walks
      ∧ (e.last = true → SMap.get false (entrySent s p d e x).walk.closed (e.reed * 16384 + e.nb) = true) := by
  obtain ⟨-, hqueues, hwalks, -, hitem⟩ := columnMarked_rest e.last e.reed e.nb x
  have hq : ∀ r, reedQueue (columnMarked e.last e.reed e.nb x) r = reedQueue x r := fun r => by rw [reedQueue, hqueues]; rfl
  refine ⟨?_, fun r hr => ?_, ?_, ?_, fun hl => ?_⟩
  · exact (reedQueue_queued_self _ _ _).trans (congrArg (· ++ [_]) (hq _))
  · exact (reedQueue_queued_ne hr _ _).trans (hq r)
  · simp only [entrySent, Function.comp_apply, queued, numbered, hitem]
  · simp only [entrySent, Function.comp_apply, queued, numbered, hwalks]
  · exact closed_columnMarked hl e.reed e.nb x

theorem ring_refills {p : Pair} {r : Reed} {e : RingSlot} {errs : List EntryErr} {s : State} (hs : Clocked s)
    (hfind : (pair s p).ring.find? (fun e => e.reed = r.val) = some e) (hl : (reedQueue (pair s p) r).length < 64)
    (hp : poisoned s e.addr 8 = false) (hlen : e.blockLen ≠ 0) (herr : errs.contains .header = false) :
    Completes (.ringRefill p r errs) s fun u =>
      ReedTo reedRegs p (queued r (ringEntry s e (errs.contains .block)) ∘ slotFreed e.addr) s u :=
  completes_reedTo hs rfl rfl (ringRefill_takes hfind hl hp hlen herr) (ringRefill_takes hfind hl hp hlen herr)

theorem walk_leaves {p : Pair} {o : UnitOp} {rest : List UnitOp} {s : State} (hs : Clocked s) (hw : (pair s p).walks = o :: rest)
    (hend : (pair s p).walk.ending = true) (hreed : 4 ≤ (pair s p).walk.endReed) (hsem : semCount s p (wSem o.word) ≠ 0xFFFFFFFF) :
    Completes (.walkDone p) s fun u =>
      pair u p = walkLeft rest (pair s p) ∧ (∀ q, q ≠ p.val → pair u q = pair s q) ∧ MemSame s u
        ∧ semCount u p (wSem o.word) = semCount s p (wSem o.word) + (if wbits o.word 22 22 = 1 then 1 else 0)
        ∧ Keeps [] [(.SEQ_SEM_i, 64 * p + wSem o.word)] s u := by
  refine completes_clocked hs rfl ?_
  rw [walkDone_ended hw hend hreed]
  have hne : semCount (modPair p (walkLeft rest) s) p (wSem o.word) ≠ 0xFFFFFFFF := hsem
  have hsig := signalSem_aside hne
  exact ⟨(hsig.pair p).trans (pair_modPair_self _ _ _), fun q hq => (hsig.pair q).trans (pair_modPair_ne _ _ hq), hsig.memSame,
    semCount_signalSem hne, hsig.2⟩

/-- Settles O16: the entry sent, the entry refilled, the walk that leaves and the list function that ends, a lemma for each. -/
theorem foragerEngines : Obligations.ForagerEngines := by
  refine ⟨?_, ?_, ?_, ?_⟩
  · intro p stalled o rest s hs hw hlists hform hdense ht hend hitem hp v r b hkb hclose hnb hc hr hl
    obtain ⟨u, hu, hto⟩ :=
      entry_sends (stalled := stalled) hs hw hlists hform hdense ht hend hitem hp rfl hkb (decide_eq_false hclose) hnb hc hr hl
    obtain ⟨hqueue, hothers, hitem', hwalks, hclosed⟩ := entrySent_spec s p (walkD o.desc)
      (bclEntry (walkD o.desc) (pair s p).walk.item (bclWord s p (walkD o.desc))) (pair s p).plain
    exact ⟨u, hu, ⟨_, (hto.part (reedQueue · r)).trans hqueue, rfl, rfl, rfl, rfl, rfl, rfl, rfl, rfl, rfl⟩,
      (hto.part (·.walk.item)).trans (congrArg (· + 1) hitem'), ((hto.part (·.walks)).trans hwalks).trans hw,
      fun hl => (hto.part fun x => SMap.get false x.walk.closed _).trans (hclosed hl),
      fun q hq => (hto.part (reedQueue · q)).trans (hothers q hq), hto.memSame, hto.others⟩
  · intro p r e errs s hs hring he hl hp hlen herr
    obtain ⟨u, hu, hto⟩ := ring_refills hs (by rw [hring]; simp [he]) hl hp hlen herr
    have hfreed : (slotFreed e.addr (pair s p)).ring = [] := by simp [slotFreed, hring]
    exact ⟨u, hu, ⟨_, (hto.part (reedQueue · r)).trans (reedQueue_queued_self _ _ _), rfl, rfl, rfl, rfl, rfl, rfl⟩,
      (hto.part (·.ring)).trans hfreed, hto.memSame, hto.others⟩
  · intro p o rest s hs hw hend hreed hsem
    obtain ⟨u, hu, hown, hothers, hmem, hcount, hkeeps⟩ := walk_leaves hs hw hend hreed hsem
    refine ⟨u, hu, ?_, hcount, ?_, ?_, hmem, hkeeps, hothers⟩
    · rw [hown]; rfl
    · rintro rfl
      rw [hown]; rfl
    · rw [hown]; rfl
  · intro p o rest s hs hlists hwalks hout hpoison hbad _ hsem
    refine completes_clocked hs rfl ?_
    rw [listFunctionDone_ends hlists hwalks hout hpoison hbad]
    have hkeeps := (readsNoted_aside o.desc s).besideMem.trans (runList_keeps p o (readsNoted o.desc s))
    obtain ⟨hleft, hbytes, hcount, hregs⟩ := listEnded_spec (rest := rest) (e := (runList p o s).1) hkeeps hsem
    exact ⟨hleft, hbytes, hcount, hregs _ _ (by decide) (by simp), fun i => hregs.fld (by decide) (by simp)⟩

end Sys2Proof.Machine

/-! SUPPORT. The issue of score instructions (R155, R172, R177): what one gives from the state before its fetch, and what the fault that
stops a score leaves alone. -/

namespace Sys2Proof.Machine

variable {p w cls op : Nat} {s t u : State}

/-! ## An instruction's effect and its issue -/

theorem Completes.imp {c : Instr} {P Q : State → Prop} (h : Completes c s P) (hPQ : ∀ u, P u → Q u) : Completes c s Q := by
  obtain ⟨u, hu, hp⟩ := h
  exact ⟨u, hu, hPQ u hp⟩

theorem PairAside.memSame {rs : List Reg} {ks : List (Reg × Nat)} {g : PairS → PairS} (h : PairAside rs ks p g s u) : MemSame s u :=
  ⟨fun a => (congrArg (fun t : State => byteAt t a) h.rest :), fun x => (congrArg (fun t : State => marked t x) h.rest :)⟩

theorem definedOp_of_class (hc : wbits w 3 0 = cls) (ho : wbits w 9 4 = op) (hd : (definedOps cls).contains op = true) : definedOp w = true := by
  rw [definedOp, wCls, wOp, hc, ho, hd]

theorem isOp_of_class (hc : wbits w 3 0 = cls) (ho : wbits w 9 4 = op) (t : State) : isOp cls op w t = true := by
  simp [isOp, wCls, wOp, hc, ho]

/-- What the fetch changes of the state in which an instruction's checks are made. -/
theorem fetched_pairAside (h : Issues p w s) : ∃ b, PairAside fetchRegs [] p (fun x => { x with ibuf := b }) s (fetched p s) :=
  fetch_pairAside h.clean

/-- What no fetch changes reads the same when the checks are made. -/
theorem fetched_fld (h : Issues p w s) {f : Fld} {i : Nat} (hf : f.reg ∉ fetchRegs) : fld (fetched p s) f i = fld s f i := by
  obtain ⟨b, hb⟩ := fetched_pairAside h
  exact hb.regs.fld hf List.not_mem_nil

theorem fetched_scalar (h : Issues p w s) (i : Nat) : scalar (fetched p s) p i = scalar s p i := fetched_fld h (by decide)

theorem fetched_semCount (h : Issues p w s) (q i : Nat) : semCount (fetched p s) q i = semCount s q i := fetched_fld h (by decide)

/-- Whether a pair is quiet its buffer does not say (R156). -/
theorem fetched_pairQuiet (h : Issues p w s) : pairQuiet (fetched p s) p = pairQuiet s p := by
  obtain ⟨b, hb⟩ := fetched_pairAside h
  rw [pairQuiet, hb.own]
  rfl

theorem fetched_live (h : Issues p w s) : (fetched p s).inService = s.inService ∧ (fetched p s).pending = s.pending := by
  obtain ⟨b, hb⟩ := fetched_pairAside h
  exact ⟨hb.inService, hb.pending⟩

theorem fetched_memSame (h : Issues p w s) : MemSame s (fetched p s) := by
  obtain ⟨b, hb⟩ := fetched_pairAside h
  exact hb.memSame

theorem issued_aside_regs (p pc : Nat) (next : Option Nat) (t : State) : Aside fetchRegs [] (stepTo p pc next t) (issued p pc next t) :=
  (issued_aside p pc next t).mono (by simp) fun k hk => .inl (by rcases bank_reg hk with e | e | e <;> simp [e])

/-- What an instruction that issues leaves, where its own effect gives t. -/
theorem issued_pairAside (p pc : Nat) (next : Option Nat) (t : State) :
    PairAside fetchRegs [(.SEQ_STATUS, p)] p
      (fun x => { x with lastIssued := pc, past := decide (next.getD (pc + 1) ≥ 2 ^ 20), seq := x.seq + 1 }) t (issued p pc next t) :=
  ((PairAside.modPair _ t).trans ((Aside.refl.setFld (f := F.SEQ_STATUS_pc) (i := p) (next.getD (pc + 1)) (.inr (by simp))).toPair)).trans
    ((issued_aside_regs p pc next t).mono (by simp) (by simp)).toPair

/-- The next instruction's index and place, where the effect keeps the pair's place in issue order. -/
theorem issued_moves {n : Option Nat} (h : (pair t p).seq = (pair s p).seq) :
    MovesTo p (n.getD (seqPc s p + 1)) s (issued p (seqPc s p) n t) := by
  have hi := issued_pairAside p (seqPc s p) n t
  exact ⟨issued_pc _ _ _ _, by rw [hi.own], by rw [hi.own, ← h]⟩

theorem issued_settled (p pc : Nat) (n : Option Nat) (t : State) : (pair (issued p pc n t) p).settled = (pair t p).settled := by
  rw [(issued_pairAside p pc n t).own]
  rfl

theorem issued_fld_apart (p pc : Nat) (n : Option Nat) (t : State) {f : Fld} {i : Nat} (hf : f.reg ∉ .SEQ_STATUS :: fetchRegs) :
    fld (issued p pc n t) f i = fld t f i := by
  simp only [List.mem_cons, not_or] at hf
  obtain ⟨hs, h1, h2, h3, he⟩ := hf
  exact issued_fld p pc n t (by simpa using he) ⟨h1, h2, h3⟩ hs

/-- A row that issues a word of its class and operation runs to the issue of the effect its body gives. -/
theorem issue_runs {i : Instr} {f : State → State} {body : Nat → State → Issue} {t' : State} {next : Option Nat}
    (he : exec i s = .next (whenClocked f s)) (hf : f s = issueWith p (isOp cls op) body s) (h : Issues p w s) (hc : wbits w 3 0 = cls)
    (ho : wbits w 9 4 = op) (hd : (definedOps cls).contains op = true) (hb : body w (fetched p s) = .done t' next)
    (hlive : t'.inService = s.inService) (hqueue : t'.pending = s.pending) :
    exec i s = .next (issued p (seqPc s p) next t') := by
  have hi := issued_pairAside p (seqPc s p) next t'
  have hf' : f s = issued p (seqPc s p) next t' := hf.trans (issueWith_done h (definedOp_of_class hc ho hd) (isOp_of_class hc ho _) hb)
  rw [he, whenClocked_self h.clocked (hf' ▸ hi.inService.trans hlive) (hf' ▸ hi.pending.trans hqueue), hf']

/-- An instruction of pair p has issued, its own effect g on the pair's units and t' on the registers. -/
structure IssuedAs (p : Nat) (g : PairS → PairS) (ks : List (Reg × Nat)) (next : Option Nat) (t' s u : State) : Prop where
  moves : MovesTo p (next.getD (seqPc s p + 1)) s u
  frame : IssueFrame p ks s u
  units : ∃ b, pair u p = issuedUnits g b (seqPc s p) (next.getD (seqPc s p + 1)) (pair s p)
  after : ∀ (f : Fld) (i : Nat), f.reg ∉ .SEQ_STATUS :: fetchRegs → fld u f i = fld t' f i

/-- The pair's units after the issue, but for what every issue touches, where the effect does not look at the buffer. -/
theorem IssuedAs.settled {g : PairS → PairS} {ks : List (Reg × Nat)} {next : Option Nat} {t' : State} (h : IssuedAs p g ks next t' s u)
    (hg : ∀ b x, (g { x with ibuf := b }).settled = (g x).settled) : (pair u p).settled = (g (pair s p)).settled := by
  obtain ⟨b, hb⟩ := h.units
  rw [hb]
  exact hg b _

/-- A row whose word passes its checks, with an effect on the pair's own units and registers, issues. -/
theorem issue_effect {i : Instr} {f : State → State} {body : Nat → State → Issue} {g : PairS → PairS} {ks : List (Reg × Nat)} {t' : State}
    {next : Option Nat} (he : exec i s = .next (whenClocked f s)) (hf : f s = issueWith p (isOp cls op) body s) (h : Issues p w s)
    (hc : wbits w 3 0 = cls) (ho : wbits w 9 4 = op) (hd : (definedOps cls).contains op = true)
    (hb : body w (fetched p s) = .done t' next) (hg : PairAside eventRegs (ks ++ bankKeys p) p g (fetched p s) t')
    (hseq : ∀ x, (g x).seq = x.seq) (hks : ∀ k ∈ ks, k.1 ≠ .SEQ_STATUS) : Completes i s (IssuedAs p g ks next t' s) := by
  obtain ⟨b, hexec, hown⟩ := issue_completes he hf h (definedOp_of_class hc ho hd) (isOp_of_class hc ho _) hb hg
  have hstatus : seqState (issued p (seqPc s p) next t') p = seqState s p :=
    (issued_state p _ next t').trans
      ((hg.regs.fld (by decide) (by
        rw [List.mem_append, not_or]
        exact ⟨fun hk => hks _ hk rfl, not_bank (by decide)⟩)).trans (fetched_fld h (by decide)))
  refine ⟨_, hexec, ⟨issued_pc _ _ _ _, congrArg PairS.lastIssued hown.own, ?_⟩, hown.frame hstatus, ⟨b, hown.own⟩, fun f i hr => ?_⟩
  · rw [hown.own]
    exact congrArg (· + 1) (hseq _)
  · exact issued_fld_apart p _ next t' hr

/-! ## The fault that stops a score (R172, R173) -/

/-- The registers a score or pair fault may write beside the pair's own. -/
abbrev faultRegs : List Reg := .RL_LOG_PTR :: .RL_EVENTS :: eventRegs

/-- The registers of pair p that its fault writes. -/
abbrev faultKeys (p : Nat) : List (Reg × Nat) := [(.SEQ_STATUS, p), (.SEQ_FAULT, p), (.SEQ_EVENTS, p)]

/-- The registers of a pair that records a fault. -/
def faultNoted (p code cls pc sem : Nat) (s : State) : State :=
  raise F.SEQ_EVENTS_fault p (modPair p PairS.faulted (setFld F.SEQ_FAULT_sem p sem (setFld F.SEQ_FAULT_pc p pc (setFld F.SEQ_FAULT_cls p cls
    (setFld F.SEQ_FAULT_code p code (setFld F.SEQ_STATUS_state p sqFaulted s))))))

theorem pairFault_aside {code cls pc sem : Nat} (h : seqState s p ≠ sqFaulted) :
    Aside faultRegs [] (faultNoted p code cls pc sem s) (pairFault p code cls pc sem s) := by
  unfold pairFault
  rw [if_neg h]
  dsimp only
  have hl := ((logEvent_aside { block := 0x06, item := 0, severity := openSeverity 6 0, hive := hiveOf p, pair := p }
    (faultNoted p code cls pc sem s)).mono (rs' := faultRegs) (ks' := []) (by simp) (by simp)).trans
      ((sendEventOpen_aside 0x06 0 p _).mono (by simp) (by simp))
  exact .ite (hl.trans ((escalate_aside _ _ _ _).mono (by simp) (by simp))) hl

theorem faultNoted_pairAside (p code cls pc sem : Nat) (s : State) :
    PairAside [] (faultKeys p) p PairS.faulted s (faultNoted p code cls pc sem s) := by
  unfold faultNoted
  have h : Aside [] (faultKeys p) s (setFld F.SEQ_FAULT_sem p sem (setFld F.SEQ_FAULT_pc p pc (setFld F.SEQ_FAULT_cls p cls
      (setFld F.SEQ_FAULT_code p code (setFld F.SEQ_STATUS_state p sqFaulted s))))) :=
    ((((Aside.refl.setFld _ (.inr (by simp))).setFld _ (.inr (by simp))).setFld _ (.inr (by simp))).setFld _ (.inr (by simp))).setFld _
      (.inr (by simp))
  exact (h.toPair.trans (PairAside.modPair PairS.faulted _)).trans (Aside.refl.raise (f := F.SEQ_EVENTS_fault) (i := p) (.inr (by simp))).toPair

/-- A fault of a pair not FAULTED discards its work and writes its own registers, and beside them logs and sends. -/
theorem pairFault_pairAside {code cls pc sem : Nat} (h : seqState s p ≠ sqFaulted) :
    PairAside faultRegs (faultKeys p) p PairS.faulted s (pairFault p code cls pc sem s) :=
  ((faultNoted_pairAside p code cls pc sem s).mono (by simp) (by simp)).trans ((pairFault_aside h).mono (by simp) (by simp)).toPair

/-- What SEQ_STATUS, SEQ_FAULT and SEQ_EVENTS say of the fault. -/
theorem fld_pairFault {code cls pc sem : Nat} (h : seqState s p ≠ sqFaulted) (hcode : code < 2 ^ 8) (hcls : cls < 2 ^ 4) :
    seqState (pairFault p code cls pc sem s) p = 6 ∧ fld (pairFault p code cls pc sem s) F.SEQ_FAULT_code p = code
      ∧ fld (pairFault p code cls pc sem s) F.SEQ_FAULT_cls p = cls ∧ fld (pairFault p code cls pc sem s) F.SEQ_FAULT_pc p = pc % 2 ^ 20
      ∧ fld (pairFault p code cls pc sem s) F.SEQ_EVENTS_fault p = 1 := by
  have kept : ∀ {f : Fld}, f.reg ∉ faultRegs → fld (pairFault p code cls pc sem s) f p = fld (faultNoted p code cls pc sem s) f p :=
    fun hf => (pairFault_aside h).fld hf List.not_mem_nil
  have pairOnly : ∀ (f : Fld) (t : State), fld (modPair p PairS.faulted t) f p = fld t f p := fun _ _ => rfl
  refine ⟨(kept (f := F.SEQ_STATUS_state) (by decide)).trans ?_, (kept (by decide)).trans ?_, (kept (by decide)).trans ?_,
    (kept (by decide)).trans ?_, (kept (by decide)).trans (fld_raise_self (by decide) (by decide) _ _)⟩
  all_goals
    rw [faultNoted, fld_raise_apart (by decide) (by decide), pairOnly]
    repeat rw [fld_setFld_apart (by decide) (by decide)]
  · exact fld_setFld_fits (by decide) p (by decide) s
  · exact fld_setFld_fits (by decide) p hcode _
  · exact fld_setFld_fits (by decide) p hcls _
  · exact fld_setFld_self (by decide) p pc _

/-- A pair whose buffer and counters alone have changed stops on a fault: what it says, and what it leaves alone. -/
theorem faulted_pairFault {rs : List Reg} {b : SMap Nat} {code cls pc : Nat}
    (h : PairAside rs [] p (fun x => { x with ibuf := b }) s t)
    (hrs : .SEQ_SCALAR_i ∉ rs ∧ .SEQ_SEM_i ∉ rs) (hrun : seqState t p ≠ sqFaulted) (hcode : code < 2 ^ 8) (hcls : cls < 2 ^ 4) :
    Faulted p code cls pc s (pairFault p code cls pc 0 t) := by
  have hf := pairFault_pairAside (code := code) (cls := cls) (pc := pc) (sem := 0) hrun
  obtain ⟨h1, h2, h3, h4, h5⟩ := fld_pairFault (pc := pc) (sem := 0) hrun hcode hcls
  have hm := (h.mono (rs' := rs ++ faultRegs) (ks' := faultKeys p) (fun _ => List.mem_append_left _) (by simp)).trans
    (hf.mono (fun _ => List.mem_append_right _) (by simp))
  refine ⟨h1, h2, h3, h4, h5, ?_, ?_, ?_, ?_, fun i => ?_, fun q i => ?_, hm.memSame, hm.others⟩
  · rw [hm.own]; rfl
  · rw [hm.own]; rfl
  · rw [hm.own]; rfl
  · rw [hm.own]; rfl
  · exact hm.regs.fld (f := F.SEQ_SCALAR_i_value) (by simp [hrs.1]) (by simp)
  · exact hm.regs.fld (f := F.SEQ_SEM_i_count) (by simp [hrs.2]) (by simp)

end Sys2Proof.Machine

/-! SUPPORT. SYNC and CTL at issue, and the waits they begin and end (R154, R156, R157, R200, R201). -/

namespace Sys2Proof.Machine

/-! ## The error log is written by logging alone -/

section

variable (s : State)

theorem foldl_log {α : Type} {f : State → α → State} (h : ∀ t a, (f t a).log = t.log) (l : List α) : (l.foldl f s).log = s.log :=
  foldl_invariant (P := fun t : State => t.log = s.log) (fun t a ht => (h t a).trans ht) l rfl

@[simp] theorem msix_log (v : Nat) : (msix v s).log = s.log := by
  unfold msix
  split_ifs <;> rfl

@[simp] theorem countPort_log (lo hi : Fld) (port n : Nat) : (countPort lo hi port n s).log = s.log := by
  unfold countPort
  split_ifs <;> rfl

@[simp] theorem sendPacket_log (port : Nat) (p : Packet) : (sendPacket port p s).log = s.log := by
  unfold sendPacket
  exact (countPort_log _ _ _ _ _).trans (foldl_log (f := sendData port) _ (fun _ _ => rfl) _)

@[simp] theorem servePort_log (k n : Nat) : (servePort k n s).log = s.log := by
  induction k generalizing s with
  | zero => rfl
  | succ k ih =>
    unfold servePort
    split
    · rfl
    · split
      · rfl
      · rw [ih]
        split
        · rfl
        · exact sendPacket_log _ _ _

@[simp] theorem transmit_log (port input : Nat) (p : Packet) : (transmit port input p s).log = s.log := servePort_log _ _ _

theorem sendOn_log {fromAxis : Option Nat} {input : Nat} {p : Packet} {back : State → State} (hb : ∀ t, (back t).log = t.log) :
    (sendOn fromAxis input p back s).log = s.log := by
  unfold sendOn
  split
  · rw [transmit_log]
    split <;> rfl
  · exact hb _

@[simp] theorem injectOne_log (p : Packet) : (injectOne p s).log = s.log := by
  unfold injectOne
  dsimp only
  split
  · rfl
  · split
    · exact transmit_log _ _ _ _
    · exact sendOn_log s fun t => by split <;> rfl

@[simp] theorem inject_log (p : Packet) : (inject p s).log = s.log := foldl_log s (fun t m => injectOne_log t m) _

@[simp] theorem queenTake_log (e : EventRec) : (queenTake e s).log = s.log := by
  unfold queenTake
  split_ifs
  · rfl
  · rfl
  · exact msix_log _ _

@[simp] theorem sendEvent_log (block item pr data : Nat) : (sendEvent block item pr data s).log = s.log := by
  unfold sendEvent sendRec deliverRec
  split
  · rfl
  · dsimp only
    split_ifs
    · rfl
    · exact queenTake_log _ _
    · exact inject_log _ _

@[simp] theorem ctrSample_log (p j old new code : Nat) : (ctrSample p j old new code s).log = s.log := by
  unfold ctrSample
  dsimp only
  split
  · exact sendEvent_log _ _ _ _ _
  · rfl

@[simp] theorem ctrBump_log (p j code n : Nat) : (ctrBump p j code n s).log = s.log := by
  unfold ctrBump
  dsimp only
  split
  · split
    · rw [ctrSample_log]
      split <;> rfl
    · rw [ctrSample_log]
      split <;> rfl
  · rfl

@[simp] theorem count_log (p code n : Nat) : (count p code n s).log = s.log := by
  unfold count
  split
  · exact foldl_log s (fun t j => ctrBump_log t p j code n) _
  · rfl

@[simp] theorem issued_log (p pc : Nat) (next : Option Nat) : (issued p pc next s).log = s.log := count_log _ _ _ _

end

/-- A read that meets no poison meets no offline sector, and notes nothing (R20, R221). -/
theorem noteOfflineRange_of_clean {s : State} {a n : Nat} (h : poisoned s a n = false) (rq : Nat) (isRead : Bool) :
    noteOfflineRange a n rq isRead s = s := by
  unfold poisoned at h
  rw [List.any_eq_false] at h
  rw [noteOfflineRange, List.filter_eq_nil_iff.mpr fun x hx => ?_, List.foldl_nil]
  simpa using fun ho : offline s (x * 64) = true => h x hx (by simp [ho])

/-- A clean fetch changes the buffer, and counts what it read. -/
theorem fetched_eq {p w : Nat} {s : State} (h : Issues p w s) :
    ∃ b, fetched p s = modPair p (fun x => { x with ibuf := b }) s
      ∨ fetched p s = count p 0x23 64 (modPair p (fun x => { x with ibuf := b }) s) := by
  have hc := h.clean
  unfold fetched
  unfold fetchWord fetchSector at hc ⊢
  dsimp only at hc ⊢
  split
  · exact ⟨_, .inl rfl⟩
  · rename_i hnone
    rw [hnone] at hc
    dsimp only at hc
    have hp : poisoned s (fld s F.SEQ_SCORE_base p * 4096 + 64 * (seqPc s p / 4)) 64 = false := by
      by_contra hbad
      rw [Bool.not_eq_false] at hbad
      simp [hbad, b2n] at hc
    rw [noteOfflineRange_of_clean hp]
    exact ⟨_, .inr rfl⟩

theorem fetched_log {p w : Nat} {s : State} (h : Issues p w s) : (fetched p s).log = s.log := by
  obtain ⟨b, hb | hb⟩ := fetched_eq h
  · rw [hb]; rfl
  · rw [hb, count_log]; rfl

/-! ## Changes of one pair that may write memory -/

/-- From s to u the units of pair p have changed by g and no other pair's have, the registers of rs and ks may have, and the part is in
service and its commands wait as before. -/
structure PairChange (rs : List Reg) (ks : List (Reg × Nat)) (p : Nat) (g : PairS → PairS) (s u : State) : Prop where
  own : pair u p = g (pair s p)
  others : ∀ q, q ≠ p → pair u q = pair s q
  regs : Keeps rs ks s u
  live : u.inService = s.inService
  queue : u.pending = s.pending

section

variable {rs rs' : List Reg} {ks ks' : List (Reg × Nat)} {p : Nat} {g h : PairS → PairS} {s t u : State}

theorem PairAside.change (a : PairAside rs ks p g s u) : PairChange rs ks p g s u := ⟨a.own, a.others, a.regs, a.inService, a.pending⟩

theorem BesideMem.change (a : BesideMem rs ks s u) : PairChange rs ks p id s u where
  own := by simp only [pair, a.pairs, id_eq]
  others := fun q _ => by simp only [pair, a.pairs]
  regs := a.keeps
  live := a.inService
  queue := a.pending

theorem PairChange.trans (a : PairChange rs ks p g s t) (b : PairChange rs ks p h t u) : PairChange rs ks p (fun x => h (g x)) s u where
  own := by rw [b.own, a.own]
  others := fun q hq => (b.others q hq).trans (a.others q hq)
  regs := a.regs.trans b.regs
  live := b.live.trans a.live
  queue := b.queue.trans a.queue

theorem PairChange.mono (a : PairChange rs ks p g s u) (h1 : ∀ r ∈ rs, r ∈ rs') (h2 : ∀ k ∈ ks, k.1 ∈ rs' ∨ k ∈ ks') :
    PairChange rs' ks' p g s u := { a with regs := a.regs.mono h1 h2 }

end

/-! ## A slice begins (R36, R95, R233) -/

/-- The registers that the bias copies of a slice may write: what a write of memory meets, and the counters. -/
abbrev biasRegs : List Reg := .CTR_P_n :: .CTR_P_OVF :: .CTR_P_SAMPLE_LAST :: .MEM_POISON_REC :: .MEM_EVENTS :: .RL_LOG_PTR :: .RL_EVENTS :: eventRegs

/-- The units of a pair that has received the bias copies it was owed. -/
def biasServed (x : PairS) : PairS := { x with biasDue := 0 }

theorem biasCopy_beside (p r : Nat) (s : State) : BesideMem biasRegs [] s (biasCopy p r s) :=
  (((count_aside p 0x21 _ s).mono (by simp) fun k hk => .inl (by rcases bank_reg hk with e | e | e <;> simp [e])).besideMem).trans
    ((memWrite_beside _ _ _ _).mono (by simp) (by simp))

theorem biasDeliver_change (p : Nat) (s : State) : PairChange biasRegs [] p biasServed s (biasDeliver p s) :=
  (foldl_besideMem (fun t r => biasCopy_beside p r t) _ s).change.trans (PairAside.modPair biasServed _).change

/-- The units of a pair that enters the slice of schedule breath n. -/
def sliceEntered (n : Nat) (x : PairS) : PairS := { x.loadLanes n with sliceBreath := n, inSlice := true, owed := none, startDue := false }

/-- The units of a pair in the slice of schedule breath n, the bias copies it was owed received. -/
def sliceBegun (n : Nat) (x : PairS) : PairS := sliceEntered n (biasServed x)

theorem beginSlice_change (p n : Nat) (s : State) : PairChange biasRegs [(.SEQ_STATUS, p)] p (sliceBegun n) s (beginSlice p n s) := by
  have hbias := (biasDeliver_change p s).mono (rs' := biasRegs) (ks' := [(.SEQ_STATUS, p)]) (fun _ h => h) (by simp)
  exact (hbias.trans (PairAside.modPair (sliceEntered n) _).change).trans
    (Aside.refl.setFld (f := F.SEQ_STATUS_state) (i := p) sqRunning (.inr (by simp))).toPair.change

theorem seqState_beginSlice (p n : Nat) (s : State) : seqState (beginSlice p n s) p = 2 := fld_setFld_fits (by decide) p (by decide) _

/-! ## A slice or a score ends (R157, R159) -/

/-- From s to u the window totals, the registers of rs and ks and what Aside allows have changed. -/
def BesideWindows (rs : List Reg) (ks : List (Reg × Nat)) (s u : State) : Prop := Aside rs ks { s with windowLoads := u.windowLoads } u

/-- The window totals with the load counts of pair p's slice (R230). -/
def loadsCounted (p : Nat) (s : State) : State :=
  if fldB s F.ROUTE_CTRL_loop_en then
    (pair s p).loads.foldl (fun t e =>
      let key := (pair s p).sliceBreath / fld s F.ROUTE_CTRL_period * 4096 + e.1
      let v := SMap.get 0 t.windowLoads key + e.2
      raiseIf (v > 0xFFFFFFFF) F.ROUTE_EVENTS_count_sat 0 { t with windowLoads := SMap.set 0 t.windowLoads key (min v 0xFFFFFFFF) }) s
  else s

/-- The units of a pair whose load counts are taken. -/
def loadsTaken (x : PairS) : PairS := { x with loads := [] }

theorem mergeLoads_eq (p : Nat) (s : State) : mergeLoads p s = modPair p loadsTaken (loadsCounted p s) := rfl

theorem loadsCounted_beside (p : Nat) (s : State) : BesideWindows [.ROUTE_EVENTS] [] s (loadsCounted p s) := by
  unfold loadsCounted
  split
  · refine foldl_invariant (P := BesideWindows [.ROUTE_EVENTS] [] s) (fun t e ht => ?_) _ (Aside.refl : BesideWindows _ _ s s)
    have hw : ∀ m : SMap Nat, BesideWindows [.ROUTE_EVENTS] [] s { t with windowLoads := m } := fun m =>
      ⟨congrArg (fun x : State => { x with windowLoads := m }) ht.1, ht.2⟩
    dsimp only
    unfold raiseIf
    split
    · exact Aside.raise (hw _) (.inl (by simp))
    · exact hw _
  · exact Aside.refl

/-- The units of a pair between two slices: it waits for nothing and owes none. -/
def betweenSlices (x : PairS) : PairS := { x with blocked := .none, pauseReq := false, inSlice := false, owed := none }

/-- The units of a pair that has left its slice. -/
def sliceLeft (x : PairS) : PairS := betweenSlices (loadsTaken x)

/-- Pair p leaves its slice for the state st. -/
def leaveSlice (p st : Nat) (s : State) : State := setFld F.SEQ_STATUS_state p st (modPair p betweenSlices (mergeLoads p s))

theorem leaveSlice_pairAside (p st : Nat) (s : State) :
    PairAside [.ROUTE_EVENTS] [(.SEQ_STATUS, p)] p sliceLeft { s with windowLoads := (loadsCounted p s).windowLoads } (leaveSlice p st s) :=
  (((Aside.toPair ((loadsCounted_beside p s).mono (fun _ h => h) (by simp))).trans (PairAside.modPair loadsTaken _)).trans
    (PairAside.modPair betweenSlices _)).trans
      (Aside.refl.setFld (f := F.SEQ_STATUS_state) (i := p) st (.inr (by simp))).toPair

theorem scoreDone_eq (p : Nat) (s : State) : scoreDone p s = leaveSlice p 5 s := rfl

theorem seqState_leaveSlice {st : Nat} (hst : st < 16) (p : Nat) (s : State) : seqState (leaveSlice p st s) p = st :=
  fld_setFld_fits (by decide) p (lt_of_lt_of_le hst (by decide)) _

theorem leaveSlice_fld (p st : Nat) (s : State) {f : Fld} {i : Nat} (hf : f.reg ∉ [.ROUTE_EVENTS, .SEQ_STATUS]) :
    fld (leaveSlice p st s) f i = fld s f i := by
  simp only [List.mem_cons, List.not_mem_nil, or_false, not_or] at hf
  exact (leaveSlice_pairAside p st s).regs.fld (by simpa using hf.1) (by simp [hf.2])

theorem leaveSlice_memSame (p st : Nat) (s : State) : MemSame s (leaveSlice p st s) := (leaveSlice_pairAside p st s).memSame

theorem pair_leaveSlice (p st : Nat) (s : State) : pair (leaveSlice p st s) p = sliceLeft (pair s p) := (leaveSlice_pairAside p st s).own

/-- What the end of a slice is, before the slice owed begins. -/
theorem sliceEnd_eq (p : Nat) (s : State) :
    sliceEnd p s = match (pair s p).owed with
      | some n => if (pair s p).pauseReq || fld (leaveSlice p (if (pair s p).pauseReq then 4 else 3) s) F.BREATH_STATUS_state = 4
          then leaveSlice p (if (pair s p).pauseReq then 4 else 3) s
          else beginSlice p n (leaveSlice p (if (pair s p).pauseReq then 4 else 3) s)
      | none => leaveSlice p (if (pair s p).pauseReq then 4 else 3) s := rfl

/-- Where no slice is owed the pair waits, or pauses if it was asked to. -/
theorem sliceEnd_none {p : Nat} {s : State} (h : (pair s p).owed = none) :
    sliceEnd p s = leaveSlice p (if (pair s p).pauseReq then 4 else 3) s := by
  rw [sliceEnd_eq, h]

/-- A slice owed begins at once outside DESYNC (R36, R42). -/
theorem sliceEnd_owed {p n : Nat} {s : State} (h : (pair s p).owed = some n) (hpause : (pair s p).pauseReq = false)
    (hsync : fld s F.BREATH_STATUS_state ≠ 4) : sliceEnd p s = beginSlice p n (leaveSlice p 3 s) := by
  rw [sliceEnd_eq, h, leaveSlice_fld p _ s (by decide)]
  simp [hpause, hsync]

end Sys2Proof.Machine

/-! SUPPORT. The clauses of the SYNC and slice-end statements: SLICE, END, WAIT, HUM, SIGNAL and QUIET as they issue, and the releases that end
their waits (R154, R156, R157, R200, R201, R203). -/

namespace Sys2Proof.Machine

variable {p w cls op : Nat} {s t u : State}

/-! ## SLICE and END (R156, R157, R201) -/

theorem bitAt_eq (w i : Nat) : bitAt w i = decide (wbits w i i = 1) := by
  simp [bitAt, bitsOf]

/-- An instruction that ends its slice or its score now does not wait to be quiet. -/
theorem endsNow (h : Issues p w s) (hq : wbits w 10 10 = 0 ∨ pairQuiet s p = true) :
    (bitAt w 10 && !pairQuiet (fetched p s) p) = false := by
  rw [fetched_pairQuiet h, bitAt_eq]
  rcases hq with hq | hq <;> simp [hq]

/-- One whose flag is set on a pair that is not quiet waits. -/
theorem endsLater (h : Issues p w s) (hflag : wbits w 10 10 = 1) (hq : pairQuiet s p = false) :
    (bitAt w 10 && !pairQuiet (fetched p s) p) = true := by
  rw [fetched_pairQuiet h, bitAt_eq, hflag, hq]
  rfl

/-- An instruction that takes its pair out of its slice. -/
theorem issue_leaves {i : Instr} {f : State → State} {body : Nat → State → Issue} {st : Nat}
    (he : exec i s = .next (whenClocked f s)) (hf : f s = issueWith p (isOp cls op) body s) (h : Issues p w s) (hc : wbits w 3 0 = cls)
    (ho : wbits w 9 4 = op) (hd : (definedOps cls).contains op = true) (hb : body w (fetched p s) = .done (leaveSlice p st (fetched p s)) none)
    (hst : st < 16) :
    Completes i s fun u =>
      seqState u p = st ∧ MovesTo p (seqPc s p + 1) s u ∧ (pair u p).settled = (sliceLeft (pair s p)).settled
        ∧ (∀ i, scalar u p i = scalar s p i) ∧ MemSame s u := by
  obtain ⟨b, hfetch⟩ := fetched_pairAside h
  have hl := leaveSlice_pairAside p st (fetched p s)
  have hown : pair (leaveSlice p st (fetched p s)) p = sliceLeft { pair s p with ibuf := b } := by rw [pair_leaveSlice, hfetch.own]
  refine ⟨_, issue_runs he hf h hc ho hd hb (hl.inService.trans (fetched_live h).1) (hl.pending.trans (fetched_live h).2),
    (issued_state p _ _ _).trans (seqState_leaveSlice hst p _), issued_moves (by rw [hown]; rfl), ?_, fun i => ?_, ?_⟩
  · rw [issued_settled, hown]
    rfl
  · exact (issued_fld_apart p _ _ _ (by decide)).trans ((leaveSlice_fld p st _ (by decide)).trans (fetched_scalar h i))
  · exact ((fetched_memSame h).trans (leaveSlice_memSame p st _)).trans (issued_pairAside p _ _ _).memSame

theorem slice_ends (p : Pair) (w : Nat) (s : State) (h : Issues p w s) (hw : IsWord 6 0x18 [(10, 0), (38, 24), (127, 64)] w)
    (hq : wbits w 10 10 = 0 ∨ pairQuiet s p = true) (howed : (pair s p).owed = none) :
    Completes (.slice p) s fun u =>
      seqState u p = (if (pair s p).pauseReq then 4 else 3) ∧ MovesTo p (seqPc s p + 1) s u
        ∧ (pair u p).settled = { (pair s p).settled with blocked := .none, pauseReq := false, inSlice := false, loads := [] }
        ∧ (∀ i, scalar u p i = scalar s p i) ∧ MemSame s u := by
  obtain ⟨hc, ho, hbits⟩ := hw
  obtain ⟨b, hfetch⟩ := fetched_pairAside h
  have hpause : (pair (fetched p s) p).pauseReq = (pair s p).pauseReq := by rw [hfetch.own]
  have hb : issueSlice p w (fetched p s) = .done (leaveSlice p (if (pair s p).pauseReq then 4 else 3) (fetched p s)) none := by
    rw [issueSlice, hbits, endsNow h hq, sliceEnd_none (by rw [hfetch.own]; exact howed), hpause]
    rfl
  refine (issue_leaves rfl rfl h hc ho (by decide) hb (by split <;> decide)).imp fun u ⟨hst, hmove, hset, hrest⟩ => ⟨hst, hmove, ?_, hrest⟩
  rw [hset]
  simp only [PairS.settled, sliceLeft, betweenSlices, loadsTaken, howed]

theorem slice_begins (p : Pair) (w n : Nat) (s : State) (h : Issues p w s) (hw : IsWord 6 0x18 [(10, 0), (38, 24), (127, 64)] w)
    (hq : wbits w 10 10 = 0 ∨ pairQuiet s p = true) (howed : (pair s p).owed = some n) (hpause : (pair s p).pauseReq = false)
    (hsync : fld s F.BREATH_STATUS_state ≠ 4) :
    Completes (.slice p) s fun u =>
      seqState u p = 2 ∧ MovesTo p (seqPc s p + 1) s u ∧ (pair u p).sliceBreath = n ∧ (pair u p).inSlice = true
        ∧ (pair u p).owed = none ∧ (∀ i, scalar u p i = scalar s p i) := by
  obtain ⟨hc, ho, hbits⟩ := hw
  obtain ⟨b, hfetch⟩ := fetched_pairAside h
  have hl := leaveSlice_pairAside p 3 (fetched p s)
  have hbegin := beginSlice_change p n (leaveSlice p 3 (fetched p s))
  have hown : pair (beginSlice p n (leaveSlice p 3 (fetched p s))) p = sliceBegun n (sliceLeft { pair s p with ibuf := b }) := by
    rw [hbegin.own, pair_leaveSlice, hfetch.own]
  have hb : issueSlice p w (fetched p s) = .done (beginSlice p n (leaveSlice p 3 (fetched p s))) none := by
    rw [issueSlice, hbits, endsNow h hq, sliceEnd_owed (by rw [hfetch.own]; exact howed) (by rw [hfetch.own]; exact hpause)
      (by rwa [fetched_fld h (by decide)])]
    rfl
  have hunits := (issued_pairAside p (seqPc s p) none (beginSlice p n (leaveSlice p 3 (fetched p s)))).own
  rw [hown] at hunits
  refine ⟨_, issue_runs (f := ctlSlice p) rfl rfl h hc ho (by decide) hb (hbegin.live.trans (hl.inService.trans (fetched_live h).1))
      (hbegin.queue.trans (hl.pending.trans (fetched_live h).2)),
    (issued_state p _ _ _).trans (seqState_beginSlice p n _), issued_moves (by rw [hown]; rfl), by rw [hunits]; rfl, by rw [hunits]; rfl,
    by rw [hunits]; rfl, fun i => ?_⟩
  exact (issued_fld_apart p _ _ _ (by decide)).trans ((hbegin.regs.fld (by decide) (by simp)).trans
    ((leaveSlice_fld p 3 _ (by decide)).trans (fetched_scalar h i)))

theorem score_ends (p : Pair) (w : Nat) (s : State) (h : Issues p w s) (hw : IsWord 6 0x19 [(10, 0), (38, 24), (127, 64)] w)
    (hq : wbits w 10 10 = 0 ∨ pairQuiet s p = true) :
    Completes (.scoreEnd p) s fun u =>
      seqState u p = 5 ∧ MovesTo p (seqPc s p + 1) s u
        ∧ (pair u p).settled
          = { (pair s p).settled with blocked := .none, pauseReq := false, inSlice := false, owed := none, loads := [] }
        ∧ (∀ i, scalar u p i = scalar s p i) ∧ MemSame s u := by
  obtain ⟨hc, ho, hbits⟩ := hw
  have hb : issueEnd p w (fetched p s) = .done (leaveSlice p 5 (fetched p s)) none := by
    rw [issueEnd, hbits, endsNow h hq]
    rfl
  exact issue_leaves rfl rfl h hc ho (by decide) hb (by decide)

/-- An instruction that makes its sequencer wait, and does nothing else. -/
theorem issue_blocks {i : Instr} {f : State → State} {body : Nat → State → Issue} {b : Blocked} {ks : List (Reg × Nat)}
    (he : exec i s = .next (whenClocked f s)) (hf : f s = issueWith p (isOp cls op) body s) (h : Issues p w s) (hc : wbits w 3 0 = cls)
    (ho : wbits w 9 4 = op) (hd : (definedOps cls).contains op = true) (hb : body w (fetched p s) = .done (block p b (fetched p s)) none)
    (hks : ∀ k ∈ ks, k.1 ≠ .SEQ_STATUS) :
    Completes i s fun u =>
      MovesTo p (seqPc s p + 1) s u ∧ (pair u p).settled = { (pair s p).settled with blocked := b } ∧ IssueFrame p ks s u
        ∧ ∀ q k, semCount u q k = semCount s q k :=
  (issue_effect (ks := ks) he hf h hc ho hd hb (PairAside.modPair _ _) (fun _ => rfl) hks).imp fun _ hu =>
    ⟨hu.moves, hu.settled fun _ _ => rfl, hu.frame, fun q k => (hu.after _ _ (by decide)).trans (fetched_semCount h q k)⟩

theorem slice_waits (p : Pair) (w : Nat) (s : State) (h : Issues p w s) (hw : IsWord 6 0x18 [(10, 0), (38, 24), (127, 64)] w)
    (hflag : wbits w 10 10 = 1) (hq : pairQuiet s p = false) :
    Completes (.slice p) s fun u =>
      MovesTo p (seqPc s p + 1) s u ∧ (pair u p).settled = { (pair s p).settled with blocked := .sliceQuiet } ∧ IssueFrame p [] s u := by
  obtain ⟨hc, ho, hbits⟩ := hw
  have hb : issueSlice p w (fetched p s) = .done (block p .sliceQuiet (fetched p s)) none := by
    rw [issueSlice, hbits, endsLater h hflag hq]
    rfl
  exact (issue_blocks rfl rfl h hc ho (by decide) hb (by simp)).imp fun _ ⟨hm, hs, hfr, _⟩ => ⟨hm, hs, hfr⟩

theorem score_waits (p : Pair) (w : Nat) (s : State) (h : Issues p w s) (hw : IsWord 6 0x19 [(10, 0), (38, 24), (127, 64)] w)
    (hflag : wbits w 10 10 = 1) (hq : pairQuiet s p = false) :
    Completes (.scoreEnd p) s fun u =>
      MovesTo p (seqPc s p + 1) s u ∧ (pair u p).settled = { (pair s p).settled with blocked := .endQuiet } ∧ IssueFrame p [] s u := by
  obtain ⟨hc, ho, hbits⟩ := hw
  have hb : issueEnd p w (fetched p s) = .done (block p .endQuiet (fetched p s)) none := by
    rw [issueEnd, hbits, endsLater h hflag hq]
    rfl
  exact (issue_blocks rfl rfl h hc ho (by decide) hb (by simp)).imp fun _ ⟨hm, hs, hfr, _⟩ => ⟨hm, hs, hfr⟩

/-- Settles O4: each end at once, the slice owed, and the two that wait to be quiet. -/
theorem sliceEnds : Obligations.SliceEnds := ⟨slice_ends, slice_begins, score_ends, slice_waits, score_waits⟩

/-! ## WAIT and HUM (R154, R200, R203) -/

/-- A count that suffices is taken. -/
theorem issue_takes {i : Instr} {f : State → State} {body : Nat → State → Issue} {k n : Nat}
    (he : exec i s = .next (whenClocked f s)) (hf : f s = issueWith p (isOp cls op) body s) (h : Issues p w s) (hc : wbits w 3 0 = cls)
    (ho : wbits w 9 4 = op) (hd : (definedOps cls).contains op = true)
    (hb : body w (fetched p s) = .done (setFld F.SEQ_SEM_i_count (64 * p + k) (semCount (fetched p s) p k - n) (fetched p s)) none) :
    Completes i s fun u =>
      MovesTo p (seqPc s p + 1) s u ∧ IssueFrame p [(.SEQ_SEM_i, 64 * p + k)] s u ∧ semCount u p k = semCount s p k - n
        ∧ (pair u p).settled = (pair s p).settled := by
  have hlt : semCount s p k < 2 ^ 32 := fld_lt (f := F.SEQ_SEM_i_count) (by decide) s _
  refine (issue_effect (g := id) (ks := [(.SEQ_SEM_i, 64 * p + k)]) he hf h hc ho hd hb
    (Aside.refl.setFld _ (.inr (by simp))).toPair (fun _ => rfl) (by simp)).imp fun u hu =>
      ⟨hu.moves, hu.frame, (hu.after _ _ (by decide)).trans ?_, hu.settled fun _ _ => rfl⟩
  rw [fetched_semCount h]
  exact fld_setFld_fits (by decide) _ (show _ < 2 ^ 32 by omega) _

/-- WAIT and HUM, whose body takes the count or waits as b says. -/
theorem waits_on {i : Pair → Instr} {f : Nat → State → State} {fields : List (Nat × Nat)} {b : Nat → Nat → Nat → Blocked}
    (he : ∀ (p : Pair) s, exec (i p) s = .next (whenClocked (f p) s))
    (hf : ∀ p s, f p s = issueWith p (isOp cls 0) (fun w t =>
      checks (!onlyBits w fields) false false false (waitOn p w (b w (wSem w) (wbits w 39 24)) t)) s)
    (hd : (definedOps cls).contains 0 = true) : WaitsOn i cls fields b := by
  intro p w s h ⟨hc, ho, hbits⟩ hn
  rcases Nat.lt_or_ge (semCount s p (wbits w 21 16)) (wbits w 39 24) with hlt | hle
  · refine (issue_blocks (b := b w (wbits w 21 16) (wbits w 39 24)) (ks := [(.SEQ_SEM_i, 64 * p + wbits w 21 16)]) (he p s) (hf p s) h hc ho hd
      ?_ (by simp)).imp fun u ⟨hmove, hset, hframe, hsem⟩ =>
        ⟨hmove, hframe, fun hle => absurd hle (Nat.not_le.mpr hlt), fun _ => ⟨hsem _ _, hset⟩⟩
    simp only [hbits, checks, waitOn, hn, fetched_semCount h, wSem, ge_iff_le, Nat.not_le.mpr hlt, Bool.not_true, Bool.false_eq_true, if_false]
  · refine (issue_takes (k := wbits w 21 16) (n := wbits w 39 24) (he p s) (hf p s) h hc ho hd ?_).imp fun u ⟨hmove, hframe, hsem, hset⟩ =>
      ⟨hmove, hframe, fun _ => ⟨hsem, hset⟩, fun hlt => absurd hle (Nat.not_le.mpr hlt)⟩
    simp only [hbits, checks, waitOn, hn, fetched_semCount h, wSem, ge_iff_le, hle, Bool.not_true, Bool.false_eq_true, if_false, if_true]

/-- A command of the pair clocks that changes one pair's units and some registers completes so. -/
theorem completes_pairAside {c : Instr} {f : State → State} {rs : List Reg} {ks : List (Reg × Nat)} {g : PairS → PairS} {P : State → Prop}
    (hs : Clocked s) (he : exec c s = .next (whenClocked f s)) (hf : f s = u) (h : PairAside rs ks p g s u) (hp : P u) : Completes c s P :=
  ⟨u, he.trans (by rw [whenClocked_self hs (hf ▸ h.inService) (hf ▸ h.pending), hf]), hp⟩

/-- The units of a pair whose sequencer waits no longer. -/
def unblocked (x : PairS) : PairS := { x with blocked := .none }

theorem wait_released (p : Pair) (k n : Nat) (s : State) (hs : Clocked s)
    (hb : (pair s p).blocked = .sem k n ∨ ∃ check, (pair s p).blocked = .hum k n check) (hn : n ≤ semCount s p k) :
    Completes (.waitRelease p) s fun u =>
      semCount u p k = semCount s p k - n ∧ pair u p = { pair s p with blocked := .none }
        ∧ (∀ q, q ≠ p.val → pair u q = pair s q) ∧ Keeps [] [(.SEQ_SEM_i, 64 * p + k)] s u ∧ MemSame s u := by
  have hrun : waitRelease p s = setFld F.SEQ_SEM_i_count (64 * p + k) (semCount s p k - n) (block p .none s) := by
    rcases hb with hb | ⟨check, hb⟩ <;> simp only [waitRelease, hb, ge_iff_le, hn, if_true]
  have ha : PairAside [] [(.SEQ_SEM_i, 64 * p.val + k)] p unblocked s _ :=
    (PairAside.modPair unblocked s).trans
      (Aside.refl.setFld (f := F.SEQ_SEM_i_count) (i := 64 * p.val + k) (semCount s p k - n) (.inr (by simp))).toPair
  have hlt : semCount s p k < 2 ^ 32 := fld_lt (f := F.SEQ_SEM_i_count) (by decide) s _
  exact completes_pairAside hs rfl hrun ha
    ⟨fld_setFld_fits (by decide) _ (show _ < 2 ^ 32 by omega) _, ha.own, ha.others, ha.regs, ha.memSame⟩

/-- Settles O5: WAIT and HUM share their wait, and a release takes what they waited for. -/
theorem semaphoreWaits : Obligations.SemaphoreWaits :=
  ⟨waits_on (b := fun _ k n => .sem k n) (fun _ _ => rfl) (fun _ _ => rfl) (by decide),
    waits_on (b := fun w k n => .hum k n (bitAt w 10)) (fun _ _ => rfl) (fun _ _ => rfl) (by decide), wait_released⟩

/-! ## SIGNAL and QUIET (R154, R156, R200) -/

theorem signal_raises (p : Pair) (w : Nat) (s : State) (h : Issues p w s) (hw : IsWord 4 1 [(9, 0), (21, 16), (29, 24)] w)
    (hive : hiveState s (wbits w 29 24 / 16) = 0) (hroom : semCount s (wbits w 29 24) (wbits w 21 16) ≠ 0xFFFFFFFF) :
    Completes (.signal p) s fun u =>
      semCount u (wbits w 29 24) (wbits w 21 16) = semCount s (wbits w 29 24) (wbits w 21 16) + 1
        ∧ MovesTo p (seqPc s p + 1) s u ∧ (pair u p).settled = (pair s p).settled
        ∧ IssueFrame p [(.SEQ_SEM_i, 64 * wbits w 29 24 + wbits w 21 16)] s u := by
  obtain ⟨hc, ho, hbits⟩ := hw
  have hroom' : semCount (fetched p s) (wbits w 29 24) (wbits w 21 16) ≠ 0xFFFFFFFF := by rwa [fetched_semCount h]
  have hive' : hiveState (fetched p s) (hiveOf (wbits w 29 24)) = 0 := (fetched_fld h (by decide)).trans hive
  have hb : issueSignal p w (fetched p s) = .done (semInc (wbits w 29 24) (wbits w 21 16) (fetched p s)) none := by
    simp only [issueSignal, hbits, checks, hive', wSem, ne_eq, not_true, if_false, Bool.not_true, Bool.false_eq_true]
  refine (issue_effect (g := id) (ks := [(.SEQ_SEM_i, 64 * wbits w 29 24 + wbits w 21 16)]) rfl rfl h hc ho (by decide) hb ?_
    (fun _ => rfl) (by simp)).imp fun u hu => ⟨?_, hu.moves, hu.settled fun _ _ => rfl, hu.frame⟩
  · rw [semInc_eq hroom']
    exact (Aside.refl.setFld _ (.inr (by simp))).toPair
  · exact (hu.after _ _ (by decide)).trans ((semCount_semInc hroom').trans (by rw [fetched_semCount h]))

theorem logOffline_aside (h pr : Nat) (s : State) : Aside logRegs [] s (logOffline h pr s) :=
  ((freshData_aside s).mono (by simp) (by simp)).trans (logEvent_aside _ _)

theorem logOffline_log_ne (h pr : Nat) (s : State) : (logOffline h pr s).log ≠ s.log := logEvent_log_ne _ (freshData s).2

/-- A signal to a hive out of service is dropped and logged. -/
theorem signal_dropped (p : Pair) (w : Nat) (s : State) (h : Issues p w s) (hw : IsWord 4 1 [(9, 0), (21, 16), (29, 24)] w)
    (hive : hiveState s (wbits w 29 24 / 16) ≠ 0) :
    Completes (.signal p) s fun u =>
      (∀ q k, semCount u q k = semCount s q k) ∧ MovesTo p (seqPc s p + 1) s u
        ∧ (pair u p).settled = (pair s p).settled ∧ u.log ≠ s.log ∧ MemSame s u := by
  obtain ⟨hc, ho, hbits⟩ := hw
  obtain ⟨b, hfetch⟩ := fetched_pairAside h
  have hive' : hiveState (fetched p s) (hiveOf (wbits w 29 24)) ≠ 0 := by
    rw [hiveState, fetched_fld h (by decide)]
    exact hive
  have hb : issueSignal p w (fetched p s) = .done (logOffline (hiveOf (wbits w 29 24)) p (fetched p s)) none := by
    simp only [issueSignal, hbits, checks, hive', ne_eq, not_false_eq_true, if_true, if_false, Bool.not_true, Bool.false_eq_true]
  have hlog := logOffline_aside (hiveOf (wbits w 29 24)) p (fetched p s)
  have hown : pair (logOffline (hiveOf (wbits w 29 24)) p (fetched p s)) p = { pair s p with ibuf := b } := by rw [hlog.pair, hfetch.own]
  refine ⟨_, issue_runs (f := signal p) rfl rfl h hc ho (by decide) hb (hlog.inService.trans (fetched_live h).1)
    (hlog.pending.trans (fetched_live h).2), fun q k => ?_, issued_moves (by rw [hown]), ?_, ?_, ?_⟩
  · exact (issued_fld_apart p _ _ _ (by decide)).trans ((hlog.fld (by decide) (by simp)).trans (fetched_semCount h q k))
  · rw [issued_settled, hown]
    rfl
  · rw [issued_log, ← fetched_log h]
    exact logOffline_log_ne _ _ _
  · exact ((fetched_memSame h).trans hlog.memSame).trans (issued_pairAside p _ _ _).memSame

theorem quiet_issues (p : Pair) (w : Nat) (s : State) (h : Issues p w s) (hw : IsWord 4 2 [(9, 0)] w) :
    Completes (.quiet p) s fun u =>
      MovesTo p (seqPc s p + 1) s u ∧ IssueFrame p [] s u
        ∧ (pairQuiet s p = true → (pair u p).settled = (pair s p).settled)
        ∧ (pairQuiet s p = false → (pair u p).settled = { (pair s p).settled with blocked := .quiet }) := by
  obtain ⟨hc, ho, hbits⟩ := hw
  cases hq : pairQuiet s p with
  | true =>
    have hb : issueQuiet p w (fetched p s) = .done (fetched p s) none := by
      rw [issueQuiet, hbits, fetched_pairQuiet h, hq]
      rfl
    exact (issue_effect (g := id) (ks := []) rfl rfl h hc ho (by decide) hb Aside.refl.toPair (fun _ => rfl) (by simp)).imp fun u hu =>
      ⟨hu.moves, hu.frame, fun _ => hu.settled fun _ _ => rfl, nofun⟩
  | false =>
    have hb : issueQuiet p w (fetched p s) = .done (block p .quiet (fetched p s)) none := by
      rw [issueQuiet, hbits, fetched_pairQuiet h, hq]
      rfl
    exact (issue_blocks rfl rfl h hc ho (by decide) hb (by simp)).imp fun u ⟨hmove, hset, hframe, _⟩ =>
      ⟨hmove, hframe, nofun, fun _ => hset⟩

theorem quiet_released (p : Pair) (s : State) (hs : Clocked s) (hq : pairQuiet s p = true) (hb : (pair s p).blocked = .quiet) :
    Completes (.quietRelease p) s fun u =>
      pair u p = { pair s p with blocked := .none } ∧ (∀ q, q ≠ p.val → pair u q = pair s q) ∧ Keeps [] [] s u ∧ MemSame s u := by
  have hrun : quietRelease p s = block p .none s := by simp [quietRelease, hq, hb]
  have ha : PairAside [] [] p unblocked s (block p .none s) := PairAside.modPair unblocked s
  exact completes_pairAside hs rfl hrun ha ⟨ha.own, ha.others, ha.regs, ha.memSame⟩

/-- A quiet SLICE or END that waited takes its pair out of its slice. -/
theorem quiet_leaves {p : Pair} {st : Nat} (hs : Clocked s) (hrun : quietRelease p s = leaveSlice p st s) (hst : st < 16) :
    Completes (.quietRelease p) s fun u =>
      seqState u p = st ∧ (pair u p).inSlice = false ∧ (pair u p).blocked = .none ∧ MemSame s u := by
  refine completes_clocked hs rfl ?_
  rw [hrun]
  refine ⟨seqState_leaveSlice hst _ _, ?_, ?_, (leaveSlice_memSame p st s)⟩
  · rw [keepQueue_pair, pair_leaveSlice]
    rfl
  · rw [keepQueue_pair, pair_leaveSlice]
    rfl

/-- Settles O6: the signal and its drop, the wait to be quiet, and what a quiet pair releases. -/
theorem signalQuiet : Obligations.SignalQuiet :=
  ⟨signal_raises, signal_dropped, quiet_issues, quiet_released,
    fun p s hs hq hb howed => quiet_leaves hs (by simp [quietRelease, hq, hb, sliceEnd_none howed]) (by split <;> decide),
    fun p s hs hq hb => quiet_leaves hs (by simp [quietRelease, hq, hb, scoreDone_eq]) (by decide)⟩

end Sys2Proof.Machine

/-! SUPPORT. PAUSE, RESUME and CLEAR of a pair (R159), and a register that goes back to its After reset value. -/

namespace Sys2Proof.Machine

variable {p : Pair} {s : State}

/-! ## A register back at reset -/

theorem reg_resetReg_self (r : Reg) (i : Nat) (s : State) : reg (resetReg r i s) r i = r.resetValue i := SMap.get_erase_self

theorem reg_resetReg_ne {r q : Reg} {i j : Nat} (s : State) (h : r ≠ q ∨ i ≠ j) : reg (resetReg r i s) q j = reg s q j :=
  SMap.get_erase_ne (regKey_ne h)

theorem resetReg_aside (r : Reg) (i : Nat) (s : State) : Aside [] [(r, i)] s (resetReg r i s) :=
  ⟨rfl, fun q j _ hk => reg_resetReg_ne s (by
    by_contra hn
    simp only [not_or, not_not] at hn
    simp [hn] at hk)⟩

/-! ## The commands (R159) -/

theorem pause_asked (p : Pair) (s : State) (hs : Released s) (h : seqState s p = 2) :
    Completes (.seqPause p) s fun u => pair u p = { pair s p with pauseReq := true } ∧ Keeps [] [] s u ∧ u.apart = s.apart := by
  have hu : seqPause p s = modPair p (fun x => { x with pauseReq := true }) s := if_pos h
  have ha : PairAside [] [] p (fun x => { x with pauseReq := true }) s (modPair p (fun x => { x with pauseReq := true }) s) := PairAside.modPair _ s
  exact completes_kept hs rfl hu ha.inService ha.pending ⟨ha.own, ha.regs, ha.rest⟩

/-- A command that moves its pair to the state v changes nothing else of it. -/
theorem completes_seqState {c : Instr} {f : State → State} {v : Nat} (hs : Released s) (he : exec c s = .next (whenReleased f s))
    (hf : f s = setFld F.SEQ_STATUS_state p v s) (hv : v < 16) :
    Completes c s fun u => seqState u p = v ∧ seqPc u p = seqPc s p ∧ Keeps [] [(.SEQ_STATUS, p)] s u ∧ u.still = s.still := by
  have ha : Aside [] [(.SEQ_STATUS, p.val)] s (setFld F.SEQ_STATUS_state p v s) := Aside.refl.setFld v (.inr (by simp))
  exact completes_kept hs he hf ha.inService ha.pending
    ⟨fld_setFld_fits (by decide) p (lt_of_lt_of_le hv (by decide)) s, fld_setFld_apart (by decide) (by decide) p p v s, ha.2, ha.1⟩

theorem pause_waiting (p : Pair) (s : State) (hs : Released s) (h : seqState s p = 3) :
    Completes (.seqPause p) s fun u =>
      seqState u p = 4 ∧ seqPc u p = seqPc s p ∧ Keeps [] [(.SEQ_STATUS, p)] s u ∧ u.still = s.still :=
  completes_seqState hs rfl (by simp [seqPause, h]) (by decide)

theorem resume_paused (p : Pair) (s : State) (hs : Released s) (h : seqState s p = 4) :
    Completes (.seqResume p) s fun u =>
      seqState u p = 3 ∧ seqPc u p = seqPc s p ∧ Keeps [] [(.SEQ_STATUS, p)] s u ∧ u.still = s.still :=
  completes_seqState hs rfl (by simp [seqResume, h]) (by decide)

theorem clear_faulted (p : Pair) (s : State) (hs : Released s) (h : seqState s p = 6) (he : fld s F.SEQ_CTRL_fault_escalate p = 0)
    (hq : pairQuiet s p = true) :
    Completes (.seqClear p) s fun u =>
      seqState u p = 0 ∧ seqPc u p = seqPc s p ∧ reg u .SEQ_FAULT p = 0#64 ∧ Keeps [] [(.SEQ_STATUS, p), (.SEQ_FAULT, p)] s u
        ∧ u.still = s.still := by
  have hu : seqClear p s = setFld F.SEQ_STATUS_state p sqIdle (resetReg .SEQ_FAULT p s) := by simp [seqClear, h, he, hq, fldB]
  have hr := (resetReg_aside .SEQ_FAULT p s).mono (rs' := []) (ks' := [(.SEQ_STATUS, p.val), (.SEQ_FAULT, p.val)]) (by simp) (by simp)
  have ha : Aside [] [(.SEQ_STATUS, p.val), (.SEQ_FAULT, p.val)] s (setFld F.SEQ_STATUS_state p sqIdle (resetReg .SEQ_FAULT p s)) :=
    hr.setFld _ (.inr (by simp))
  refine completes_kept hs rfl hu ha.inService ha.pending ⟨fld_setFld_fits (by decide) p (by decide) _, ?_, ?_, ha.2, ha.1⟩
  · exact (fld_setFld_apart (by decide) (by decide) p p _ _).trans (congrArg (getField F.SEQ_STATUS_pc) (reg_resetReg_ne s (.inl (by decide))))
  · exact (reg_setFld_ne _ _ (.inl (by decide))).trans (reg_resetReg_self _ _ _)

/-- A command its pair's state does not take runs to the mark of an ignored write alone. -/
theorem command_ignored (p : Pair) (c : Instr) (s : State) (hs : Released s)
    (h : c = .seqPause p ∧ seqState s p ≠ 2 ∧ seqState s p ≠ 3 ∨ c = .seqResume p ∧ seqState s p ≠ 4
      ∨ c = .seqClear p ∧ (seqState s p ≠ 6 ∨ fld s F.SEQ_CTRL_fault_escalate p = 1 ∨ pairQuiet s p = false)) :
    Completes c s fun u => fld u F.SEQ_EVENTS_ignored_write p = 1 ∧ Keeps [] [(.SEQ_EVENTS, p)] s u ∧ u.still = s.still := by
  have ignored : ∀ {f : State → State}, exec c s = .next (whenReleased f s) → f s = seqIgnored p s →
      Completes c s fun u => fld u F.SEQ_EVENTS_ignored_write p = 1 ∧ Keeps [] [(.SEQ_EVENTS, p)] s u ∧ u.still = s.still := by
    intro f he hf
    have ha : Aside [] [(.SEQ_EVENTS, p.val)] s (seqIgnored p s) := Aside.refl.raise (.inr (by simp))
    exact completes_kept hs he hf ha.inService ha.pending ⟨fld_raise_self (by decide) (by decide) _ _, ha.2, ha.1⟩
  rcases h with ⟨rfl, h2, h3⟩ | ⟨rfl, h4⟩ | ⟨rfl, hc⟩
  · exact ignored rfl (by simp [seqPause, h2, h3])
  · exact ignored rfl (by simp [seqResume, h4])
  · refine ignored rfl (if_neg ?_)
    rcases hc with hc | hc | hc <;> simp [hc, fldB]

/-- Settles O7: each command in the state that takes it, and in any other. -/
theorem sequencerCommands : Obligations.SequencerCommands :=
  ⟨pause_asked, pause_waiting, resume_paused, clear_faulted, command_ignored⟩

end Sys2Proof.Machine

/-! SUPPORT. The start of scores (R158): the fold that makes the named pairs PENDING, and the fold that begins their slices. -/

namespace Sys2Proof.Machine

variable {s t u : State}

/-! ## A pair accepts a start -/

theorem fld_iter_zero {f : Fld} (hf : f.ok = true) (b : Nat) {n j : Nat} (hj : j < n) (s : State) :
    fld (iter n s fun i t => setFld f (b + i) 0 t) f (b + j) = 0 := by
  unfold iter
  induction n with
  | zero => omega
  | succ n ih =>
    rw [List.range_succ, List.foldl_append]
    rcases Nat.lt_succ_iff_lt_or_eq.mp hj with hj | rfl
    · exact (fld_setFld_ne 0 _ (.inr (by omega))).trans (ih hj)
    · exact (fld_setFld_self hf _ 0 _).trans (Nat.zero_mod _)

/-- The registers of pair p that an accepted start writes. -/
abbrev startKeys (p : Nat) : List (Reg × Nat) :=
  (.SEQ_STATUS, p) :: (List.range 32).map (fun i => (.SEQ_SCALAR_i, 32 * p + i)) ++ (List.range 64).map (fun i => (.SEQ_SEM_i, 64 * p + i))

/-- The units of a pair that accepted a start. -/
def startTaken (isNew : Bool) (seed entry at_ : Nat) (x : PairS) : PairS :=
  { x with seed := seed, refillAt := entry / 4 * 4, ibuf := [], past := false, blocked := .none, pauseReq := false, inSlice := false
           owed := none, startAt := at_, startNew := isNew, startDue := false }

/-- The scalars and semaphores of a pair at 0. -/
def startCleared (p : Nat) (s : State) : State :=
  iter 64 (iter 32 s fun i t => setScalar p i 0 t) fun i t => setFld F.SEQ_SEM_i_count (64 * p + i) 0 t

/-- The registers of a pair that accepts a start. -/
def startWritten (p : Nat) (s : State) : State :=
  setFld F.SEQ_STATUS_state p sqPending (setFld F.SEQ_STATUS_pc p (fld (startCleared p s) F.SEQ_ENTRY_entry p) (startCleared p s))

theorem startCleared_aside (p : Nat) (s : State) : Aside [] (startKeys p) s (startCleared p s) :=
  (iter_aside (fun _ hi _ => Aside.refl.setFld _ (.inr (by simp [hi]))) _).trans
    (iter_aside (fun _ hi _ => Aside.refl.setFld _ (.inr (by simp [hi]))) _)

theorem startWritten_aside (p : Nat) (s : State) : Aside [] (startKeys p) s (startWritten p s) :=
  ((startCleared_aside p s).setFld _ (.inr (by simp))).setFld _ (.inr (by simp))

theorem startCleared_entry (p : Nat) (s : State) : fld (startCleared p s) F.SEQ_ENTRY_entry p = fld s F.SEQ_ENTRY_entry p :=
  (startCleared_aside p s).fld (by simp) (by simp)

theorem acceptStart_eq (isNew : Bool) (p : Nat) (s : State) :
    acceptStart isNew p s
      = modPair p (startTaken isNew (reg s .NUM_SEED 0).toNat (fld s F.SEQ_ENTRY_entry p) (fld s F.BREATH_START_start_tick)) (startWritten p s) := by
  have hseed : reg (startWritten p s) .NUM_SEED 0 = reg s .NUM_SEED 0 := (startWritten_aside p s).reg (by simp) (by simp)
  have htick : fld (startWritten p s) F.BREATH_START_start_tick 0 = fld s F.BREATH_START_start_tick :=
    (startWritten_aside p s).fld (by simp) (by simp)
  rw [← startCleared_entry, ← hseed, ← htick]
  rfl

theorem acceptStart_pairAside (isNew : Bool) (p : Nat) (s : State) :
    PairAside [] (startKeys p) p
      (startTaken isNew (reg s .NUM_SEED 0).toNat (fld s F.SEQ_ENTRY_entry p) (fld s F.BREATH_START_start_tick)) s (acceptStart isNew p s) := by
  rw [acceptStart_eq]
  exact (startWritten_aside p s).toPair.trans (PairAside.modPair _ _)

/-- Pair p of u has accepted a start with what the registers of s say. -/
structure StartTaken (isNew : Bool) (s u : State) (p : Nat) : Prop where
  state : seqState u p = 1
  index : seqPc u p = fld s F.SEQ_ENTRY_entry p
  scalars : ∀ i < 32, scalar u p i = 0
  sems : ∀ i < 64, semCount u p i = 0
  seed : (pair u p).seed = (reg s .NUM_SEED 0).toNat
  isNew : (pair u p).startNew = isNew
  tick : (pair u p).startAt = fld s F.BREATH_START_start_tick

theorem acceptStart_taken (isNew : Bool) (p : Nat) (s : State) : StartTaken isNew s (acceptStart isNew p s) p := by
  have hown := (acceptStart_pairAside isNew p s).own
  have pairOnly : ∀ (g : PairS → PairS) (t : State) (f : Fld) {i : Nat}, fld (modPair p g t) f i = fld t f i := fun _ _ _ _ => rfl
  have hfld : ∀ f : Fld, ∀ i, fld (acceptStart isNew p s) f i = fld (startWritten p s) f i := fun f i => by
    rw [acceptStart_eq]
    exact pairOnly _ _ _
  have hcleared : ∀ f : Fld, f.reg ≠ .SEQ_STATUS → ∀ i, fld (startWritten p s) f i = fld (startCleared p s) f i := fun f hf i =>
    (fld_setFld_ne _ _ (.inl (Ne.symm hf))).trans (fld_setFld_ne _ _ (.inl (Ne.symm hf)))
  refine ⟨(hfld _ _).trans (fld_setFld_fits (by decide) p (by decide) _), ?_, fun i hi => ?_, fun i hi => ?_, by rw [hown]; rfl,
    by rw [hown]; rfl, by rw [hown]; rfl⟩
  · have hfits : fld s F.SEQ_ENTRY_entry p < 2 ^ F.SEQ_STATUS_pc.width := fld_lt (by decide) _ _
    rw [seqPc, hfld, startWritten, fld_setFld_apart (by decide) (by decide), startCleared_entry, fld_setFld_fits (by decide) p hfits]
  · refine ((hfld _ _).trans (hcleared F.SEQ_SCALAR_i_value (by decide) _)).trans ?_
    refine ((iter_aside (rs := [.SEQ_SEM_i]) (ks := []) (fun _ _ _ => Aside.refl.setFld _ (.inl (by simp))) _).fld (by decide) (by simp)).trans ?_
    exact fld_iter_zero (by decide) _ hi s
  · exact ((hfld _ _).trans (hcleared F.SEQ_SEM_i_count (by decide) _)).trans (fld_iter_zero (by decide) _ hi _)

/-- Where a start has written nothing of pair p and what starts read is as it was, the pair stands as it stood. -/
theorem StartTaken.congr {isNew : Bool} {p : Nat} {ps : List Nat} (h : StartTaken isNew s t p) (hp : p ∉ ps)
    (hregs : Keeps [] (ps.flatMap startKeys) t u) (hpair : pair u p = pair t p) : StartTaken isNew s u p := by
  have kept : ∀ r i, (∀ q, (r, i) ∈ startKeys q → q = p) → (r, i) ∉ ps.flatMap startKeys := by
    intro r i hq hk
    obtain ⟨q, hqs, hk⟩ := List.mem_flatMap.mp hk
    exact hp (hq q hk ▸ hqs)
  refine ⟨(hregs.fld (by simp) (kept _ _ ?_)).trans h.state, (hregs.fld (by simp) (kept _ _ ?_)).trans h.index,
    fun i hi => (hregs.fld (by simp) (kept _ _ ?_)).trans (h.scalars i hi), fun i hi => (hregs.fld (by simp) (kept _ _ ?_)).trans (h.sems i hi),
    by rw [hpair, h.seed], by rw [hpair, h.isNew], by rw [hpair, h.tick]⟩ <;>
  · intro q hk
    simp at hk
    omega

/-- All the pairs of a list accept a start. -/
def acceptAll (isNew : Bool) (ps : List Nat) (s : State) : State := ps.foldl (fun t p => acceptStart isNew p t) s

/-- What accepting a start at the pairs of a list leaves alone: what starts read, the other pairs, every other unit. -/
structure StartsLeave (ps : List Nat) (s u : State) : Prop where
  regs : Keeps [] (ps.flatMap startKeys) s u
  others : ∀ q, q ∉ ps → pair u q = pair s q
  rest : u.apart = s.apart

theorem acceptAll_leaves (isNew : Bool) (ps : List Nat) (s : State) : StartsLeave ps s (acceptAll isNew ps s) := by
  induction ps generalizing s with
  | nil => exact ⟨.refl, fun _ _ => rfl, rfl⟩
  | cons p ps ih =>
    have hp := acceptStart_pairAside isNew p s
    have hps := ih (acceptStart isNew p s)
    refine ⟨(hp.regs.mono (by simp) fun k hk => .inr ?_).trans (hps.regs.mono (by simp) fun k hk => .inr ?_), fun q hq => ?_,
      hps.rest.trans hp.rest⟩
    · exact List.mem_flatMap.mpr ⟨p, by simp, hk⟩
    · rw [List.flatMap_cons]
      exact List.mem_append_right _ hk
    · rw [List.mem_cons, not_or] at hq
      exact (hps.others q hq.2).trans (hp.others q hq.1)

theorem StartTaken.of_read {isNew : Bool} {p q : Nat} (h : StartTaken isNew t u p) (hp : PairAside [] (startKeys q) q g s t) :
    StartTaken isNew s u p where
  state := h.state
  index := h.index.trans (hp.regs.fld (by simp) (by simp))
  scalars := h.scalars
  sems := h.sems
  seed := h.seed.trans (congrArg BitVec.toNat (hp.regs _ _ (by simp) (by simp)))
  isNew := h.isNew
  tick := h.tick.trans (hp.regs.fld (by simp) (by simp))

theorem acceptAll_taken (isNew : Bool) {ps : List Nat} {p : Nat} (hp : p ∈ ps) (s : State) : StartTaken isNew s (acceptAll isNew ps s) p := by
  induction ps generalizing s with
  | nil => exact absurd hp List.not_mem_nil
  | cons q ps ih =>
    have hq := acceptStart_pairAside isNew q s
    by_cases hin : p ∈ ps
    · exact (ih hin (acceptStart isNew q s)).of_read hq
    · obtain rfl : p = q := (List.mem_cons.mp hp).resolve_right hin
      have hl := acceptAll_leaves isNew ps (acceptStart isNew p s)
      exact (acceptStart_taken isNew p s).congr hin hl.regs (hl.others p hin)

/-! ## The checks of a start command (R158) -/

theorem mem_setBitsOf {n w p : Nat} : p ∈ setBitsOf n w ↔ p < n ∧ bitAt w p = true := by simp [setBitsOf]

theorem setBitsOf_eq_nil {n w : Nat} (h : w < 2 ^ n) : setBitsOf n w = [] ↔ w = 0 := by
  refine ⟨fun he => Nat.eq_of_testBit_eq fun i => ?_, fun he => by simp [he, setBitsOf, bitAt]⟩
  rw [Nat.zero_testBit]
  by_cases hi : i < n
  · by_contra hb
    rw [Bool.not_eq_false, ← bitAt_eq_testBit] at hb
    exact List.not_mem_nil (he ▸ mem_setBitsOf.mpr ⟨hi, hb⟩)
  · exact Nat.testBit_lt_two_pow (h.trans_le (Nat.pow_le_pow_right (by decide) (by omega)))

theorem startable_iff (s : State) (p : Nat) : startable s p = true ↔ Startable s p := by
  simp only [startable, Startable, hiveOf, Bool.and_eq_true, Bool.or_eq_true, decide_eq_true_eq, and_assoc]
  exact and_congr_left' decide_eq_true_iff

/-- A start in order, of the one kind where no score runs and of the other where new scores were accepted, is accepted at every pair named. -/
theorem startCmd_accepts {isNew isJoin : Bool} (h : StartInOrder s) (hkind : (isNew == isJoin) = false)
    (hnew : (isNew && (List.range 64).any (scoreRuns s)) = false) (hjoin : (isJoin && !s.breath.newAccepted) = false) :
    startCmd isNew isJoin s = modBreath (fun b => { b with newAccepted := b.newAccepted || isNew })
      (acceptAll isNew (setBitsOf 64 (fld s F.SCORE_MASK_pairs)) (startResult 1 s)) := by
  obtain ⟨hmask, hlock, hpairs, htick⟩ := h
  have hsome : (setBitsOf 64 (fld s F.SCORE_MASK_pairs)).isEmpty = false := by
    have hfits : fld s F.SCORE_MASK_pairs < 2 ^ 64 := fld_lt (by decide) _ _
    rw [List.isEmpty_eq_false_iff, ne_eq, setBitsOf_eq_nil hfits]
    exact hmask
  have hall : (setBitsOf 64 (fld s F.SCORE_MASK_pairs)).find? (fun p => !startable s p) = none := by
    rw [List.find?_eq_none]
    intro p hp
    rw [mem_setBitsOf] at hp
    simp [(startable_iff s p).mpr (hpairs p hp.1 hp.2)]
  have hlate : ¬ (fld s F.BREATH_START_start_tick ≠ 0 && fld s F.BREATH_START_start_tick ≤ tickNumber s) = true := by
    simp only [Bool.and_eq_true, decide_eq_true_eq]
    omega
  unfold startCmd
  simp only [hkind, hsome, hall, hnew, hjoin, fldB, hlock, if_neg hlate]
  rfl

/-- A start command whose accepted pairs are those of SCORE_MASK. -/
theorem starts_accepted {c : Instr} {f : State → State} {isNew isJoin : Bool} (hs : Released s) (he : exec c s = .next (whenReleased f s))
    (hf : f s = startCmd isNew isJoin s) (h : StartInOrder s) (hkind : (isNew == isJoin) = false)
    (hnew : (isNew && (List.range 64).any (scoreRuns s)) = false) (hjoin : (isJoin && !s.breath.newAccepted) = false) :
    Completes c s fun u => StartsAccepted isNew s u ∧ u.breath.newAccepted = (s.breath.newAccepted || isNew) := by
  have hr : Aside [] [(.SCORE_STATUS, 0)] s (startResult 1 s) := Aside.refl.setFld _ (.inr (by simp))
  have hl := acceptAll_leaves isNew (setBitsOf 64 (fld s F.SCORE_MASK_pairs)) (startResult 1 s)
  have hfree : ∀ r i, r ≠ .SEQ_STATUS → r ≠ .SEQ_SCALAR_i → r ≠ .SEQ_SEM_i →
      (r, i) ∉ (setBitsOf 64 (fld s F.SCORE_MASK_pairs)).flatMap startKeys := by
    intro r i h1 h2 h3 hk
    obtain ⟨q, _, hk⟩ := List.mem_flatMap.mp hk
    simp [h1, Ne.symm h2, Ne.symm h3] at hk
  have hrest := hl.rest.trans (hr.toPair (p := 0)).rest
  refine completes_kept hs he (hf.trans (startCmd_accepts h hkind hnew hjoin)) (congrArg State.inService hrest :) (congrArg State.pending hrest :)
    ⟨⟨?_, fun p hp hin => ?_, fun p hp hout => ⟨?_, ?_⟩, ?_⟩, ?_⟩
  · exact (hl.regs.fld (f := F.SCORE_STATUS_result) (by simp) (hfree _ _ (by decide) (by decide) (by decide))).trans
      (fld_setFld_fits (by decide) 0 (by decide) s)
  · obtain ⟨h1, h2, h3, h4, h5, h6, h7⟩ := acceptAll_taken isNew (mem_setBitsOf.mpr ⟨hp, hin⟩) (startResult 1 s)
    exact ⟨h1, h2.trans (hr.fld (by simp) (by simp)), h3, h4, h5.trans (congrArg BitVec.toNat (hr.reg (by simp) (by simp))), h6,
      h7.trans (hr.fld (by simp) (by simp))⟩
  · refine (hl.regs.fld (f := F.SEQ_STATUS_state) (by simp) fun hk => ?_).trans (hr.fld (by simp) (by simp))
    obtain ⟨q, hq, hk⟩ := List.mem_flatMap.mp hk
    obtain rfl : p = q := by simpa using hk
    simp [(mem_setBitsOf.mp hq).2] at hout
  · exact (hl.others p fun hin => by simp [(mem_setBitsOf.mp hin).2] at hout).trans (hr.pair p)
  · exact ⟨fun a => (congrArg (fun t : State => byteAt t a) hrest :), fun x => (congrArg (fun t : State => marked t x) hrest :)⟩
  · exact congrArg (· || isNew) (congrArg (fun t : State => t.breath.newAccepted) hrest :)

theorem start_new (s : State) (hs : Released s) (h : StartInOrder s)
    (hidle : ∀ p < 64, seqState s p = 0 ∨ seqState s p = 5 ∨ seqState s p = 6) :
    Completes .startNew s fun u => StartsAccepted true s u ∧ u.breath.newAccepted = true := by
  have hnone : (true && (List.range 64).any (scoreRuns s)) = false := by
    rw [Bool.true_and, List.any_eq_false]
    intro p hp
    rcases hidle p (List.mem_range.mp hp) with h0 | h0 | h0 <;> simp [scoreRuns, h0]
  exact (starts_accepted hs rfl rfl h rfl hnone rfl).imp fun u ⟨h1, h2⟩ => ⟨h1, by rw [h2, Bool.or_true]⟩

theorem start_join (s : State) (hs : Released s) (h : StartInOrder s) (hnew : s.breath.newAccepted = true) :
    Completes .startJoin s fun u => StartsAccepted false s u :=
  (starts_accepted (isJoin := true) hs rfl rfl h rfl rfl (by rw [hnew]; rfl)).imp fun _ hu => hu.1

theorem start_empty (s : State) (hs : Released s) (h : fld s F.SCORE_MASK_pairs = 0) :
    Completes .startNew s fun u => fld u F.SCORE_STATUS_result = 3 ∧ Keeps [] [(.SCORE_STATUS, 0)] s u ∧ u.still = s.still := by
  have hu : startNew s = startResult 3 s := by
    simp [startNew, startCmd, h, setBitsOf, bitAt]
  have ha : Aside [] [(.SCORE_STATUS, 0)] s (startResult 3 s) := Aside.refl.setFld _ (.inr (by simp))
  exact completes_kept hs rfl hu ha.inService ha.pending ⟨fld_setFld_fits (by decide) 0 (by decide) s, ha.2, ha.1⟩

/-! ## The start tick comes (R36, R95, R158, R233) -/

/-- From s to u every pair's seed is as it was, and the part is in service and its commands wait as before. -/
def SeedsKept (s u : State) : Prop := (∀ q, (pair u q).seed = (pair s q).seed) ∧ u.inService = s.inService ∧ u.pending = s.pending

theorem SeedsKept.refl : SeedsKept s s := ⟨fun _ => rfl, rfl, rfl⟩

theorem SeedsKept.trans (h1 : SeedsKept s t) (h2 : SeedsKept t u) : SeedsKept s u :=
  ⟨fun q => (h2.1 q).trans (h1.1 q), h2.2.1.trans h1.2.1, h2.2.2.trans h1.2.2⟩

theorem PairChange.seedsKept {rs : List Reg} {ks : List (Reg × Nat)} {p : Nat} {g : PairS → PairS} (h : PairChange rs ks p g s u)
    (hg : ∀ x, (g x).seed = x.seed) : SeedsKept s u := by
  refine ⟨fun q => ?_, h.live, h.queue⟩
  by_cases hq : q = p
  · rw [hq, h.own, hg]
  · rw [h.others q hq]

theorem biasSpread_seedsKept (changed : List Nat) (s : State) : SeedsKept s (biasSpread changed s) := by
  refine foldl_invariant (P := SeedsKept s) (fun t p ht => ?_) _ SeedsKept.refl
  have hdue : SeedsKept t (modPair p (fun x => { x with biasDue := changed.foldl setBitN x.biasDue }) t) :=
    (PairAside.modPair (rs := []) (ks := []) (fun x => { x with biasDue := changed.foldl setBitN x.biasDue }) t).change.seedsKept fun _ => rfl
  dsimp only
  split
  · exact ht
  · split
    · exact ht.trans hdue
    · exact (ht.trans hdue).trans ((biasDeliver_change p _).seedsKept fun _ => rfl)

theorem get_dropKeys_of_dropped {d : Nat} {drop : Nat → Bool} {k : Nat} (hk : drop k = true) (m : SMap Nat) :
    SMap.get d (SMap.dropKeys m drop) k = d := by
  induction m with
  | nil => rfl
  | cons e m ih =>
    obtain ⟨a, v⟩ := e
    unfold SMap.dropKeys at ih ⊢
    by_cases ha : drop a = true
    · simpa [List.filter_cons, ha] using ih
    · have hne : a ≠ k := fun h => ha (h ▸ hk)
      simpa [List.filter_cons, ha, SMap.get, hne] using ih

/-- Pair p of u runs, in the slice of schedule breath n, its lanes freshly loaded. -/
structure SliceBegun (p n seed : Nat) (u : State) : Prop where
  state : seqState u p = 2
  breath : (pair u p).sliceBreath = n
  inSlice : (pair u p).inSlice = true
  lanes : ∀ l < 512, laneState (pair u p) p n l = laneSeed seed p l n

theorem beginSlice_begun (p n : Nat) (s : State) : SliceBegun p n (pair s p).seed (beginSlice p n s) := by
  have hown := (beginSlice_change p n s).own
  refine ⟨seqState_beginSlice p n s, by rw [hown]; rfl, by rw [hown]; rfl, fun l hl => ?_⟩
  rw [hown]
  have hkey : (n * 512 + l) / 512 = n := by omega
  exact get_dropKeys_of_dropped (drop := fun k => k / 512 = n || !(biasServed (pair s p)).drawing.contains (k / 512))
    (by simp only [hkey, decide_true, Bool.true_or]) _

theorem SliceBegun.beside {p q n m seed : Nat} (h : SliceBegun p n seed s) (hq : p ≠ q) : SliceBegun p n seed (beginSlice q m s) := by
  have hc := beginSlice_change q m s
  have hp := hc.others p hq
  exact ⟨(hc.regs.fld (by decide) (by simpa using hq)).trans h.state, by rw [hp, h.breath], by rw [hp, h.inSlice], by rw [hp]; exact h.lanes⟩

theorem beginAll_seedsKept (n : Nat) (ps : List Nat) (s : State) : SeedsKept s (ps.foldl (fun t p => beginSlice p n t) s) :=
  foldl_invariant (P := SeedsKept s) (fun t p ht => ht.trans ((beginSlice_change p n t).seedsKept fun _ => rfl)) _ SeedsKept.refl

theorem beginAll_begun {n p seed : Nat} (ps : List Nat) (hs : (pair s p).seed = seed) (hp : p ∈ ps ∨ SliceBegun p n seed s) :
    SliceBegun p n seed (ps.foldl (fun t p => beginSlice p n t) s) := by
  induction ps generalizing s with
  | nil => exact hp.resolve_left List.not_mem_nil
  | cons q ps ih =>
    refine ih ((((beginSlice_change q n s).seedsKept fun _ => rfl).1 p).trans hs) ?_
    by_cases hq : p = q
    · exact .inr (hq ▸ hs ▸ beginSlice_begun p n s)
    · rw [List.mem_cons, or_iff_right hq] at hp
      exact hp.imp_right fun h => h.beside hq

/-- The pairs whose start tick has come. -/
def startsDue (s : State) : List Nat := (List.range 64).filter (fun q => seqState s q = sqPending && (pair s q).startDue)

theorem score_starts (p : Pair) (s : State) (hs : Released s) (h : seqState s p = 1) (hdue : (pair s p).startDue = true) :
    Completes .scoreStart s fun u =>
      seqState u p = 2 ∧ (pair u p).sliceBreath = schedBreath s ∧ (pair u p).inSlice = true
        ∧ ∀ l < 512, laneState (pair u p) p (schedBreath s) l = laneSeed (pair s p).seed p l (schedBreath s) := by
  have hmem : p.val ∈ startsDue s := by simp [startsDue, List.mem_filter, h, hdue]
  have hu : scoreStart s = (startsDue s).foldl (fun t q => beginSlice q (schedBreath s) t) (biasSpread (routers s) s) := if_neg (by
    rw [List.isEmpty_iff]
    exact List.ne_nil_of_mem hmem)
  have hspread := biasSpread_seedsKept (routers s) s
  have hlive := (hspread.trans (beginAll_seedsKept (schedBreath s) (startsDue s) _)).2
  obtain ⟨h1, h2, h3, h4⟩ := beginAll_begun (n := schedBreath s) (startsDue s) (hspread.1 p) (.inl hmem)
  exact completes_kept hs rfl hu hlive.1 hlive.2 ⟨h1, h2, h3, h4⟩

/-- Settles O8: the starts accepted, the start of an empty mask, and the begin of a slice at the start tick. -/
theorem starts : Obligations.Starts := ⟨start_new, start_join, start_empty, score_starts⟩

end Sys2Proof.Machine

/-! SUPPORT. The faults that stop a score before its instruction acts: ILLEGAL, BRANCH_RANGE and FETCH (R172, R178). -/

namespace Sys2Proof.Machine

variable {p : Pair} {w : Nat} {s : State} {c : Instr}

theorem not_faulted_of_canIssue {p : Nat} (h : canIssue s p = true) : seqState s p ≠ sqFaulted := by
  simp only [canIssue, Bool.and_eq_true, decide_eq_true_eq] at h
  rw [h.1]
  decide

/-- A row that issues a score instruction of pair p, whatever it does with its own words. -/
def IssueRow (p : Nat) (c : Instr) : Prop := ∃ mine body, ∀ s, exec c s = .next (whenClocked (issueWith p mine body) s)

theorem issueRow_of_mem (p : Pair) : ∀ c ∈ scoreRows p, IssueRow p c := by
  unfold scoreRows
  simp only [List.forall_mem_cons, List.not_mem_nil, false_implies, implies_true, and_true]
  and_intros <;> exact ⟨_, _, fun _ => rfl⟩

/-- Every issuing row stops its score where issueWith, whatever the row's own words and effect, gives the fault of a state in which the
pair's buffer and counters alone have changed. -/
theorem completes_faulted {code cls pc : Nat} {t : State} {rs : List Reg} {b : SMap Nat} (hc : c ∈ scoreRows p) (hs : Clocked s)
    (hi : ∀ mine body, issueWith p mine body s = pairFault p code cls pc 0 t)
    (ha : PairAside rs [] p (fun x => { x with ibuf := b }) s t)
    (hrs : .SEQ_STATUS ∉ rs ∧ .SEQ_SCALAR_i ∉ rs ∧ .SEQ_SEM_i ∉ rs) (hready : canIssue s p = true)
    (hcode : code < 2 ^ 8) (hcls : cls < 2 ^ 4) : Completes c s fun u => Faulted p code cls pc s u := by
  obtain ⟨mine, body, he⟩ := issueRow_of_mem p c hc
  have hst : seqState t p = seqState s p := ha.regs.fld hrs.1 (by simp)
  have hrun : seqState t p ≠ sqFaulted := hst ▸ not_faulted_of_canIssue hready
  have hf := pairFault_pairAside (code := code) (cls := cls) (pc := pc) (sem := 0) hrun
  have hlive : (pairFault p code cls pc 0 t).inService = s.inService := hf.inService.trans ha.inService
  have hqueue : (pairFault p code cls pc 0 t).pending = s.pending := hf.pending.trans ha.pending
  have hu := hi mine body
  refine ⟨pairFault p code cls pc 0 t, ?_, faulted_pairFault ha hrs.2 hrun hcode hcls⟩
  rw [he, whenClocked_self hs (hu ▸ hlive) (hu ▸ hqueue), hu]

theorem illegal_faults (p : Pair) (w : Nat) (s : State) (c : Instr) (hc : c ∈ scoreRows p) (h : Issues p w s) (hd : definedOp w = false) :
    Completes c s fun u => Faulted p 0x01 (w % 16) (seqPc s p) s u := by
  have hcls : wCls w = w % 16 := by simp [wCls, bitsOf]
  obtain ⟨b, hb⟩ := fetched_pairAside h
  exact completes_faulted hc h.clocked (fun mine body => (issueWith_undefined h hd).trans (by rw [hcls]; rfl)) hb (by decide) h.ready (by decide)
    (Nat.mod_lt _ (by decide))

theorem branchRange_faults (p : Pair) (s : State) (c : Instr) (hc : c ∈ scoreRows p) (hs : Clocked s) (hready : canIssue s p = true)
    (hlen : scoreLength s p ≤ seqPc s p) : Completes c s fun u => Faulted p 0x07 0xF (scoreLength s p) s u :=
  completes_faulted (rs := []) (b := (pair s p).ibuf) hc hs (fun mine body => by simp [issueWith, hready, hlen])
    ⟨rfl, rfl, fun _ _ => rfl, .refl⟩ (by decide) hready (by decide) (by decide)

/-- The registers that any fetch may write: a clean one's, and what the read of an offline sector notes. -/
abbrev fetchAnyRegs : List Reg := .MEM_POISON_REC :: .MEM_EVENTS :: .RL_LOG_PTR :: .RL_EVENTS :: fetchRegs

/-- A sector read into the buffer of a pair: what the read notes, what it counts. -/
theorem refill_pairAside (p a : Nat) (b : SMap Nat) (s : State) :
    PairAside fetchAnyRegs [] p (fun x => { x with ibuf := b }) s
      (count p 0x23 64 (modPair p (fun x => { x with ibuf := b }) (noteOfflineRange a 64 0 true s))) := by
  have hnote := (noteOfflineRange_aside a 64 0 true s).mono (rs' := fetchAnyRegs) (ks' := []) (by simp) (by simp)
  have hcount : ∀ t, Aside fetchAnyRegs [] t (count p 0x23 64 t) := fun t => (count_aside p 0x23 64 t).mono (by simp) fun k hk => .inl (by
    rcases bank_reg hk with e | e | e <;> simp [e])
  exact (hnote.toPair.trans (PairAside.modPair (fun x => { x with ibuf := b }) _)).trans (hcount _).toPair

/-- A fetch, poisoned or not, changes the buffer, counts, and notes what it read offline. -/
theorem fetchWord_pairAside (p i : Nat) (s : State) : ∃ b, PairAside fetchAnyRegs [] p (fun x => { x with ibuf := b }) s (fetchWord p i s).2.2 := by
  unfold fetchWord fetchSector
  dsimp only
  split
  · exact ⟨_, PairAside.modPair _ s⟩
  · exact ⟨_, refill_pairAside _ _ _ s⟩

theorem fetch_faults (p : Pair) (s : State) (c : Instr) (hc : c ∈ scoreRows p) (hs : Clocked s) (hready : canIssue s p = true)
    (hpast : (pair s p).past = false) (hlen : seqPc s p < scoreLength s p) (hbad : (fetchWord p (seqPc s p) s).2.1 = true) :
    Completes c s fun u => Faulted p 0x10 0xF (seqPc s p) s u := by
  obtain ⟨b, hb⟩ := fetchWord_pairAside p (seqPc s p) s
  refine completes_faulted hc hs (fun mine body => ?_) hb (by decide) hready (by decide) (by decide)
  have hin : ¬ (seqPc s p ≥ scoreLength s p ∨ (pair s p).past = true) := by simp [hpast, hlen]
  simp [issueWith, hready, hin, hbad]

/-- Settles O9: no row's own words and effect are looked at before the three faults. -/
theorem scoreFaults : Obligations.ScoreFaults := ⟨illegal_faults, branchRange_faults, fetch_faults⟩

end Sys2Proof.Machine

/-! SUPPORT. The issue of array instructions (R153, R179, R187-R191, R203): what passes its checks joins the array's queue, or the drains'. -/

namespace Sys2Proof.Machine

variable {p w cls op : Nat} {s t u : State}

/-! ## Checks and queues -/

/-- What gives no fault has passed every check. -/
theorem checks_of_noFault {a b c d : Bool} {k : Issue} (h : NoFault (checks a b c d k)) : checks a b c d k = k := by
  cases a with
  | true => exact h.elim
  | false =>
    cases b with
    | true => exact h.elim
    | false =>
      cases c with
      | true => exact h.elim
      | false =>
        cases d with
        | true => exact h.elim
        | false => rfl

/-- An instruction whose unit has no room does not issue. -/
theorem issueWith_stall {mine : Nat → State → Bool} {body : Nat → State → Issue} (h : Issues p w s) (hd : definedOp w = true)
    (hm : mine w (fetched p s) = true) (hb : body w (fetched p s) = .stall) : issueWith p mine body s = s := by
  have h1 := h.word
  have h2 := h.clean
  have h3 := h.within
  unfold fetched at hm hb
  unfold issueWith
  rw [h.ready]
  simp only [Bool.not_true, Bool.false_eq_true, if_false, ge_iff_le, Nat.not_le.mpr h3, h.notPast, decide_false, Bool.or_self, h1, h2, hd, hm, hb]

/-- The array's queue with one more instruction. -/
def arrayQueued (o : UnitOp) (x : PairS) : PairS := { x with array := { x.array with queue := x.array.queue ++ [o] } }

/-- An array instruction as it is queued. -/
def arrayOp (p w : Nat) (vals : List Nat) (rnd : Nat) (s : State) : UnitOp :=
  { word := w, index := seqPc s p, vals := vals, rnd := rnd, seq := (pair s p).seq, breath := (pair s p).sliceBreath }

theorem pushArray_room {vals : List Nat} {rnd : Nat} (h : (pair s p).array.queue.length < 8) :
    pushArray p w vals rnd s = .done (modPair p (arrayQueued (arrayOp p w vals rnd s)) s) none := by
  have hroom : arrayRoom s p = true := decide_eq_true h
  rw [pushArray, hroom]
  rfl

theorem pushArray_full {vals : List Nat} {rnd : Nat} (h : (pair s p).array.queue.length = 8) : pushArray p w vals rnd s = .stall := by
  have hfull : arrayRoom s p = false := by simp [arrayRoom, h]
  rw [pushArray, hfull]
  rfl

/-! ## ACC, SPLIT, BPROD, STAGE, CHKMUL -/

/-- An instruction whose issue, once checked, is to queue it with the scalars that it reads. -/
theorem arrayQueues {i : Pair → Instr} {f : Nat → State → State} {issue : Nat → Nat → State → Issue} {vals : State → Nat → Nat → List Nat}
    (he : ∀ (p : Pair) s, exec (i p) s = .next (whenClocked (f p) s)) (hf : ∀ (p : Pair) s, f p s = issueWith p (isOp cls op) (issue p) s)
    (hd : (definedOps cls).contains op = true)
    (hpush : ∀ p w t, NoFault (issue p w t) → ∃ rnd, issue p w t = pushArray p w (vals t p w) rnd t)
    (hvals : ∀ (p w : Nat) (s t : State), (∀ k, scalar t p k = scalar s p k) → vals t p w = vals s p w) : ArrayQueues i cls op issue vals := by
  refine ⟨fun p w s h hc ho hn hroom => ?_, fun p w s h hc ho hn hfull => ?_⟩
  all_goals
    obtain ⟨rnd, hb⟩ := hpush _ _ _ hn
    obtain ⟨b, hfetch⟩ := fetched_pairAside h
    have hqueue : (pair (fetched p s) p).array.queue = (pair s p).array.queue := by rw [hfetch.own]
  · rw [pushArray_room (hqueue ▸ hroom)] at hb
    refine (issue_effect (ks := []) (he p s) (hf p s) h hc ho hd hb (PairAside.modPair _ _) (fun _ => rfl) (by simp)).imp fun u hu =>
      ⟨hu.moves, hu.frame, arrayOp p w (vals (fetched p s) p w) rnd (fetched p s), rfl, fetched_fld h (by decide), ?_,
        hvals p w s _ (fetched_scalar h), hu.settled fun _ _ => rfl⟩
    show (pair (fetched p s) p).seq = _
    rw [hfetch.own]
  · rw [pushArray_full (hqueue ▸ hfull)] at hb
    have hu := (hf p s).trans (issueWith_stall h (definedOp_of_class hc ho hd) (isOp_of_class hc ho _) hb)
    refine ⟨s, (he p s).trans ?_, rfl⟩
    rw [whenClocked_self h.clocked (by rw [hu]) (by rw [hu]), hu]

theorem acc_queues : ArrayQueues .acc 1 0 issueAcc
    (fun s p w => [scalar s p (wbits w 73 69), scalar s p (wbits w 78 74), scalar s p (wbits w 107 103)]) :=
  arrayQueues (fun _ _ => rfl) (fun _ _ => rfl) (by decide) (fun _ _ _ hn => ⟨_, checks_of_noFault hn⟩) fun _ _ _ _ hs => by simp only [hs]

theorem split_queues : ArrayQueues .split 1 1 issueSplit
    (fun s p w => [scalar s p (wbits w 63 59), scalar s p (wbits w 80 76), scalar s p (wbits w 85 81)]
      ++ (List.range (if wbits w 13 13 = 1 then 4 else 1)).map (fun r => scalar s p ((wbits w 58 54 + r) % 32))) := by
  refine arrayQueues (fun _ _ => rfl) (fun _ _ => rfl) (by decide) (fun p w t hn => ⟨resolveRnd t (wbits w 92 90), ?_⟩)
    fun _ _ _ _ hs => by simp only [hs]
  rw [issueSplit, checks_of_noFault hn]
  simp only [bitAt_eq, decide_eq_true_eq]

theorem bprod_queues : ArrayQueues .bprod 1 2 issueBprod
    (fun s p w => [scalar s p (wbits w 46 42), scalar s p (wbits w 51 47), scalar s p (wbits w 56 52)]) :=
  arrayQueues (fun _ _ => rfl) (fun _ _ => rfl) (by decide) (fun _ _ _ hn => ⟨_, checks_of_noFault hn⟩) fun _ _ _ _ hs => by simp only [hs]

theorem stage_queues : ArrayQueues .stage 1 4 issueStage (fun s p w => [scalar s p (wbits w 50 46), scalar s p (wbits w 55 51)]) :=
  arrayQueues (fun _ _ => rfl) (fun _ _ => rfl) (by decide) (fun _ _ _ hn => ⟨_, checks_of_noFault hn⟩) fun _ _ _ _ hs => by simp only [hs]

theorem chkmul_queues : ArrayQueues .chkmul 7 1 issueChkmul (fun s p w => [scalar s p (wbits w 54 50)]) :=
  arrayQueues (fun _ _ => rfl) (fun _ _ => rfl) (by decide) (fun _ _ _ hn => ⟨_, checks_of_noFault hn⟩) fun _ _ _ _ hs => by simp only [hs]

/-! ## DRAIN -/

theorem setSlice_aside (p k v : Nat) (s : State) : Aside [] [(.ARRAY_STATUS, p)] s (setSlice p k v s) := Aside.refl.setFld _ (.inr (by simp))

theorem setSlice_mode (p k v : Nat) (s : State) : arrayMode (setSlice p k v s) p = arrayMode s p := fld_setFld_apart (by decide) (by decide) p p _ s

/-- Drains marked in their slices: slice states of the pair, its mode as it was. -/
theorem markDrains_aside (p : Nat) (s : State) : Aside [] [(.ARRAY_STATUS, p)] s (markDrains p s) := by
  unfold markDrains
  refine foldl_aside (fun t i => ?_) _ s
  split
  · exact .refl
  · exact .ite .refl (foldl_aside (fun u k => setSlice_aside p k _ u) _ t)

theorem markDrains_mode (p : Nat) (s : State) : arrayMode (markDrains p s) p = arrayMode s p := by
  unfold markDrains
  refine foldl_invariant (P := fun t => arrayMode t p = arrayMode s p) (fun t i ht => ?_) _ rfl
  split
  · exact ht
  · split
    · exact ht
    · exact foldl_invariant (P := fun t => arrayMode t p = arrayMode s p) (fun u k hu => (setSlice_mode p k _ u).trans hu) _ ht

/-- The drains of a pair with one more. -/
def drainQueued (d : DrainOp) (x : PairS) : PairS := { x with array := { x.array with drains := x.array.drains ++ [d] } }

/-- A DRAIN as it joins the drain queue (R63, R190). -/
def drainOp (p w : Nat) (s : State) : DrainOp :=
  { seq := (pair s p).seq, blk := bitAt w 12, keep := bitAt w 11, fmt := wbits w 27 24, rnd := resolveRnd s (wbits w 15 13)
    sat := wbits w 60 59, bank := wbits w 29 28, smask := wbits w 33 30, reed := wbits w 35 34, slot := wbits w 41 36
    base := scalar s p (wbits w 46 42)
    rowStep := if bitAt w 10 then outBytes (wbits w 27 24) else 64 * wbits w 58 47
    colStep := if bitAt w 10 then 64 * wbits w 58 47 else outBytes (wbits w 27 24)
    sem := wSem w, sig := wSig w, breath := (pair s p).sliceBreath }

theorem issueDrain_room (hn : NoFault (issueDrain p w s)) (hroom : (pair s p).array.drains.length < 5) :
    issueDrain p w s = .done (markDrains p (modPair p (drainQueued (drainOp p w s)) s)) none := by
  have hr : drainRoom s p = true := decide_eq_true hroom
  refine (checks_of_noFault hn).trans ?_
  rw [hr]
  rfl

theorem drain_queues (p : Pair) (w : Nat) (s : State) (h : Issues p w s) (hc : wbits w 3 0 = 1) (ho : wbits w 9 4 = 3)
    (hn : NoFault (issueDrain p w (fetched p s))) (hroom : (pair s p).array.drains.length < 5) :
    Completes (.drain p) s fun u =>
      MovesTo p (seqPc s p + 1) s u ∧ IssueFrame p [(.ARRAY_STATUS, p)] s u ∧ arrayMode u p = arrayMode s p
        ∧ ∃ d : DrainOp, d.seq = (pair s p).seq ∧ d.owner = 0 ∧ d.base = scalar s p (wbits w 46 42) ∧ d.fmt = wbits w 27 24
            ∧ d.bank = wbits w 29 28 ∧ d.smask = wbits w 33 30 ∧ d.blk = bitAt w 12 ∧ d.keep = bitAt w 11 ∧ d.sat = wbits w 60 59
            ∧ (d.rowStep, d.colStep)
              = (if wbits w 10 10 = 1 then (if d.fmt = 0 then 4 else 2, 64 * wbits w 58 47)
                else (64 * wbits w 58 47, if d.fmt = 0 then 4 else 2))
            ∧ d.sem = wbits w 21 16 ∧ d.sig = bitAt w 22
            ∧ (pair u p).settled = { (pair s p).settled with array := { (pair s p).array with drains := (pair s p).array.drains ++ [d] } } := by
  obtain ⟨b, hfetch⟩ := fetched_pairAside h
  have hb := issueDrain_room hn (by rw [hfetch.own]; exact hroom)
  have hqueued : PairAside eventRegs ([(.ARRAY_STATUS, p.val)] ++ bankKeys p) p (drainQueued (drainOp p w (fetched p s))) (fetched p s)
      (markDrains p (modPair p (drainQueued (drainOp p w (fetched p s))) (fetched p s))) :=
    (PairAside.modPair (drainQueued (drainOp p w (fetched p s))) (fetched p s)).trans ((markDrains_aside p _).mono (by simp) (by simp)).toPair
  refine (issue_effect (ks := [(.ARRAY_STATUS, p.val)]) rfl rfl h hc ho (by decide) hb hqueued (fun _ => rfl) (by simp)).imp fun u hu =>
    ⟨hu.moves, hu.frame, ?_, drainOp p w (fetched p s), ?_, rfl, fetched_scalar h _, rfl, rfl, rfl, rfl, rfl, rfl, ?_, rfl, rfl,
      hu.settled fun _ _ => rfl⟩
  · exact ((hu.after _ _ (by decide)).trans (markDrains_mode p _)).trans (fetched_fld h (by decide))
  · show (pair (fetched p s) p).seq = _
    rw [hfetch.own]
  · simp only [drainOp, bitAt_eq, decide_eq_true_eq, outBytes]
    split <;> rfl

/-- Settles O10: each instruction queued or stalled, and the drain in its queue. -/
theorem arrayIssue : Obligations.ArrayIssue := ⟨acc_queues, split_queues, bprod_queues, stage_queues, chkmul_queues, drain_queues⟩

end Sys2Proof.Machine

/-! SUPPORT. The issue of a COPY (R163, R165, R167, R169, R178): its descriptor read after the fetch, and its acceptance or its fault. -/

namespace Sys2Proof.Machine

variable {p w fn : Nat} {s t : State}

/-! ## What the descriptor's checks look at -/

theorem addrForm_congr (h : deviceId t = deviceId s) : addrForm t = addrForm s :=
  funext fun a => by simp only [addrForm, h]

theorem copyFn_congr (h : MemAlike s t) : copyFn t p w = copyFn s p w := by
  simp only [copyFn, h.numAt, h.poisoned]

/-- A descriptor's fields depend on its words and on the place of its instruction. -/
theorem copyOp_congr (hpc : seqPc t p = seqPc s p) (hseq : (pair t p).seq = (pair s p).seq) (ws : List Nat) : copyOp t p ws = copyOp s p ws := by
  simp only [copyOp, hpc, hseq]

/-- What is wrong with a descriptor depends on the part's own ID alone. -/
theorem copyFault_congr (h : deviceId t = deviceId s) (ws : List Nat) (c : CopyOp) : copyFault t p ws c = copyFault s p ws c := by
  have ha := addrForm_congr h
  simp only [copyFault, CopyOp.feet, CopyOp.srcSide, CopyOp.dstSide, ha]

/-- The codes of a descriptor's faults (R173). -/
theorem copyFault_code {ws : List Nat} {c : CopyOp} {f : Nat} (h : copyFault s p ws c = some f) : f < 2 ^ 8 := by
  unfold copyFault at h
  dsimp only at h
  split_ifs at h <;>
  · obtain rfl := Option.some.inj h
    decide

/-! ## Its checks -/

/-- The copies of a pair with one more. -/
def copyQueued (c : CopyOp) (x : PairS) : PairS := { x with copies := x.copies ++ [c] }

section Checks

variable (h : Copies p w fn s)
include h

theorem copies_defined : definedOp w = true := definedOp_of_class h.word.1 h.word.2.1 (by decide)

theorem copies_selects (h8 : 8 ≤ fn) (h10 : fn ≤ 10) : copyFn s p w = some fn := by
  have hf : wbits (numAt s (combAddr p (descOff w)) 8) 63 60 = fn := h.fn
  have hin : inComb (descOff w) 128 = true := decide_eq_true h.inside
  simp [copyFn, h.aligned, hin, h.clean, hf, h8, h10]

theorem copies_owned (ht : MemAlike s t) (h8 : 8 ≤ fn) (h10 : fn ≤ 10) : isCopy p fn w t = true := by
  have hc : wCls w = 0 := h.word.1
  have ho : wOp w = 0 := h.word.2.1
  simp [isCopy, hc, ho, copyFn_congr ht, copies_selects h h8 h10]

/-- With its word in order and its descriptor clean, a COPY in a state whose memory reads the same comes to its descriptor's own checks. -/
theorem copies_issue (ht : MemAlike s t) (hdev : deviceId t = deviceId s) (hpc : seqPc t p = seqPc s p) (hseq : (pair t p).seq = (pair s p).seq)
    (hscal : ∀ i, scalar t p i = scalar s p i) (h8 : 8 ≤ fn) (h10 : fn ≤ 10) :
    (∀ f, copyFault s p (descWords s p w 16) (copyOp s p (descWords s p w 16)) = some f → issueCopy p w t = .fault f)
      ∧ (copyFault s p (descWords s p w 16) (copyOp s p (descWords s p w 16)) = none → (pair t p).copies.length < 8 →
          issueCopy p w t = .done (modPair p (copyQueued (copyOp s p (descWords s p w 16))) t) none) := by
  have ho : onlyBits w [(9, 0), (58, 24)] = true := h.word.2.2
  have hf : copyFn t p w = some fn := (copyFn_congr ht).trans (copies_selects h h8 h10)
  have hp : poisoned t (combAddr p (descOff w)) 128 = false := (ht.poisoned _ _).trans h.clean
  have hin : inComb (descOff w) 128 = true := decide_eq_true h.inside
  have hdesc := descWords_congr (p := p) (w := w) ht hscal 16
  have hop := copyOp_congr hpc hseq (descWords s p w 16)
  have hfault := copyFault_congr (p := p) hdev (descWords s p w 16) (copyOp s p (descWords s p w 16))
  refine ⟨fun f hbad => ?_, fun hgood hroom => ?_⟩
  · simp [issueCopy, checks, ho, h.aligned, hin, hp, hf, hdesc, hop, hfault, hbad]
  · simp [issueCopy, checks, ho, h.aligned, hin, hp, hf, hdesc, hop, hfault, hgood, Nat.not_le.mpr hroom]
    rfl

end Checks

/-! ## Its acceptance and its fault -/

/-- A row of a copy's function queues a valid descriptor, and faults on another. -/
theorem copyQueues {i : Pair → Instr} {f : Nat → State → State} (he : ∀ (p : Pair) s, exec (i p) s = .next (whenClocked (f p) s))
    (hf : ∀ (p : Pair) s, f p s = issueWith p (isCopy p fn) (issueCopy p) s) (h8 : 8 ≤ fn) (h10 : fn ≤ 10) : CopyQueues i fn := by
  refine ⟨fun p w s h hvalid hroom => ?_, fun p w code s h hfault => ?_⟩
  all_goals
    obtain ⟨b, hfetch⟩ := fetched_pairAside h.issues
    have hst : seqState (fetched p s) p = seqState s p := fetched_fld h.issues (by decide)
    have halike := hfetch.memAlike (by decide) (by decide)
    have hmine := copies_owned h halike h8 h10
    have hbody := copies_issue h halike (fetched_fld h.issues (by decide)) (fetched_fld h.issues (by decide)) (by rw [hfetch.own])
      (fetched_scalar h.issues) h8 h10
  case refine_1 =>
    have hdone := hbody.2 hvalid (by rw [hfetch.own]; exact hroom)
    obtain ⟨b, hexec, hown⟩ := issue_completes (ks := []) (he p s) (hf p s) h.issues (copies_defined h) hmine hdone (PairAside.modPair _ _)
    exact ⟨_, hexec, ⟨issued_pc _ _ _ _, by rw [hown.own]; rfl, by rw [hown.own]; rfl⟩, hown.frame ((issued_state _ _ _ _).trans hst),
      by rw [hown.own]; rfl⟩
  case refine_2 =>
    have hcls : wCls w = 0 := h.word.1
    have hrun : seqState (fetched p s) p ≠ sqFaulted := hst ▸ not_faulted_of_canIssue h.issues.ready
    have hu := (hf p s).trans (issueWith_fault h.issues (copies_defined h) hmine (hbody.1 code hfault))
    rw [hcls] at hu
    have hp := pairFault_pairAside (code := code) (cls := 0) (pc := seqPc s p) (sem := 0) hrun
    have hlive := fetched_live h.issues
    refine ⟨pairFault p code 0 (seqPc s p) 0 (fetched p s), (he p s).trans ?_,
      faulted_pairFault hfetch (by decide) hrun (copyFault_code hfault) (by decide)⟩
    rw [whenClocked_self h.issues.clocked (hu ▸ hp.inService.trans hlive.1) (hu ▸ hp.pending.trans hlive.2), hu]
    rfl

/-- Settles O20: one row per function. -/
theorem copyIssue : Obligations.CopyIssue :=
  ⟨copyQueues (f := fun p => copyShape p) (fun _ _ => rfl) (fun _ _ => rfl) (by decide) (by decide),
    copyQueues (f := fun p => copyGather p) (fun _ _ => rfl) (fun _ _ => rfl) (by decide) (by decide),
    copyQueues (f := fun p => copyScatter p) (fun _ _ => rfl) (fun _ _ => rfl) (by decide) (by decide)⟩

end Sys2Proof.Machine

/-! SUPPORT. Writes of memory in pieces that meet no offline sector (R77, R166, R218): what they put in place, and that they leave all but
memory alone. -/

namespace Sys2Proof.Machine

variable {s t u : State}

/-! ## Sectors -/

theorem sector_sub_div (a : Nat) {c : Nat} (hc : c % 64 = 0) : (a / 64 * 64 - c) / 64 = (a - c) / 64 := by omega

theorem tierOf_sector (a : Nat) : tierOf (a / 64 * 64) = tierOf a := by
  unfold tierOf
  have h1 : (a / 64 * 64 < nearBase) = (a < nearBase) := by simp only [eq_iff_iff, nearBase]; omega
  have h2 : (a / 64 * 64 < combBase) = (a < combBase) := by simp only [eq_iff_iff, combBase]; omega
  have h3 : (a / 64 * 64 < combBase + 64 * combBytes) = (a < combBase + 64 * combBytes) := by
    simp only [eq_iff_iff, combBase, combBytes]
    omega
  have h4 : (a / 64 * 64 < regBase) = (a < regBase) := by simp only [eq_iff_iff, regBase]; omega
  have h5 : (a / 64 * 64 < regBase + 0x2000000) = (a < regBase + 0x2000000) := by simp only [eq_iff_iff, regBase]; omega
  have h6 : a / 64 * 64 / hiveBytes = a / hiveBytes := by simp only [hiveBytes]; omega
  have h7 : (a / 64 * 64 - nearBase) / hiveBytes = (a - nearBase) / hiveBytes := by simp only [nearBase, hiveBytes]; omega
  have h8 : (a / 64 * 64 - combBase) / combBytes = (a - combBase) / combBytes := by
    rw [show combBytes = 64 * 131072 from rfl, ← Nat.div_div_eq_div_mul, ← Nat.div_div_eq_div_mul, sector_sub_div a (by decide)]
  simp only [h1, h2, h3, h4, h5, h6, h7, h8]

theorem channelOf_sector (a : Nat) : channelOf (a / 64 * 64) = channelOf a := by
  have h1 : bitsOf (a / 64 * 64 % hiveBytes) 13 11 = bitsOf (a % hiveBytes) 13 11 := by
    simp only [bitsOf, hiveBytes]
    omega
  have h2 : bitsOf (a / 64 * 64 % hiveBytes) 22 20 = bitsOf (a % hiveBytes) 22 20 := by
    simp only [bitsOf, hiveBytes]
    omega
  simp only [channelOf, h1, h2]

/-- A sector is offline as a whole. -/
theorem offline_sector (s : State) (a : Nat) : offline s (a / 64 * 64) = offline s a := by
  unfold offline channelFailed
  rw [tierOf_sector, channelOf_sector]

/-- The n bytes from a lie in sectors in service, none of them marked. -/
def CleanAt (s : State) (a n : Nat) : Prop := ∀ i < n, offline s (a + i) = false ∧ marked s ((a + i) / 64) = false

theorem mem_sectorsOf {a n x : Nat} : x ∈ sectorsOf a n ↔ ∃ i < n, x = (a + i) / 64 := by
  unfold sectorsOf
  split
  · simp_all
  · simp only [List.mem_map, List.mem_range]
    refine ⟨fun ⟨i, hi, hx⟩ => ?_, fun ⟨i, hi, hx⟩ => ⟨x - a / 64, by omega, by omega⟩⟩
    by_cases hz : i = 0
    · exact ⟨0, by omega, by omega⟩
    · exact ⟨64 * (a / 64 + i) - a, by omega, by omega⟩

theorem poisoned_eq_false {a n : Nat} : poisoned s a n = false ↔ CleanAt s a n := by
  simp only [poisoned, List.any_eq_false, mem_sectorsOf, CleanAt, Bool.or_eq_true, not_or, Bool.not_eq_true]
  constructor
  · intro h i hi
    obtain ⟨hm, ho⟩ := h _ ⟨i, hi, rfl⟩
    exact ⟨(offline_sector s _).symm.trans ho, hm⟩
  · rintro h _ ⟨i, hi, rfl⟩
    obtain ⟨ho, hm⟩ := h i hi
    exact ⟨hm, (offline_sector s _).trans ho⟩

theorem CleanAt.sub {a b n m : Nat} (h : CleanAt s a n) (hb : a ≤ b) (hm : b + m ≤ a + n) : CleanAt s b m := fun i hi => by
  obtain ⟨k, hk⟩ := Nat.exists_eq_add_of_le hb
  have := h (k + i) (by omega)
  rwa [← Nat.add_assoc, ← hk] at this

theorem CleanAt.readBytes {a n : Nat} (h : CleanAt s a n) : readBytes s a n = bytesAt s a n :=
  List.map_congr_left fun i hi => if_neg (by simp [(h i (List.mem_range.mp hi)).1])

theorem bytesAt_add (s : State) (a n m : Nat) : bytesAt s a (n + m) = bytesAt s a n ++ bytesAt s (a + n) m := by
  simp only [bytesAt, List.range_add, List.map_append, List.map_map, Function.comp_def, Nat.add_assoc]

theorem bytesAt_length (s : State) (a n : Nat) : (bytesAt s a n).length = n := by simp [bytesAt]

theorem byteAt_lt (s : State) (a : Nat) : byteAt s a < 256 := (SMap.get (0 : BitVec 8) s.mem a).isLt

theorem bytesAt_congr {a n : Nat} (h : ∀ i < n, byteAt u (a + i) = byteAt s (a + i)) : bytesAt u a n = bytesAt s a n :=
  List.map_congr_left fun i hi => h i (List.mem_range.mp hi)

theorem bytesAt_pokeBytes {a : Nat} {bs : List Nat} (hb : ∀ b ∈ bs, b < 256) (s : State) : bytesAt (pokeBytes a bs s) a bs.length = bs := by
  refine List.ext_getElem (by simp [bytesAt]) fun i h1 h2 => ?_
  simp only [bytesAt, List.getElem_map, List.getElem_range]
  rw [byteAt_pokeBytes_in _ h2, Nat.mod_eq_of_lt (hb _ (List.getElem_mem h2))]

/-! ## Changes of memory alone -/

/-- From s to u memory alone has changed: cells, marks, and what is known to be filled. -/
def MemOnly (s u : State) : Prop := u = { s with mem := u.mem, poison := u.poison, filled := u.filled }

namespace MemOnly

theorem refl : MemOnly s s := rfl

theorem trans (h1 : MemOnly s t) (h2 : MemOnly t u) : MemOnly s u :=
  Eq.trans h2 (congrArg (fun x : State => { x with mem := u.mem, poison := u.poison, filled := u.filled }) h1)

theorem besideMem (h : MemOnly s u) {rs : List Reg} {ks : List (Reg × Nat)} : BesideMem rs ks s u :=
  .of_mem h

theorem offline (h : MemOnly s u) (a : Nat) : Machine.offline u a = Machine.offline s a := (congrArg (fun x : State => Machine.offline x a) h :)

theorem fld (h : MemOnly s u) (f : Fld) (i : Nat) : Machine.fld u f i = Machine.fld s f i := (congrArg (fun x : State => Machine.fld x f i) h :)

theorem pokeBytes (a : Nat) (bs : List Nat) (s : State) : MemOnly s (Machine.pokeBytes a bs s) := by
  induction bs generalizing a s with
  | nil => rfl
  | cons b bs ih => exact (show MemOnly s (pokeByte a b s) from rfl).trans (ih _ _)

theorem fillGranule (a : Nat) (s : State) : MemOnly s (Machine.fillGranule a s) := by
  unfold Machine.fillGranule
  split <;> rfl

theorem sectorPoked (a : Nat) (bs : List Nat) (s : State) : MemOnly s (Machine.sectorPoked a bs s) :=
  (fillGranule a s).trans (pokeBytes a bs _)

end MemOnly

theorem sectorPoked_mem (a : Nat) (bs : List Nat) (s : State) : (sectorPoked a bs s).mem = (pokeBytes a bs s).mem :=
  pokeBytes_mem_congr (fillGranule_mem a s) a bs

theorem sectorPoked_poison (a : Nat) (bs : List Nat) (s : State) : (sectorPoked a bs s).poison = s.poison := by
  rw [sectorPoked, pokeBytes_poison, fillGranule_poison]

/-! ## Clean pieces -/

/-- A piece that carries no poison to bytes in service. -/
def CleanPiece (s : State) (x : Nat × List Nat × Bool) : Prop := x.2.2 = false ∧ ∀ i < x.2.1.length, offline s (x.1 + i) = false

/-- The bytes of pieces written one after another. -/
def pokeAll (pieces : List (Nat × List Nat × Bool)) (s : State) : State := pieces.foldl (fun t x => pokeBytes x.1 x.2.1 t) s

theorem pokeAll_mem_congr (h : t.mem = s.mem) (pieces : List (Nat × List Nat × Bool)) : (pokeAll pieces t).mem = (pokeAll pieces s).mem := by
  induction pieces generalizing s t with
  | nil => exact h
  | cons x xs ih => exact ih (pokeBytes_mem_congr h _ _)

/-- From s to u the bytes of pieces are written, no mark has changed, and beside memory nothing has. -/
structure PutsAll (pieces : List (Nat × List Nat × Bool)) (s u : State) : Prop where
  rest : MemOnly s u
  cells : u.mem = (pokeAll pieces s).mem
  marks : u.poison = s.poison

theorem PutsAll.nil : PutsAll [] s s := ⟨.refl, rfl, rfl⟩

theorem PutsAll.append {xs ys : List (Nat × List Nat × Bool)} (h1 : PutsAll xs s t) (h2 : PutsAll ys t u) : PutsAll (xs ++ ys) s u where
  rest := h1.rest.trans h2.rest
  cells := by rw [h2.cells, pokeAll_mem_congr h1.cells, pokeAll, pokeAll, pokeAll, List.foldl_append]
  marks := h2.marks.trans h1.marks

theorem CleanPiece.after {x : Nat × List Nat × Bool} (h : CleanPiece s x) (hu : MemOnly s u) : CleanPiece u x :=
  ⟨h.1, fun i hi => (hu.offline _).trans (h.2 i hi)⟩

/-- A clean piece within one sector puts its bytes in place. -/
theorem putPiece_puts {x : Nat × List Nat × Bool} (h : CleanPiece s x) (hx : x.2.1 ≠ []) : PutsAll [x] s (putPiece x s) := by
  have ho : offline s x.1 = false := h.2 0 (List.length_pos_iff.mpr hx)
  have hu : putPiece x s = sectorPoked x.1 x.2.1 s := by
    simp only [putPiece, ho, h.1, Bool.false_and, Bool.false_eq_true, if_false, sectorPoked]
  rw [hu]
  exact ⟨.sectorPoked _ _ _, sectorPoked_mem _ _ _, sectorPoked_poison _ _ _⟩

/-- The cuts of a clean piece at sector boundaries put the bytes of the whole piece in place. -/
theorem splitPiece_puts {n a : Nat} {bs : List Nat} (h : CleanPiece s (a, bs, false)) (hn : a % 64 + bs.length ≤ 64 * n) :
    PutsAll [(a, bs, false)] s ((splitPiece n (a, bs, false)).foldl (fun t x => putPiece x t) s) := by
  induction n generalizing a bs s with
  | zero =>
    obtain rfl : bs = [] := List.eq_nil_of_length_eq_zero (by omega)
    exact ⟨.refl, rfl, rfl⟩
  | succ n ih =>
    cases hbs : bs with
    | nil => exact ⟨.refl, rfl, rfl⟩
    | cons b l =>
      rw [← hbs]
      have hne : bs.isEmpty = false := by simp [hbs]
      have hfirst : CleanPiece s (a, bs.take (64 - a % 64), false) := ⟨rfl, fun i hi => h.2 i (by
        simp only [List.length_take] at hi
        exact lt_of_lt_of_le hi (min_le_right _ _))⟩
      have hcut := putPiece_puts hfirst (by
        have : 0 < 64 - a % 64 := by omega
        simp [hbs]
        omega)
      have hrest : CleanPiece (putPiece (a, bs.take (64 - a % 64), false) s) (a + (64 - a % 64), bs.drop (64 - a % 64), false) :=
        CleanPiece.after ⟨rfl, fun i hi => by
          have := h.2 (64 - a % 64 + i) (by simp only [List.length_drop] at hi ⊢; omega)
          rwa [← Nat.add_assoc] at this⟩ hcut.rest
      have hall := hcut.append (ih hrest (by simp only [List.length_drop]; omega))
      simp only [splitPiece, hne, Bool.false_eq_true, if_false, List.foldl_cons]
      refine ⟨hall.rest, hall.cells.trans ?_, hall.marks⟩
      by_cases hl : bs.length ≤ 64 - a % 64
      · simp only [pokeAll, List.cons_append, List.nil_append, List.foldl_cons, List.foldl_nil, List.take_of_length_le hl,
          List.drop_of_length_le hl, pokeBytes]
      · have hlen : (bs.take (64 - a % 64)).length = 64 - a % 64 := by rw [List.length_take]; omega
        have happ := pokeBytes_append a (bs.take (64 - a % 64)) (bs.drop (64 - a % 64)) s
        rw [List.take_append_drop, hlen] at happ
        simp only [pokeAll, List.cons_append, List.nil_append, List.foldl_cons, List.foldl_nil, happ]

theorem cutPieces_puts {pieces : List (Nat × List Nat × Bool)} (h : ∀ x ∈ pieces, CleanPiece s x) :
    PutsAll pieces s ((cutPieces pieces).foldl (fun t x => putPiece x t) s) := by
  induction pieces generalizing s with
  | nil => exact .nil
  | cons x xs ih =>
    obtain ⟨a, bs, bad⟩ := x
    obtain rfl : bad = false := (h (a, bs, bad) (by simp)).1
    rw [cutPieces, List.flatMap_cons, List.foldl_append]
    have hfirst := splitPiece_puts (n := bs.length / 64 + 2) (h (a, bs, false) (by simp)) (by omega)
    exact hfirst.append (ih fun y hy => (h y (by simp [hy])).after hfirst.rest)

/-! ## Marks of sectors written whole (R218) -/

theorem marked_setMark (s : State) (x y : Nat) (v : Bool) : marked (setMark x v s) y = if y = x then v else marked s y := by
  unfold marked setMark
  by_cases h : y = x
  · rw [h, if_pos rfl]; exact SMap.get_set_self
  · rw [if_neg h]; exact SMap.get_set_ne h

/-- The sectors that the clearing of marks looks at are those of the pieces. -/
theorem mem_clearInfo {cut : List (Nat × List Nat × Bool)} {m : SMap (Nat × Bool)} {e : Nat × Nat × Bool}
    (h : e ∈ cut.foldl (fun m x =>
      SMap.insert m (x.1 / 64) ((SMap.get (0, false) m (x.1 / 64)).1 ||| ((2 ^ x.2.1.length - 1) * 2 ^ (x.1 % 64)),
        (SMap.get (0, false) m (x.1 / 64)).2 || x.2.2)) m) : e ∈ m ∨ ∃ x ∈ cut, e.1 = x.1 / 64 := by
  induction cut generalizing m with
  | nil => exact .inl h
  | cons x xs ih =>
    rcases ih h with hm | ⟨y, hy, he⟩
    · rcases SMap.mem_insert hm with he | he
      · exact .inr ⟨x, by simp, by rw [he]⟩
      · exact .inl he
    · exact .inr ⟨y, by simp [hy], he⟩

/-- A mark that is cleared is that of a sector written to; an unmarked sector stays so. -/
theorem clearWhole_marks (cut : List (Nat × List Nat × Bool)) (s : State) :
    MemOnly s (clearWhole cut s) ∧ ∀ x, (marked s x = false ∨ ∀ y ∈ cut, y.1 / 64 ≠ x) → marked (clearWhole cut s) x = marked s x := by
  unfold clearWhole
  dsimp only
  refine List.foldlRecOn (motive := fun t => MemOnly s t
    ∧ ∀ x, (marked s x = false ∨ ∀ y ∈ cut, y.1 / 64 ≠ x) → marked t x = marked s x)
    _ _ ⟨.refl, fun _ _ => rfl⟩ fun t ht e he => ?_
  split
  · refine ⟨ht.1.trans rfl, fun x hx => ?_⟩
    rw [marked_setMark]
    split
    · rename_i hex
      rcases hx with hx | hx
      · exact hx.symm
      · rcases mem_clearInfo he with hn | ⟨y, hy, hey⟩
        · exact absurd hn List.not_mem_nil
        · exact absurd (hey.symm.trans hex.symm) (hx y hy)
    · exact ht.2 x hx
  · exact ht

theorem mem_splitPiece {n a : Nat} {bs : List Nat} {bad : Bool} {y : Nat × List Nat × Bool} (h : y ∈ splitPiece n (a, bs, bad)) :
    ∃ i < bs.length, y.1 = a + i := by
  induction n generalizing a bs with
  | zero => exact absurd h List.not_mem_nil
  | succ n ih =>
    cases hbs : bs with
    | nil => simp [splitPiece, hbs] at h
    | cons b l =>
      have hne : bs.isEmpty = false := by simp [hbs]
      rw [← hbs]
      simp only [splitPiece, hne, Bool.false_eq_true, if_false, List.mem_cons] at h
      rcases h with rfl | h
      · exact ⟨0, by simp [hbs], rfl⟩
      · obtain ⟨i, hi, hy⟩ := ih h
        rw [List.length_drop] at hi
        exact ⟨64 - a % 64 + i, by omega, by omega⟩

theorem mem_cutPieces {pieces : List (Nat × List Nat × Bool)} {y : Nat × List Nat × Bool} (h : y ∈ cutPieces pieces) :
    ∃ x ∈ pieces, ∃ i < x.2.1.length, y.1 = x.1 + i := by
  obtain ⟨x, hx, hy⟩ := List.mem_flatMap.mp h
  exact ⟨x, hx, mem_splitPiece hy⟩

/-! ## Scattered clean pieces -/

/-- Clean pieces to bytes in service put their bytes in place; a mark changes where the sector held one and is written to. -/
theorem scatter_clean {pieces : List (Nat × List Nat × Bool)} (h : ∀ x ∈ pieces, CleanPiece s x) :
    MemOnly s (scatter pieces s) ∧ (scatter pieces s).mem = (pokeAll pieces s).mem
      ∧ ∀ x, (marked s x = false ∨ ∀ y ∈ pieces, ∀ i < y.2.1.length, (y.1 + i) / 64 ≠ x) →
          marked (scatter pieces s) x = marked s x := by
  have hput := cutPieces_puts h
  obtain ⟨honly, hmarks⟩ := clearWhole_marks (cutPieces pieces) ((cutPieces pieces).foldl (fun t x => putPiece x t) s)
  have hsame : ∀ x, marked ((cutPieces pieces).foldl (fun t x => putPiece x t) s) x = marked s x := fun x => by
    simp only [marked, hput.marks]
  refine ⟨hput.rest.trans honly, (clearWhole_mem _ _).trans hput.cells, fun x hx => (hmarks x ?_).trans (hsame x)⟩
  refine hx.imp (hsame x).trans fun hout y hy => ?_
  obtain ⟨z, hz, i, hi, hyz⟩ := mem_cutPieces hy
  rw [hyz]
  exact hout z hz i hi

end Sys2Proof.Machine

/-! SUPPORT. The copies of a pair as they start and end (R163, R164, R166, R167, R170). -/

namespace Sys2Proof.Machine

variable {p : Nat} {s t u : State}

/-! ## Units (R164, R218) -/

/-- The pieces of m sectors' worth of the bytes from src, at their places from dst. -/
def sectorPieces (s : State) (src dst n m : Nat) : List (Nat × List Nat × Bool) :=
  (List.range m).map fun k => (dst + 64 * k, bytesAt s (src + 64 * k) (min 64 (n - 64 * k)), false)

theorem unitPieces_clean {src n : Nat} (h : CleanAt s src n) (dst : Nat) : unitPieces s src dst n = sectorPieces s src dst n ((n + 63) / 64) := by
  refine List.map_congr_left fun k hk => ?_
  rw [List.mem_range] at hk
  have hsub : CleanAt s (src + 64 * k) (min 64 (n - 64 * k)) := h.sub (by omega) (by omega)
  simp only [hsub.readBytes, poisoned_eq_false.mpr hsub]

/-- The pieces of a unit put the unit's bytes in place. -/
theorem pokeAll_sectorPieces {src dst n m : Nat} (hm : 64 * m < n + 64) (t : State) :
    pokeAll (sectorPieces s src dst n m) t = pokeBytes dst (bytesAt s src (min n (64 * m))) t := by
  induction m with
  | zero => simp [sectorPieces, pokeAll, bytesAt, pokeBytes]
  | succ m ih =>
    have hlen : min n (64 * m) = 64 * m := by omega
    rw [sectorPieces, List.range_succ, List.map_append, pokeAll, List.foldl_append]
    have hstep := ih (by omega)
    unfold sectorPieces pokeAll at hstep
    rw [hstep, hlen, show min n (64 * (m + 1)) = 64 * m + min 64 (n - 64 * m) by omega, bytesAt_add, pokeBytes_append, bytesAt_length]
    rfl

theorem pokeAll_unitPieces {src n : Nat} (h : CleanAt s src n) (dst : Nat) (t : State) :
    pokeAll (unitPieces s src dst n) t = pokeBytes dst (bytesAt s src n) t := by
  rw [unitPieces_clean h, pokeAll_sectorPieces (by omega), show min n (64 * ((n + 63) / 64)) = n by omega]

/-- Unit pieces of clean bytes to clean bytes are clean. -/
theorem unitPieces_cleanPiece {src dst n : Nat} (hsrc : CleanAt s src n) (hdst : CleanAt s dst n) :
    ∀ x ∈ unitPieces s src dst n, CleanPiece s x := by
  rw [unitPieces_clean hsrc]
  intro x hx
  obtain ⟨k, hk, rfl⟩ := List.mem_map.mp hx
  refine ⟨rfl, fun i hi => ?_⟩
  simp only [bytesAt_length] at hi
  have := (hdst (64 * k + i) (by omega)).1
  rwa [← Nat.add_assoc] at this

/-- Every piece of a unit lies within the unit's place. -/
theorem unitPieces_within {src dst n : Nat} {x : Nat × List Nat × Bool} (h : x ∈ unitPieces s src dst n) :
    dst ≤ x.1 ∧ x.1 + x.2.1.length ≤ dst + n := by
  obtain ⟨k, hk, rfl⟩ := List.mem_map.mp h
  rw [List.mem_range] at hk
  simp only [readBytes, List.length_map, List.length_range]
  omega

theorem CleanAt.after {a n : Nat} (h : CleanAt s a n) (hu : MemOnly s u) (hm : ∀ x, marked u x = marked s x) : CleanAt u a n := fun i hi =>
  ⟨(hu.offline _).trans (h i hi).1, (hm _).trans (h i hi).2⟩

/-- Units of n bytes moved from their sources, as they were in s, to their destinations; every other byte is as it was. -/
structure UnitsMoved (src dst : Nat → Nat) (n k : Nat) (s t : State) : Prop where
  rest : MemOnly s t
  marks : ∀ x, marked t x = marked s x
  moved : ∀ l < k, bytesAt t (dst l) n = bytesAt s (src l) n
  beside : ∀ a, (∀ l < k, a < dst l ∨ dst l + n ≤ a) → byteAt t a = byteAt s a

section Units

variable {src dst : Nat → Nat} {n k : Nat}

theorem UnitsMoved.refl : UnitsMoved src dst n 0 s s := ⟨.refl, fun _ => rfl, fun _ h => absurd h (Nat.not_lt_zero _), fun _ _ => rfl⟩

/-- One more unit written, apart from those written before it. -/
theorem UnitsMoved.succ (h : UnitsMoved src dst n k s t) (hrest : MemOnly t u) (hmarks : ∀ x, marked u x = marked t x)
    (hcells : u.mem = (pokeBytes (dst k) (bytesAt s (src k) n) t).mem) (hapart : ∀ l < k, Apart n (dst l) (dst k)) :
    UnitsMoved src dst n (k + 1) s u := by
  have hout : ∀ a, a < dst k ∨ dst k + n ≤ a → byteAt u a = byteAt t a := fun a ha =>
    (byteAt_congr hcells a).trans (byteAt_pokeBytes_out t (by rwa [bytesAt_length]))
  refine ⟨h.rest.trans hrest, fun x => (hmarks x).trans (h.marks x), fun l hl => ?_, fun a ha => ?_⟩
  · rcases Nat.lt_succ_iff_lt_or_eq.mp hl with hl | rfl
    · refine (bytesAt_congr fun i hi => hout _ ?_).trans (h.moved l hl)
      have := hapart l hl
      unfold Apart at this
      omega
    · have hb := bytesAt_pokeBytes (a := dst l) (bs := bytesAt s (src l) n) (fun b hb => by
        obtain ⟨i, _, rfl⟩ := List.mem_map.mp hb
        exact byteAt_lt _ _) t
      rw [bytesAt_length] at hb
      exact (bytesAt_congr fun i _ => byteAt_congr hcells _).trans hb
  · exact (hout a (ha k (by omega))).trans (h.beside a fun l hl => ha l (by omega))

/-- The destinations of the first k units do not overlap. -/
def UnitsApart (dst : Nat → Nat) (n k : Nat) : Prop := ∀ l < k, ∀ m < k, l ≠ m → Apart n (dst l) (dst m)

/-- The pieces of all units, read before any is written. -/
theorem pieces_moved (hsrc : ∀ l < k, CleanAt s (src l) n) (hapart : UnitsApart dst n k) :
    UnitsMoved src dst n k s (pokeAll ((List.range k).flatMap fun l => unitPieces s (src l) (dst l) n) s) := by
  induction k with
  | zero => exact .refl
  | succ k ih =>
    have hk := ih (fun l hl => hsrc l (by omega)) fun l hl m hm => hapart l (by omega) m (by omega)
    have heq : pokeAll ((List.range (k + 1)).flatMap fun l => unitPieces s (src l) (dst l) n) s
        = pokeBytes (dst k) (bytesAt s (src k) n) (pokeAll ((List.range k).flatMap fun l => unitPieces s (src l) (dst l) n) s) := by
      rw [List.range_succ, List.flatMap_append, pokeAll, List.foldl_append]
      simp only [List.flatMap_cons, List.flatMap_nil, List.append_nil]
      exact pokeAll_unitPieces (hsrc k (by omega)) _ _
    rw [heq]
    exact hk.succ (.pokeBytes _ _ _) (fun x => by simp only [marked, pokeBytes_poison]) rfl fun l hl => hapart l (by omega) k (by omega) (by omega)

/-- What is moved is told by cells: a state of the same cells and marks has moved the same. -/
theorem UnitsMoved.of_cells (h : UnitsMoved src dst n k s t) (hrest : MemOnly s u) (hmarks : ∀ x, marked u x = marked s x)
    (hcells : u.mem = t.mem) :
    UnitsMoved src dst n k s u :=
  ⟨hrest, hmarks, fun l hl => (bytesAt_congr fun _ _ => byteAt_congr hcells _).trans (h.moved l hl),
    fun a ha => (byteAt_congr hcells a).trans (h.beside a ha)⟩

theorem scatter_unmarked {pieces : List (Nat × List Nat × Bool)} (h : ∀ x ∈ pieces, CleanPiece s x)
    (hm : ∀ x ∈ pieces, ∀ i < x.2.1.length, marked s ((x.1 + i) / 64) = false) (x : Nat) : marked (scatter pieces s) x = marked s x := by
  refine (scatter_clean h).2.2 x ?_
  by_cases hx : marked s x = false
  · exact .inl hx
  · exact .inr fun y hy i hi he => hx (he ▸ hm y hy i hi)

theorem unitPieces_unmarked {a b : Nat} (hdst : CleanAt s b n) :
    ∀ x ∈ unitPieces s a b n, ∀ i < x.2.1.length, marked s ((x.1 + i) / 64) = false := by
  intro x hx i hi
  have hw := unitPieces_within hx
  have := (hdst (x.1 - b + i) (by omega)).2
  rwa [show b + (x.1 - b + i) = x.1 + i by omega] at this

/-- A layout-changing copy: all units read, then written. -/
theorem scatter_moved (hsrc : ∀ l < k, CleanAt s (src l) n) (hdst : ∀ l < k, CleanAt s (dst l) n) (hapart : UnitsApart dst n k) :
    UnitsMoved src dst n k s (scatter ((List.range k).flatMap fun l => unitPieces s (src l) (dst l) n) s) := by
  have hclean : ∀ x ∈ (List.range k).flatMap fun l => unitPieces s (src l) (dst l) n, CleanPiece s x := fun x hx => by
    obtain ⟨l, hl, hx⟩ := List.mem_flatMap.mp hx
    exact unitPieces_cleanPiece (hsrc l (List.mem_range.mp hl)) (hdst l (List.mem_range.mp hl)) x hx
  obtain ⟨hrest, hcells, _⟩ := scatter_clean hclean
  refine (pieces_moved hsrc hapart).of_cells hrest (scatter_unmarked hclean fun x hx => ?_) hcells
  obtain ⟨l, hl, hx⟩ := List.mem_flatMap.mp hx
  exact unitPieces_unmarked (hdst l (List.mem_range.mp hl)) x hx

theorem moveUnit_clean {a b : Nat} (hsrc : CleanAt s a n) : moveUnit a b n s = scatter (unitPieces s a b n) s := by
  rw [moveUnit, noteOfflineRange_of_clean (poisoned_eq_false.mpr hsrc)]

/-- An ordered copy: each unit written before the next is read. -/
theorem moveUnits_moved (hsrc : ∀ l < k, CleanAt s (src l) n) (hdst : ∀ l < k, CleanAt s (dst l) n) (hapart : UnitsApart dst n k)
    (hacross : ∀ l < k, ∀ m < k, Apart n (src l) (dst m)) : UnitsMoved src dst n k s (iter k s fun l t => moveUnit (src l) (dst l) n t) := by
  induction k with
  | zero => exact .refl
  | succ k ih =>
    have hk := ih (fun l hl => hsrc l (by omega)) (fun l hl => hdst l (by omega)) (fun l hl m hm => hapart l (by omega) m (by omega))
      fun l hl m hm => hacross l (by omega) m (by omega)
    have hs := (hsrc k (by omega)).after hk.rest hk.marks
    have hd := (hdst k (by omega)).after hk.rest hk.marks
    have hbytes : bytesAt (iter k s fun l t => moveUnit (src l) (dst l) n t) (src k) n = bytesAt s (src k) n := bytesAt_congr fun i hi =>
      hk.beside _ fun l hl => by
        have := hacross k (by omega) l (by omega)
        unfold Apart at this
        omega
    rw [iter, List.range_succ, List.foldl_append]
    change UnitsMoved src dst n (k + 1) s (moveUnit (src k) (dst k) n (iter k s fun l t => moveUnit (src l) (dst l) n t))
    rw [moveUnit_clean hs]
    obtain ⟨hrest, hcells, _⟩ := scatter_clean (unitPieces_cleanPiece hs hd)
    refine hk.succ hrest (scatter_unmarked (unitPieces_cleanPiece hs hd) (unitPieces_unmarked hd)) ?_ fun l hl =>
      hapart l (by omega) k (by omega) (by omega)
    rw [hcells, pokeAll_unitPieces hs, hbytes]

end Units

/-! ## A local SHAPE copy ends (R163, R166) -/

theorem noteSource_clean {c : CopyOp} {a : Nat} (h : ∀ l < c.units, CleanAt s (unitAddr a c.ext c.sstride l) c.u) : noteSource c a s = s := by
  have hn : ∀ k ≤ c.units, iter k s (fun l t => noteOfflineRange (unitAddr a c.ext c.sstride l) c.u 0 true t) = s := by
    intro k
    induction k with
    | zero => exact fun _ => rfl
    | succ k ih =>
      intro hk
      have hprev := ih (by omega)
      unfold iter at hprev ⊢
      rw [List.range_succ, List.foldl_append, hprev]
      exact noteOfflineRange_of_clean (poisoned_eq_false.mpr (h k (by omega))) 0 true
  exact hn c.units (Nat.le_refl _)

/-- A copy whose units overlap nowhere moves them, ordered or not; an ordered one marks its event. -/
theorem shapeCopy_moved {c : CopyOp} {sa da : Nat} (hplace : c.inPlace = false)
    (hclean : ∀ l < c.units, CleanAt s (unitAddr sa c.ext c.sstride l) c.u ∧ CleanAt s (unitAddr da c.ext c.dstride l) c.u)
    (hapart : ∀ l < c.units, ∀ m < c.units, Apart c.u (unitAddr sa c.ext c.sstride l) (unitAddr da c.ext c.dstride m)
      ∧ (l ≠ m → Apart c.u (unitAddr da c.ext c.dstride l) (unitAddr da c.ext c.dstride m))) :
    ∃ t, UnitsMoved (unitAddr sa c.ext c.sstride) (unitAddr da c.ext c.dstride) c.u c.units s t
      ∧ Aside [] [(.SEQ_EVENTS, p)] t (shapeCopy p c sa da s) := by
  unfold shapeCopy
  rw [hplace]
  dsimp only
  split
  · rename_i h
    exact absurd h (by decide)
  · split
    · exact ⟨_, moveUnits_moved (fun l hl => (hclean l hl).1) (fun l hl => (hclean l hl).2) (fun l hl m hm => (hapart l hl m hm).2)
        (fun l hl m hm => (hapart l hl m hm).1), Aside.refl.raise (.inr (by simp))⟩
    · rw [noteSource_clean fun l hl => (hclean l hl).1]
      exact ⟨_, scatter_moved (fun l hl => (hclean l hl).1) (fun l hl => (hclean l hl).2) (fun l hl m hm => (hapart l hl m hm).2), .refl⟩

/-! ## The end of a copy -/

theorem count_fetchAside (q code n : Nat) (s : State) : Aside fetchRegs [] s (count q code n s) :=
  (count_aside q code n s).mono (by simp) fun k hk => .inl (by rcases bank_reg hk with e | e | e <;> simp [e])

theorem countRead_aside (q : Option Nat) (a n : Nat) (s : State) : Aside fetchRegs [] s (countRead q a n s) := by
  have own : ∀ t, Aside fetchRegs [] t (q.elim id (count · 0x23 n) t) := fun t => by
    cases q with
    | none => exact .refl
    | some q => exact count_fetchAside q _ _ t
  unfold countRead
  split
  · exact .ite (count_fetchAside _ _ _ _) (((count_fetchAside _ _ _ _).trans (count_fetchAside _ _ _ _)).trans (own _))
  · exact own _

theorem countWrite_aside (q : Option Nat) (a n : Nat) (s : State) : Aside fetchRegs [] s (countWrite q a n s) := by
  have own : ∀ t, Aside fetchRegs [] t (q.elim id (count · 0x22 n) t) := fun t => by
    cases q with
    | none => exact .refl
    | some q => exact count_fetchAside q _ _ t
  unfold countWrite
  split
  · exact .ite (count_fetchAside _ _ _ _) (((count_fetchAside _ _ _ _).trans (count_fetchAside _ _ _ _)).trans (own _))
  · exact own _

theorem countCopy_aside (p : Nat) (c : CopyOp) (s : State) : Aside fetchRegs [] s (countCopy p c s) := by
  have hc : ∀ q code n t, Aside fetchRegs [] s t → Aside fetchRegs [] s (count q code n t) :=
    fun q code n t h => h.trans (count_fetchAside q code n t)
  have hr : ∀ q a n t, Aside fetchRegs [] s t → Aside fetchRegs [] s (countRead q a n t) := fun q a n t h => h.trans (countRead_aside q a n t)
  have hw : ∀ q a n t, Aside fetchRegs [] s t → Aside fetchRegs [] s (countWrite q a n t) := fun q a n t h => h.trans (countWrite_aside q a n t)
  have hfirst := hc p 0x25 c.bytes s .refl
  unfold countCopy
  dsimp only
  split
  · split_ifs
    · exact hr _ _ _ _ (hw _ _ _ _ hfirst)
    · exact hc _ _ _ _ (hw _ _ _ _ hfirst)
    · exact hc _ _ _ _ (hr _ _ _ _ hfirst)
    · exact hr _ _ _ _ (hw _ _ _ _ hfirst)
  · split_ifs
    · exact hr _ _ _ _ hfirst
    · exact hr _ _ _ _ (hc _ _ _ _ hfirst)
  · split_ifs
    · exact hw _ _ _ _ hfirst
    · exact hw _ _ _ _ (hc _ _ _ _ hfirst)
  · exact hfirst

/-- Copy k of a pair leaves the engine. -/
def copyLeft (k : Nat) (x : PairS) : PairS := { x with copies := x.copies.eraseIdx k }

/-- A copy that has ended: counted, out of the engine, its semaphore raised. -/
def copyEnded (p k : Nat) (c : CopyOp) (s : State) : State := semInc p c.sem (countCopy p c (modPair p (copyLeft k) s))

theorem copyEnded_pairAside {k : Nat} {c : CopyOp} (h : semCount s p c.sem ≠ 0xFFFFFFFF) :
    PairAside fetchRegs [(.SEQ_SEM_i, 64 * p + c.sem)] p (copyLeft k) s (copyEnded p k c s)
      ∧ semCount (copyEnded p k c s) p c.sem = semCount s p c.sem + 1 := by
  have hcount := countCopy_aside p c (modPair p (copyLeft k) s)
  have hsem : semCount (countCopy p c (modPair p (copyLeft k) s)) p c.sem = semCount s p c.sem := hcount.fld (by decide) List.not_mem_nil
  have hinc := semCount_semInc (hsem ▸ h)
  rw [hsem] at hinc
  refine ⟨?_, hinc⟩
  have hraise : Aside fetchRegs [(.SEQ_SEM_i, 64 * p + c.sem)] (countCopy p c (modPair p (copyLeft k) s)) (copyEnded p k c s) := by
    rw [copyEnded, semInc_eq (hsem ▸ h)]
    exact Aside.refl.setFld _ (.inr (by simp))
  exact ((PairAside.modPair _ s).trans (hcount.mono (fun _ hr => hr) (by simp)).toPair).trans hraise.toPair

/-- A running local SHAPE copy ends with what its units' moves and its end give. -/
theorem copyDone_local {c : CopyOp} {sa da : Nat} (hc : (pair s p).copies = [c]) (hrun : c.started = true) (hk : c.kind = 8)
    (hsrc : addrForm s c.src = some (none, sa)) (hdst : addrForm s c.dst = some (none, da)) :
    copyDone p 0 s = copyEnded p 0 c (shapeCopy p c sa da s) := by
  have hs : c.srcSide s = some (none, sa) := hsrc
  have hd : c.dstSide s = some (none, da) := hdst
  simp only [copyDone, hc, List.getElem?_cons_zero, hrun, hk, hs, hd, Bool.not_true, Bool.false_eq_true, if_false, ne_eq, not_true_eq_false]
  rfl

theorem copyDone_remote {c : CopyOp} {d sa da : Nat} (hc : (pair s p).copies = [c]) (hrun : c.started = true) (hk : c.kind = 8)
    (hfin : c.finished = true) (hsrc : addrForm s c.src = some (none, sa)) (hdst : addrForm s c.dst = some (some d, da)) :
    copyDone p 0 s = copyEnded p 0 c s := by
  have hs : c.srcSide s = some (none, sa) := hsrc
  have hd : c.dstSide s = some (some d, da) := hdst
  simp only [copyDone, hc, List.getElem?_cons_zero, hrun, hk, hs, hd, hfin, Bool.not_true, Bool.false_eq_true, if_false, if_true, ne_eq,
    not_true_eq_false]
  rfl

theorem local_ends (p : Pair) (c : CopyOp) (sa da : Nat) (s : State) (hs : Clocked s) (hc : (pair s p).copies = [c]) (hrun : c.started = true)
    (hk : c.kind = 8) (hplace : c.inPlace = false) (hsrc : addrForm s c.src = some (none, sa)) (hdst : addrForm s c.dst = some (none, da))
    (hsem : semCount s p c.sem ≠ 0xFFFFFFFF)
    (hclean : ∀ l < c.units, poisoned s (unitAddr sa c.ext c.sstride l) c.u = false ∧ poisoned s (unitAddr da c.ext c.dstride l) c.u = false)
    (hapart : ∀ l < c.units, ∀ m < c.units, Apart c.u (unitAddr sa c.ext c.sstride l) (unitAddr da c.ext c.dstride m)
      ∧ (l ≠ m → Apart c.u (unitAddr da c.ext c.dstride l) (unitAddr da c.ext c.dstride m))) :
    Completes (.copyDone p 0) s fun u =>
      (pair u p).copies = [] ∧ semCount u p c.sem = semCount s p c.sem + 1
        ∧ (∀ l < c.units, bytesAt u (unitAddr da c.ext c.dstride l) c.u = bytesAt s (unitAddr sa c.ext c.sstride l) c.u)
        ∧ (∀ a, (∀ l < c.units, a < unitAddr da c.ext c.dstride l ∨ unitAddr da c.ext c.dstride l + c.u ≤ a) → byteAt u a = byteAt s a)
        ∧ (∀ x, marked u x = marked s x) ∧ (∀ q, q ≠ p.val → pair u q = pair s q) := by
  simp only [poisoned_eq_false] at hclean
  obtain ⟨t, hmoved, hevent⟩ := shapeCopy_moved (p := p.val) hplace hclean hapart
  have hpair : ∀ q, pair (shapeCopy p c sa da s) q = pair s q := fun q => (hevent.pair q).trans (congrArg (fun x : State => pair x q) hmoved.rest :)
  have hcount : semCount (shapeCopy p c sa da s) p c.sem = semCount s p c.sem := (hevent.fld (by simp) (by simp)).trans (hmoved.rest.fld _ _)
  obtain ⟨hend, hinc⟩ := copyEnded_pairAside (p := p.val) (k := 0) (c := c) (s := shapeCopy p c sa da s) (by rwa [hcount])
  have hmem := hevent.memSame
  have hbyte : ∀ a, byteAt (copyEnded p 0 c (shapeCopy p c sa da s)) a = byteAt t a := fun a => (hend.memSame.1 a).trans (hmem.1 a)
  have hlive : (copyEnded p 0 c (shapeCopy p c sa da s)).inService = s.inService :=
    hend.inService.trans (hevent.inService.trans (congrArg State.inService hmoved.rest :))
  have hqueue : (copyEnded p 0 c (shapeCopy p c sa da s)).pending = s.pending :=
    hend.pending.trans (hevent.pending.trans (congrArg State.pending hmoved.rest :))
  have hu := copyDone_local hc hrun hk hsrc hdst
  refine ⟨_, (congrArg Host.Outcome.next (whenClocked_self hs (hu ▸ hlive) (hu ▸ hqueue)) : exec (.copyDone p 0) s = _), ?_⟩
  rw [hu]
  refine ⟨?_, hinc.trans (by rw [hcount]), fun l hl => (bytesAt_congr fun i _ => hbyte _).trans (hmoved.moved l hl),
    fun a ha => (hbyte a).trans (hmoved.beside a ha), fun x => (hend.memSame.2 x).trans ((hmem.2 x).trans (hmoved.marks x)),
    fun q hq => (hend.others q hq).trans (hpair q)⟩
  rw [hend.own, hpair, copyLeft, hc]
  rfl

theorem remote_ends (p : Pair) (c : CopyOp) (d sa da : Nat) (s : State) (hs : Clocked s) (hc : (pair s p).copies = [c]) (hrun : c.started = true)
    (hk : c.kind = 8) (hfin : c.finished = true) (hsrc : addrForm s c.src = some (none, sa)) (hdst : addrForm s c.dst = some (some d, da))
    (hsem : semCount s p c.sem ≠ 0xFFFFFFFF) :
    Completes (.copyDone p 0) s fun u => (pair u p).copies = [] ∧ semCount u p c.sem = semCount s p c.sem + 1 ∧ MemSame s u := by
  obtain ⟨hend, hinc⟩ := copyEnded_pairAside (p := p.val) (k := 0) hsem
  refine completes_pairAside hs rfl (copyDone_remote hc hrun hk hfin hsrc hdst) hend ⟨?_, hinc, hend.memSame⟩
  rw [hend.own, copyLeft, hc]
  rfl

/-! ## A copy starts (R167) -/

/-- The only copy of a pair starts. -/
def copyStarted (c : CopyOp) (x : PairS) : PairS := { x with copies := x.copies.set 0 { c with started := true } }

theorem setCopy_zero (p : Nat) (c : CopyOp) (s : State) : setCopy p 0 { c with started := true } s = modPair p (copyStarted c) s := rfl

section Starts

variable {c : CopyOp} (hc : (pair s p).copies = [c]) (hidle : c.started = false) (hroom : fld s F.SEQ_CTRL_copy_inflight p ≠ 0)
include hc hidle hroom

theorem copyStart_local {sa da : Nat} (hsrc : addrForm s c.src = some (none, sa)) (hdst : addrForm s c.dst = some (none, da)) :
    copyStart p s = modPair p (copyStarted c) s := by
  have hs : c.srcSide (modPair p (copyStarted c) s) = some (none, sa) := hsrc
  have hd : c.dstSide (modPair p (copyStarted c) s) = some (none, da) := hdst
  simp [copyStart, hc, hidle, hroom, setCopy_zero, hs, hd]

theorem copyStart_put {d sa da : Nat} (hk : c.kind = 8) (hsrc : addrForm s c.src = some (none, sa)) (hdst : addrForm s c.dst = some (some d, da)) :
    ∃ t, t = (if c.inPlace then stageTile2 p c sa (modPair p (copyStarted c) s) else noteSource c sa (modPair p (copyStarted c) s))
      ∧ copyStart p s = sendRequest 0 p c.seq 0 (putMessage t p c d sa da) t := by
  have hs : c.srcSide (modPair p (copyStarted c) s) = some (none, sa) := hsrc
  have hd : c.dstSide (modPair p (copyStarted c) s) = some (some d, da) := hdst
  have hshape : ¬ c.kind ≠ 8 := not_not.mpr hk
  refine ⟨_, rfl, ?_⟩
  simp only [copyStart, hc, hidle, List.countP_cons, List.countP_nil, Bool.false_eq_true, if_false, Nat.add_zero, List.getElem?_cons_zero,
    ge_iff_le, Nat.le_zero, hroom, decide_false, List.take_zero, List.any_nil, Bool.or_self, setCopy_zero, hshape, hs, hd]

end Starts

theorem start_local (p : Pair) (c : CopyOp) (sa da : Nat) (s : State) (hs : Clocked s) (hc : (pair s p).copies = [c]) (hidle : c.started = false)
    (hroom : fld s F.SEQ_CTRL_copy_inflight p ≠ 0) (hsrc : addrForm s c.src = some (none, sa)) (hdst : addrForm s c.dst = some (none, da)) :
    Completes (.copyStart p) s fun u =>
      pair u p = { pair s p with copies := [{ c with started := true }] } ∧ (∀ q, q ≠ p.val → pair u q = pair s q)
        ∧ u.apart = s.apart ∧ Keeps [] [] s u := by
  have ha : PairAside [] [] p (copyStarted c) s (modPair p (copyStarted c) s) := PairAside.modPair _ s
  refine completes_pairAside hs rfl (copyStart_local hc hidle hroom hsrc hdst) ha ⟨?_, ha.others, ha.rest, ha.regs⟩
  rw [ha.own, copyStarted, hc]
  rfl

/-- The registers that a read of memory may note in. -/
abbrev noteRegs : List Reg := [.MEM_POISON_REC, .MEM_EVENTS, .RL_LOG_PTR, .RL_EVENTS]

theorem noteSource_aside (c : CopyOp) (a : Nat) (s : State) : Aside noteRegs [] s (noteSource c a s) :=
  iter_aside (fun _ _ t => noteOfflineRange_aside _ _ _ _ t) s

/-- Pieces written to a comb leave every byte outside their places. -/
theorem scatter_comb {pieces : List (Nat × List Nat × Bool)} {lo hi : Nat}
    (h : ∀ x ∈ pieces, combBase ≤ x.1 ∧ lo ≤ x.1 ∧ x.1 + x.2.1.length ≤ hi) (s : State) :
    ∀ a, a < lo ∨ hi ≤ a → byteAt (scatter pieces s) a = byteAt s a := by
  have hfold : ∀ a, a < lo ∨ hi ≤ a → byteAt ((cutPieces pieces).foldl (fun t x => putPiece x t) s) a = byteAt s a := by
    intro a ha
    induction pieces generalizing s with
    | nil => rfl
    | cons x xs ih =>
      obtain ⟨b, bs, bad⟩ := x
      obtain ⟨hcomb, hlo, hhi⟩ := h (b, bs, bad) (by simp)
      have hput := splitPiece_pokes (n := bs.length / 64 + 2) (a := b) (bs := bs) bad hcomb (by omega) s
      rw [cutPieces, List.flatMap_cons, List.foldl_append]
      refine (ih (fun y hy => h y (by simp [hy])) _).trans ((byteAt_congr hput.2 a).trans (byteAt_pokeBytes_out s ?_))
      dsimp only at hlo hhi
      omega
  exact fun a ha => (byteAt_congr (clearWhole_mem _ _) a).trans (hfold a ha)

/-- The tile of an in-place copy fills its staging area and nothing beside it. -/
theorem stageTile2_within (p : Nat) (c : CopyOp) (sa : Nat) (s : State) :
    ∀ a, a < combAddr p c.stage ∨ combAddr p c.stage + c.units * c.u ≤ a → byteAt (stageTile2 p c sa s) a = byteAt s a := by
  intro a ha
  have hw : ∀ x ∈ (List.range c.units).flatMap fun l =>
      unitPieces s (unitAddr sa c.ext c.sstride l) (combAddr p (c.stage + l * c.u)) c.u,
      combBase ≤ x.1 ∧ combAddr p c.stage ≤ x.1 ∧ x.1 + x.2.1.length ≤ combAddr p c.stage + c.units * c.u := by
    intro x hx
    obtain ⟨l, hl, hx⟩ := List.mem_flatMap.mp hx
    have hx := unitPieces_within hx
    have hl : (l + 1) * c.u ≤ c.units * c.u := Nat.mul_le_mul_right _ (List.mem_range.mp hl)
    rw [Nat.succ_mul] at hl
    unfold combAddr at hx ⊢
    omega
  exact (scatter_comb hw _ a ha).trans ((noteSource_aside c sa s).byteAt a)

theorem stageTile2_beside (p : Nat) (c : CopyOp) (sa : Nat) (s : State) : BesideMem writeRegs [] s (stageTile2 p c sa s) :=
  ((noteSource_aside c sa s).mono (by simp) (by simp)).besideMem.trans (scatter_beside _ _)

/-- A request recorded, before its message is sent (R308). -/
def requested (kind p ref member : Nat) (m : Packet) (s : State) : State :=
  { s with
    requests := s.requests ++ [{ id := s.nextReq, pair := p, kind := kind, dst := m.dst, sent := s.us, ref := ref, member := member }]
    nextReq := s.nextReq + 1 }

theorem sendRequest_aside (kind p ref member : Nat) (m : Packet) (s : State) :
    Aside sendRegs [] (requested kind p ref member m s) (sendRequest kind p ref member m s) := inject_aside _ _

theorem start_put (p : Pair) (c : CopyOp) (d sa da : Nat) (s : State) (hs : Clocked s) (hc : (pair s p).copies = [c]) (hidle : c.started = false)
    (hk : c.kind = 8) (hroom : fld s F.SEQ_CTRL_copy_inflight p ≠ 0) (hsrc : addrForm s c.src = some (none, sa))
    (hdst : addrForm s c.dst = some (some d, da)) :
    Completes (.copyStart p) s fun u =>
      (pair u p).copies = [{ c with started := true }] ∧ u.nextReq = s.nextReq + 1 ∧ (c.inPlace = false → MemSame s u)
        ∧ (∀ a, a < combAddr p c.stage ∨ combAddr p c.stage + c.units * c.u ≤ a → byteAt u a = byteAt s a)
        ∧ u.requests = s.requests ++ [{ id := s.nextReq, pair := p, kind := 0, dst := d, sent := s.us, ref := c.seq, member := 0 }] := by
  obtain ⟨t, ht, hu⟩ := copyStart_put hc hidle hroom hk hsrc hdst
  have hbeside : BesideMem writeRegs [] (modPair p (copyStarted c) s) t := by
    rw [ht]
    split
    · exact stageTile2_beside _ _ _ _
    · exact ((noteSource_aside _ _ _).mono (by simp) (by simp)).besideMem
  have hbytes : ∀ a, a < combAddr p c.stage ∨ combAddr p c.stage + c.units * c.u ≤ a → byteAt t a = byteAt s a := by
    rw [ht]
    split
    · exact stageTile2_within _ _ _ _
    · exact fun a _ => (noteSource_aside _ _ _).byteAt a
  have hsame : c.inPlace = false → MemSame s t := fun hplace => by
    rw [ht, hplace]
    exact (noteSource_aside c sa (modPair p (copyStarted c) s)).memSame
  have hsent := sendRequest_aside 0 p c.seq 0 (putMessage t p c d sa da) t
  have hnext : t.nextReq = s.nextReq := (congrArg State.nextReq hbeside.1 :)
  have hpair : pair t p = copyStarted c (pair s p) := by
    have : pair t p = pair (modPair p (copyStarted c) s) p := by simp only [pair, hbeside.pairs]
    rw [this, pair_modPair_self]
  have hlive : (copyStart p s).inService = s.inService := by rw [hu]; exact hsent.inService.trans hbeside.inService
  have hqueue : (copyStart p s).pending = s.pending := by rw [hu]; exact hsent.pending.trans hbeside.pending
  refine ⟨_, (congrArg Host.Outcome.next (whenClocked_self hs hlive hqueue) : exec (.copyStart p) s = _), ?_⟩
  rw [hu]
  refine ⟨?_, (congrArg State.nextReq hsent.1 :).trans (congrArg (· + 1) hnext), fun hp => (hsame hp).trans hsent.memSame,
    fun a ha => (hsent.byteAt a).trans (hbytes a ha), (congrArg State.requests hsent.1 :).trans ?_⟩
  · rw [hsent.pair]
    change (pair t p).copies = _
    rw [hpair, copyStarted, hc]
    rfl
  · change t.requests ++ [{ id := t.nextReq, pair := p.val, kind := 0, dst := d, sent := t.us, ref := c.seq, member := 0 }] = _
    rw [hbeside.requests, hnext, hbeside.us]
    rfl

/-- Settles O21: the start of a local and of a put copy, and the end of a local and of a remote one. -/
theorem copyResults : Obligations.CopyResults := ⟨start_local, start_put, local_ends, remote_ends⟩

end Sys2Proof.Machine

/-! SUPPORT. What a packet of this part's own leaves as depends on the link hub alone (R292, R294, R300, R304-R306). -/

namespace Sys2Proof.Machine

/-! ## The state of the hub -/

/-- The registers that routes and ports are told by. -/
abbrev hubRegs : List Reg := [.PORT_STATUS, .GROUP_STATUS, .GROUP_RINGS, .LINK_CTRL]

/-- Two states of the same hub: what has been sent, what waits, the ports, the time, the spur's route, the registers that routes are told by. -/
structure HubAlike (s t : State) : Prop where
  out : t.out = s.out
  held : t.hubHeld = s.hubHeld
  ports : t.ports = s.ports
  us : t.us = s.us
  spur : t.spurRoute = s.spurRoute
  regs : ∀ r i, r ∈ hubRegs → reg t r i = reg s r i

namespace HubAlike

variable {s t u v : State}

theorem refl : HubAlike s s := ⟨rfl, rfl, rfl, rfl, rfl, fun _ _ _ => rfl⟩

theorem symm (h : HubAlike s t) : HubAlike t s :=
  ⟨h.out.symm, h.held.symm, h.ports.symm, h.us.symm, h.spur.symm, fun r i hr => (h.regs r i hr).symm⟩

theorem trans (h : HubAlike s t) (g : HubAlike t u) : HubAlike s u :=
  ⟨g.out.trans h.out, g.held.trans h.held, g.ports.trans h.ports, g.us.trans h.us, g.spur.trans h.spur,
    fun r i hr => (g.regs r i hr).trans (h.regs r i hr)⟩

/-- Changes on both sides that leave the hub alone. -/
theorem both (h : HubAlike s t) (hs : HubAlike s u) (ht : HubAlike t v) : HubAlike u v := hs.symm.trans (h.trans ht)

theorem fld (h : HubAlike s t) {f : Fld} (hf : f.reg ∈ hubRegs) (i : Nat) : Machine.fld t f i = Machine.fld s f i :=
  congrArg (getField f) (h.regs f.reg i hf)

theorem setFld {f : Fld} (hf : f.reg ∉ hubRegs) (i v : Nat) (s : State) : HubAlike s (Machine.setFld f i v s) :=
  ⟨rfl, rfl, rfl, rfl, rfl, fun _ _ hr => reg_setFld_ne v s (.inl fun he => hf (he ▸ hr))⟩

theorem raise {f : Fld} (hf : f.reg ∉ hubRegs) (i : Nat) (s : State) : HubAlike s (Machine.raise f i s) := setFld hf i 1 s

theorem satAddFld {f : Fld} (hf : f.reg ∉ hubRegs) (i n : Nat) (s : State) : HubAlike s (Machine.satAddFld f i n s) := setFld hf i _ s

theorem memOnly (h : MemOnly s u) : HubAlike s u :=
  ⟨(congrArg State.out h :), (congrArg State.hubHeld h :), (congrArg State.ports h :), (congrArg State.us h :), (congrArg State.spurRoute h :),
    fun r i _ => (congrArg (fun x : State => reg x r i) h :)⟩

/-! ## What reads the hub -/

theorem portS (h : HubAlike s t) (n : Nat) : Machine.portS t n = Machine.portS s n := by simp only [Machine.portS, h.ports]

theorem portState (h : HubAlike s t) (n : Nat) : Machine.portState t n = Machine.portState s n := h.fld (by decide) n

theorem deviceId (h : HubAlike s t) : Machine.deviceId t = Machine.deviceId s := h.fld (by decide) 0

theorem ringOf (h : HubAlike s t) (a : Nat) : Machine.ringOf t a = Machine.ringOf s a := by
  simp only [Machine.ringOf, h.fld (f := F.GROUP_RINGS_ring_m1) (by decide)]

theorem flitBytes (h : HubAlike s t) (n kind seq : Nat) (nak : Bool) (body : List Nat) :
    Machine.flitBytes t n kind seq nak body = Machine.flitBytes s n kind seq nak body := by
  simp only [Machine.flitBytes, lastAccepted, h.portS]

theorem dirBits (h : HubAlike s t) (dst : Nat) : Machine.dirBits t dst = Machine.dirBits s dst := by
  simp only [Machine.dirBits, h.ringOf, h.deviceId]

theorem routeHop (h : HubAlike s t) (from_ : Option Nat) (p : Packet) : Machine.routeHop t from_ p = Machine.routeHop s from_ p := by
  simp only [Machine.routeHop, nextAxis, h.ringOf, h.deviceId, h.portState]

theorem outlived (h : HubAlike s t) (m : Packet) : Machine.outlived t m = Machine.outlived s m := by
  simp only [Machine.outlived, h.fld (f := F.LINK_CTRL_max_hops) (by decide)]

theorem portRoom (h : HubAlike s t) (n : Nat) (m : Packet) : Machine.portRoom t n m = Machine.portRoom s n m := by
  simp only [Machine.portRoom, h.portState, h.spur, h.portS]

theorem pickHeld (h : HubAlike s t) (n : Nat) : Machine.pickHeld t n = Machine.pickHeld s n := by
  simp only [Machine.pickHeld, h.held, h.portS]

theorem aged (h : HubAlike s t) (x : Held) : x.aged t = x.aged s := by simp only [Held.aged, h.us]

theorem refusal (h : HubAlike s t) (p : Packet) (reason : Nat) : Machine.refusal t p reason = Machine.refusal s p reason := by
  simp only [Machine.refusal, h.deviceId]

/-! ## What sends -/

theorem emit (h : HubAlike s t) (o : Out) : HubAlike (Machine.emit o s) (Machine.emit o t) := { h with out := congrArg (o :: ·) h.out }

theorem modPort (h : HubAlike s t) (n : Nat) (f : PortS → PortS) : HubAlike (Machine.modPort n f s) (Machine.modPort n f t) where
  out := h.out
  held := h.held
  ports := by simp only [Machine.modPort, h.ports, h.portS]
  us := h.us
  spur := h.spur
  regs := h.regs

/-- Packets that wait taken or added alike. -/
theorem setHeld (h : HubAlike s t) (hs : List Held) : HubAlike { s with hubHeld := hs } { t with hubHeld := hs } := { h with held := rfl }

theorem countPort {lo hi : Fld} (h1 : lo.reg ∉ hubRegs) (h2 : hi.reg ∉ hubRegs) (port n : Nat) (s : State) :
    HubAlike s (Machine.countPort lo hi port n s) := by
  unfold Machine.countPort
  split
  · exact (setFld h2 _ _ _).trans (setFld h1 _ _ _)
  · exact .refl

theorem sendData (h : HubAlike s t) (n : Nat) (body : List Nat) : HubAlike (Machine.sendData n s body) (Machine.sendData n t body) := by
  simp only [Machine.sendData, h.portS, h.flitBytes]
  exact (h.modPort n _).emit _

/-- A packet's flits one after another. -/
theorem sendFlits (h : HubAlike s t) (n : Nat) (p : Packet) :
    HubAlike ((flitBodies p).foldl (Machine.sendData n) (Machine.emit (.packet n p) s))
      ((flitBodies p).foldl (Machine.sendData n) (Machine.emit (.packet n p) t)) :=
  List.foldl_rel (h.emit (.packet n p)) fun body _ _ _ hab => hab.sendData n body

theorem sendPacket (h : HubAlike s t) (n : Nat) (p : Packet) : HubAlike (Machine.sendPacket n p s) (Machine.sendPacket n p t) :=
  (h.sendFlits n { p with hops := p.hops + 1 }).both
    (countPort (lo := F.PORTCTR_TX_LO_count) (hi := F.PORTCTR_TX_HI_count) (by decide) (by decide) n _ _)
    (countPort (lo := F.PORTCTR_TX_LO_count) (hi := F.PORTCTR_TX_HI_count) (by decide) (by decide) n _ _)

theorem lifetimeDrop (s : State) : HubAlike s (Machine.lifetimeDrop s) := (satAddFld (by decide) _ _ _).trans (raise (by decide) _ _)

theorem servePort (h : HubAlike s t) (k n : Nat) : HubAlike (Machine.servePort k n s) (Machine.servePort k n t) := by
  induction k generalizing s t with
  | zero => exact h
  | succ k ih =>
    unfold Machine.servePort
    rw [h.pickHeld]
    cases Machine.pickHeld s n with
    | none => exact h
    | some x =>
      dsimp only
      rw [h.portRoom, h.aged, h.held]
      split
      · exact h
      · have hm := (h.setHeld (s.hubHeld.erase x)).modPort n fun y =>
          { y with turn := SMap.set 0 y.turn (classRank (x.aged s).cls) ((x.input + 1) % 10) }
        rw [hm.outlived]
        split
        · exact ih (hm.both (lifetimeDrop _) (lifetimeDrop _))
        · exact ih (hm.sendPacket n _)

theorem releaseHeld (h : HubAlike s t) (n : Nat) : HubAlike (Machine.releaseHeld n s) (Machine.releaseHeld n t) := by
  unfold Machine.releaseHeld
  rw [h.held]
  exact h.servePort _ n

theorem transmit (h : HubAlike s t) (port input : Nat) (p : Packet) :
    HubAlike (Machine.transmit port input p s) (Machine.transmit port input p t) := by
  have heq : ∀ x : State, Machine.transmit port input p x
      = Machine.releaseHeld port { x with hubHeld := x.hubHeld ++ [{ port := port, input := input, since := x.us, m := p }] } := fun _ => rfl
  have hwait : t.hubHeld ++ [{ port := port, input := input, since := t.us, m := p }]
      = s.hubHeld ++ [{ port := port, input := input, since := s.us, m := p }] := by rw [h.held, h.us]
  rw [heq, heq, hwait]
  exact (h.setHeld _).releaseHeld port

theorem ite {c : Prop} [Decidable c] {a b : State} (h1 : HubAlike s t) (h2 : HubAlike a b) :
    HubAlike (if c then s else a) (if c then t else b) := by
  split
  · exact h1
  · exact h2

theorem sendOn (h : HubAlike s t) (from_ : Option Nat) (input : Nat) (p : Packet) {back back' : State → State}
    (hb : ∀ {a b}, HubAlike a b → HubAlike (back a) (back' b)) :
    HubAlike (Machine.sendOn from_ input p back s) (Machine.sendOn from_ input p back' t) := by
  have counted : ∀ {f g : Fld} (a : State), f.reg ∉ hubRegs → g.reg ∉ hubRegs →
      HubAlike a (Machine.raise f 0 (Machine.satAddFld g 0 1 a)) :=
    fun a hf hg => (satAddFld hg 0 1 a).trans (raise hf 0 _)
  unfold Machine.sendOn
  rw [h.routeHop]
  cases Machine.routeHop s from_ p with
  | none => exact hb (h.both (counted s (by decide) (by decide)) (counted t (by decide) (by decide)))
  | some x =>
    dsimp only
    split
    · exact (h.both (counted s (by decide) (by decide)) (counted t (by decide) (by decide))).transmit _ _ _
    · exact h.transmit _ _ _

theorem injectOne (h : HubAlike s t) (p : Packet) : HubAlike (Machine.injectOne p s) (Machine.injectOne p t) := by
  unfold Machine.injectOne
  dsimp only
  rw [h.deviceId, h.fld (f := F.PORT_STATUS_partner_id) (by decide), h.spur, h.portState]
  refine (h.emit _).ite ((h.transmit _ _ _).ite (h.sendOn _ _ _ fun {a b} hab => ?_))
  rw [hab.refusal]
  exact hab.ite (hab.emit _)

theorem inject (h : HubAlike s t) (p : Packet) : HubAlike (Machine.inject p s) (Machine.inject p t) := by
  unfold Machine.inject injectVia
  rw [h.dirBits, h.deviceId]
  exact List.foldl_rel h fun _ _ _ _ hab => hab.injectOne _

end HubAlike

end Sys2Proof.Machine

/-! SUPPORT. Puts, gets, their answers and refusals, records and relayed writes as they arrive (R170, R294, R308, R332, R335). -/

namespace Sys2Proof.Machine

variable {m : Packet} {a n : Nat} {s t u v : State}

/-! ## Arrival (R307) -/

theorem not_outlived (h : Arrives m s) : outlived s m = false := by
  simp only [outlived, ge_iff_le, Bool.or_eq_false_iff, decide_eq_false_iff_not, Nat.not_le]
  exact ⟨h.young, Nat.not_lt.mpr h.near⟩

theorem assemble_whole (h : m.parts ≤ 1) (s : State) : assemble m s = (some m, s) := if_pos h

theorem arrives_whole (h : Arrives m s) (f : Packet → State → State) : arrives m f s = f m s := by
  simp only [arrives, not_outlived h, Bool.false_eq_true, if_false, assemble_whole h.whole]

theorem arrivesEach_young (h : Arrives m s) (f : Packet → State → State) : arrivesEach m f s = f m s := by
  simp only [arrivesEach, not_outlived h, Bool.false_eq_true, if_false]

/-! ## Bytes in one sector -/

theorem online_of_sector (ho : offline s a = false) (hl : a % 64 + n ≤ 64) : ∀ i < n, offline s (a + i) = false := fun i hi => by
  rw [← offline_sector, show (a + i) / 64 = a / 64 by omega, offline_sector, ho]

/-- A read that meets no offline sector notes nothing (R20, R221). -/
theorem noteOfflineRange_online (h : ∀ i < n, offline s (a + i) = false) (rq : Nat) (isRead : Bool) : noteOfflineRange a n rq isRead s = s := by
  rw [noteOfflineRange, List.filter_eq_nil_iff.mpr fun x hx => ?_, List.foldl_nil]
  obtain ⟨i, hi, rfl⟩ := mem_sectorsOf.mp hx
  simp only [offline_sector, h i hi, Bool.false_eq_true, not_false_eq_true]

theorem readBytes_online (h : ∀ i < n, offline s (a + i) = false) : readBytes s a n = bytesAt s a n :=
  List.map_congr_left fun i hi => if_neg (by simp [h i (List.mem_range.mp hi)])

theorem poisoned_sector (hn : 0 < n) (ho : offline s a = false) (hl : a % 64 + n ≤ 64) : poisoned s a n = marked s (a / 64) := by
  have hsec : sectorsOf a n = [a / 64] := by
    rw [sectorsOf, if_neg (by omega), show (a + n - 1) / 64 - a / 64 + 1 = 1 by omega]
    rfl
  simp only [poisoned, hsec, List.any_cons, List.any_nil, Bool.or_false, offline_sector, ho]

/-- Bytes stored at a in a state u of s: they are read back, no byte beside them has changed, and nothing beside memory. -/
structure Stored (a : Nat) (bs : List Nat) (s u : State) : Prop where
  rest : MemOnly s u
  bytes : bytesAt u a bs.length = bs
  wrote : Wrote a bs.length s u

theorem stored_of_cells {bs : List Nat} (hb : ∀ b ∈ bs, b < 256) (hrest : MemOnly s u) (hcells : u.mem = (pokeBytes a bs s).mem) :
    Stored a bs s u where
  rest := hrest
  bytes := (bytesAt_congr fun _ _ => byteAt_congr hcells _).trans (bytesAt_pokeBytes hb s)
  wrote := fun x hx => (byteAt_congr hcells x).trans (byteAt_pokeBytes_out s hx)

/-- A clean piece within a sector in service is stored. -/
theorem scatter_stored {bs : List Nat} (ho : offline s a = false) (hl : a % 64 + bs.length ≤ 64) (hb : ∀ b ∈ bs, b < 256) :
    Stored a bs s (scatter [(a, bs, false)] s) := by
  have hclean : ∀ x ∈ [(a, bs, false)], CleanPiece s x := fun x hx => by
    rw [List.mem_singleton.mp hx]
    exact ⟨rfl, online_of_sector ho hl⟩
  obtain ⟨hrest, hcells, _⟩ := scatter_clean hclean
  exact stored_of_cells hb hrest hcells

theorem memWrite_stored {bs : List Nat} (hne : bs ≠ []) (ho : offline s a = false) (hl : a % 64 + bs.length ≤ 64) (hb : ∀ b ∈ bs, b < 256) :
    Stored a bs s (memWrite a bs false s) := by
  rw [memWrite_sector hne hl]
  have hu : writeSector a bs false s = sectorWritten a bs false s := by
    simp only [writeSector_eq, unlessLost, ho, Bool.false_eq_true, if_false, Bool.false_and]
  rw [hu, sectorWritten, if_neg (by decide)]
  split
  · exact stored_of_cells hb ((MemOnly.sectorPoked a bs s).trans rfl) (sectorPoked_mem a bs s)
  · exact stored_of_cells hb (.sectorPoked a bs s) (sectorPoked_mem a bs s)

/-! ## Counters that take no sample (R418, R423) -/

/-- From s to u the registers of rs alone may have changed. -/
def RegsOnly (rs : List Reg) (s u : State) : Prop := u = { s with regs := u.regs } ∧ Keeps rs [] s u

theorem RegsOnly.refl {rs : List Reg} : RegsOnly rs s s := ⟨rfl, .refl⟩

theorem RegsOnly.setFld {rs : List Reg} (h : RegsOnly rs s t) {f : Fld} (hf : f.reg ∈ rs) (i v : Nat) : RegsOnly rs s (setFld f i v t) :=
  ⟨congrArg (fun x : State => Machine.setFld f i v x) h.1, h.2.setFld v (.inl hf)⟩

theorem RegsOnly.hubAlike {rs : List Reg} (h : RegsOnly rs s u) (hrs : ∀ r ∈ hubRegs, r ∉ rs) : HubAlike s u :=
  ⟨(congrArg State.out h.1 :), (congrArg State.hubHeld h.1 :), (congrArg State.ports h.1 :), (congrArg State.us h.1 :),
    (congrArg State.spurRoute h.1 :), fun r i hr => h.2 r i (hrs r hr) List.not_mem_nil⟩

/-- The registers that a counter that takes no sample writes. -/
abbrev counterRegs : List Reg := [.CTR_P_n, .CTR_P_OVF]

theorem ctrSample_off {q : Nat} (h : fld s F.CTR_P_SAMPLE_en q = 0) (j old new code : Nat) : ctrSample q j old new code s = s := by
  simp only [ctrSample, fldB, h, ne_eq, not_true_eq_false, decide_false, Bool.false_and, Bool.false_eq_true, if_false]

theorem RegsOnly.sampled {q j old new code : Nat} (h : RegsOnly counterRegs s t) (hoff : fld s F.CTR_P_SAMPLE_en q = 0) :
    RegsOnly counterRegs s (ctrSample q j old new code t) := by
  rw [ctrSample_off ((h.2.fld (by decide) List.not_mem_nil).trans hoff)]
  exact h

theorem RegsOnly.bumped {q : Nat} (h : RegsOnly counterRegs s t) (hoff : fld s F.CTR_P_SAMPLE_en q = 0) (j code n : Nat) :
    RegsOnly counterRegs s (ctrBump q j code n t) := by
  have counts : ∀ {x : State} (i v : Nat), RegsOnly counterRegs s x → RegsOnly counterRegs s (Machine.setFld F.CTR_P_n_count i v x) :=
    fun i v hx => hx.setFld (by decide) i v
  have overflows : ∀ {x : State} (v : Nat), RegsOnly counterRegs s x → RegsOnly counterRegs s (Machine.setFld F.CTR_P_OVF_ovf q v x) :=
    fun v hx => hx.setFld (by decide) q v
  unfold ctrBump
  dsimp only
  split
  · split
    · refine RegsOnly.sampled ?_ hoff
      split
      · exact overflows _ (counts _ _ (counts _ _ h))
      · exact counts _ _ (counts _ _ h)
    · refine RegsOnly.sampled ?_ hoff
      split
      · exact overflows _ (counts _ _ h)
      · exact counts _ _ h
  · exact h

theorem RegsOnly.counted {q : Nat} (h : RegsOnly counterRegs s t) (hoff : fld s F.CTR_P_SAMPLE_en q = 0) (code n : Nat) :
    RegsOnly counterRegs s (count q code n t) := by
  unfold count
  split
  · exact foldl_invariant (P := RegsOnly counterRegs s) (fun _ j ht => ht.bumped hoff j code n) _ h
  · exact h

/-- Bytes of no pair's counted in the bank of a comb that takes no samples. -/
theorem countWrite_regsOnly (h : NoSample s a) (n : Nat) : RegsOnly counterRegs s (countWrite none a n s) := by
  unfold countWrite
  cases ht : tierOf a with
  | comb q => exact (RegsOnly.refl.counted (h q ht) _ _).counted (h q ht) _ _
  | far q | near q | regs | unmapped => exact .refl

theorem countRead_regsOnly (h : NoSample s a) (n : Nat) : RegsOnly counterRegs s (countRead none a n s) := by
  unfold countRead
  cases ht : tierOf a with
  | comb q => exact (RegsOnly.refl.counted (h q ht) _ _).counted (h q ht) _ _
  | far q | near q | regs | unmapped => exact .refl

theorem countWrite_reach (a n : Nat) (s : State) : Aside eventRegs (reachKeys a) s (countWrite none a n s) := by
  unfold countWrite reachKeys
  cases tierOf a with
  | comb q => exact (count_aside q _ _ s).trans (count_aside q _ _ _)
  | far q | near q | regs | unmapped => exact .refl

theorem countRead_reach (a n : Nat) (s : State) : Aside eventRegs (reachKeys a) s (countRead none a n s) := by
  unfold countRead reachKeys
  cases tierOf a with
  | comb q => exact (count_aside q _ _ s).trans (count_aside q _ _ _)
  | far q | near q | regs | unmapped => exact .refl

theorem countWrite_log (a n : Nat) (s : State) : (countWrite none a n s).log = s.log := by
  unfold countWrite
  cases tierOf a with
  | comb q => exact (count_log _ _ _ _).trans (count_log _ _ _ _)
  | far q | near q | regs | unmapped => rfl

theorem countRead_log (a n : Nat) (s : State) : (countRead none a n s).log = s.log := by
  unfold countRead
  cases tierOf a with
  | comb q => exact (count_log _ _ _ _).trans (count_log _ _ _ _)
  | far q | near q | regs | unmapped => rfl

/-! ## A message answered -/

/-- From t to v the bytes at a are counted alone. -/
structure Counted (a : Nat) (t v : State) : Prop where
  reach : Aside eventRegs (reachKeys a) t v
  log : v.log = t.log
  quiet : NoSample t a → RegsOnly counterRegs t v

theorem countWrite_counted (a n : Nat) (t : State) : Counted a t (countWrite none a n t) :=
  ⟨countWrite_reach a n t, countWrite_log a n t, fun h => countWrite_regsOnly h n⟩

theorem countRead_counted (a n : Nat) (t : State) : Counted a t (countRead none a n t) :=
  ⟨countRead_reach a n t, countRead_log a n t, fun h => countRead_regsOnly h n⟩

/-- A message that touched memory from s to t and sends q in answer, in u: what it leaves alone, and what it sends. -/
structure Answered (a : Nat) (q : Packet) (s t u : State) : Prop where
  memory : MemSame t u
  regs : Keeps eventRegs (reachKeys a) s u
  pairs : u.pairs = s.pairs
  log : u.log = s.log
  sent : NoSample s a → Sent q s u
  live : u.inService = s.inService
  queue : u.pending = s.pending

theorem answered (ht : MemOnly s t) (hv : Counted a t v) (q : Packet) : Answered a q s t (inject q v) := by
  have hmem : BesideMem eventRegs (reachKeys a) s t := ht.besideMem
  have hsend : Aside eventRegs (reachKeys a) v (inject q v) := (inject_aside q v).mono (by simp) (by simp)
  have hall := hv.reach.trans hsend
  refine ⟨hall.memSame, hmem.keeps.trans hall.2, hall.pairs.trans hmem.pairs,
    (inject_log _ _).trans (hv.log.trans (congrArg State.log ht :)), fun hq => ?_, hall.inService.trans hmem.inService,
    hall.pending.trans hmem.pending⟩
  have hquiet : NoSample t a := fun b hb => (ht.fld _ _).trans (hq b hb)
  have hhub := ((HubAlike.memOnly ht).trans ((hv.quiet hquiet).hubAlike (by decide))).inject q
  exact ⟨hhub.out, hhub.held⟩

theorem Answered.stored {q : Packet} {bs : List Nat} (h : Answered a q s t u) (hs : Stored a bs s t) :
    bytesAt u a bs.length = bs ∧ Wrote a bs.length s u :=
  ⟨(bytesAt_congr fun _ _ => h.memory.1 _).trans hs.bytes, fun x hx => (h.memory.1 x).trans (hs.wrote x hx)⟩

/-! ## Puts and gets that arrive (R170, R294) -/

/-- The pieces of a put of one piece in a sector. -/
theorem putPieces_one {k : Nat} (hp : m.pieces = [(a, k)]) (hk : 0 < k) (hl : k ≤ 64) (hd : m.data.length = k) (hc : m.poison = 0) :
    putPieces m = [(a, m.data, false)] := by
  have hone : (k + 63) / 64 = 1 := by omega
  have htake : m.data.take k = m.data := List.take_of_length_le (by omega)
  have htake64 : m.data.take 64 = m.data := List.take_of_length_le (by omega)
  simp [putPieces, hp, hone, hc, htake, htake64, bitAt]

theorem put_stored (m : Packet) (a k : Nat) (s : State) (h : Arrives m s) (hf : footOk (footOf m) = true) (hsig : m.rsig = false)
    (hp : m.pieces = [(a, k)]) (hk : 0 < k) (hl : a % 64 + k ≤ 64) (hd : m.data.length = k) (hb : ∀ b ∈ m.data, b < 256) (hc : m.poison = 0)
    (ho : offline s a = false) :
    Completes (.putReceive m) s fun u =>
      bytesAt u a k = m.data ∧ Wrote a k s u ∧ Keeps eventRegs (reachKeys a) s u ∧ (NoSample s a → Sent (ackOf s m) s u) := by
  subst hd
  have hstore := scatter_stored (bs := m.data) ho hl hb
  have hack : acknowledge (countWrite none a m.data.length (scatter [(a, m.data, false)] s)) m = ackOf s m := by
    have hid : deviceId (countWrite none a m.data.length (scatter [(a, m.data, false)] s)) = deviceId s :=
      ((countWrite_aside none a _ _).fld (by decide) List.not_mem_nil).trans (hstore.rest.fld _ _)
    simp only [acknowledge, ackOf, hid]
  have hu : arrivesEach m putReceive s = inject (ackOf s m) (countWrite none a m.data.length (scatter [(a, m.data, false)] s)) := by
    rw [arrivesEach_young h, putReceive, putPieces_one hp hk (by omega) rfl hc, hf, assemble_whole h.whole]
    simp only [Bool.not_true, Bool.false_eq_true, if_false, putWhole, hsig, Bool.not_false, if_true, List.foldl_cons, List.foldl_nil, hack]
  have hans := answered hstore.rest (countWrite_counted a m.data.length _) (ackOf s m)
  obtain ⟨hbytes, hwrote⟩ := hans.stored hstore
  exact completes_kept h.released rfl hu hans.live hans.queue ⟨hbytes, hwrote, hans.regs, hans.sent⟩

theorem get_answered (m : Packet) (a k : Nat) (s : State) (h : Arrives m s) (hf : footOk (footOf m) = true) (hp : m.pieces = [(a, k)])
    (hk : 0 < k) (hl : a % 64 + k ≤ 64) (ho : offline s a = false) :
    Completes (.getReqReceive m) s fun u =>
      MemSame s u ∧ u.pairs = s.pairs ∧ Keeps eventRegs (reachKeys a) s u
        ∧ (NoSample s a →
            Sent { ptype := 3, dst := m.src, pair := m.pair, cls := 2, req := m.req, data := bytesAt s a k, poison := b2n (marked s (a / 64)) }
              s u ∧ u.log = s.log) := by
  have honline := online_of_sector ho hl
  have hone : (k + 63) / 64 = 1 := by omega
  have hmin : min 64 k = k := by omega
  have hcut : unitPieces s a 0 k = [(0, bytesAt s a k, marked s (a / 64))] := by
    simp [unitPieces, hone, hmin, readBytes_online honline, poisoned_sector hk ho hl]
  have hu : arrives m getReqReceive s
      = inject { ptype := 3, dst := m.src, pair := m.pair, cls := 2, req := m.req, data := bytesAt s a k, poison := b2n (marked s (a / 64)) }
        (countRead none a k s) := by
    rw [arrives_whole h, getReqReceive, hf]
    simp only [Bool.not_true, Bool.false_eq_true, if_false, hp, List.foldl_cons, List.foldl_nil, List.nil_append, hcut,
      noteOfflineRange_online honline, List.flatMap_cons, List.flatMap_nil, List.append_nil]
    cases marked s (a / 64) <;> rfl
  have hans := answered (MemOnly.refl (s := s)) (countRead_counted a k s)
    { ptype := 3, dst := m.src, pair := m.pair, cls := 2, req := m.req, data := bytesAt s a k, poison := b2n (marked s (a / 64)) }
  exact completes_kept h.released rfl hu hans.live hans.queue ⟨hans.memory, hans.pairs, hans.regs, fun hq => ⟨hans.sent hq, hans.log⟩⟩

/-! ## Answers to this part's requests (R170, R308) -/

/-- A copy marked finished as its request ends. -/
def copyFinished (seq : Nat) (x : PairS) : PairS :=
  { x with copies := x.copies.map (fun c => if c.seq = seq then { c with finished := true } else c) }

/-- A request taken off the list. -/
theorem dropRequest_requests (id : Nat) (s : State) : (dropRequest id s).requests = s.requests.filter (fun r => r.id ≠ id) := rfl

theorem unitAddr_zero (base : Nat) (ext : List Nat) (stride : List Int) : unitAddr base ext stride 0 = base := by
  simp [unitAddr]

/-- The data of a get of one unit in a sector is written at the copy's destination. -/
theorem getData_eq {r : Request} {c : CopyOp} (hw : m.parts ≤ 1) (hr : findRequest s m.req = some r)
    (hc : (pair s r.pair).copies.find? (fun x => x.seq = r.ref) = some c) (hdst : c.dstSide s = some (none, a)) (hunits : c.units = 1)
    (hplace : c.inPlace = false) (hpart : m.part = 0) (hu : 0 < c.u) (hl : c.u ≤ 64) (hd : m.data.length = c.u) (hp : m.poison = 0) :
    getDataReceive m s = modPair r.pair (copyFinished r.ref) (dropRequest r.id (scatter [(a, m.data, false)] s)) := by
  have hone : min (4096 / c.u) 1 = 1 := by
    have : 0 < 4096 / c.u := Nat.div_pos (by omega) hu
    omega
  have hcut : (c.u + 63) / 64 = 1 := by omega
  have htake : m.data.take c.u = m.data := List.take_of_length_le (by omega)
  have htake64 : m.data.take 64 = m.data := List.take_of_length_le (by omega)
  have hpieces : (List.range (min (4096 / c.u) (c.units - 4096 * m.part / c.u))).flatMap (fun i =>
      (List.range ((c.u + 63) / 64)).map (fun k =>
        (getPlace r.pair c a (4096 * m.part / c.u + i) + 64 * k, ((m.data.drop (i * c.u)).take c.u |>.drop (64 * k)).take 64,
          bitAt m.poison ((i * c.u + 64 * k) / 64)))) = [(a, m.data, false)] := by
    simp [hpart, hunits, hone, hcut, hp, getPlace, hplace, unitAddr_zero, htake, htake64, bitAt]
  simp only [getDataReceive, hr, hc, hdst, hpieces, assemble_whole hw, unstage, hplace]
  rfl

theorem getData_stored (m : Packet) (r : Request) (c : CopyOp) (a : Nat) (s : State) (h : Arrives m s) (hr : findRequest s m.req = some r)
    (hc : (pair s r.pair).copies.find? (fun x => x.seq = r.ref) = some c) (hdst : c.dstSide s = some (none, a)) (hunits : c.units = 1)
    (hplace : c.inPlace = false) (hpart : m.part = 0) (hu : 0 < c.u) (hl : a % 64 + c.u ≤ 64) (hd : m.data.length = c.u)
    (hb : ∀ b ∈ m.data, b < 256) (hp : m.poison = 0) (ho : offline s a = false) :
    Completes (.getDataReceive m) s fun u =>
      bytesAt u a c.u = m.data ∧ Wrote a c.u s u ∧ u.requests = s.requests.filter (fun x => x.id ≠ r.id)
        ∧ (pair u r.pair).copies = (pair s r.pair).copies.map (fun x => if x.seq = r.ref then { x with finished := true } else x)
        ∧ Keeps [] [] s u := by
  have hrun := (arrivesEach_young h getDataReceive).trans (getData_eq h.whole hr hc hdst hunits hplace hpart hu (by omega) hd hp)
  rw [← hd] at hl ⊢
  have hstore := scatter_stored (bs := m.data) ho hl hb
  have ha : PairAside [] [] r.pair (copyFinished r.ref) (dropRequest r.id (scatter [(a, m.data, false)] s))
      (modPair r.pair (copyFinished r.ref) (dropRequest r.id (scatter [(a, m.data, false)] s))) := PairAside.modPair _ _
  have hmem : BesideMem [] [] s (scatter [(a, m.data, false)] s) := hstore.rest.besideMem
  refine completes_kept h.released rfl hrun hmem.inService hmem.pending
    ⟨hstore.bytes, hstore.wrote, ?_, ?_, fun x i h1 h2 => hmem.keeps x i h1 h2⟩
  · exact congrArg (List.filter fun x => x.id ≠ r.id) hmem.requests
  · rw [ha.own]
    exact congrArg (fun ps => ((SMap.get {} ps r.pair : PairS).copies.map
      (fun x => if x.seq = r.ref then { x with finished := true } else x))) hmem.pairs

theorem ack_finishes (m : Packet) (r : Request) (s : State) (h : Arrives m s) (hr : findRequest s m.req = some r) (hk : r.kind = 0) :
    Completes (.ackReceive m) s fun u =>
      u.requests = s.requests.filter (fun x => x.id ≠ r.id)
        ∧ (pair u r.pair).copies = (pair s r.pair).copies.map (fun x => if x.seq = r.ref then { x with finished := true } else x)
        ∧ HubTo [] s { u with pairs := s.pairs } := by
  have hu : arrives m ackReceive s = modPair r.pair (copyFinished r.ref) (dropRequest r.id s) := by
    rw [arrives_whole h]
    simp only [ackReceive, hr, requestAcked, hk]
    rfl
  have ha : PairAside [] [] r.pair (copyFinished r.ref) (dropRequest r.id s) (modPair r.pair (copyFinished r.ref) (dropRequest r.id s)) :=
    PairAside.modPair _ _
  exact completes_kept h.released rfl hu rfl rfl
    ⟨rfl, by rw [ha.own]; rfl, fun x i h1 h2 => ha.regs x i h1 h2, ⟨fun _ => rfl, fun _ => rfl⟩, rfl, rfl⟩

theorem ack_stale (m : Packet) (s : State) (h : Arrives m s) (hr : findRequest s m.req = none) :
    Completes (.ackReceive m) s fun u =>
      fld u F.LINK_COUNTS_stale = satAdd 16 (fld s F.LINK_COUNTS_stale) 1 ∧ fld u F.LINK_EVENTS_stale = 1
        ∧ HubTo [(.LINK_COUNTS, 0), (.LINK_EVENTS, 0)] s u ∧ u.still = s.still := by
  have hu : arrives m ackReceive s = staleMessage s := by
    rw [arrives_whole h]
    simp only [ackReceive, hr]
  have ha : Aside [] [(.LINK_COUNTS, 0), (.LINK_EVENTS, 0)] s (staleMessage s) := (Aside.refl.satAddFld 1 (.inr (by simp))).raise (.inr (by simp))
  refine completes_kept h.released rfl hu ha.inService ha.pending ⟨?_, fld_raise_self (by decide) (by decide) _ _,
    ⟨ha.2, ha.memSame, ha.pairs, rfl⟩, ha.1⟩
  rw [staleMessage, fld_raise_apart (by decide) (by decide), fld_satAddFld_self (by decide)]
  rfl

/-! ## Refusals and timeouts (R170, R173) -/

/-- A copy discarded with its request. -/
def copyDropped (seq : Nat) (x : PairS) : PairS := { x with copies := x.copies.filter (fun c => c.seq ≠ seq) }

/-- A failed request of a copy stops its pair. -/
theorem requestFailed_rejects {r : Request} {c : CopyOp} (hk : r.kind = 0 ∨ r.kind = 1)
    (hc : (pair s r.pair).copies.find? (fun x => x.seq = r.ref) = some c) :
    requestFailed r (dropRequest r.id s) = pairFault r.pair fRemoteReject 0 c.index 0 (modPair r.pair (copyDropped r.ref) (dropRequest r.id s)) := by
  have hc' : (pair (dropRequest r.id s) r.pair).copies.find? (fun x => x.seq = r.ref) = some c := hc
  have hrej : rejectCopy r (dropRequest r.id s)
      = pairFault r.pair fRemoteReject 0 c.index 0 (modPair r.pair (copyDropped r.ref) (dropRequest r.id s)) := by
    simp only [rejectCopy, hc']
    rfl
  rcases hk with hk | hk <;> simp only [requestFailed, hk, hrej]

theorem copy_rejected {i : Instr} {f : State → State} {r : Request} {c : CopyOp} (hs : Released s) (he : exec i s = .next (whenReleased f s))
    (hf : f s = requestFailed r (dropRequest r.id s)) (hk : r.kind = 0 ∨ r.kind = 1)
    (hc : (pair s r.pair).copies.find? (fun x => x.seq = r.ref) = some c) (hst : seqState s r.pair ≠ 6) :
    Completes i s fun u => CopyRejected r c s u := by
  have hrun : seqState (modPair r.pair (copyDropped r.ref) (dropRequest r.id s)) r.pair ≠ sqFaulted := hst
  have hp := pairFault_pairAside (code := fRemoteReject) (cls := 0) (pc := c.index) (sem := 0) hrun
  obtain ⟨hstate, hcode, _, hpc, _⟩ := fld_pairFault (code := fRemoteReject) (cls := 0) (pc := c.index) (sem := 0) hrun (by decide) (by decide)
  have hm : PairAside [] [] r.pair (copyDropped r.ref) (dropRequest r.id s) (modPair r.pair (copyDropped r.ref) (dropRequest r.id s)) :=
    PairAside.modPair _ _
  refine completes_kept hs he (hf.trans (requestFailed_rejects hk hc)) hp.inService hp.pending
    ⟨(congrArg State.requests hp.rest :), hstate, hcode, hpc, ?_, hm.memSame.trans hp.memSame,
      fun q hq => (hp.others q hq).trans (hm.others q hq)⟩
  rw [hp.own, hm.own]
  rfl

theorem refusal_rejects (m : Packet) (r : Request) (c : CopyOp) (s : State) (h : Arrives m s) (haux : m.aux.head? ≠ some 0x20)
    (hr : findRequest s m.req = some r) (hk : r.kind = 0 ∨ r.kind = 1) (hc : (pair s r.pair).copies.find? (fun x => x.seq = r.ref) = some c)
    (hst : seqState s r.pair ≠ 6) : Completes (.refuseReceive m) s fun u => CopyRejected r c s u := by
  refine copy_rejected h.released rfl ?_ hk hc hst
  have hother : nth 0 m.aux 0 ≠ 0x20 := by
    cases hm : m.aux with
    | nil => decide
    | cons x xs => simpa [nth, hm] using haux
  rw [arrives_whole h]
  simp only [refuseArrives, hother, decide_false, Bool.false_and, Bool.false_eq_true, if_false, refuseReceive, hr]

theorem timeout_rejects (r : Request) (c : CopyOp) (s : State) (hs : Released s) (hr : findRequest s r.id = some r) (hk : r.kind = 0 ∨ r.kind = 1)
    (hc : (pair s r.pair).copies.find? (fun x => x.seq = r.ref) = some c) (hst : seqState s r.pair ≠ 6)
    (hlate : r.sent + fld s F.LINK_TIMEOUT_req_us ≤ s.us) : Completes (.requestTimeout r.id) s fun u => CopyRejected r c s u := by
  refine copy_rejected hs rfl ?_ hk hc hst
  have hother : r.kind ≠ 5 := by omega
  simp only [requestExpires, hr, hother, decide_false, Bool.false_and, Bool.false_eq_true, if_false, requestTimeout, hlate, if_true]

/-! ## Records and relayed writes (R332, R335) -/

theorem record_rings (m : Packet) (s : State) (h : Arrives m s) (hq : isQueen s = true) (ht : m.ptype = 6) (h1 : recItem m ≠ 0x0E41)
    (h2 : recItem m ≠ 0x0E42) (hheld : s.heldEvents = []) (hring : ringOpen s = true) :
    Completes (.eventReceive m) s fun u =>
      u.out = .hostWrite (fld s F.HOST_EVQ_BASE_base * 4096 + 32 * fld s F.HOST_EVQ_PTR_tail) (recOf m).bytes :: s.out
        ∧ fld u F.HOST_EVQ_PTR_tail = (fld s F.HOST_EVQ_PTR_tail + 1) % ringSize s % 2 ^ F.HOST_EVQ_PTR_tail.width
        ∧ u.newRecords = true ∧ HubTo [(.HOST_EVQ_PTR, 0)] s u := by
  have hu : arrives m eventReceive s = ringWrite (recOf m) s := by
    rw [arrives_whole h]
    simp [eventReceive, hq, ht, h1, h2, queenTake, hheld, hring]
  have hw : Aside [] [(.HOST_EVQ_PTR, 0)] s
      { emit (.hostWrite (fld s F.HOST_EVQ_BASE_base * 4096 + 32 * fld s F.HOST_EVQ_PTR_tail) (recOf m).bytes) s with newRecords := true } :=
    .of_still rfl rfl
  have ha : Aside [] [(.HOST_EVQ_PTR, 0)] s (ringWrite (recOf m) s) := hw.setFld (f := F.HOST_EVQ_PTR_tail) _ (.inr (by simp))
  refine completes_kept h.released rfl hu ha.inService ha.pending ⟨rfl, ?_, rfl, ha.2, ha.memSame, ha.pairs, rfl⟩
  exact fld_setFld_self (by decide) 0 _ _

theorem relayed_write (m : Packet) (a : Nat) (s : State) (h : Arrives m s) (ht : m.ptype = 0x20) (hdst : m.dst = deviceId s) (hcls : m.cls = 1)
    (haux : m.aux = [1, m.data.length, 1, 0, m.data.length]) (ha : m.addr = a) (hone : inOneMemory a m.data.length = true) (hne : m.data ≠ [])
    (hl : a % 64 + m.data.length ≤ 64) (hb : ∀ b ∈ m.data, b < 256) (ho : offline s a = false) :
    Completes (.hostPacketReceive m) s fun u =>
      bytesAt u a m.data.length = m.data ∧ Wrote a m.data.length s u ∧ u.pairs = s.pairs
        ∧ (NoSample s a → Sent { ptype := 4, dst := m.src, cls := 2, req := m.req } s u ∧ u.log = s.log) := by
  have hstore := memWrite_stored hne ho hl hb
  have hu : arrives m hostPacketReceive s
      = inject { ptype := 4, dst := m.src, cls := 2, req := m.req } (countWrite none a m.data.length (memWrite a m.data false s)) := by
    rw [arrives_whole h]
    simp [hostPacketReceive, ht, hdst, hcls, haux, nth, ha, apertureAt, hone]
  have hans := answered hstore.rest (countWrite_counted a m.data.length _) { ptype := 4, dst := m.src, cls := 2, req := m.req }
  obtain ⟨hbytes, hwrote⟩ := hans.stored hstore
  exact completes_kept h.released rfl hu hans.live hans.queue ⟨hbytes, hwrote, hans.pairs, fun hq => ⟨hans.sent hq, hans.log⟩⟩

/-- Settles O42: one message of each kind, a request's lapse among them. -/
theorem requests : Obligations.Requests :=
  ⟨put_stored, get_answered, getData_stored, ack_finishes, ack_stale, refusal_rejects, timeout_rejects, record_rings, relayed_write⟩

end Sys2Proof.Machine

/-! SUPPORT. The board interfaces (R207, R441, R442): reads and writes over I3C, the TAP's instructions, REGACC. -/

namespace Sys2Proof.Machine

variable {off a v n q : Nat} {s : State}

/-! ## The register space as the board reaches it -/

/-- An aligned read of 8 bytes gives the word and changes nothing (R5, R9). -/
theorem regRead_eight (h : off < 0x2000000) (h8 : off % 8 = 0) (q : Nat) (s : State) : regRead off 8 q s = (regWord s off, s) := by
  rw [regRead, if_neg (Nat.not_le.mpr h), if_neg (by simp [accessOk_eight h8]), if_pos rfl]

theorem regBase_eq : regBase = 0x20000000000 := rfl

theorem regBase_aligned (h8 : off % 8 = 0) : (regBase + off) % 8 = 0 := by
  rw [regBase_eq]
  omega

theorem inRegs_regBase (h : off < 0x2000000) : inRegs (regBase + off) = true := by
  simp only [inRegs, Bool.and_eq_true, decide_eq_true_eq]
  omega

theorem inMemory_regBase (off : Nat) : inMemory (regBase + off) = false := by
  have h : tierOf (regBase + off) = .regs ∨ tierOf (regBase + off) = .unmapped := by
    have hlo : regBase ≤ regBase + off := Nat.le_add_right _ _
    unfold tierOf
    rw [if_neg (Nat.not_lt.mpr (le_trans (by decide) hlo)), if_neg (Nat.not_lt.mpr (le_trans (by decide) hlo)),
      if_neg (Nat.not_lt.mpr (le_trans (by decide) hlo)), if_neg (Nat.not_lt.mpr hlo)]
    split <;> simp
  unfold inMemory
  rcases h with h | h <;> rw [h]

/-- Every address below the combs' end is of memory (R206). -/
theorem inMemory_below (h : a < combBase + 64 * combBytes) : inMemory a = true := by
  unfold inMemory tierOf
  split_ifs <;> rfl

/-! ## I3C (R441) -/

theorem i3cAnswers_of_on (h : OnI3c s) : i3cAnswers s = true := by
  have hs : s.inService = true := h.1
  simp [i3cAnswers, hs, h.2]

theorem i3c_read (off : Nat) (s : State) (h : OnI3c s) (ho : off < 0x2000000) (h8 : off % 8 = 0) :
    Completes (.i3cRead (regBase + off)) s fun u =>
      let bs := 0 :: natLe 8 (regWord s off)
      u = { s with out := .i3cData bs :: s.out, pins := { s.pins with i3cResult := bs } } := by
  refine completes_kept (u := i3cReturn (0 :: natLe 8 (regWord s off)) s) h.1 rfl ?_ rfl rfl rfl
  rw [i3cRead, if_neg (by simp [i3cAnswers_of_on h]), if_neg (by simp [inRegs_regBase ho]), Nat.add_sub_cancel_left,
    regRead_eight ho h8, if_pos (regBase_aligned h8)]

theorem i3c_read_early (a : Nat) (s : State) (hs : Released s) (ht : s.us < s.boot.released + 1000) :
    Completes (.i3cRead a) s fun u =>
      let bs := 3 :: List.replicate 8 0
      u = { s with out := .i3cData bs :: s.out, pins := { s.pins with i3cResult := bs } } := by
  refine completes_kept (u := i3cReturn (3 :: List.replicate 8 0) s) hs rfl ?_ rfl rfl rfl
  rw [i3cRead, if_pos (by simp [i3cAnswers, Nat.not_le.mpr ht])]

/-- The word that a write of the cap's bits alone makes: the cap written, the current limit as it was (R441). -/
theorem getField_mergedWord_cap (v : Nat) (s : State) :
    getField F.PCC_CAP_cap (mergedWord .PCC_CAP 0 (BitVec.ofNat 64 v) (maskW 10 0) s) = v % 2048
      ∧ getField F.PCC_CAP_i_limit (mergedWord .PCC_CAP 0 (BitVec.ofNat 64 v) (maskW 10 0) s) = fld s F.PCC_CAP_i_limit := by
  constructor
  · rw [← bitsOf_low_eleven v, ← show getField F.PCC_CAP_cap (BitVec.ofNat 64 v) = bitsOf v 10 0 from getField_ofNat (by decide) v]
    refine getField_congr fun k _ (h2 : k ≤ 10) => ?_
    rw [mergedWord, BitVec.getLsbD_or, BitVec.getLsbD_and, BitVec.getLsbD_and, BitVec.getLsbD_not, getLsbD_maskW]
    simp [h2, show k < 64 by omega]
  · refine getField_congr fun k (h1 : 32 ≤ k) (h2 : k ≤ 43) => ?_
    rw [mergedWord, BitVec.getLsbD_or, BitVec.getLsbD_and, BitVec.getLsbD_and, BitVec.getLsbD_not, getLsbD_maskW]
    simp [show ¬k ≤ 10 by omega, show k < 64 by omega]

/-- A field written with the value it holds stays as it is, and the write is not ignored. -/
theorem fieldWrite_same {r : Reg} {i : Nat} {w new bits : Word} {f : FieldInfo} (ha : f.acc = .rw)
    (h : getField (fieldAt r f) new = getField (fieldAt r f) w) : fieldWrite r i w new bits q s f = (w, false) := by
  simp [fieldWrite, ha, h]

/-- A write of a cap within its range that gives the current limit the value it holds. -/
theorem fieldsWrite_cap {old new bits : Word} (hcap : getField F.PCC_CAP_cap new = v % 2048)
    (hlim : getField F.PCC_CAP_i_limit new = getField F.PCC_CAP_i_limit old) (h1 : 200 ≤ v % 2048) (h2 : v % 2048 ≤ 1600) :
    getField F.PCC_CAP_cap (fieldsWrite .PCC_CAP 0 old new bits q s).1 = v % 2048
      ∧ getField F.PCC_CAP_i_limit (fieldsWrite .PCC_CAP 0 old new bits q s).1 = getField F.PCC_CAP_i_limit old := by
  have hfits : fieldOk .PCC_CAP 0 0 (getField F.PCC_CAP_cap new) q s = true := by simp [fieldOk, inR, hcap, h1, h2]
  constructor
  · exact (fieldsWrite_field_takes (f := ⟨10, 0, .rw, 1600⟩) (by decide) ⟨.inl ⟨rfl, rfl⟩, hfits⟩).trans hcap
  · have hsame : fieldWrite .PCC_CAP 0 old new bits q s ⟨43, 32, .rw, 2300⟩ = (old, false) := fieldWrite_same rfl hlim
    exact (getField_fieldsWrite (f := ⟨43, 32, .rw, 2300⟩) (by decide)).trans (by rw [hsame]; rfl)

/-- A write of the cap over I3C within its range: the cap changes, the current limit does not, and the loops' status follows. -/
theorem writeReg_cap (h1 : 200 ≤ v % 2048) (h2 : v % 2048 ≤ 1600) :
    ∃ t, writeReg .PCC_CAP 0 (BitVec.ofNat 64 v) (maskW 10 0) rqI3c s = powerStatus t ∧ Aside powerRegs [(.PCC_CAP, 0)] s t
      ∧ fld t F.PCC_CAP_cap = v % 2048 ∧ fld t F.PCC_CAP_i_limit = fld s F.PCC_CAP_i_limit := by
  obtain ⟨hcap, hlim⟩ := getField_mergedWord_cap v s
  obtain ⟨hc, hl⟩ : getField F.PCC_CAP_cap (writtenFields .PCC_CAP 0 (BitVec.ofNat 64 v) (maskW 10 0) rqI3c s).1 = v % 2048
      ∧ getField F.PCC_CAP_i_limit (writtenFields .PCC_CAP 0 (BitVec.ofNat 64 v) (maskW 10 0) rqI3c s).1 = fld s F.PCC_CAP_i_limit :=
    fieldsWrite_cap hcap hlim h1 h2
  have hw := writeReg_taken (r := .PCC_CAP) (i := 0) (v := BitVec.ofNat 64 v) (mask := maskW 10 0) (q := rqI3c) (s := s)
    (wholeRefused_eq_false rfl (by decide)) rfl
  generalize writtenFields .PCC_CAP 0 (BitVec.ofNat 64 v) (maskW 10 0) rqI3c s = x at hc hl hw
  obtain ⟨t, ht⟩ : ∃ t, t = setReg .PCC_CAP 0 x.1 s := ⟨_, rfl⟩
  have hA : Aside powerRegs [(.PCC_CAP, 0)] s t := ht ▸ Aside.refl.setReg _ (.inr (by simp))
  have htc : fld t F.PCC_CAP_cap = v % 2048 := by rw [ht, fld_setReg_self (f := F.PCC_CAP_cap) (by decide), hc]
  have htl : fld t F.PCC_CAP_i_limit = fld s F.PCC_CAP_i_limit := by rw [ht, fld_setReg_self (f := F.PCC_CAP_i_limit) (by decide), hl]
  rw [noteIgnored_eq rfl, ← ht] at hw
  refine ⟨_, hw, Aside.ite (hA.raise (.inl (by simp))) hA, ?_, ?_⟩
  · split
    · rwa [fld_raise_apart (by decide) (by decide)]
    · exact htc
  · split
    · rwa [fld_raise_apart (by decide) (by decide)]
    · exact htl

/-- I3C may change the cap at its address (R441). -/
theorem i3c_write_capAt (hm : i3cMask a = some (.PCC_CAP, maskW 10 0)) (h : OnI3c s) (h1 : 200 ≤ v % 2048) (h2 : v % 2048 ≤ 1600) :
    Completes (.i3cWrite a v) s fun u =>
      fld u F.PCC_CAP_cap = v % 2048 ∧ fld u F.PCC_CAP_i_limit = fld s F.PCC_CAP_i_limit ∧ u.pins.i3cResult = [0] ∧ MemSame s u
        ∧ u.pairs = s.pairs := by
  obtain ⟨t, hw, ht, hcap, hlim⟩ := writeReg_cap (s := s) h1 h2
  have hp := powerStatus_aside t
  generalize powerStatus t = y at hw hp
  have hA := ht.trans (hp.mono (fun _ x => x) (by simp))
  have hu : i3cWrite a v s = i3cReturn [0] y := by
    rw [i3cWrite, if_neg (by simp [i3cAnswers_of_on h]), hm, ← hw]
  refine completes_kept h.1 rfl hu hA.inService hA.pending ⟨?_, ?_, rfl, hA.memSame, hA.pairs⟩
  · exact (hp.fld (f := F.PCC_CAP_cap) (by decide) (by simp)).trans hcap
  · exact (hp.fld (f := F.PCC_CAP_i_limit) (by decide) (by simp)).trans hlim

theorem i3c_write_cap (v : Nat) (s : State) (h : OnI3c s) (h1 : 200 ≤ v % 2048) (h2 : v % 2048 ≤ 1600) :
    Completes (.i3cWrite (regBase + 0x20018) v) s fun u =>
      fld u F.PCC_CAP_cap = v % 2048 ∧ fld u F.PCC_CAP_i_limit = fld s F.PCC_CAP_i_limit ∧ u.pins.i3cResult = [0] ∧ MemSame s u
        ∧ u.pairs = s.pairs :=
  i3c_write_capAt (if_pos rfl) h h1 h2

theorem i3c_write_refused (off v : Nat) (s : State) (h : OnI3c s) (ho : off < 0x2000000) (h8 : off % 8 = 0) (hcap : off ≠ 0x20018)
    (hclk : off ≠ 0x20010) :
    Completes (.i3cWrite (regBase + off) v) s fun u =>
      u.pins.i3cResult = [1] ∧ u.log ≠ s.log ∧ Keeps logRegs [] s u ∧ MemSame s u ∧ u.pairs = s.pairs := by
  have hmask : i3cMask (regBase + off) = none := by rw [i3cMask, if_neg (by omega), if_neg (by omega)]
  obtain ⟨y, hu, hA, hl⟩ : ∃ y, i3cWrite (regBase + off) v s = i3cReturn [1] y ∧ Aside logRegs [] s y ∧ y.log ≠ s.log := by
    rw [i3cWrite, if_neg (by simp [i3cAnswers_of_on h]), hmask]
    dsimp only
    rw [inRegs_regBase ho, if_pos rfl, if_neg (by simp [regBase_aligned h8])]
    exact ⟨_, rfl, logEvent_aside _ s, logEvent_log_ne _ s⟩
  exact completes_kept h.1 rfl hu hA.inService hA.pending ⟨rfl, hl, hA.2, hA.memSame, hA.pairs⟩

theorem i3c_assign (a : Nat) (s : State) (h : OnI3c s) :
    Completes (.i3cAddressAssign a) s fun u => u = { s with pins := { s.pins with i3cAddr := some (a % 128) } } :=
  completes_kept h.1 rfl (if_pos (i3cAnswers_of_on h)) rfl rfl rfl

/-! ## The TAP (R442) -/

theorem tap_reset (s : State) : Completes .tapReset s fun u => u = { s with pins := tap s 1 0 } := ⟨_, rfl, rfl⟩

theorem tap_idcode (s : State) : Completes .idcode s fun u => u = { s with pins := tap s 1 0, out := .tdo 0x04800C6B :: s.out } :=
  ⟨_, rfl, rfl⟩

theorem tap_sample (v : Nat) (s : State) : Completes (.samplePreload v) s fun u =>
    ∃ x, u = { s with pins := { tap s 2 0 with boundary := v }, out := .tdo x :: s.out, freshCount := s.freshCount + 1 } :=
  ⟨_, rfl, _, rfl⟩

theorem tap_boundary (n v : Nat) (s : State) (h : s.boot.resetLow = true ∨ (s.inService = true ∧ fld s F.BOOT_STATUS_state = 3)) :
    (Completes (.extest n v) s fun u =>
      ∃ x, u = { s with pins := { tap s 0 1 with boundary := v }, out := .tdo x :: s.out, freshCount := s.freshCount + 1 })
    ∧ (Completes (.clamp n v) s fun u => u = { s with pins := tap s 4 1, out := .tdo (2 * v % 2 ^ n) :: s.out })
    ∧ Completes (.highz n v) s fun u => u = { s with pins := tap s 5 2, out := .tdo (2 * v % 2 ^ n) :: s.out } := by
  have hb : boundaryAllowed s = true := by
    rcases h with h | ⟨h1, h2⟩
    · simp [boundaryAllowed, h]
    · simp [boundaryAllowed, inRecovery, h1, h2]
  refine ⟨⟨_, rfl, _, if_pos hb⟩, ⟨_, rfl, ?_⟩, _, rfl, ?_⟩
  · rw [clamp, hb]; rfl
  · rw [highz, hb]; rfl

theorem tap_closed (n v : Nat) (s : State) (hr : s.boot.resetLow = false) (hst : fld s F.BOOT_STATUS_state ≠ 3) :
    (Completes (.extest n v) s fun u => u = { s with pins := tap s 0 0, out := .tdo (2 * v % 2 ^ n) :: s.out })
    ∧ (Completes (.clamp n v) s fun u => u = { s with pins := tap s 4 0, out := .tdo (2 * v % 2 ^ n) :: s.out })
    ∧ Completes (.highz n v) s fun u => u = { s with pins := tap s 5 0, out := .tdo (2 * v % 2 ^ n) :: s.out } := by
  have hb : boundaryAllowed s = false := by simp [boundaryAllowed, inRecovery, hr, hst]
  refine ⟨⟨_, rfl, if_neg (by simp [hb])⟩, ⟨_, rfl, ?_⟩, _, rfl, ?_⟩
  · rw [clamp, hb]; rfl
  · rw [highz, hb]; rfl

theorem tap_bypass (n v : Nat) (s : State) :
    Completes (.bypass n v) s fun u => u = { s with pins := tap s 0xFF 0, out := .tdo (2 * v % 2 ^ n) :: s.out } := ⟨_, rfl, rfl⟩

/-! ## REGACC (R207, R442) -/

/-- The part as REGACC is selected. -/
def regaccSelected (s : State) : State := tapSelect 0x20 0 s

theorem regaccOpen_selected (hs : Released s) (hr : s.boot.resetLow = false) : regaccOpen (regaccSelected s) = true := by
  have hi : s.inService = true := hs
  simp [regaccOpen, regaccSelected, tapSelect, modPins, hi, hr]

/-- The word that REGACC captures: data, an address of the register space, no error. -/
theorem regaccResult_eq (hlt : off < 0x2000000) (d : Nat) (t : State) :
    regaccResult (regBase + off) d 0 t
      = emit (.tdo (d % 2 ^ 64 + (regBase + off) * 2 ^ 64)) (modPins (fun x => { x with regacc := d % 2 ^ 64 + (regBase + off) * 2 ^ 64 }) t) := by
  have ha : (regBase + off) % 2 ^ 44 = regBase + off := Nat.mod_eq_of_lt (by rw [regBase_eq]; omega)
  rw [regaccResult, ha, Nat.zero_mul, Nat.add_zero]

/-- The TAP's own state is in no register. -/
theorem regWord_selected (off : Nat) (s : State) : regWord (regaccSelected s) off = regWord s off := by
  have hread : ∀ r i, readReg r i (regaccSelected s) = readReg r i s := fun r i => by
    unfold readReg
    rfl
  unfold regWord
  simp only [hread]
  rfl

/-- REGACC of the part released, with RESET_N high, reaches the register space. -/
theorem regacc_reaches (hs : Released s) (hr : s.boot.resetLow = false) :
    (!regaccOpen (regaccSelected s) || inMemory (regBase + off)) = false := by
  rw [regaccOpen_selected hs hr, inMemory_regBase]
  rfl

theorem regaccRead_register (hs : Released s) (hr : s.boot.resetLow = false) (ho : off < 0x2000000) (h8 : off % 8 = 0) :
    regaccRead (regBase + off) s = regaccResult (regBase + off) (regWord s off) 0 (regaccSelected s) := by
  rw [regaccRead]
  dsimp only
  rw [← regaccSelected, regacc_reaches hs hr, if_neg Bool.false_ne_true, inRegs_regBase ho,
    Bool.not_true, if_neg Bool.false_ne_true, Nat.add_sub_cancel_left, regRead_eight ho h8, if_pos (regBase_aligned h8), regWord_selected]

theorem regacc_read (off : Nat) (s : State) (hs : Released s) (hr : s.boot.resetLow = false) (ho : off < 0x2000000) (h8 : off % 8 = 0) :
    Completes (.regaccRead (regBase + off)) s fun u =>
      let w := regWord s off % 2 ^ 64 + (regBase + off) * 2 ^ 64
      u = { s with pins := { tap s 0x20 0 with regacc := w }, out := .tdo w :: s.out } := by
  refine ⟨_, rfl, ?_⟩
  rw [regaccRead_register hs hr ho h8, regaccResult_eq ho]
  generalize regWord s off % 2 ^ 64 + (regBase + off) * 2 ^ 64 = w
  rfl

/-- A write through JTAG of the part released is a write of the register space (R207). -/
theorem registerWrite_jtag (hs : Released s) : registerWrite off n v rqJtag s = regWrite off n v rqJtag s := by
  have hi : s.inService = true := hs
  rw [registerWrite, if_neg (by simp [hi]), if_neg (by decide), if_neg (by decide), if_pos rfl]

theorem regaccWrite_register (hs : Released s) (hr : s.boot.resetLow = false) (ho : off < 0x2000000) (h8 : off % 8 = 0) :
    regaccWrite (regBase + off) v s
      = regaccResult (regBase + off) 0 0 (whenReleased (registerWrite off 8 v rqJtag) (regaccSelected s)) := by
  have hwrite : whenReleased (registerWrite off 8 v rqJtag) (regaccSelected s) = whenReleased (regWrite off 8 v rqJtag) (regaccSelected s) := by
    rw [whenReleased, whenReleased, registerWrite_jtag (s := regaccSelected s) hs]
  rw [hwrite, regaccWrite, ← regaccSelected, regacc_reaches hs hr, if_neg Bool.false_ne_true, inRegs_regBase ho,
    Bool.not_true, if_neg Bool.false_ne_true, Nat.add_sub_cancel_left, if_pos (regBase_aligned h8)]

theorem regacc_write (off v : Nat) (s : State) (hs : Released s) (hr : s.boot.resetLow = false) (ho : off < 0x2000000) (h8 : off % 8 = 0) :
    Completes (.regaccWrite (regBase + off) v) s fun u =>
      ∃ t, exec (.registerWrite off 8 v 2) { s with pins := tap s 0x20 0 } = .next t ∧ u.regs = t.regs ∧ u.mem = t.mem
        ∧ u.pairs = t.pairs ∧ u.pins.regacc = (regBase + off) * 2 ^ 64 := by
  obtain ⟨t, ht⟩ : ∃ t, whenReleased (registerWrite off 8 v rqJtag) (regaccSelected s) = t := ⟨_, rfl⟩
  have hexec : exec (.registerWrite off 8 v 2) { s with pins := tap s 0x20 0 } = .next t := ht ▸ rfl
  refine ⟨_, rfl, t, hexec, ?_⟩
  rw [regaccWrite_register hs hr ho h8, ht, regaccResult_eq ho, Nat.zero_mod, Nat.zero_add]
  generalize (regBase + off) * 2 ^ 64 = w
  exact ⟨rfl, rfl, rfl, rfl⟩

theorem regacc_memory (a : Nat) (s : State) (ha : a < combBase + 64 * combBytes) :
    Completes (.regaccRead a) s fun u =>
      u.pins.regacc = a * 2 ^ 64 + 3 * 2 ^ 108 ∧ u.still = { s.still with pins := u.pins } ∧ u.regs = s.regs := by
  refine ⟨_, rfl, ?_⟩
  have hu : regaccRead a s = regaccResult a 0 3 (regaccSelected s) := if_pos (by simp [inMemory_below ha])
  have hmod : a % 2 ^ 44 = a := Nat.mod_eq_of_lt (lt_trans ha (by decide))
  rw [hu, regaccResult, hmod, Nat.zero_mod, Nat.zero_add]
  generalize a * 2 ^ 64 + 3 * 2 ^ 108 = w
  exact ⟨rfl, rfl, rfl⟩

/-- Settles O55: each clause is one access of I3C or one instruction of the TAP. -/
theorem board : Obligations.Board :=
  ⟨i3c_read, i3c_read_early, i3c_write_cap, i3c_write_refused, i3c_assign, tap_reset, tap_idcode, tap_sample, tap_boundary, tap_closed,
    tap_bypass, regacc_read, regacc_write, regacc_memory⟩

end Sys2Proof.Machine

/-! SUPPORT. The upkeep of memory (R213–R216, R219–R224, R228): channels, scrubs, fills, start-up training, the poison record. -/

namespace Sys2Proof.Machine

variable {a c h : Nat} {s t u : State}

/-! ## One bit of a number -/

/-- A bit set reads as set. -/
theorem bitAt_setBitN_self (w i : Nat) : bitAt (setBitN w i) i = true := by
  rw [setBitN]
  split
  · assumption
  · rename_i h
    have h0 : w / 2 ^ i % 2 = 0 := by simpa [bitAt] using h
    rw [bitAt, Nat.add_div_right _ (Nat.two_pow_pos i), decide_eq_true_eq]
    omega

/-- A bit cleared reads as clear. -/
theorem bitAt_clearBitN_self (w i : Nat) : bitAt (clearBitN w i) i = false := by
  rw [clearBitN]
  split
  · rename_i h
    have h1 : w / 2 ^ i % 2 = 1 := by simpa [bitAt] using h
    have hle : 2 ^ i * 1 ≤ w := by
      rw [Nat.mul_one]
      exact Nat.le_of_not_lt fun hlt => by simp [Nat.div_eq_of_lt hlt] at h1
    have hdiv : (w - 2 ^ i) / 2 ^ i = w / 2 ^ i - 1 := by simpa using Nat.sub_mul_div w (2 ^ i) 1
    rw [bitAt, hdiv, decide_eq_false_iff_not]
    omega
  · rename_i h
    exact eq_false_of_ne_true h

theorem clearBitN_le (w i : Nat) : clearBitN w i ≤ w := by
  rw [clearBitN]
  split
  · exact Nat.sub_le _ _
  · exact le_rfl

/-- A power of two has the one bit it names. -/
theorem bitAt_two_pow (i : Nat) : bitAt (2 ^ i) i = true := by simp [bitAt]

theorem clearBitN_two_pow (i : Nat) : clearBitN (2 ^ i) i = 0 := by simp [clearBitN, bitAt_two_pow]

/-! ## The channels (R213–R216, R222) -/

theorem failChannel_fails (hb : bitAt (fld s F.MEM_STATUS_chan_failed (c / 8)) (c % 8) = false) :
    Aside logRegs [(.MEM_STATUS, c / 8), (.MEM_EVENTS, c / 8)] s (failChannel c s)
      ∧ bitAt (fld (failChannel c s) F.MEM_STATUS_chan_failed (c / 8)) (c % 8) = true
      ∧ fld (failChannel c s) F.MEM_EVENTS_chan_fail (c / 8) = 1 := by
  rw [failChannel, if_neg (by simp [hb])]
  set w := setBitN (fld s F.MEM_STATUS_chan_failed (c / 8)) (c % 8) with hw
  have hlt : w < 2 ^ F.MEM_STATUS_chan_failed.width := setBitN_lt (fld_lt (by decide) _ _) (Nat.mod_lt _ (by decide))
  obtain ⟨t, ht⟩ : ∃ t, t = raise F.MEM_EVENTS_chan_fail (c / 8) (setFld F.MEM_STATUS_chan_failed (c / 8) w s) := ⟨_, rfl⟩
  have hA : Aside logRegs [(.MEM_STATUS, c / 8), (.MEM_EVENTS, c / 8)] s t :=
    ht ▸ (Aside.refl.setFld _ (.inr (by simp))).raise (.inr (by simp))
  have hfailed : fld t F.MEM_STATUS_chan_failed (c / 8) = w := by
    rw [ht, fld_raise_apart (by decide) (by decide), fld_setFld_fits (by decide) _ hlt]
  have hevent : fld t F.MEM_EVENTS_chan_fail (c / 8) = 1 := by rw [ht, fld_raise_self (by decide) rfl]
  have hE := escalate_aside (c / 8) 0x06 255 t
  dsimp only
  rw [← ht]
  refine ⟨hA.trans (hE.mono (fun _ x => x) (by simp)), ?_, ?_⟩
  · rw [hE.fld (by decide) (by simp), hfailed, hw]
    exact bitAt_setBitN_self _ _
  · rw [hE.fld (by decide) (by simp), hevent]

theorem not_failed_of_runs (hr : chanRuns s c = true) : bitAt (fld s F.MEM_STATUS_chan_failed (c / 8)) (c % 8) = false := by
  simp only [chanRuns, Bool.and_eq_true, Bool.not_eq_true'] at hr
  exact hr.2

theorem channel_lockLoss (c : Chan) (s : State) (hs : Released s) (hr : chanRuns s c = true) :
    Completes (.channelLockLoss c) s fun u =>
      bitAt (fld u F.MEM_STATUS_chan_failed (c.val / 8)) (c.val % 8) = true ∧ fld u F.MEM_EVENTS_chan_fail (c.val / 8) = 1 ∧ MemSame s u
        ∧ u.pairs = s.pairs := by
  obtain ⟨hA, hbit, hevent⟩ := failChannel_fails (not_failed_of_runs hr)
  exact completes_kept hs rfl (if_pos hr) hA.inService hA.pending ⟨hbit, hevent, hA.memSame, hA.pairs⟩

theorem chanS_modChan_self (c : Nat) (f : ChanS → ChanS) (s : State) : chanS (modChan c f s) c = f (chanS s c) := by simp [chanS, modChan]

theorem chanS_modChan_ne {c d : Nat} (f : ChanS → ChanS) (s : State) (h : d ≠ c) : chanS (modChan c f s) d = chanS s d := by
  simp only [chanS, modChan, SMap.get_set_ne h]

theorem channel_tracks (c : Chan) (vals : List Nat) (s : State) (hs : Released s) (hr : chanRuns s c = true) :
    Completes (.eyeTrack c vals) s fun u =>
      chanS u c = { chanS s c with track := vals } ∧ (∀ d, d ≠ c.val → chanS u d = chanS s d) ∧ Keeps [] [] s u
        ∧ u.still = { s.still with chans := u.chans } :=
  completes_kept hs rfl (if_pos hr) rfl rfl
    ⟨chanS_modChan_self c _ s, fun _ hd => chanS_modChan_ne _ s hd, fun _ _ _ _ => rfl, rfl⟩

/-- A read without an error changes nothing. -/
theorem readMeets_none (a q : Nat) (s : State) : readMeets a q .none s = s := rfl

theorem channel_idleRead (c : Chan) (s : State) (hs : Released s) : Completes (.channelIdleRead c .none) s fun u => u = s := by
  refine completes_kept (u := s) hs rfl ?_ rfl rfl rfl
  rw [channelIdleRead, readMeets_none, ite_self]

theorem channel_retrain (c : Chan) (s : State) (hs : Released s) (hr : chanRuns s c = true)
    (h0 : fld s F.MEM_STATUS_chan_retraining (c.val / 8) = 0) (hg : fld s F.MEM_CTRL_retrain_guard (c.val / 8) = 0) :
    Completes (.channelRetrain c) s fun u =>
      fld u F.MEM_STATUS_chan_retraining (c.val / 8) = 2 ^ (c.val % 8) ∧ Keeps [] [(.MEM_STATUS, c.val / 8)] s u ∧ u.still = s.still := by
  have hA : Aside [] [(.MEM_STATUS, c.val / 8)] s (setFld F.MEM_STATUS_chan_retraining (c.val / 8) (2 ^ (c.val % 8)) s) :=
    Aside.refl.setFld _ (.inr (by simp))
  have hlt : 2 ^ (c.val % 8) < 2 ^ F.MEM_STATUS_chan_retraining.width := Nat.pow_lt_pow_right (by decide) (Nat.mod_lt _ (by decide))
  exact completes_kept hs rfl (if_pos (by simp [hr, h0, hg, fldB])) hA.inService hA.pending ⟨fld_setFld_fits (by decide) _ hlt s, hA.2, hA.1⟩

theorem channel_retrained (c : Chan) (eye : Nat) (s : State) (hs : Released s)
    (hr : fld s F.MEM_STATUS_chan_retraining (c.val / 8) = 2 ^ (c.val % 8)) :
    Completes (.channelRetrainDone c eye) s fun u =>
      fld u F.MEM_STATUS_chan_retraining (c.val / 8) = 0 ∧ fld u F.MEM_CHAN_j_eye_width c = eye % 256
        ∧ fld u F.MEM_CHAN_j_retrains c = satAdd 16 (fld s F.MEM_CHAN_j_retrains c) 1
        ∧ Keeps [] [(.MEM_STATUS, c.val / 8), (.MEM_CHAN_j, c.val)] s u ∧ u.still = s.still := by
  have hb : bitAt (fld s F.MEM_STATUS_chan_retraining (c.val / 8)) (c.val % 8) = true := by rw [hr]; exact bitAt_two_pow _
  have hu : channelRetrainDone c eye s
      = setFld F.MEM_CHAN_j_eye_width c eye (satAddFld F.MEM_CHAN_j_retrains c 1 (setFld F.MEM_STATUS_chan_retraining (c.val / 8) 0 s)) := by
    rw [channelRetrainDone, if_pos hb, retrainEnds, if_pos hb, hr, clearBitN_two_pow]
  have hA : Aside [] [(.MEM_STATUS, c.val / 8), (.MEM_CHAN_j, c.val)] s
      (setFld F.MEM_CHAN_j_eye_width c eye (satAddFld F.MEM_CHAN_j_retrains c 1 (setFld F.MEM_STATUS_chan_retraining (c.val / 8) 0 s))) :=
    ((Aside.refl.setFld _ (.inr (by simp))).satAddFld _ (.inr (by simp))).setFld _ (.inr (by simp))
  refine completes_kept hs rfl hu hA.inService hA.pending ⟨?_, ?_, ?_, hA.2, hA.1⟩
  · rw [fld_setFld_apart (by decide) (by decide), fld_satAddFld_apart (by decide) (by decide), fld_setFld_fits (by decide) _ (by decide)]
  · exact fld_setFld_self (by decide) _ _ _
  · rw [fld_setFld_apart (by decide) (by decide), fld_satAddFld_self (by decide), fld_setFld_apart (by decide) (by decide)]
    rfl

theorem channel_temperature (c : Chan) (t0 t1 : Nat) (s : State) (hs : Released s) :
    Completes (.deviceTempRead c t0 t1) s fun u =>
      fld u F.MEM_CHAN_j_temp c = max t0 t1 % 256 ∧ bitAt (fld u F.MEM_STATUS_chan_hot (c.val / 8)) (c.val % 8) = decide (85 < max t0 t1)
        ∧ Keeps [] [(.MEM_STATUS, c.val / 8), (.MEM_CHAN_j, c.val)] s u ∧ u.still = s.still := by
  obtain ⟨w, hw⟩ : ∃ w, w = if max t0 t1 > 85 then setBitN (fld s F.MEM_STATUS_chan_hot (c.val / 8)) (c.val % 8)
    else clearBitN (fld s F.MEM_STATUS_chan_hot (c.val / 8)) (c.val % 8) := ⟨_, rfl⟩
  have hbit : bitAt w (c.val % 8) = decide (85 < max t0 t1) := by
    rw [hw]
    split
    · rw [bitAt_setBitN_self, decide_eq_true ‹_›]
    · rw [bitAt_clearBitN_self, decide_eq_false ‹_›]
  have hlt : w < 2 ^ F.MEM_STATUS_chan_hot.width := by
    have hold : fld s F.MEM_STATUS_chan_hot (c.val / 8) < 2 ^ F.MEM_STATUS_chan_hot.width := fld_lt (by decide) _ _
    rw [hw]
    split
    · exact setBitN_lt hold (Nat.mod_lt _ (by decide))
    · exact lt_of_le_of_lt (clearBitN_le _ _) hold
  have hu : deviceTempRead c t0 t1 s = setFld F.MEM_CHAN_j_temp c (max t0 t1) (setFld F.MEM_STATUS_chan_hot (c.val / 8) w s) := by rw [hw]; rfl
  have hA : Aside [] [(.MEM_STATUS, c.val / 8), (.MEM_CHAN_j, c.val)] s
      (setFld F.MEM_CHAN_j_temp c (max t0 t1) (setFld F.MEM_STATUS_chan_hot (c.val / 8) w s)) :=
    (Aside.refl.setFld _ (.inr (by simp))).setFld _ (.inr (by simp))
  refine completes_kept hs rfl hu hA.inService hA.pending ⟨fld_setFld_self (by decide) _ _ _, ?_, hA.2, hA.1⟩
  rw [fld_setFld_apart (by decide) (by decide), fld_setFld_fits (by decide) _ hlt, hbit]

theorem channel_refresh (c : Chan) (s : State) (hs : Released s) : Completes (.refresh c) s fun u => u = s :=
  completes_kept (u := s) hs rfl rfl rfl rfl rfl

/-! ## Scrubs and fills (R220, R223) -/

theorem scrub_clean (a : Nat) (s : State) (hs : Released s) : Completes (.patrolScrub a .none) s fun u => u = s := by
  refine completes_kept (u := s) hs rfl ?_ rfl rfl rfl
  unfold patrolScrub
  split
  · rw [readMeets_none, ite_self]
  · rfl

theorem channelLost_of_online (hf : FarAt a h) (ho : offline s a = false) : channelLost s a = false := by
  simp only [offline, hf, Bool.or_eq_false_iff] at ho
  simpa [channelLost, hf] using ho.2

theorem scrub_corrected (a h : Nat) (s : State) (hs : Released s) (hf : FarAt a h) (ho : offline s a = false)
    (hen : fld s F.MEM_CTRL_scrub_en h = 1) (hsr : fld s F.MEM_STATUS_self_refresh h = 0)
    (hc : SMap.get false s.filled (granuleOf a) = true) :
    Completes (.patrolScrub a .corrected) s fun u =>
      fld u F.MEM_ECC_FAR_corrected h = satAdd F.MEM_ECC_FAR_corrected.width (fld s F.MEM_ECC_FAR_corrected h) 1 ∧ MemSame s u := by
  have howner : ownerHive a = some h := by simp [ownerHive, hf]
  have hu : patrolScrub a .corrected s = satAddFld F.MEM_ECC_FAR_corrected h 1 (raise F.MEM_EVENTS_far_ce h s) := by
    rw [patrolScrub, howner]
    simp [fldB, hen, hsr, channelLost_of_online hf ho, readMeets, hasCells_far hf, hc, noteCorrected, hf]
  refine completes_kept hs rfl hu rfl rfl ⟨?_, fun _ => rfl, fun _ => rfl⟩
  rw [fld_satAddFld_self (by decide), fld_raise_apart (by decide) (by decide)]

theorem firstUnfilled_first {base n : Nat} (hn : 0 < n) (hb : SMap.get false s.filled base = false) :
    firstUnfilled s base n 0 = some base := by
  cases n with
  | zero => exact absurd hn (lt_irrefl 0)
  | succ n => simp [firstUnfilled, hb]

theorem fill_takes (h : Hive) (j : Nat) (s : State) (hs : Released s) (hj : j < 8) (hsr : fld s F.MEM_STATUS_self_refresh h = 0)
    (hn : fld s F.MEM_STATUS_near_ready h = 1) (hg : SMap.get false s.filled ((8 * h.val + j) * 2 ^ 18) = false) :
    Completes (.backgroundFill h (some j) .none) s fun u =>
      SMap.get false u.filled ((8 * h.val + j) * 2 ^ 18) = true ∧ MemSame s u ∧ u.pairs = s.pairs := by
  have hu : backgroundFill h (some j) .none s = noteFilled h { s with filled := SMap.set false s.filled ((8 * h.val + j) * 2 ^ 18) true } := by
    rw [backgroundFill, if_neg (by simp [fldB, hsr, hn])]
    simp only [Nat.mod_eq_of_lt hj, Option.isSome_some, if_true]
    rw [firstUnfilled_first (by decide) hg]
  refine completes_kept hs rfl hu rfl rfl ⟨?_, ⟨fun _ => rfl, fun _ => rfl⟩, rfl⟩
  show SMap.get false (SMap.set false s.filled _ true) _ = true
  exact SMap.get_set_self

/-! ## Start-up (R224) -/

theorem bringup_begins (s : State) (hs : Released s) (hst : fld s F.BOOT_STATUS_state = 1) (hup : s.memUp = false) :
    Completes .memoryBringup s fun u => u = { s with memTraining := true } := by
  refine completes_kept (u := { s with memTraining := true }) hs rfl ?_ rfl rfl rfl
  rw [memoryBringup]
  split
  · rfl
  · rename_i h
    have ht : s.memTraining = true := by simpa [hst, hup] using h
    rw [← ht]

/-- A hive reset as its start-up training has ended: its trained values saved, its units and memory clear, its failed channels marked. -/
def startReset (failed : Nat) (vals : List (List Nat)) (h : Nat) (s : State) : State :=
  setFld F.MEM_STATUS_chan_failed h (bitsOf failed (8 * h + 7) (8 * h))
    (clearCombs h (clearTiers h false (resetUnits h (saveTrained failed vals (channelsOf h) s))))

/-- Its memory in service. -/
def tiersReady (h : Nat) (s : State) : State := setFld F.MEM_STATUS_near_ready h 1 (setFld F.MEM_STATUS_far_ready h 1 s)

theorem startHive_eq (failed : Nat) (vals : List (List Nat)) (s : State) (h : Nat) :
    startHive failed vals s h =
      if bitsOf failed (8 * h + 7) (8 * h) ≠ 0 then setFld F.RL_HIVE_h_state h hsHeldHw (startReset failed vals h s)
      else if hiveEnabled (tiersReady h (startReset failed vals h s)) h then
        rampStart h (setFld F.RL_HIVE_h_state h hsInService (tiersReady h (startReset failed vals h s)))
      else setFld F.RL_HIVE_h_state h hsDisabled (tiersReady h (startReset failed vals h s)) := rfl

/-- What the start of a hive leaves of the others, and of the part: whether training goes on, and the stop's mask of hives. -/
structure StartKept (s u : State) : Prop where
  training : u.memTraining = s.memTraining
  up : u.memUp = s.memUp
  enables : fld u F.BOOT_STOP_hive_en = fld s F.BOOT_STOP_hive_en

theorem StartKept.trans (a : StartKept s t) (b : StartKept t u) : StartKept s u :=
  ⟨b.training.trans a.training, b.up.trans a.up, b.enables.trans a.enables⟩

theorem StartKept.setFld {f : Fld} (i v : Nat) (hf : f.reg ≠ .BOOT_STOP) (s : State) : StartKept s (setFld f i v s) :=
  ⟨rfl, rfl, fld_setFld_ne _ _ (.inl hf)⟩

theorem rampStart_aside (h : Nat) (s : State) : ∃ x, Aside powerRegs [] { s with power := x } (rampStart h s) :=
  ⟨_, clockStatus_aside (modPower (fun x => { x with ramps := SMap.set none x.ramps h (some (fld s F.PCC_CLOCK_f_floor)) }) s)⟩

theorem rampStart_startKept (h : Nat) (s : State) : StartKept s (rampStart h s) := by
  obtain ⟨x, hA⟩ := rampStart_aside h s
  exact ⟨(congrArg State.memTraining hA.1 :), (congrArg State.memUp hA.1 :), hA.fld (f := F.BOOT_STOP_hive_en) (by decide) (by simp)⟩

theorem saveTrained_chans (failed : Nat) (vals : List (List Nat)) (cs : List Nat) (s : State) :
    ∃ x, saveTrained failed vals cs s = { s with chans := x } := by
  unfold saveTrained
  induction cs generalizing s with
  | nil => exact ⟨s.chans, rfl⟩
  | cons c cs ih =>
    rw [List.foldl_cons]
    split
    · exact ih s
    · obtain ⟨x, hx⟩ := ih (modChan c (fun x => { x with saved := nth [] vals c, track := nth [] vals c }) s)
      exact ⟨x, hx⟩

theorem startReset_startKept (failed : Nat) (vals : List (List Nat)) (h : Nat) (s : State) : StartKept s (startReset failed vals h s) := by
  obtain ⟨x, hx⟩ := saveTrained_chans failed vals (channelsOf h) s
  have hunits : StartKept { s with chans := x } (resetUnits h { s with chans := x }) :=
    ⟨rfl, rfl, by simp only [fld, reg_resetUnits (not_inHiveWindow (r := .BOOT_STOP) (by decide) h 0)]⟩
  rw [startReset, hx]
  have hkept : StartKept s { s with chans := x } := ⟨rfl, rfl, rfl⟩
  generalize resetUnits h { s with chans := x } = t at hunits
  have hclear : StartKept t (clearCombs h (clearTiers h false t)) := ⟨rfl, rfl, rfl⟩
  exact hkept.trans (hunits.trans (hclear.trans (StartKept.setFld (f := F.MEM_STATUS_chan_failed) _ _ (by decide) _)))

theorem tiersReady_startKept (h : Nat) (s : State) : StartKept s (tiersReady h s) :=
  (StartKept.setFld _ _ (by decide) s).trans (StartKept.setFld _ _ (by decide) _)

theorem startHive_startKept (failed : Nat) (vals : List (List Nat)) (s : State) (h : Nat) : StartKept s (startHive failed vals s h) := by
  have hr := startReset_startKept failed vals h s
  have ht := hr.trans (tiersReady_startKept h _)
  rw [startHive_eq]
  split
  · exact hr.trans (StartKept.setFld _ _ (by decide) _)
  · split
    · exact (ht.trans (StartKept.setFld _ _ (by decide) _)).trans (rampStart_startKept h _)
    · exact ht.trans (StartKept.setFld _ _ (by decide) _)

/-- The start of a hive leaves the others as they are. -/
theorem startHive_leavesHive (failed : Nat) (vals : List (List Nat)) {g : Nat} (hg : h ≠ g) (s : State) :
    LeavesHive h s (startHive failed vals s g) := by
  have hset : ∀ {f : Fld} (v : Nat) (t : State), f.reg ≠ .RL_CTRL → LeavesHive h t (setFld f g v t) := fun v t hf =>
    setFld_leavesHive v t (not_ownReg hg hf)
  have hr : LeavesHive h s (startReset failed vals g s) := by
    obtain ⟨x, hx⟩ := saveTrained_chans failed vals (channelsOf g) s
    have hchans : LeavesHive h s { s with chans := x } := ⟨fun _ _ => rfl, rfl, fun _ _ => rfl, fun _ hr => hr, fun _ _ hd => hd, rfl⟩
    have hmem : BesideMem [] [] (resetUnits g { s with chans := x }) (clearCombs g (clearTiers g false (resetUnits g { s with chans := x }))) :=
      .of_mem rfl
    rw [startReset, hx]
    exact ((hchans.trans (resetUnits_leavesHive hg _)).trans (hmem.leavesHive (by simp))).trans (hset _ _ (by decide))
  have ht : LeavesHive h s (tiersReady g (startReset failed vals g s)) := hr.trans ((hset _ _ (by decide)).trans (hset _ _ (by decide)))
  rw [startHive_eq]
  split
  · exact hr.trans (hset _ _ (by decide))
  · split
    · refine (ht.trans (hset (f := F.RL_HIVE_h_state) hsInService _ (by decide))).trans ?_
      obtain ⟨x, hA⟩ := rampStart_aside g (setFld F.RL_HIVE_h_state g hsInService (tiersReady g (startReset failed vals g s)))
      generalize setFld F.RL_HIVE_h_state g hsInService (tiersReady g (startReset failed vals g s)) = t at hA
      have hpower : LeavesHive h t { t with power := x } := ⟨fun _ _ => rfl, rfl, fun _ _ => rfl, fun _ hr => hr, fun _ _ hd => hd, rfl⟩
      exact hpower.trans (hA.besideMem.leavesHive (by simp))
    · exact ht.trans (hset _ _ (by decide))

/-- A hive whose start-up has ended without a failed channel (R224). -/
structure HiveStarted (h : Nat) (en : Bool) (u : State) : Prop where
  near : fld u F.MEM_STATUS_near_ready h = 1
  far : fld u F.MEM_STATUS_far_ready h = 1
  state : hiveState u h = if en then 0 else 7

theorem HiveStarted.left {en : Bool} (a : HiveStarted h en s) (b : LeavesHive h s u) : HiveStarted h en u :=
  ⟨(b.memStatus rfl).trans a.near, (b.memStatus rfl).trans a.far, b.hiveState.trans a.state⟩

theorem tiersReady_ready (h : Nat) (s : State) :
    fld (tiersReady h s) F.MEM_STATUS_near_ready h = 1 ∧ fld (tiersReady h s) F.MEM_STATUS_far_ready h = 1 := by
  constructor
  · rw [tiersReady, fld_setFld_fits (by decide) _ (by decide)]
  · rw [tiersReady, fld_setFld_apart (by decide) (by decide), fld_setFld_fits (by decide) _ (by decide)]

theorem startHive_started {failed : Nat} (vals : List (List Nat)) (hf : bitsOf failed (8 * h + 7) (8 * h) = 0) (s : State) :
    HiveStarted h (bitAt (fld s F.BOOT_STOP_hive_en) h) (startHive failed vals s h) := by
  have hen := ((startReset_startKept failed vals h s).trans (tiersReady_startKept h _)).enables
  obtain ⟨hnear, hfar⟩ := tiersReady_ready h (startReset failed vals h s)
  rw [startHive_eq, if_neg (by simp [hf]), hiveEnabled, hen]
  generalize tiersReady h (startReset failed vals h s) = t at hnear hfar
  split
  · rename_i hb
    rw [hb]
    obtain ⟨x, hA⟩ := rampStart_aside h (setFld F.RL_HIVE_h_state h hsInService t)
    refine ⟨?_, ?_, ?_⟩
    · exact (hA.fld (f := F.MEM_STATUS_near_ready) (by decide) (by simp)).trans ((fld_setFld_apart (by decide) (by decide) _ _ _ _).trans hnear)
    · exact (hA.fld (f := F.MEM_STATUS_far_ready) (by decide) (by simp)).trans ((fld_setFld_apart (by decide) (by decide) _ _ _ _).trans hfar)
    · exact (hA.fld (f := F.RL_HIVE_h_state) (by decide) (by simp)).trans (fld_setFld_fits (f := F.RL_HIVE_h_state) (by decide) _ (by decide) _)
  · rename_i hb
    rw [eq_false_of_ne_true hb]
    exact ⟨(fld_setFld_apart (by decide) (by decide) _ _ _ _).trans hnear, (fld_setFld_apart (by decide) (by decide) _ _ _ _).trans hfar,
      fld_setFld_fits (f := F.RL_HIVE_h_state) (by decide) _ (by decide) _⟩

/-- Hives that start one after another: each as it starts alone. -/
theorem foldl_startHive {failed : Nat} (vals : List (List Nat)) (hf : bitsOf failed (8 * h + 7) (8 * h) = 0) {l : List Nat} (hl : l.Nodup)
    (hm : h ∈ l) (s : State) : HiveStarted h (bitAt (fld s F.BOOT_STOP_hive_en) h) (l.foldl (startHive failed vals) s) := by
  induction l generalizing s with
  | nil => exact absurd hm List.not_mem_nil
  | cons g l ih =>
    obtain ⟨hg, hl⟩ := List.nodup_cons.mp hl
    rw [List.foldl_cons]
    by_cases hgh : h = g
    · subst hgh
      have hothers : LeavesHive h (startHive failed vals s h) (l.foldl (startHive failed vals) (startHive failed vals s h)) :=
        LeavesHive.foldl (fun t x hx => startHive_leavesHive failed vals (fun e : h = x => hg (by rwa [e])) t) _
      exact (startHive_started vals hf s).left hothers
    · have := ih hl ((List.mem_cons.mp hm).resolve_left hgh) (startHive failed vals s g)
      rwa [(startHive_startKept failed vals s g).enables] at this

theorem foldl_startKept (failed : Nat) (vals : List (List Nat)) (l : List Nat) (s : State) :
    StartKept s (l.foldl (startHive failed vals) s) :=
  foldl_invariant (P := StartKept s) (fun t g ht => ht.trans (startHive_startKept failed vals t g)) l ⟨rfl, rfl, rfl⟩

theorem training_ends (h : Hive) (failed : Nat) (vals : List (List Nat)) (s : State) (hs : Released s) (ht : s.memTraining = true)
    (hf : bitsOf failed (8 * h.val + 7) (8 * h.val) = 0) :
    Completes (.memoryTrainDone failed vals) s fun u =>
      u.memTraining = false ∧ u.memUp = true ∧ fld u F.MEM_STATUS_near_ready h = 1 ∧ fld u F.MEM_STATUS_far_ready h = 1
        ∧ hiveState u h = (if bitAt (fld s F.BOOT_STOP_hive_en) h then 0 else 7) := by
  have hk := foldl_startKept failed vals (List.range 4) { s with memTraining := false, memUp := true }
  have hst := foldl_startHive vals hf List.nodup_range (List.mem_range.mpr h.isLt) { s with memTraining := false, memUp := true }
  obtain ⟨v, hv⟩ : ∃ v, (List.range 4).foldl (startHive failed vals) { s with memTraining := false, memUp := true } = v := ⟨_, rfl⟩
  rw [hv] at hk hst
  exact completes_released_to hs rfl ((if_pos ht).trans hv) ⟨hk.training, hk.up, hst.near, hst.far, hst.state⟩

/-! ## The poison record (R228) -/

theorem poisonRec_clears (s : State) (hs : Released s) :
    Completes .poisonRecClear s fun u => reg u .MEM_POISON_REC 0 = 0 ∧ Keeps [] [(.MEM_POISON_REC, 0)] s u ∧ u.still = s.still := by
  have hA : Aside [] [(.MEM_POISON_REC, 0)] s (setReg .MEM_POISON_REC 0 0#64 s) := Aside.refl.setReg _ (.inr (by simp))
  refine completes_kept hs rfl rfl hA.inService hA.pending ⟨?_, hA.2, hA.1⟩
  show reg (setReg .MEM_POISON_REC 0 0#64 s) .MEM_POISON_REC 0 = 0
  rw [reg_setReg_self, BitVec.zero_and]
  rfl

/-- Settles O37: a channel's events, the scrub and the fill, the start-up of memory and the poison record, a lemma for each. -/
theorem memoryUpkeep : Obligations.MemoryUpkeep :=
  ⟨channel_lockLoss, channel_tracks, channel_idleRead, channel_retrain, channel_retrained, channel_temperature, channel_refresh, scrub_clean,
    scrub_corrected, fill_takes, bringup_begins, training_ends, poisonRec_clears⟩

end Sys2Proof.Machine

/-! SUPPORT. The host's endpoint (R206, R330–R333, R336): its resets, BAR0, windows, apertures, the ends of its reads. -/

namespace Sys2Proof.Machine

variable {off size a n : Nat} {x : Tlp} {s t u : State}

/-! ## The endpoint (R330, R333, R336) -/

theorem mem_hostRegs_iff (r : Reg) : hostRegs.any (fun q => q.code = r.code) = true ↔ r ∈ hostRegs := by
  simp only [List.any_eq_true, decide_eq_true_eq]
  exact ⟨fun ⟨q, hq, he⟩ => Reg.code_inj he ▸ hq, fun h => ⟨r, h, rfl⟩⟩

/-- The registers after a function-level reset: the host unit's as after reset, the others as before. -/
theorem reg_flr (r : Reg) (i : Nat) (s : State) : reg (flr s) r i = if r ∈ hostRegs then r.resetValue i else reg s r i := by
  have h : reg (flr s) r i = if hostRegs.any (fun q => q.code = regKey r i % 256) then r.resetValue i else reg s r i :=
    SMap.get_dropKeys (r.resetValue i) s.regs (fun k => hostRegs.any (fun q => q.code = k % 256)) (regKey r i)
  simpa only [(regKey_code r i).1, mem_hostRegs_iff] using h

theorem flr_done (s : State) : FlrDone s.pcieUp s (flr s) :=
  ⟨fun r hr i => (reg_flr r i s).trans (if_pos hr), fun r i hr _ => (reg_flr r i s).trans (if_neg hr), rfl, rfl, rfl, rfl, rfl, rfl, rfl,
    rfl, rfl, rfl, ⟨fun _ => rfl, fun _ => rfl⟩, rfl, rfl, rfl⟩

theorem endpoint_flr (s : State) (hs : Released s) : Completes .flr s fun u => FlrDone s.pcieUp s u :=
  completes_kept hs rfl rfl rfl rfl (flr_done s)

theorem endpoint_linkDown (s : State) (hs : Released s) (hup : s.pcieUp = true) : Completes .pcieLinkDown s fun u => FlrDone false s u := by
  refine completes_kept hs rfl (if_pos hup) rfl rfl ?_
  obtain ⟨hreset, hkeeps, hd3, _, hrest⟩ := flr_done s
  exact ⟨hreset, hkeeps, hd3, rfl, hrest⟩

theorem endpoint_linkUp (s : State) (hs : Released s) (hdown : s.pcieUp = false) (he : hasEndpoint s = true) (hheld : s.heldEvents = []) :
    Completes .pcieLinkUp s fun u => u = { s with pcieUp := true } := by
  refine completes_kept (u := { s with pcieUp := true }) hs rfl ?_ rfl rfl rfl
  rw [pcieLinkUp, if_neg (by simp [hdown, he]), drainHeld]
  simp only [hheld]

theorem endpoint_power (d3 : Bool) (s : State) (hs : Released s) (hup : s.pcieUp = true) :
    Completes (.pciePowerState d3 none) s fun u => u = { s with pcieD3 := d3 } :=
  completes_kept (u := { s with pcieD3 := d3 }) hs rfl (if_neg (by simp [hup])) rfl rfl rfl

theorem endpoint_powerEcrc (d3 gen check : Bool) (s : State) (hs : Released s) (hup : s.pcieUp = true) :
    Completes (.pciePowerState d3 (some (gen, check))) s fun u =>
      u = { s with pcieD3 := d3, host := { s.host with aer := { s.host.aer with ecrcGen := gen, ecrcCheck := check } } } := by
  obtain ⟨v, hv⟩ : ∃ v, v = { s with pcieD3 := d3, host := { s.host with aer := { s.host.aer with ecrcGen := gen, ecrcCheck := check } } } :=
    ⟨_, rfl⟩
  rw [← hv]
  exact completes_kept (u := v) hs rfl ((if_neg (by simp [hup])).trans hv.symm) (by rw [hv]) (by rw [hv]) rfl

/-- The part as vector 1 leaves it beside the message: no new records, a wait begun (R336). -/
def interruptBegun (s : State) : State := { s with newRecords := false, host := { s.host with coalesced := some s.us } }

theorem eventInterrupt_sends (h : HostOpen s) (hnew : s.newRecords = true) (hnone : s.host.coalesced = none) :
    eventInterrupt s = msix 1 (interruptBegun s) := by
  refine if_neg ?_
  simp [hnew, hnone, h.up, h.on]

/-- The message of vector 1 from an endpoint that takes accesses: it waits in the PBA while it is masked. -/
theorem msix_one (hup : s.pcieUp = true) (hon : s.pcieD3 = false) (hrun : fld s F.BOOT_STATUS_state ≠ 3) :
    msix 1 s = if bitAt (msixByte s 28) 0 then { s with host := { s.host with pba := setBitN s.host.pba 1 } }
      else emit (.msix 1 (msixNum s 16 8) (msixNum s 24 4)) s := by
  rw [msix, if_neg (by simp [hup, hon, hrun])]

theorem endpoint_interrupt (s : State) (h : HostOpen s) (hnew : s.newRecords = true) (hnone : s.host.coalesced = none)
    (hm : bitAt (msixByte s 28) 0 = false) :
    Completes .eventInterrupt s fun u =>
      u = { s with
        out := .msix 1 (msixNum s 16 8) (msixNum s 24 4) :: s.out
        newRecords := false
        host := { s.host with coalesced := some s.us } } := by
  have hmask : bitAt (msixByte (interruptBegun s) 28) 0 = false := hm
  refine completes_kept (u := emit (.msix 1 (msixNum s 16 8) (msixNum s 24 4)) (interruptBegun s)) h.released rfl ?_ rfl rfl rfl
  rw [eventInterrupt_sends h hnew hnone, msix_one (s := interruptBegun s) h.up h.on h.running, if_neg (by simp [hmask])]
  rfl

theorem endpoint_interruptMasked (s : State) (h : HostOpen s) (hnew : s.newRecords = true) (hnone : s.host.coalesced = none)
    (hm : bitAt (msixByte s 28) 0 = true) :
    Completes .eventInterrupt s fun u =>
      u = { s with newRecords := false, host := { s.host with coalesced := some s.us, pba := setBitN s.host.pba 1 } } := by
  have hmask : bitAt (msixByte (interruptBegun s) 28) 0 = true := hm
  refine completes_kept (u := { s with newRecords := false, host := { s.host with coalesced := some s.us, pba := setBitN s.host.pba 1 } })
    h.released rfl ?_ rfl rfl rfl
  rw [eventInterrupt_sends h hnew hnone, msix_one (s := interruptBegun s) h.up h.on h.running, if_pos hmask]
  rfl

/-! ## TLPs taken (R330) -/

theorem hostMay_of_open (h : HostOpen s) : HostMay s := ⟨h.released, h.up, h.on⟩

theorem not_standsBy (h : HostOpen s) : standsBy s = false := by
  simp [standsBy, inRecovery, h.queen, h.running]

/-- The part as a sound TLP's access finds it: an EP bit recorded. -/
def tlpNoted (x : Tlp) (s : State) : State :=
  if x.ep then { s with host := { s.host with aer := { s.host.aer with poisoned := true } } } else s

theorem takeTlp_sound (h : SoundTlp x) (f : State → State) (s : State) : takeTlp x f s = f (tlpNoted x s) := by
  unfold takeTlp tlpNoted modHost
  simp only [show x.ecrcBad = false from h, Bool.false_and, Bool.false_eq_true, if_false]

theorem tlpNoted_clean (h : x.ep = false) (s : State) : tlpNoted x s = s := by simp [tlpNoted, h]

theorem tlpNoted_host (x : Tlp) (s : State) : ∃ y, tlpNoted x s = { s with host := y } := by
  unfold tlpNoted
  split
  · exact ⟨_, rfl⟩
  · exact ⟨s.host, rfl⟩

/-- An access by a window, or BAR0, of an open endpoint that carries no poison. -/
theorem hostWindowAccess_clean (h : HostOpen s) (hx : SoundTlp x) (hep : x.ep = false) (n off size : Nat) (write : Bool) (v tag : Nat) :
    hostWindowAccess n off size write v tag x s =
      if x.bar0 then bar0Access off size write v tag s else windowAccess n off size write v tag s := by
  rw [hostWindowAccess, if_neg (by simp [barsOpen_host (hostMay_of_open h)]), takeTlp_sound hx, tlpNoted_clean hep, if_neg (by simp [hep])]

theorem hostApertureAccess_sound (h : HostOpen s) (hx : SoundTlp x) (n off size : Nat) (write : Bool) (bs : List Nat) (tag : Nat) :
    hostApertureAccess n off size write bs tag x s = apertureAccess n off size write bs x.ep tag (tlpNoted x s) := by
  rw [hostApertureAccess, if_pos (barsOpen_host (hostMay_of_open h)), takeTlp_sound hx]

/-! ## BAR0 and windows (R331) -/

/-- An access of the register space by a valid window of this part's. -/
theorem windowAccess_own (h : HostOpen s) {n : Nat} (hv : fldB s F.HOST_WIN_n_valid n = true) (hd : fld s F.HOST_WIN_n_device n = deviceId s)
    (ho : off < 0x2000000) (size : Nat) (write : Bool) (v tag : Nat) :
    windowAccess n off size write v tag s =
      if write then regWrite off size v rqHost s
      else emit (.completion tag (natLe size (regRead off size rqHost s).1) false) (regRead off size rqHost s).2 := by
  have hin : ¬ off ≥ 0x2000000 := Nat.not_le.mpr ho
  rw [windowAccess, if_neg (by simp [(not_standsBy h)])]
  dsimp only
  rw [if_neg (by simp [hv, ho]), if_pos hd]
  cases write with
  | true => rfl
  | false => simp only [hostReply, windowAt, Bool.false_eq_true, if_false, hin, decide_false]

theorem bar0Access_register (ho : off < 0x2000000) (size : Nat) (write : Bool) (v tag : Nat) (s : State) :
    bar0Access off size write v tag s =
      if write then registerWrite off size v rqHost s
      else emit (.completion tag (natLe size (regRead off size rqHost s).1) false) (regRead off size rqHost s).2 := by
  cases write with
  | true => rfl
  | false => simp only [bar0Access, bar0Read, hostReply, Bool.false_eq_true, if_false, if_pos ho]

/-- BAR0 and a window reach the same registers of this part. -/
theorem registers_reached (h : HostOpen s) (hx : SoundTlp x) (hep : x.ep = false) {n : Nat}
    (hw : x.bar0 = true ∨ fldB s F.HOST_WIN_n_valid n = true ∧ fld s F.HOST_WIN_n_device n = deviceId s) (ho : off < 0x2000000)
    (size : Nat) (write : Bool) (v tag : Nat) :
    hostWindowAccess n off size write v tag x s =
      if write then registerWrite off size v 0 s
      else emit (.completion tag (natLe size (regRead off size rqHost s).1) false) (regRead off size rqHost s).2 := by
  rw [hostWindowAccess_clean h hx hep]
  split
  · exact bar0Access_register ho size write v tag s
  · rename_i hb
    obtain ⟨hv, hd⟩ := hw.resolve_left hb
    rw [windowAccess_own h hv hd ho, registerWrite_host (hostMay_of_open h) ho]

theorem window_read (n : Fin 8) (off v tag : Nat) (x : Tlp) (s : State) (h : HostOpen s) (hx : SoundTlp x) (hep : x.ep = false)
    (hw : x.bar0 = true ∨ fldB s F.HOST_WIN_n_valid n = true ∧ fld s F.HOST_WIN_n_device n = deviceId s) (ho : off < 0x2000000)
    (h8 : off % 8 = 0) :
    Completes (.hostWindowAccess n off 8 false v tag x) s fun u =>
      u = { s with out := .completion tag (natLe 8 (regWord s off)) false :: s.out } := by
  refine completes_kept (u := emit (.completion tag (natLe 8 (regWord s off)) false) s) h.released rfl ?_ rfl rfl rfl
  rw [registers_reached h hx hep hw ho, if_neg Bool.false_ne_true, regRead_eight ho h8]

theorem window_write (n : Fin 8) (off v tag : Nat) (x : Tlp) (s : State) (h : HostOpen s) (hx : SoundTlp x) (hep : x.ep = false)
    (hw : x.bar0 = true ∨ fldB s F.HOST_WIN_n_valid n = true ∧ fld s F.HOST_WIN_n_device n = deviceId s) (ho : off < 0x2000000) :
    Completes (.hostWindowAccess n off 8 true v tag x) s fun u => exec (.registerWrite off 8 v 0) s = .next u := by
  have hu : hostWindowAccess n off 8 true v tag x s = registerWrite off 8 v 0 s := by rw [registers_reached h hx hep hw ho, if_pos rfl]
  have hexec : exec (.registerWrite off 8 v 0) s = .next (whenReleased (hostWindowAccess n off 8 true v tag x) s) := by
    rw [whenReleased, hu]
    rfl
  exact ⟨_, rfl, hexec⟩

/-- BAR0 reads the MSI-X table. -/
theorem bar0_readsMsix (n : Fin 8) (off v tag : Nat) (x : Tlp) (s : State) (h : HostOpen s) (hx : SoundTlp x) (hb : x.bar0 = true)
    (hep : x.ep = false) (hlo : 0x2000000 ≤ off) (hhi : off < 0x2000100) (h8 : off % 8 = 0) :
    Completes (.hostWindowAccess n off 8 false v tag x) s fun u =>
      u = { s with out := .completion tag ((List.range 8).map (fun i => msixByte s (off - 0x2000000 + i))) false :: s.out } := by
  refine completes_kept (u := emit (.completion tag ((List.range 8).map (fun i => msixByte s (off - 0x2000000 + i))) false) s) h.released rfl
    ?_ rfl rfl rfl
  have hbytes : ∀ i ∈ List.range 8, bar0Byte s (off + i) = msixByte s (off - 0x2000000 + i) := fun i hi => by
    have hi8 : i < 8 := List.mem_range.mp hi
    rw [bar0Byte, if_pos (by omega), Nat.sub_add_comm hlo]
  rw [hostWindowAccess_clean h hx hep, if_pos hb]
  simp only [bar0Access, bar0Read, if_neg (Nat.not_lt.mpr hlo), accessOk_eight h8, if_true, hostReply, Bool.false_eq_true, if_false,
    List.map_congr_left hbytes]

theorem window_dropsPoisoned (n : Fin 8) (off v tag : Nat) (x : Tlp) (s : State) (h : HostOpen s) (hx : SoundTlp x) (hep : x.ep = true) :
    Completes (.hostWindowAccess n off 8 true v tag x) s fun u =>
      u = { s with host := { s.host with aer := { s.host.aer with poisoned := true } } } := by
  refine completes_kept (u := { s with host := { s.host with aer := { s.host.aer with poisoned := true } } }) h.released rfl ?_ rfl rfl rfl
  rw [hostWindowAccess, if_neg (by simp [barsOpen_host (hostMay_of_open h)]), takeTlp_sound hx, if_pos (by simp [hep]), tlpNoted, if_pos hep]

/-- An entry of the log sends nothing. -/
theorem logEvent_out (f : LogFacts) (s : State) : (logEvent f s).out = s.out := by
  unfold logEvent logNew
  dsimp only
  split_ifs <;> rfl

theorem unmappedAccess_out (a size q : Nat) (write : Bool) (s : State) : (unmappedAccess a size q write s).out = s.out := by
  rw [unmappedAccess, logEvent_out]
  split <;> rfl

theorem unmappedAccess_aside (a size q : Nat) (write : Bool) (s : State) :
    Aside [.MEM_POISON_REC, .RL_LOG_PTR, .RL_EVENTS] [] s (unmappedAccess a size q write s) := by
  have hcount : Aside [.MEM_POISON_REC, .RL_LOG_PTR, .RL_EVENTS] [] s
      (if write then s else satAddFld F.MEM_POISON_REC_offline 0 (sectorsOf a size).length s) :=
    .ite .refl (Aside.refl.satAddFld _ (.inl (by decide)))
  exact hcount.trans ((logEvent_aside _ _).mono (by simp) (by simp))

theorem window_invalid (n : Fin 8) (off v tag : Nat) (x : Tlp) (s : State) (h : HostOpen s) (hx : SoundTlp x) (hb : x.bar0 = false)
    (hv : fldB s F.HOST_WIN_n_valid n = false) :
    Completes (.hostWindowAccess n off 8 false v tag x) s fun u =>
      u.out = .completion tag (List.replicate 8 0) true :: s.out ∧ MemSame s u ∧ u.pairs = s.pairs := by
  obtain ⟨y, hy⟩ := tlpNoted_host x s
  obtain ⟨t, ht⟩ : ∃ t, t = unmappedAccess (regBase + off) 8 rqHost false { s with host := y } := ⟨_, rfl⟩
  have hA : Aside [.MEM_POISON_REC, .RL_LOG_PTR, .RL_EVENTS] [] { s with host := y } t := ht ▸ unmappedAccess_aside _ _ _ _ _
  have hout : t.out = s.out := by rw [ht, unmappedAccess_out]
  have hu : hostWindowAccess n off 8 false v tag x s = emit (.completion tag (List.replicate 8 0) true) t := by
    have hstands : standsBy { s with host := y } = false := (not_standsBy h : standsBy s = false)
    have hvalid : fldB { s with host := y } F.HOST_WIN_n_valid n = false := hv
    rw [hostWindowAccess, if_neg (by simp [barsOpen_host (hostMay_of_open h)]), takeTlp_sound hx, if_neg (by simp), if_neg (by simp [hb]), hy,
      windowAccess, if_neg (by simp [hstands])]
    dsimp only
    rw [if_pos (by simp [hvalid]), hostReply, if_neg Bool.false_ne_true, ← ht]
  exact completes_kept h.released rfl hu hA.inService hA.pending
    ⟨congrArg (Out.completion tag (List.replicate 8 0) true :: ·) hout, hA.memSame, hA.pairs⟩

/-! ## Apertures (R332) -/

/-- An access of one memory by a valid aperture of this part's. -/
theorem apertureAccess_own (h : standsBy s = false) {n : Nat} (hv : fldB s F.HOST_APT_n_valid n = true)
    (hd : fld s F.HOST_APT_n_device n = deviceId s) (ho : off < 2 ^ 32) (ha : a = fld s F.HOST_APT_n_base n * 2 ^ 32 + off)
    (size : Nat) (write : Bool) (bs : List Nat) (bad : Bool) (tag : Nat) :
    apertureAccess n off size write bs bad tag s =
      hostReply tag write (apertureAt a size write bs bad rqHost s).1 (apertureAt a size write bs bad rqHost s).2.1
        (apertureAt a size write bs bad rqHost s).2.2 := by
  have haddr : fld s F.HOST_APT_n_base n * 2 ^ 32 + off % 2 ^ 32 = a := by rw [Nat.mod_eq_of_lt ho, ha]
  rw [apertureAccess, if_neg (by simp [h])]
  dsimp only
  rw [if_neg (by simp [hv]), if_pos hd, haddr]

theorem countRead_elsewhere (h : ∀ q, tierOf a ≠ .comb q) (n : Nat) (s : State) : countRead none a n s = s := by
  unfold countRead
  cases ht : tierOf a with
  | comb q => exact absurd ht (h q)
  | far q | near q | regs | unmapped => rfl

theorem aperture_read (n : Fin 16) (off size tag a : Nat) (x : Tlp) (bs : List Nat) (s : State) (h : HostOpen s) (hx : SoundTlp x)
    (hep : x.ep = false) (hv : fldB s F.HOST_APT_n_valid n = true) (hd : fld s F.HOST_APT_n_device n = deviceId s) (ho : off < 2 ^ 32)
    (ha : a = fld s F.HOST_APT_n_base n * 2 ^ 32 + off) (hone : inOneMemory a size = true) (hp : poisoned s a size = false)
    (hoff : ∀ i < size, offline s (a + i) = false) :
    Completes (.hostApertureAccess n off size false bs tag x) s fun u =>
      ((∀ q, tierOf a ≠ .comb q) → u = { s with out := .completion tag (bytesAt s a size) false :: s.out })
        ∧ (NoSample s a → u.out = .completion tag (bytesAt s a size) false :: s.out) ∧ MemSame s u ∧ u.pairs = s.pairs
        ∧ Keeps eventRegs (reachKeys a) s u := by
  obtain ⟨t, ht⟩ : ∃ t, t = countRead none a size s := ⟨_, rfl⟩
  have hA : Aside eventRegs (reachKeys a) s t := ht ▸ countRead_reach a size s
  have hu : hostApertureAccess n off size false bs tag x s = emit (.completion tag (bytesAt s a size) false) t := by
    rw [hostApertureAccess_sound h hx, tlpNoted_clean hep, apertureAccess_own (not_standsBy h) hv hd ho ha, apertureAt]
    simp only [Bool.false_eq_true, if_false, hone, Bool.not_true, hp, noteOfflineRange_online hoff, readBytes_online hoff, hostReply, ← ht]
  refine completes_kept h.released rfl hu hA.inService hA.pending ⟨fun hq => ?_, fun hq => ?_, hA.memSame, hA.pairs, hA.2⟩
  · rw [ht, countRead_elsewhere hq]
    rfl
  · have hout : t.out = s.out := ht ▸ (congrArg State.out (countRead_regsOnly hq size).1 :)
    exact congrArg (Out.completion tag (bytesAt s a size) false :: ·) hout

theorem writeSector_memOnly {bs : List Nat} {bad : Bool} (ho : offline s a = false) (hd : dirFull s a = false) :
    MemOnly s (writeSector a bs bad s) := by
  rw [writeSector_online ho hd]
  split_ifs
  · exact (MemOnly.sectorPoked a bs s).trans rfl
  · exact (MemOnly.sectorPoked a bs s).trans rfl
  · exact .sectorPoked a bs s

/-- A sector written whether or not its bytes carry poison. -/
theorem writeSector_stored {bs : List Nat} {bad : Bool} (ho : offline s a = false) (hd : dirFull s a = false) (hb : ∀ b ∈ bs, b < 256) :
    Stored a bs s (writeSector a bs bad s) :=
  stored_of_cells hb (writeSector_memOnly ho hd) ((writeSector_mem ho hd).trans (sectorPoked_mem a bs s))

theorem aperture_write (n : Fin 16) (off size tag a : Nat) (x : Tlp) (bs : List Nat) (s : State) (h : HostOpen s) (hx : SoundTlp x)
    (hv : fldB s F.HOST_APT_n_valid n = true) (hd : fld s F.HOST_APT_n_device n = deviceId s) (ho : off < 2 ^ 32)
    (ha : a = fld s F.HOST_APT_n_base n * 2 ^ 32 + off) (hone : inOneMemory a bs.length = true) (hne : bs ≠ []) (hl : a % 64 + bs.length ≤ 64)
    (hb : ∀ b ∈ bs, b < 256) (hoff : offline s a = false) (hfull : dirFull s a = false) :
    Completes (.hostApertureAccess n off size true bs tag x) s fun u =>
      bytesAt u a bs.length = bs ∧ Wrote a bs.length s u
        ∧ marked u (a / 64) = (x.ep || (marked s (a / 64) && decide (bs.length ≠ 64))) ∧ u.pairs = s.pairs
        ∧ Keeps eventRegs (reachKeys a) s u ∧ (NoSample s a → u.out = s.out) := by
  obtain ⟨y, hy⟩ := tlpNoted_host x s
  have hstore : Stored a bs { s with host := y } (writeSector a bs x.ep { s with host := y }) := writeSector_stored hoff hfull hb
  have hmark : marked (writeSector a bs x.ep { s with host := y }) (a / 64) = (x.ep || (marked s (a / 64) && decide (bs.length ≠ 64))) :=
    marked_writeSector_self hoff hfull
  have hu : hostApertureAccess n off size true bs tag x s
      = countWrite none a bs.length (writeSector a bs x.ep { s with host := y }) := by
    have hopen : standsBy { s with host := y } = false := (not_standsBy h : standsBy s = false)
    rw [hostApertureAccess_sound h hx, hy, apertureAccess_own hopen hv hd ho ha, apertureAt]
    simp only [if_true, hone, Bool.not_true, Bool.false_eq_true, if_false, hostReply, memWrite_sector hne hl]
  generalize writeSector a bs x.ep { s with host := y } = t at hstore hmark hu
  have hC := countWrite_reach a bs.length t
  have hB : BesideMem [] [] { s with host := y } t := hstore.rest.besideMem
  refine completes_kept h.released rfl hu (hC.inService.trans hB.inService) (hC.pending.trans hB.pending)
    ⟨?_, fun b hx => ?_, ?_, ?_, ?_, fun hq => ?_⟩
  · exact (bytesAt_congr fun _ _ => hC.memSame.1 _).trans hstore.bytes
  · exact (hC.memSame.1 b).trans (hstore.wrote b hx)
  · exact (hC.memSame.2 _).trans hmark
  · exact hC.pairs.trans hB.pairs
  · exact fun r i hr hk => (hC.2 r i hr hk).trans (hB.keeps r i List.not_mem_nil List.not_mem_nil)
  · have hquiet : NoSample t a := fun q hq' => (hstore.rest.fld _ _).trans (hq q hq')
    exact (congrArg State.out (countWrite_regsOnly hquiet bs.length).1 :).trans (congrArg State.out hstore.rest :)

/-! ## Completions (R332) -/

theorem bit_of_b2n (b : Bool) : decide (b2n b = 1) = b := by cases b <;> rfl

theorem read_completes (m : Packet) (r : Request) (ep : Bool) (k : Nat) (s : State) (h : Arrives m s) (ht : m.ptype = 0x20)
    (haux : m.aux = [3, b2n ep, k]) (hr : findRequest s m.req = some r) (hk : r.kind = 5) :
    Completes (.hostReadCompletion m) s fun u =>
      u = { s with out := .completion r.ref (m.data.take k) ep :: s.out, requests := s.requests.filter (fun x => x.id ≠ r.id) } := by
  refine completes_kept (u := emit (.completion r.ref (m.data.take k) ep) (dropRequest r.id s)) h.released rfl ?_ rfl rfl rfl
  rw [arrives_whole h, hostReadCompletion, if_neg (by simp [ht, haux, nth]), hr]
  simp only [hk, if_true, haux]
  show emit (.completion r.ref (m.data.take k) (decide (b2n ep = 1))) (dropRequest r.id s) = _
  rw [bit_of_b2n]

/-- Settles O44: the endpoint's resets and power states, vector 1, the accesses of BAR0, the windows and the apertures, a read's end. -/
theorem hostAccess : Obligations.HostAccess :=
  ⟨endpoint_flr, endpoint_linkDown, endpoint_linkUp, endpoint_power, endpoint_powerEcrc, endpoint_interrupt, endpoint_interruptMasked,
    window_read, bar0_readsMsix, window_dropsPoisoned, window_write, window_invalid, aperture_read, aperture_write, read_completes⟩

end Sys2Proof.Machine

/-! SUPPORT. Boot (R222, R224, R403–R410): what a mailbox that goes on leaves alone, the checks' ends, boot complete, stops, enables. -/

namespace Sys2Proof.Machine

variable {code h i n : Nat} {s t u : State}

theorem boot_of_aside {rs : List Reg} {ks : List (Reg × Nat)} (h : Aside rs ks s u) : u.boot = s.boot := (congrArg State.boot h.1 :)

/-! ## The mailbox goes on (R337) -/

/-- Registers but those that the sending of a packet writes, and the boot, are as before. -/
structure MailKept (s u : State) : Prop where
  regs : Keeps sendRegs [] s u
  boot : u.boot = s.boot

namespace MailKept

theorem refl : MailKept s s := ⟨.refl, rfl⟩

theorem trans (h1 : MailKept s t) (h2 : MailKept t u) : MailKept s u := ⟨h1.regs.trans h2.regs, h2.boot.trans h1.boot⟩

theorem of_aside (h : Aside sendRegs [] s u) : MailKept s u := ⟨h.2, boot_of_aside h⟩

theorem modHost (f : HostS → HostS) (s : State) : MailKept s (modHost f s) := ⟨fun _ _ _ _ => rfl, rfl⟩

theorem respond (bytes : List Nat) (s : State) : MailKept s (respond bytes s) :=
  (modHost _ s).trans (of_aside ((msix_aside 0 _).mono (by simp) (by simp)))

theorem answer (c : MboxCmd) (status : Nat) (poison : Bool) (data : List Nat) (s : State) : MailKept s (answer c status poison data s) := by
  unfold Machine.answer
  split
  · exact of_aside (inject_aside _ s)
  · split
    · exact refl
    · exact respond _ s

theorem relayCmd (dev : Nat) (c : MboxCmd) (s : State) : MailKept s (relayCmd dev c s) := by
  unfold Machine.relayCmd
  split
  · exact (modHost _ s).trans (of_aside (inject_aside _ _))
  · exact answer c 4 false [] s

theorem mboxRun (n : Nat) (s : State) : MailKept s (mboxRun n s) := by
  induction n generalizing s with
  | zero => exact refl
  | succ n ih =>
    unfold Machine.mboxRun
    split
    · exact refl
    · rename_i c rest _
      split
      · exact refl
      · have ht := modHost (fun x => { x with queue := rest }) s
        dsimp only
        split
        · exact (ht.trans (answer c _ false [] _)).trans (ih _)
        · exact (ht.trans (relayCmd _ c _)).trans (ih _)
        · exact refl

theorem mboxGo (s : State) : MailKept s (mboxGo s) := mboxRun _ s

theorem fld (h : MailKept s u) {f : Fld} (hf : f.reg ∉ sendRegs) (i : Nat) : fld u f i = fld s f i := h.regs.fld hf List.not_mem_nil

theorem hiveState (h : MailKept s u) (i : Nat) : hiveState u i = hiveState s i := h.fld (f := F.RL_HIVE_h_state) (by decide) i

end MailKept

/-! ## A failed check (R224, R410) -/

/-- A field written in the first n places of its register. -/
theorem fld_iter_setFld {f : Fld} (hf : f.ok = true) (v : Nat → Nat) {n j : Nat} (hj : j < n) (s : State) :
    fld (iter n s fun i t => setFld f i (v i) t) f j = v j % 2 ^ f.width := by
  unfold iter
  induction n with
  | zero => omega
  | succ n ih =>
    rw [List.range_succ, List.foldl_append]
    rcases Nat.lt_succ_iff_lt_or_eq.mp hj with hj | rfl
    · exact (fld_setFld_ne _ _ (.inr (by omega))).trans (ih hj)
    · exact fld_setFld_self hf _ _ _

theorem hivesStart_aside (en : Nat) (s : State) : Aside [.RL_HIVE_h] [] s (hivesStart en s) :=
  iter_aside (fun _ _ _ => Aside.refl.setFld _ (.inl (by simp))) s

theorem hiveState_hivesStart (en : Nat) (hh : h < 4) (s : State) : hiveState (hivesStart en s) h = if bitAt en h then 3 else 7 := by
  refine (fld_iter_setFld (f := F.RL_HIVE_h_state) (by decide) (fun h => if bitAt en h then hsReset else hsDisabled) hh s).trans ?_
  split <;> rfl

/-- The part in RECOVERY with a check's code, every hive under RESET. -/
structure RecoveryEntered (code : Nat) (u : State) : Prop where
  state : fld u F.BOOT_STATUS_state = 3
  failCode : fld u F.BOOT_STATUS_fail_code = code
  hives : ∀ h < 4, hiveState u h = 3

theorem RecoveryEntered.mailKept (h : RecoveryEntered code s) (hu : MailKept s u) : RecoveryEntered code u :=
  ⟨(hu.fld (by decide) 0).trans h.state, (hu.fld (by decide) 0).trans h.failCode, fun g hg => (hu.hiveState g).trans (h.hives g hg)⟩

theorem enterRecovery_enters (hc : code < 256) (s : State) : RecoveryEntered code (enterRecovery code s) := by
  obtain ⟨t, ht⟩ : ∃ t, t = setFld F.BOOT_STATUS_fail_code 0 code (hivesStart 0xF s) := ⟨_, rfl⟩
  have hA := noteFault_aside (s := setFld F.BOOT_STATUS_state 0 3 t) s
  have hcode : fld t F.BOOT_STATUS_fail_code = code := by rw [ht, fld_setFld_fits (by decide) _ hc]
  have hhives : ∀ h < 4, hiveState t h = 3 := fun h hh => by
    have hbit : ∀ h < 4, bitAt 0xF h = true := by decide
    have hstart := hiveState_hivesStart 0xF hh s
    rw [if_pos (hbit h hh)] at hstart
    rw [ht]
    exact (fld_setFld_ne _ _ (.inl (by decide))).trans hstart
  have hrun : enterRecovery code s = noteFault s (setFld F.BOOT_STATUS_state 0 3 t) := by rw [ht]; rfl
  rw [hrun]
  refine ⟨?_, ?_, fun h hh => ?_⟩
  · rw [hA.fld (by simp) (by simp), fld_setFld_fits (by decide) _ (by decide)]
  · rw [hA.fld (by simp) (by simp), fld_setFld_apart (by decide) (by decide), hcode]
  · exact (hA.fld (f := F.RL_HIVE_h_state) (by simp) (by simp)).trans ((fld_setFld_ne _ _ (.inl (by decide))).trans (hhives h hh))

/-- A boot's check fails, and the mailbox goes on. -/
theorem recovery_completes {c : Instr} {f : State → State} {P : State → Prop} (hs : Released s)
    (he : exec c s = .next (whenReleased (fun s => mboxGo (f s)) s)) (hf : f s = enterRecovery code t) (hc : code < 256)
    (hP : ∀ u, RecoveryEntered code u → u.boot = (enterRecovery code t).boot → P u) : Completes c s P := by
  obtain ⟨hregs, hboot⟩ := MailKept.mboxGo (enterRecovery code t)
  have hk : MailKept (enterRecovery code t) (keepQueue s.pending (mboxGo (enterRecovery code t))) := ⟨hregs, hboot⟩
  exact completes_released_to hs he (congrArg mboxGo hf) (hP _ ((enterRecovery_enters hc t).mailKept hk) hk.boot)

theorem enterRecovery_aside (code : Nat) (s : State) : Aside [.RL_HIVE_h, .BOOT_STATUS] [] s (enterRecovery code s) := by
  have hA : Aside [.RL_HIVE_h, .BOOT_STATUS] [] s (setFld F.BOOT_STATUS_state 0 3 (setFld F.BOOT_STATUS_fail_code 0 code (hivesStart 0xF s))) :=
    (((hivesStart_aside 0xF s).mono (by simp) (by simp)).setFld _ (.inl (by simp))).setFld _ (.inl (by simp))
  exact hA.trans ((noteFault_aside (s := _) s).mono (by simp) (by simp))

/-! ## The checks in order (R403) -/

/-- The state in which the checks after the flash's identity run. -/
def flashIdentified (ok : Bool) (s : State) : State := modBoot (fun b => { b with identified := ok }) s

/-- The code of the checks before the image's. -/
theorem bootVerify_eq (hs : Released s) (h0 : fld s F.BOOT_STATUS_state = 0) (fuseOk flashId readOk : Bool) :
    bootVerify fuseOk flashId readOk s =
      if (if !fuseOk then 12 else if !flashId then 1 else imageCode (isQueen s) readOk s) ≠ 0 then
        enterRecovery (if !fuseOk then 12 else if !flashId then 1 else imageCode (isQueen s) readOk s) (flashIdentified flashId s)
      else if s.boot.released + 1500000 < s.us then enterRecovery 11 (flashIdentified flashId s)
      else drioreStart (flashIdentified flashId s) := by
  have hin : s.inService = true := hs
  rw [bootVerify, if_neg (by simp [hin, h0])]
  rfl

theorem imageCode_lt (queen readOk : Bool) (s : State) : imageCode queen readOk s < 256 := by
  unfold imageCode
  split_ifs <;> decide

theorem boot_fuses (flashId readOk : Bool) (s : State) (hs : Released s) (h0 : fld s F.BOOT_STATUS_state = 0) :
    Completes (.bootVerify false flashId readOk) s fun u =>
      fld u F.BOOT_STATUS_state = 3 ∧ fld u F.BOOT_STATUS_fail_code = 12 ∧ (∀ h < 4, hiveState u h = 3) :=
  recovery_completes (code := 12) (t := flashIdentified flashId s) hs rfl (by simp [bootVerify_eq hs h0]) (by decide)
    fun _ hu _ => ⟨hu.state, hu.failCode, hu.hives⟩

theorem boot_flash (readOk : Bool) (s : State) (hs : Released s) (h0 : fld s F.BOOT_STATUS_state = 0) :
    Completes (.bootVerify true false readOk) s fun u => fld u F.BOOT_STATUS_state = 3 ∧ fld u F.BOOT_STATUS_fail_code = 1 :=
  recovery_completes (code := 1) (t := flashIdentified false s) hs rfl (by simp [bootVerify_eq hs h0]) (by decide)
    fun _ hu _ => ⟨hu.state, hu.failCode⟩

theorem boot_time (s : State) (hs : Released s) (h0 : fld s F.BOOT_STATUS_state = 0) (ht : s.boot.released + 1500000 ≤ s.us) :
    Completes .bootTimeLimit s fun u =>
      fld u F.BOOT_STATUS_state = 3 ∧ fld u F.BOOT_STATUS_fail_code = 11 ∧ (∀ h < 4, hiveState u h = 3) := by
  have hin : s.inService = true := hs
  have hu : bootTimeLimit s = enterRecovery 11 s := if_pos (by simp [hin, h0, ht])
  exact recovery_completes (code := 11) hs rfl hu (by decide) fun _ hu _ => ⟨hu.state, hu.failCode, hu.hives⟩

/-! ## Driore starts (R224, R403–R405) -/

theorem setHash_aside (f : Fld) (bs : List Nat) (s : State) : Aside [f.reg] [] s (setHash f bs s) :=
  iter_aside (fun _ _ _ => Aside.refl.setFld _ (.inl (by simp))) s

theorem showFuses_aside (s : State) : Aside [] [(.BOOT_FUSE, 0)] s (showFuses s) :=
  ((Aside.refl.setFld _ (.inr (by simp))).setFld _ (.inr (by simp))).setFld _ (.inr (by simp))

/-- The registers a stop writes (R405). -/
abbrev stopRegs : List Reg :=
  [.BREATH_PERIOD, .BREATH_STRETCH, .BREATH_CTRL, .PCC_CTRL, .CTR_USER, .BOOT_STOP, .PCC_CAP, .PCC_CLOCK, .PCC_VOLT, .PCC_HUM]

/-- The writes of a stop's load, the last first. -/
def stopWrites (i : Nat) (r : List Nat) : List (Fld × Nat) :=
  [(F.BOOT_STOP_active, i), (F.BOOT_STOP_rnd_default, bitsOf (nth 0 r 19) 2 0), (F.BOOT_STOP_sr_bits, bitsOf (nth 0 r 19) 5 4),
    (F.PCC_HUM_hum_floor, nth 0 r 17), (F.PCC_HUM_hum_ramp, nth 0 r 18), (F.PCC_VOLT_v_min, nth 0 r 14), (F.PCC_VOLT_v_max, nth 0 r 15),
    (F.PCC_VOLT_v_fixed, nth 0 r 16), (F.PCC_CLOCK_f_max, nth 0 r 12), (F.PCC_CLOCK_f_floor, nth 0 r 13), (F.PCC_CAP_cap, stopNum r 8 2),
    (F.PCC_CAP_i_limit, stopNum r 10 2), (F.CTR_USER_en, bitsOf (nth 0 r 6) 6 6), (F.BOOT_STOP_hive_en, bitsOf (nth 0 r 7) 3 0),
    (F.PCC_CTRL_hum_slice_end, bitsOf (nth 0 r 6) 3 3), (F.PCC_CTRL_hum_mode, bitsOf (nth 0 r 6) 5 4), (F.PCC_CTRL_v_policy, bitsOf (nth 0 r 6) 1 1),
    (F.PCC_CTRL_energy_mode, bitsOf (nth 0 r 6) 2 2), (F.BREATH_STRETCH_stretch_limit, nth 0 r 5),
    (F.BREATH_CTRL_overrun_policy, bitsOf (nth 0 r 6) 0 0),
    (F.BREATH_PERIOD_period, stopNum r 0 4), (F.BREATH_PERIOD_guard_q, nth 0 r 4)]

/-- Fields written, the last of the list first. -/
def setFlds (ws : List (Fld × Nat)) (s : State) : State := ws.foldr (fun w t => setFld w.1 0 w.2 t) s

theorem loadStop_eq (i : Nat) (r : List Nat) (s : State) : loadStop i r s = setFlds (stopWrites i r) s := rfl

/-- Two fields share no bit. -/
abbrev FldsApart (f g : Fld) : Prop := f.reg = g.reg → f.hi < g.lo ∨ g.hi < f.lo

theorem fld_setFlds_apart {ws : List (Fld × Nat)} {g : Fld} (hg : g.ok = true) (h : ∀ w ∈ ws, FldsApart w.1 g) (s : State) :
    fld (setFlds ws s) g = fld s g := by
  induction ws with
  | nil => rfl
  | cons w ws ih => exact (fld_setFld_apart hg (h w (by simp)) 0 0 _ _).trans (ih fun x hx => h x (by simp [hx]))

/-- A field read after a list of writes to fields that share no bit. -/
theorem fld_setFlds_mem {ws : List (Fld × Nat)} {g : Fld} {v : Nat} (hg : g.ok = true) (hp : (ws.map Prod.fst).Pairwise FldsApart)
    (h : (g, v) ∈ ws) (s : State) : fld (setFlds ws s) g = v % 2 ^ g.width := by
  induction ws with
  | nil => exact absurd h List.not_mem_nil
  | cons w ws ih =>
    obtain ⟨hw, hp⟩ := List.pairwise_cons.mp hp
    rcases List.mem_cons.mp h with rfl | h
    · exact fld_setFld_self hg 0 v _
    · exact (fld_setFld_apart hg (hw g (List.mem_map_of_mem h)) 0 0 _ _).trans (ih hp h)

theorem setFlds_aside {ws : List (Fld × Nat)} {rs : List Reg} (h : ∀ w ∈ ws, w.1.reg ∈ rs) (s : State) : Aside rs [] s (setFlds ws s) := by
  induction ws with
  | nil => exact .refl
  | cons w ws ih => exact Aside.setFld _ (ih fun x hx => h x (by simp [hx])) (.inl (h w (by simp)))

/-- The fields that a stop's load writes. -/
abbrev stopWritten : List Fld := (stopWrites 0 []).map Prod.fst

theorem map_fst_stopWrites (i : Nat) (r : List Nat) : (stopWrites i r).map Prod.fst = stopWritten := rfl

theorem mem_stopWritten {w : Fld × Nat} {r : List Nat} (h : w ∈ stopWrites i r) : w.1 ∈ stopWritten :=
  map_fst_stopWrites i r ▸ List.mem_map_of_mem h

theorem fld_loadStop {f : Fld} {v : Nat} {r : List Nat} (hf : f.ok = true) (h : (f, v) ∈ stopWrites i r) (s : State) :
    fld (loadStop i r s) f = v % 2 ^ f.width := by
  have hp : stopWritten.Pairwise FldsApart := by decide
  rw [loadStop_eq]
  exact fld_setFlds_mem hf ((map_fst_stopWrites i r).symm ▸ hp) h s

theorem fld_loadStop_apart {f : Fld} (hf : f.ok = true) (h : ∀ g ∈ stopWritten, FldsApart g f) (i : Nat) (r : List Nat) (s : State) :
    fld (loadStop i r s) f = fld s f := by
  rw [loadStop_eq]
  exact fld_setFlds_apart hf (fun w hw => h w.1 (mem_stopWritten hw)) s

theorem loadStop_aside (i : Nat) (r : List Nat) (s : State) : Aside stopRegs [] s (loadStop i r s) := by
  have hregs : ∀ f ∈ stopWritten, f.reg ∈ stopRegs := by decide
  rw [loadStop_eq]
  exact setFlds_aside (fun w hw => hregs w.1 (mem_stopWritten hw)) s

theorem startRetrain_aside (n : Nat) (named : Bool) (s : State) : Aside [.PORT_STATUS] [] s (startRetrain n named s) := by
  unfold startRetrain
  have hport : Aside [.PORT_STATUS] [] s (modPort n (fun x => { x with hopValid := false, named := named }) s) := .of_still rfl rfl
  split
  · exact hport.setFld _ (.inl (by simp))
  · exact .refl

theorem loadFec_aside (r : List Nat) (switch : Bool) (s : State) : Aside [.PORT_CTRL, .PORT_STATUS] [] s (loadFec r switch s) := by
  refine iter_aside (fun n _ t => ?_) s
  have hmode : Aside [.PORT_CTRL, .PORT_STATUS] [] t
      (if b2n (bitAt (stopNum r 20 2) n) = fld t F.PORT_CTRL_fec n then t else setFld F.PORT_CTRL_fec n (b2n (bitAt (stopNum r 20 2) n)) t) :=
    .ite .refl (Aside.refl.setFld _ (.inl (by simp)))
  exact .ite (hmode.trans ((startRetrain_aside n false _).mono (by simp) (by simp))) hmode

theorem hashes_boot (f g : Fld) (xs ys : List Nat) (s : State) : (setHash f xs (setHash g ys s)).boot = s.boot :=
  (boot_of_aside (setHash_aside f xs _)).trans (boot_of_aside (setHash_aside g ys s))

theorem boot_ite {c : Prop} [Decidable c] {a b : State} (ha : a.boot = t.boot) (hb : b.boot = t.boot) : (if c then a else b).boot = t.boot := by
  split
  · exact ha
  · exact hb

theorem fusesShown_boot (key sv : Nat) (s : State) :
    (showFuses (setFld F.BOOT_FUSE_vendor_key 0 key (setFld F.BOOT_FUSE_image_sv 0 sv s))).boot = s.boot := rfl

theorem loadedStop_boot (i : Nat) (r : List Nat) (switch : Bool) (s : State) : (loadFec r switch (loadStop i r s)).boot = s.boot :=
  (boot_of_aside (loadFec_aside r switch _)).trans (boot_of_aside (loadStop_aside i r s))

/-- Driore's start from the part with its stop, plan and library loaded. -/
def drioreStarted (beat ms : Nat) (s : State) : State :=
  powerStatus (modMp (fun m => { m with beat := beat })
    (setFld F.BOOT_STATUS_time_ms 0 ms (setFld F.BOOT_STATUS_state 0 1 (hivesStart (fld s F.BOOT_STOP_hive_en) s))))

theorem drioreStart_eq (s : State) : ∃ t beat ms, t.boot.identified = s.boot.identified ∧ drioreStart s = drioreStarted beat ms t := by
  unfold drioreStart
  extract_lets i stops plan lib enrol commit version vp measured fused imaged stopped fmax clocked grouped boxed planned loaded hives timed
  have h1 : measured.boot = s.boot := hashes_boot _ _ _ _ s
  clear_value measured
  have h2 : fused.boot = measured.boot := fusesShown_boot _ _ measured
  clear_value fused
  have h3 : imaged.boot.identified = fused.boot.identified := rfl
  clear_value imaged
  have h4 : stopped.boot = imaged.boot := loadedStop_boot _ _ _ imaged
  clear_value stopped
  have h5 : planned.boot = stopped.boot := boot_ite rfl rfl
  clear_value planned
  have h6 : loaded.boot = planned.boot := rfl
  clear_value loaded
  exact ⟨loaded, timed.us, (hives.us - hives.boot.released) / 1000, by rw [h6, h5, h4, h3, h2, h1], rfl⟩

/-- Driore runs: the part in VERIFIED, the hives that the stop enables under RESET. -/
structure DrioreRuns (u : State) : Prop where
  state : fld u F.BOOT_STATUS_state = 1
  hives : ∀ h < 4, hiveState u h = if bitAt (fld u F.BOOT_STOP_hive_en) h then 3 else 7

theorem DrioreRuns.mailKept (h : DrioreRuns s) (hu : MailKept s u) : DrioreRuns u :=
  ⟨(hu.fld (by decide) 0).trans h.state, fun g hg => by
    rw [hu.fld (f := F.BOOT_STOP_hive_en) (by decide) 0]
    exact (hu.hiveState g).trans (h.hives g hg)⟩

theorem drioreStarted_runs (beat ms : Nat) (s : State) :
    DrioreRuns (drioreStarted beat ms s) ∧ (drioreStarted beat ms s).boot = s.boot := by
  have hH := hivesStart_aside (fld s F.BOOT_STOP_hive_en) s
  have hstarts : ∀ h < 4, hiveState (hivesStart (fld s F.BOOT_STOP_hive_en) s) h = if bitAt (fld s F.BOOT_STOP_hive_en) h then 3 else 7 :=
    fun h hh => hiveState_hivesStart _ hh s
  obtain ⟨t, ht⟩ : ∃ t, t = hivesStart (fld s F.BOOT_STOP_hive_en) s := ⟨_, rfl⟩
  have hrun : drioreStarted beat ms s
      = powerStatus (modMp (fun m => { m with beat := beat }) (setFld F.BOOT_STATUS_time_ms 0 ms (setFld F.BOOT_STATUS_state 0 1 t))) := by
    rw [ht]
    rfl
  rw [← ht] at hH hstarts
  have hA := powerStatus_aside (modMp (fun m => { m with beat := beat }) (setFld F.BOOT_STATUS_time_ms 0 ms (setFld F.BOOT_STATUS_state 0 1 t)))
  have hen : fld (drioreStarted beat ms s) F.BOOT_STOP_hive_en = fld s F.BOOT_STOP_hive_en := by
    rw [hrun, hA.fld (by decide) (by simp)]
    exact ((fld_setFld_ne _ _ (.inl (by decide))).trans (fld_setFld_ne _ _ (.inl (by decide)))).trans (hH.fld (by decide) (by simp))
  refine ⟨⟨?_, fun h hh => ?_⟩, ?_⟩
  · rw [hrun, hA.fld (by decide) (by simp)]
    exact (fld_setFld_apart (by decide) (by decide) _ _ _ _).trans (fld_setFld_fits (by decide) _ (by decide) _)
  · rw [hen, ← hstarts h hh, hrun]
    exact (hA.fld (f := F.RL_HIVE_h_state) (by decide) (by simp)).trans
      ((fld_setFld_ne _ _ (.inl (by decide))).trans (fld_setFld_ne _ _ (.inl (by decide))))
  · rw [hrun]
    exact (boot_of_aside hA).trans ((show _ = t.boot from rfl).trans (boot_of_aside hH))

theorem drioreStart_runs (s : State) : DrioreRuns (drioreStart s) ∧ (drioreStart s).boot.identified = s.boot.identified := by
  obtain ⟨t, beat, ms, hid, hrun⟩ := drioreStart_eq s
  obtain ⟨hruns, hboot⟩ := drioreStarted_runs beat ms t
  rw [hrun]
  exact ⟨hruns, hboot ▸ hid⟩

theorem boot_image (readOk : Bool) (s : State) (hs : Released s) (h0 : fld s F.BOOT_STATUS_state = 0) :
    Completes (.bootVerify true true readOk) s fun u =>
      let code := imageCode (isQueen s) readOk s
      let late := decide (s.boot.released + 1500000 < s.us)
      fld u F.BOOT_STATUS_state = (if code ≠ 0 ∨ late = true then 3 else 1)
        ∧ (code ≠ 0 → fld u F.BOOT_STATUS_fail_code = code) ∧ (code = 0 → late = true → fld u F.BOOT_STATUS_fail_code = 11)
        ∧ (code = 0 → late = false → ∀ h < 4, hiveState u h = if bitAt (fld u F.BOOT_STOP_hive_en) h then 3 else 7)
        ∧ u.boot.identified = true := by
  have hrun := bootVerify_eq hs h0 true true readOk
  simp only [Bool.not_true, Bool.false_eq_true, if_false] at hrun
  have hlt := imageCode_lt (isQueen s) readOk s
  generalize imageCode (isQueen s) readOk s = code at hrun hlt
  dsimp only
  by_cases hc : code ≠ 0
  · rw [if_pos hc] at hrun
    refine recovery_completes hs rfl hrun hlt fun u hu hb => ⟨?_, fun _ => hu.failCode, fun h => absurd h hc, fun h => absurd h hc, ?_⟩
    · rw [if_pos (.inl hc), hu.state]
    · rw [hb, boot_of_aside (enterRecovery_aside _ _)]
      rfl
  · rw [if_neg hc] at hrun
    by_cases hl : s.boot.released + 1500000 < s.us
    · rw [if_pos hl] at hrun
      refine recovery_completes hs rfl hrun (by decide)
        fun u hu hb => ⟨?_, fun h => absurd h hc, fun _ _ => hu.failCode, fun _ h => absurd hl (of_decide_eq_false h), ?_⟩
      · rw [if_pos (.inr (decide_eq_true hl)), hu.state]
      · rw [hb, boot_of_aside (enterRecovery_aside _ _)]
        rfl
    · rw [if_neg hl] at hrun
      obtain ⟨hruns, hid⟩ := drioreStart_runs (flashIdentified true s)
      have hk := MailKept.mboxGo (drioreStart (flashIdentified true s))
      have hu := hruns.mailKept hk
      refine completes_released_to hs rfl (congrArg mboxGo hrun)
        ⟨?_, fun h => absurd h hc, fun _ h => absurd (of_decide_eq_true h) hl, fun _ _ => hu.hives, (congrArg BootS.identified hk.boot).trans hid⟩
      rw [if_neg (by simp [hl, hc])]
      exact hu.state

/-! ## Boot complete (R404, R409) -/

/-- The enrolment of the owner that the image asked for: written, and shown by its event. -/
theorem enrolOwner_writes (s : State) :
    (∃ b, Aside [] [(.BOOT_EVENTS, 0)] { s with boot := b } (enrolOwner true s)) ∧ (enrolOwner true s).log = s.log
      ∧ (enrolOwner true s).boot.owner = s.boot.enrol.getD s.boot.owner ∧ (enrolOwner true s).boot.enrol = none
      ∧ (enrolOwner true s).boot.commit = s.boot.commit
      ∧ (s.boot.enrol ≠ none → fld (enrolOwner true s) F.BOOT_EVENTS_owner_enrolled = 1) := by
  unfold enrolOwner
  cases he : s.boot.enrol with
  | none => exact ⟨⟨s.boot, .refl⟩, rfl, rfl, he, rfl, fun h => absurd rfl h⟩
  | some v =>
    refine ⟨⟨{ s.boot with enrol := none, owner := v }, ?_⟩, rfl, rfl, rfl, rfl, fun _ => fld_raise_self (by decide) rfl _ _⟩
    exact Aside.refl.raise (f := F.BOOT_EVENTS_owner_enrolled) (.inr (by simp))

/-- The boot lock set, where it is not. -/
theorem bootCommand_locks (h : fld s F.BOOT_STATUS_boot_lock = 0) :
    Aside [] [(.BOOT_STATUS, 0)] s (bootCommand s) ∧ (bootCommand s).log = s.log ∧ fld (bootCommand s) F.BOOT_STATUS_state = 2
      ∧ fld (bootCommand s) F.BOOT_STATUS_boot_lock = 1 := by
  rw [bootCommand, if_neg (by simp [fldB, h])]
  refine ⟨(Aside.refl.setFld _ (.inr (by simp))).setFld _ (.inr (by simp)), rfl, ?_, ?_⟩
  · rw [fld_setFld_fits (by decide) _ (by decide)]
  · rw [fld_setFld_apart (by decide) (by decide), fld_setFld_fits (by decide) _ (by decide)]

/-- Boot complete, where an enabled hive is in service and no rollback waits to be committed. -/
theorem bootComplete_eq {blown : Nat} (h1 : fld s F.BOOT_STATUS_state = 1) (hd : drioreDown s = false) (hg : fld s F.GROUP_STATUS_state = 3)
    (hh : h < 4) (hen : bitAt (fld s F.BOOT_STOP_hive_en) h = true) (hst : hiveState s h = 0) (hc : s.boot.commit = none) :
    bootComplete true blown s = bootCommand (showFuses (enrolOwner true s)) := by
  have hserves : (enabledHives s).any (fun h => hiveState s h = hsInService) = true :=
    List.any_eq_true.mpr ⟨h, List.mem_filter.mpr ⟨List.mem_range.mpr hh, hen⟩, by simp [hst]⟩
  obtain ⟨_, _, _, _, hcommit, _⟩ := enrolOwner_writes s
  have hnone : commitRollback blown (enrolOwner true s) = enrolOwner true s := by
    unfold commitRollback
    rw [hcommit, hc]
  rw [bootComplete, if_neg (by simp [h1, hd, hg]), if_pos hserves, hnone]

theorem boot_completes (blown h : Nat) (s : State) (hs : Released s) (h1 : fld s F.BOOT_STATUS_state = 1) (hd : drioreDown s = false)
    (hg : fld s F.GROUP_STATUS_state = 3) (hh : h < 4) (hen : bitAt (fld s F.BOOT_STOP_hive_en) h = true) (hst : hiveState s h = 0)
    (hl : fld s F.BOOT_STATUS_boot_lock = 0) (hc : s.boot.commit = none) :
    Completes (.bootComplete true blown) s fun u =>
      fld u F.BOOT_STATUS_state = 2 ∧ fld u F.BOOT_STATUS_boot_lock = 1 ∧ u.boot.owner = s.boot.enrol.getD s.boot.owner
        ∧ u.boot.enrol = none ∧ (s.boot.enrol ≠ none → fld u F.BOOT_EVENTS_owner_enrolled = 1)
        ∧ HubTo [(.BOOT_STATUS, 0), (.BOOT_FUSE, 0), (.BOOT_EVENTS, 0)] s u := by
  have hu := bootComplete_eq (blown := blown) h1 hd hg hh hen hst hc
  obtain ⟨⟨b, hA⟩, hlog, howner, henrol, _, hevent⟩ := enrolOwner_writes s
  generalize enrolOwner true s = t at hu hA hlog howner henrol hevent
  have hF := showFuses_aside t
  have hFlog : (showFuses t).log = t.log := rfl
  have hAF := (hA.mono (ks' := [(.BOOT_STATUS, 0), (.BOOT_FUSE, 0), (.BOOT_EVENTS, 0)]) (rs' := []) (by simp) (by simp)).trans
    (hF.mono (by simp) (by simp))
  generalize showFuses t = v at hu hF hFlog hAF
  have hlock : fld v F.BOOT_STATUS_boot_lock = 0 :=
    (hF.fld (by simp) (by simp)).trans ((hA.fld (f := F.BOOT_STATUS_boot_lock) (i := 0) (by simp) (by simp)).trans hl)
  obtain ⟨hB, hBlog, hstate, hset⟩ := bootCommand_locks hlock
  have hall := hAF.trans (hB.mono (by simp) (by simp))
  have hboot : (bootCommand v).boot = t.boot := (boot_of_aside hB).trans (boot_of_aside hF)
  exact completes_kept hs rfl hu hall.inService hall.pending
    ⟨hstate, hset, (congrArg BootS.owner hboot).trans howner, (congrArg BootS.enrol hboot).trans henrol,
      fun he => ((hB.fld (by simp) (by simp)).trans (hF.fld (by simp) (by simp))).trans (hevent he),
      hall.2, hall.memSame, hall.pairs, hBlog.trans (hFlog.trans hlog)⟩

/-! ## A hive's pairs reset (R21, R407) -/

/-- A register of no pair's window is not of a hive's pairs. -/
theorem reg_resetPairs {r : Reg} (hr : regPlaces.all (fun y => y.reg ≠ r || y.space ≠ .pair) = true) (h i : Nat) (s : State) :
    reg (resetPairs h s) r i = reg s r i := by
  have hnot : regPlaces.any (fun y => y.reg.code = regKey r i % 256 && y.space = .pair && regKey r i / 256 / y.count / 16 = h) = false := by
    rw [List.any_eq_false]
    intro y hy
    rw [(regKey_code r i).1]
    have hp := List.all_eq_true.mp hr y hy
    by_cases hc : y.reg.code = r.code
    · have hreg : y.reg = r := Reg.code_inj hc
      simp_all
    · simp [hc]
  simp only [reg, resetPairs, dropOutstanding, SMap.get_dropKeys, hnot, Bool.false_eq_true, if_false]

theorem pair_resetPairs (h p : Nat) (s : State) : pair (resetPairs h s) p = if p / 16 = h then {} else pair s p := by
  simp only [pair, resetPairs, dropOutstanding, SMap.get_dropKeys, decide_eq_true_eq]

/-! ## A latched enable (R407) -/

/-- The latched change of a hive taken. -/
def enableTaken (h : Nat) (s : State) : State := showPending (modHive h (fun x => { x with enable := none }) s)

theorem fld_showPending {f : Fld} (hf : f.ok = true) (ha : FldsApart F.BOOT_STOP_hive_pending f) (i : Nat) (s : State) :
    fld (showPending s) f i = fld s f i := fld_setFld_apart hf ha 0 i _ s

theorem hiveEnablePending_eq {on : Bool} (he : (hiveS s h).enable = some on) (hserve : hiveServes s h = true) :
    hiveEnablePending h s = enableHive h on (enableTaken h s) := by
  unfold hiveEnablePending
  rw [he]
  exact if_pos hserve

theorem hiveState_enableTaken (h g : Nat) (s : State) : hiveState (enableTaken h s) g = hiveState s g :=
  fld_showPending (f := F.RL_HIVE_h_state) (by decide) (by decide) g _

theorem enable_enableTaken (h : Nat) (s : State) : (hiveS (enableTaken h s) h).enable = none := by
  have hself : hiveS (modHive h (fun x => { x with enable := none }) s) h = { hiveS s h with enable := none } := hiveS_modHive_self h _ s
  exact congrArg HiveS.enable hself

theorem hive_disabled (h : Hive) (s : State) (hs : Released s) (he : (hiveS s h).enable = some false) (hst : hiveState s h = 0) :
    Completes (.hiveEnablePending h) s fun u =>
      hiveState u h = 7 ∧ (hiveS u h).enable = none ∧ (∀ p < 64, p / 16 = h.val → pair u p = {})
        ∧ (∀ p < 64, p / 16 ≠ h.val → pair u p = pair s p) ∧ MemSame s u := by
  have hu : hiveEnablePending h s = clockStatus (setFld F.RL_HIVE_h_state h hsDisabled (resetPairs h (enableTaken h s))) := by
    rw [hiveEnablePending_eq he (by simp [hiveServes, hst]), enableHive]
    simp [hiveState_enableTaken, hst]
  have hpair : ∀ p, pair (resetPairs h (enableTaken h s)) p = if p / 16 = h.val then {} else pair s p := fun p => pair_resetPairs h p _
  have hen : (hiveS (resetPairs h (enableTaken h s)) h).enable = none := enable_enableTaken h s
  have hmem : MemSame s (resetPairs h (enableTaken h s)) := ⟨fun _ => rfl, fun _ => rfl⟩
  generalize resetPairs h (enableTaken h s) = t at hu hpair hen hmem
  obtain ⟨w, hw⟩ : ∃ w, w = setFld F.RL_HIVE_h_state h hsDisabled t := ⟨_, rfl⟩
  have hset : Aside [.RL_HIVE_h] [] t w := hw ▸ Aside.refl.setFld _ (.inl (by simp))
  have hstate : hiveState w h = 7 := by
    rw [hw]
    exact fld_setFld_fits (f := F.RL_HIVE_h_state) (by decide) _ (by decide) _
  have hA := clockStatus_aside w
  rw [← hw] at hu
  generalize clockStatus w = v at hu hA
  have hpairs : ∀ p, pair v p = if p / 16 = h.val then {} else pair s p := fun p => (hA.pair p).trans ((hset.pair p).trans (hpair p))
  refine completes_released_to hs rfl hu
    ⟨(hA.fld (f := F.RL_HIVE_h_state) (by decide) (by simp)).trans hstate, ?_, fun p _ hp => (hpairs p).trans (if_pos hp),
      fun p _ hp => (hpairs p).trans (if_neg hp), hmem.trans (hset.memSame.trans hA.memSame)⟩
  have hh : hiveS v h = hiveS t h := by rw [hiveS, hA.hives, hset.hives]; rfl
  exact (congrArg HiveS.enable hh).trans hen

theorem hive_enabled (h : Hive) (s : State) (hs : Released s) (he : (hiveS s h).enable = some true) (hst : hiveState s h = 7) :
    Completes (.hiveEnablePending h) s fun u =>
      hiveState u h = 0 ∧ (hiveS u h).enable = none ∧ SMap.get none u.power.ramps h = some (fld s F.PCC_CLOCK_f_floor) ∧ MemSame s u := by
  have hu : hiveEnablePending h s = rampStart h (setFld F.RL_HIVE_h_state h hsInService (resetPairs h (enableTaken h s))) := by
    rw [hiveEnablePending_eq he (by simp [hiveServes, hst]), enableHive]
    simp [hiveState_enableTaken, hst]
  have hfloor : fld (resetPairs h (enableTaken h s)) F.PCC_CLOCK_f_floor = fld s F.PCC_CLOCK_f_floor := by
    rw [fld, reg_resetPairs (by decide)]
    exact fld_showPending (f := F.PCC_CLOCK_f_floor) (by decide) (by decide) 0 _
  have hen : (hiveS (resetPairs h (enableTaken h s)) h).enable = none := enable_enableTaken h s
  have hmem : MemSame s (resetPairs h (enableTaken h s)) := ⟨fun _ => rfl, fun _ => rfl⟩
  generalize resetPairs h (enableTaken h s) = t at hu hfloor hen hmem
  obtain ⟨w, hw⟩ : ∃ w, w = setFld F.RL_HIVE_h_state h hsInService t := ⟨_, rfl⟩
  have hset : Aside [.RL_HIVE_h] [] t w := hw ▸ Aside.refl.setFld _ (.inl (by simp))
  have hstate : hiveState w h = 0 := by
    rw [hw]
    exact fld_setFld_fits (f := F.RL_HIVE_h_state) (by decide) _ (by decide) _
  rw [← hw] at hu
  obtain ⟨hkeeps, _, _, _, _, hramp⟩ := rampStart_spec h w
  obtain ⟨x, hA⟩ := rampStart_aside h w
  generalize rampStart h w = v at hu hkeeps hramp hA
  refine completes_released_to hs rfl hu ⟨?_, ?_, ?_, ?_⟩
  · exact (hkeeps.fld (f := F.RL_HIVE_h_state) (by decide) (by simp)).trans hstate
  · have hhives : v.hives = w.hives := (congrArg State.hives hA.1 :)
    have hh : hiveS v h = hiveS t h := by rw [hiveS, hhives, hset.hives]; rfl
    exact (congrArg HiveS.enable hh).trans hen
  · rw [← hfloor, ← hset.fld (f := F.PCC_CLOCK_f_floor) (i := 0) (by simp) (by simp)]
    exact hramp
  · exact hmem.trans (hset.memSame.trans hA.memSame)

/-! ## A switch that falls due (R405–R407) -/

/-- Fields of a stop that what follows its load keeps. -/
abbrev stopFlds : List Fld :=
  [F.BREATH_PERIOD_period, F.PCC_CAP_cap, F.PCC_CLOCK_f_max, F.BOOT_STOP_hive_en, F.BOOT_STOP_pending, F.BOOT_STOP_active]

/-- The loaded stop, the boot's state and memory are kept. -/
structure StopHeld (s u : State) : Prop where
  flds : ∀ f ∈ stopFlds, fld u f = fld s f
  boot : u.boot = s.boot
  mem : u.mem = s.mem
  poison : u.poison = s.poison

namespace StopHeld

theorem refl : StopHeld s s := ⟨fun _ _ => rfl, rfl, rfl, rfl⟩

theorem trans (h1 : StopHeld s t) (h2 : StopHeld t u) : StopHeld s u :=
  ⟨fun f hf => (h2.flds f hf).trans (h1.flds f hf), h2.boot.trans h1.boot, h2.mem.trans h1.mem, h2.poison.trans h1.poison⟩

theorem memSame (h : StopHeld s u) : MemSame s u := ⟨byteAt_congr h.mem, fun x => by simp only [marked, h.poison]⟩

theorem of_aside {rs : List Reg} (h : Aside rs [] s u) (hr : ∀ f ∈ stopFlds, f.reg ∉ rs) : StopHeld s u :=
  ⟨fun f hf => h.fld (hr f hf) List.not_mem_nil, boot_of_aside h, h.mem, h.poison⟩

theorem setFld {g : Fld} (hg : ∀ f ∈ stopFlds, FldsApart g f) (i v : Nat) (s : State) : StopHeld s (setFld g i v s) := by
  have hok : ∀ f ∈ stopFlds, f.ok = true := by decide
  exact ⟨fun f hf => fld_setFld_apart (hok f hf) (hg f hf) _ _ _ _, rfl, rfl, rfl⟩

theorem resetPairs (h : Nat) (s : State) : StopHeld s (resetPairs h s) := by
  have hspace : ∀ f ∈ stopFlds, regPlaces.all (fun y => y.reg ≠ f.reg || y.space ≠ .pair) = true := by decide
  exact ⟨fun f hf => by rw [fld, reg_resetPairs (hspace f hf), ← fld], rfl, rfl, rfl⟩

theorem rampStart (h : Nat) (s : State) : StopHeld s (rampStart h s) := by
  obtain ⟨x, hA⟩ := rampStart_aside h s
  have hpower : StopHeld s { s with power := x } := ⟨fun _ _ => rfl, rfl, rfl, rfl⟩
  exact hpower.trans (of_aside hA (by decide))

theorem enableHive (h : Nat) (on : Bool) (s : State) : StopHeld s (enableHive h on s) := by
  have hstate : ∀ (v : Nat) (t : State), StopHeld t (Machine.setFld F.RL_HIVE_h_state h v t) := fun v t => setFld (by decide) h v t
  have hlatched : StopHeld s (modHive h (fun x => { x with enable := some on }) s) := ⟨fun _ _ => rfl, rfl, rfl, rfl⟩
  unfold Machine.enableHive
  dsimp only
  split
  · exact refl
  · split
    · split
      · exact refl
      · exact ((resetPairs h s).trans (hstate _ _)).trans (of_aside (clockStatus_aside _) (by decide))
    · split
      · split
        · exact ((resetPairs h s).trans (hstate _ _)).trans (rampStart h _)
        · exact refl
      · exact hlatched.trans (setFld (g := F.BOOT_STOP_hive_pending) (by decide) 0 _ _)

end StopHeld

/-- The hives whose enable a switch changes. -/
def switchHives (was now : Nat) (s : State) : State :=
  (List.range 4).foldl (fun t h => if bitAt was h == bitAt now h then t else enableHive h (bitAt now h) t) s

theorem switchHives_held (was now : Nat) (s : State) : StopHeld s (switchHives was now s) :=
  foldl_invariant (P := StopHeld s) (fun t h ht => by
    split
    · exact ht
    · exact ht.trans (.enableHive h _ t)) _ .refl

/-- Stop i loaded, with no switch pending. -/
def switchLoaded (i : Nat) (s : State) : State :=
  loadFec (stopRecord s.boot.stops i) true (loadStop i (stopRecord s.boot.stops i) (setSwitch none s))

theorem applySwitch_eq (i b : Nat) (s : State) :
    applySwitch i b s = sendEvent 0x0D 0x40 255 (i + b % 2 ^ 48 * 65536) (raise F.BOOT_EVENTS_stop_applied 0
      (powerStatus (switchHives (fld s F.BOOT_STOP_hive_en) (fld (switchLoaded i s) F.BOOT_STOP_hive_en) (switchLoaded i s)))) := rfl

/-- Stop i of a record as it reads once loaded, no switch pending. -/
structure StopLoaded (i : Nat) (r : List Nat) (u : State) : Prop where
  noSwitch : u.boot.switch = none
  notPending : fld u F.BOOT_STOP_pending = 0
  active : fld u F.BOOT_STOP_active = i
  period : fld u F.BREATH_PERIOD_period = stopNum r 0 4 % 2 ^ F.BREATH_PERIOD_period.width
  cap : fld u F.PCC_CAP_cap = stopNum r 8 2 % 2048
  fMax : fld u F.PCC_CLOCK_f_max = nth 0 r 12 % 256
  hives : fld u F.BOOT_STOP_hive_en = nth 0 r 7 % 16

theorem StopLoaded.held {r : List Nat} (h : StopLoaded i r s) (hu : StopHeld s u) : StopLoaded i r u where
  noSwitch := (congrArg BootS.switch hu.boot).trans h.noSwitch
  notPending := (hu.flds _ (by simp)).trans h.notPending
  active := (hu.flds _ (by simp)).trans h.active
  period := (hu.flds _ (by simp)).trans h.period
  cap := (hu.flds _ (by simp)).trans h.cap
  fMax := (hu.flds _ (by simp)).trans h.fMax
  hives := (hu.flds _ (by simp)).trans h.hives

theorem setSwitch_none (s : State) : (setSwitch none s).boot.switch = none ∧ fld (setSwitch none s) F.BOOT_STOP_pending = 0 := by
  refine ⟨rfl, ?_⟩
  exact (fld_setFld_apart (by decide) (by decide) _ _ _ _).trans
    ((fld_setFld_apart (by decide) (by decide) _ _ _ _).trans (fld_setFld_fits (f := F.BOOT_STOP_pending) (by decide) _ (by decide) _))

theorem loadStop_loads {r : List Nat} (hi : i < 4) (s : State) : StopLoaded i r (loadStop i r (setSwitch none s)) := by
  obtain ⟨hswitch, hpending⟩ := setSwitch_none s
  generalize setSwitch none s = t at hswitch hpending
  exact {
    noSwitch := (congrArg BootS.switch (boot_of_aside (loadStop_aside i r t))).trans hswitch
    notPending := (fld_loadStop_apart (by decide) (by decide) i r t).trans hpending
    active := (fld_loadStop (v := i) (by decide) (by simp [stopWrites]) t).trans (Nat.mod_eq_of_lt hi)
    period := fld_loadStop (by decide) (by simp [stopWrites]) t
    cap := fld_loadStop (v := stopNum r 8 2) (by decide) (by simp [stopWrites]) t
    fMax := fld_loadStop (v := nth 0 r 12) (by decide) (by simp [stopWrites]) t
    hives := by
      refine (fld_loadStop (v := bitsOf (nth 0 r 7) 3 0) (by decide) (by simp [stopWrites]) t).trans ?_
      simp [bitsOf, Fld.width] }

theorem switchLoaded_loads (hi : i < 4) (s : State) :
    StopLoaded i (stopRecord s.boot.stops i) (switchLoaded i s) ∧ MemSame s (switchLoaded i s) := by
  have hS : Aside [.BOOT_STOP] [] (modBoot (fun b => { b with switch := none }) s) (setSwitch none s) :=
    ((Aside.refl.setFld _ (.inl (by simp))).setFld _ (.inl (by simp))).setFld _ (.inl (by simp))
  have hL := loadStop_aside i (stopRecord s.boot.stops i) (setSwitch none s)
  have hF := loadFec_aside (stopRecord s.boot.stops i) true (loadStop i (stopRecord s.boot.stops i) (setSwitch none s))
  have hmem : MemSame s (modBoot (fun b => { b with switch := none }) s) := ⟨fun _ => rfl, fun _ => rfl⟩
  exact ⟨(loadStop_loads hi s).held (.of_aside hF (by decide)), hmem.trans (hS.memSame.trans (hL.memSame.trans hF.memSame))⟩

/-- The registers that a job's close writes. -/
abbrev jobRegs : List Reg := [F.PCC_JOB_LAST_energy_uj.reg, F.PCC_JOB_last_tag.reg, F.PCC_ENERGY_energy_uj.reg]

theorem energyModeApply_aside (s : State) : ∃ x, Aside jobRegs [] { s with power := x } (energyModeApply s) := by
  unfold energyModeApply
  dsimp only
  split
  · exact ⟨s.power, .refl⟩
  · refine ⟨{ s.power with energyMode := fld s F.PCC_CTRL_energy_mode }, ?_⟩
    exact ((Aside.refl.setFld (f := F.PCC_JOB_last_tag) _ (.inl (by simp))).setFld (f := F.PCC_JOB_LAST_energy_uj) _ (.inl (by simp))).setFld
      (f := F.PCC_ENERGY_energy_uj) _ (.inl (by simp))

theorem energyModeApply_held (s : State) : StopHeld s (energyModeApply s) := by
  obtain ⟨x, hA⟩ := energyModeApply_aside s
  have hpower : StopHeld s { s with power := x } := ⟨fun _ _ => rfl, rfl, rfl, rfl⟩
  exact hpower.trans (.of_aside hA (by decide))

/-- A switch applied: its stop loaded, its event raised. -/
theorem applySwitch_applies (hi : i < 4) (b : Nat) (s : State) :
    StopLoaded i (stopRecord s.boot.stops i) (applySwitch i b s) ∧ fld (applySwitch i b s) F.BOOT_EVENTS_stop_applied = 1
      ∧ MemSame s (applySwitch i b s) := by
  obtain ⟨hload, hmem⟩ := switchLoaded_loads hi s
  rw [applySwitch_eq]
  have hH := switchHives_held (fld s F.BOOT_STOP_hive_en) (fld (switchLoaded i s) F.BOOT_STOP_hive_en) (switchLoaded i s)
  generalize switchHives (fld s F.BOOT_STOP_hive_en) (fld (switchLoaded i s) F.BOOT_STOP_hive_en) (switchLoaded i s) = t at hH
  have hP : StopHeld t (powerStatus t) := .of_aside (powerStatus_aside t) (by decide)
  have hR : StopHeld (powerStatus t) (raise F.BOOT_EVENTS_stop_applied 0 (powerStatus t)) := .setFld (by decide) 0 1 _
  have hone : fld (raise F.BOOT_EVENTS_stop_applied 0 (powerStatus t)) F.BOOT_EVENTS_stop_applied = 1 := fld_raise_self (by decide) rfl _ _
  generalize raise F.BOOT_EVENTS_stop_applied 0 (powerStatus t) = v at hR hone
  have hE := sendEvent_aside 0x0D 0x40 255 (i + b % 2 ^ 48 * 65536) v
  have hall := ((hH.trans hP).trans hR).trans (.of_aside hE (by decide))
  exact ⟨hload.held hall, (hE.fld (by decide) (by simp)).trans hone, hmem.trans hall.memSame⟩

theorem switch_applies (i b : Nat) (s : State) (hs : Released s) (hsw : s.boot.switch = some (i, b)) (hi : i < 4) (hidle : breathState s = 0)
    (hq : ∀ h < 4, hiveQuiesced s h = true) :
    Completes .stopSwitchApply s fun u =>
      u.boot.switch = none ∧ fld u F.BOOT_STOP_pending = 0 ∧ fld u F.BOOT_STOP_active = i ∧ fld u F.BOOT_EVENTS_stop_applied = 1
        ∧ fld u F.BREATH_PERIOD_period = stopNum (stopRec s i) 0 4 % 2 ^ F.BREATH_PERIOD_period.width
        ∧ fld u F.PCC_CAP_cap = stopNum (stopRec s i) 8 2 % 2048 ∧ fld u F.PCC_CLOCK_f_max = nth 0 (stopRec s i) 12 % 256
        ∧ fld u F.BOOT_STOP_hive_en = nth 0 (stopRec s i) 7 % 16 ∧ MemSame s u := by
  obtain ⟨t, ht⟩ : ∃ t, t = modPower (fun x => { x with modeDue := none }) s := ⟨_, rfl⟩
  have hu : stopSwitchApply s = energyModeApply (applySwitch i (schedBreath s) t) := by
    unfold stopSwitchApply
    rw [hsw, ht]
    exact (if_pos hidle).trans (if_pos (List.all_eq_true.mpr fun h hh => hq h (List.mem_range.mp hh)))
  have hmem : MemSame s t := ht ▸ ⟨fun _ => rfl, fun _ => rfl⟩
  have hrec : stopRecord t.boot.stops i = stopRec s i := ht ▸ rfl
  obtain ⟨hload, hevent, hsame⟩ := applySwitch_applies hi (schedBreath s) t
  rw [hrec] at hload
  generalize applySwitch i (schedBreath s) t = v at hu hload hevent hsame
  have hheld := energyModeApply_held v
  obtain ⟨x, hA⟩ := energyModeApply_aside v
  have hone : fld (energyModeApply v) F.BOOT_EVENTS_stop_applied = 1 :=
    (hA.fld (f := F.BOOT_EVENTS_stop_applied) (i := 0) (by decide) (by simp)).trans hevent
  generalize energyModeApply v = w at hu hheld hone
  have hend := hload.held hheld
  exact completes_released_to hs rfl hu ⟨hend.noSwitch, hend.notPending, hend.active, hone, hend.period, hend.cap, hend.fMax, hend.hives,
    hmem.trans (hsame.trans hheld.memSame)⟩

/-- Settles O52: the checks' ends in their order, boot complete, a switch that falls due, a latched enable taken. -/
theorem boot : Obligations.Boot :=
  ⟨boot_fuses, boot_flash, boot_image, boot_time, boot_completes, switch_applies, hive_disabled, hive_enabled⟩

end Sys2Proof.Machine
